-- ==== Sys2Proof/Word.lean ====
section
/-! DEFINITION. Word.lean: the word types of the block and the byte order of R6. -/

namespace Sys2Proof

/-- A byte. -/
abbrev Byte := BitVec 8
/-- A 32-bit register or field (R5). -/
abbrev Word := BitVec 32
/-- A 64-bit field. -/
abbrev DWord := BitVec 64

end Sys2Proof
end

