-- ==== Sys2Proof/Wire.lean ====
section
/-! DEFINITION. Wire.lean: what arrives over the fabric, as operands of the commands that receive it. -/

namespace Sys2Proof

/-- A DATA flit without its link fields (Table 11-1). -/
structure Flit where
  cls : Nat
  first : Bool
  last : Bool
  path : Nat
  dest : Nat
  src : Nat
  seq : Nat
  kind : Nat
  hops : Nat
  body : List Byte
deriving DecidableEq, Repr

/-- The link fields that every flit carries: ACK, and a credit of one class (Table 11-1). -/
structure LinkInfo where
  ack : Nat
  cls : Nat
  credit : Nat
deriving DecidableEq, Repr

/-- A HELLO (Table 11-5). -/
structure Hello where
  device : Nat
  grid : Nat
  fabric : Nat
  port : Nat
  lanes : Nat
  merState : Nat
  eligible : Bool
  departing : Bool
deriving DecidableEq, Repr

/-- A message as its destination receives it (Table 12-1); LENGTH is the payload's. -/
structure Msg where
  src : Nat
  cls : Nat
  conn : Nat
  epoch : Nat
  mseq : Nat
  window : Nat
  tag : Nat
  arg : Nat
  digest : Nat
  payload : List Byte
deriving DecidableEq, Repr

/-- What a room-call serves: a part of a lookup, an update of a row at a wing, or nothing that reports. -/
inductive Work where
  | lookup (list part : Nat)
  | update (wing row : Nat) (primary : Bool)
deriving DecidableEq, Repr

end Sys2Proof
end

