-- ==== Sys2Proof/Syntax.lean ====
section
/-! DEFINITION. Syntax.lean: the commands of the block, one constructor per row of the table of operations and events.
The table gives no bits: a command is its name and its operands (log entry 1). -/

namespace Sys2Proof

/-- The commands of the module, one constructor per row of the table of operations and events. -/
inductive Instr where
  /-- REGISTER_WRITE: A BAR0 write to a register that has no row of its own stores, sets or clears bits according to its access code. (R10) -/
  | registerWrite (addr : BitVec 25) (wide : Bool) (v : BitVec 64)
  /-- MER_COUNT_LO_READ: A read of MER_COUNT_LO returns the low count and latches the upper 32 bits into MER_COUNT_HI. (R63) -/
  | merCountLoRead
  /-- MER_FRAME_START_LO_READ: A read of MER_FRAME_START_LO latches the high half of the frame-start count. (R63) -/
  | merFrameStartLoRead
  /-- WG_ROWS_LO_READ: A read of WG_ROWS_LO latches WG_ROWS_HI. (R63) -/
  | wgRowsLoRead (st : Fin 16)
  /-- WG_BATCH_STEP_LO_READ: A read of WG_BATCH_STEP_LO latches the high half of the batch step. (R63) -/
  | wgBatchStepLoRead (st : Fin 16)
  /-- MX_FEED_LO_READ: A read of MX_FEED_LO latches MX_FEED_HI. (R63) -/
  | mxFeedLoRead (a : Fin 64)
  /-- MX_ATTIC_HITS_LO_READ: A read of MX_ATTIC_HITS_LO latches its high half. (R63) -/
  | mxAtticHitsLoRead
  /-- VE_BUSY_LO_READ: A read of VE_BUSY_LO latches VE_BUSY_HI. (R63) -/
  | veBusyLoRead (a : Fin 64)
  /-- UP_CONTRIB_LO_READ: A read of UP_CONTRIB_LO latches UP_CONTRIB_HI. (R63) -/
  | upContribLoRead (st : Fin 16)
  /-- UP_CLOSE_LO_READ: A read of UP_CLOSE_LO latches the high half of the last close count. (R63) -/
  | upCloseLoRead
  /-- FB_FEC_CORR_LO_READ: A read of FB_FEC_CORR_LO latches its high half. (R63) -/
  | fbFecCorrLoRead (p : Fin 64)
  /-- FB_TX_FLITS_LO_READ: A read of FB_TX_FLITS_LO latches its high half. (R63) -/
  | fbTxFlitsLoRead (p : Fin 64)
  /-- FB_RX_FLITS_LO_READ: A read of FB_RX_FLITS_LO latches its high half. (R63) -/
  | fbRxFlitsLoRead (p : Fin 64)
  /-- HC_LB_ACCEPTED_LO_READ: A read of HC_LB_ACCEPTED_LO latches its high half. (R63) -/
  | hcLbAcceptedLoRead
  /-- XL_HITS_LO_READ: A read of XL_HITS_LO latches XL_HITS_HI. (R63) -/
  | xlHitsLoRead
  /-- CF_COMMANDS_LO_READ: A read of CF_COMMANDS_LO latches CF_COMMANDS_HI. (R63) -/
  | cfCommandsLoRead
  /-- CF_CAP_COUNT_LO_READ: A read of CF_CAP_COUNT_LO latches its high half. (R63) -/
  | cfCapCountLoRead
  /-- SC_GRP_ENGINE_LO_READ: A read of SC_GRP_ENGINE_LO latches its high half. (R63) -/
  | scGrpEngineLoRead
  /-- SC_GRP_GRANTS_LO_READ: A read of SC_GRP_GRANTS_LO latches its high half. (R63) -/
  | scGrpGrantsLoRead
  /-- SC_GRP_FLITS_LO_READ: A read of SC_GRP_FLITS_LO latches its high half. (R63) -/
  | scGrpFlitsLoRead
  /-- SC_GRP_DMA_LO_READ: A read of SC_GRP_DMA_LO latches its high half. (R63) -/
  | scGrpDmaLoRead
  /-- RL_ECC_CORR_LO_READ: A read of RL_ECC_CORR_LO latches its high half. (R63) -/
  | rlEccCorrLoRead
  /-- RL_LOG_COUNT_LO_READ: A read of RL_LOG_COUNT_LO latches its high half. (R63) -/
  | rlLogCountLoRead
  /-- TR_LATCH_LO_READ: A read of TR_LATCH_LO latches TR_LATCH_HI. (R63) -/
  | trLatchLoRead
  /-- FP_FETCH: FP_CTRL FETCH starts a DMA fetch of the container into an EMPTY image store, or is refused for bad length or alignment. (R32) -/
  | fpFetch
  /-- FP_VERIFY: FP_CTRL VERIFY starts verification of a LOADED image without applying it. (R34) -/
  | fpVerify
  /-- FP_APPLY: FP_CTRL APPLY verifies a LOADED image or makes the drain check on a VERIFIED one and starts application of a full plan. (R36) -/
  | fpApply
  /-- FP_AMEND: FP_CTRL AMEND verifies an amendment image and leaves it pending for its effective instant. (R42) -/
  | fpAmend
  /-- FP_ABORT: FP_CTRL ABORT stops a fetch, verification or pending amendment and moves the store to FAILED, or records BUSY during APPLYING. (R52) -/
  | fpAbort
  /-- FP_DISCARD: FP_CTRL DISCARD returns a LOADED, VERIFIED or FAILED store to EMPTY and clears FP_ERROR. (R52) -/
  | fpDiscard
  /-- FP_BAD_COMMAND: An unknown CMD value, or a command not accepted in the current state, records BAD_COMMAND or BUSY and sets FP_EVENT.ERROR. (R33) -/
  | fpBadCommand (cmd : Fin 16)
  /-- STAGING_WRITE: A write to the boot-window staging aperture claims or fills the image store, or is dropped and counted in FP_DROPPED. (R33) -/
  | stagingWrite (off : Fin 32768) (wide : Bool) (v : BitVec 64)
  /-- FP_LEN_WRITE: A write of FP_LEN stores the length and, on the boot-window path in LOADING, moves the store to LOADED. (R33) -/
  | fpLenWrite (v : BitVec 32)
  /-- FETCH_READ_COMPLETION: A DMA read completion of the floor-plan fetch lands bytes, completes the load, or fails it with FETCH_FAILED. (R32) -/
  | fetchReadCompletion (off : Nat) (bytes : List Byte) (ok : Bool)
  /-- VERIFY_COMPLETE: Verification ends, moving the store to VERIFIED, to APPLYING, to a pending amendment, or to FAILED with the first failing check. (R34) -/
  | verifyComplete
  /-- APPLICATION_COMPLETE: The fifteen application steps finish, setting PLAN_ACTIVE, the applied digest and FP_EVENT.DONE. (R36) -/
  | applicationComplete (fault : Option (Bool × Nat))
  /-- AMENDMENT_EFFECT: At its effective instant a pending amendment replaces its sections, increments FP_AMEND_SEQ and sets AMEND_DONE. (R44) -/
  | amendmentEffect
  /-- FP_DRAIN_WRITE: A write to FP_DRAIN_STACKS, FP_DRAIN_ARRAYS or FP_DRAIN_PORTS requests or releases a drain of each unit. (R47) -/
  | fpDrainWrite (k : Fin 5) (v : BitVec 32)
  /-- UNIT_DRAINED: A draining unit finishes its work in flight and sets its bit in the matching FP_DRAINED register. (R47) -/
  | unitDrained (kind : Fin 3) (n : Fin 64)
  /-- PULSE_EDGE: A MER_PULSE edge is accepted or rejected, aligning the count, measuring phase error and counting frames towards lock. (R56) -/
  | pulseEdge (falling : Bool)
  /-- REF_LOST: MER_REF shows no edge for 1,000 mt, or three pulses are rejected, and the source is lost. (R56) -/
  | refLost (noEdges : Bool)
  /-- HOLDOVER_ALARM: Time in HOLDOVER reaches HOLDOVER_ALARM_MS and sets MER_EVENT.HOLDOVER_ALARM. (R62) -/
  | holdoverAlarm
  /-- MASTER_CHANGE: At the first frame boundary after survey reports it, a new time master takes effect. (R59) -/
  | masterChange
  /-- MER_CTRL_STEP: Writing MER_CTRL.STEP while STEP_NEEDED is set requests a step of the count onto the source. (R64) -/
  | merCtrlStep (v : BitVec 32)
  /-- COUNT_STEP: The count is stepped at the source's next frame boundary, and passed events fire once in count order. (R64) -/
  | countStep
  /-- SLOT_BOUNDARY: A slot or frame boundary of the cycle table begins the next slot and admits held class 0 requests. (R68) -/
  | slotBoundary
  /-- EPOCH_CLOSE: The EPOCH_CLOSE instant closes the update epoch, swaps combiner banks and starts the scan. (R237) -/
  | epochClose
  /-- FLIP: The FLIP instant flips every layer updated in a committed step on a clear verdict, or skips the flip. (R240) -/
  | flip
  /-- DIGEST_COMPARISON: At a flip of a step on the digest interval, the device issues the digest ALL_GATHER for each group. (R418) -/
  | digestComparison (g : Fin 4096)
  /-- WATCHDOG_EXPIRY: A command's watchdog expires, its engines stop as on cancellation and it completes WATCHDOG. (R362) -/
  | watchdogExpiry (launch : Bool) (id : Nat)
  /-- PLANNED_RETRAIN: A channel scheduled for planned retraining retrains in a maintenance slot, holding its room accesses. (R97) -/
  | plannedRetrain (st : Fin 16) (ph : Fin 64)
  /-- UNPLANNED_RETRAIN: Loss of timing margin starts unplanned retraining and holds the channel's accesses and room-calls. (R98) -/
  | unplannedRetrain (st : Fin 16) (ph : Fin 64)
  /-- RETRAIN_DONE: A retraining and its pattern check finish and held accesses are released in order, or the channel fails. (R98) -/
  | retrainDone (st : Fin 16) (ph : Fin 64) (ok : Bool)
  /-- CHANNEL_FAIL: A channel fails, is set in ST_CH_FAILED, and its shards are marked stale. (R100) -/
  | channelFail (st : Fin 16) (ph : Fin 64)
  /-- BURN_ROW: ST_REPAIR_CMD BURN_ROW starts burning a row repair into the stack's fuses. (R101) -/
  | burnRow (st : Fin 16)
  /-- BURN_COLUMN: ST_REPAIR_CMD BURN_COLUMN starts burning a column-group repair. (R101) -/
  | burnColumn (st : Fin 16)
  /-- BURN_ROOM: ST_REPAIR_CMD BURN_ROOM starts burning a room substitution. (R101) -/
  | burnRoom (st : Fin 16)
  /-- REPAIR_BAD_ARG: An unknown repair command, or one written while a burn is busy, records BAD_ARG. (R101) -/
  | repairBadArg (st : Fin 16)
  /-- BURN_DONE: A fuse burn completes and sets REPAIR_DONE or REPAIR_ERROR. (R101) -/
  | burnDone (st : Fin 16) (ok : Bool)
  /-- SOFT_ROW_SPARE: In a maintenance slot a keeper core copies a scheduled DRAM row to a spare row and switches accesses to it. (R102) -/
  | softRowSpare (st : Fin 16)
  /-- REFRESH: A DRAM row falls due and one storey of one channel is refreshed. (R104) -/
  | refresh (st : Fin 16) (ph : Fin 64) (storey : Fin 8)
  /-- SCRUB_WINDOW: A SCRUB instant opens a scrub window with its quota. (R105) -/
  | scrubWindow (k : Nat)
  /-- SCRUB_BLOCK: Scrub reads and corrects one block and writes back a correction unless a write reached the block. (R106) -/
  | scrubBlock (st : Fin 16) (corrected raced : Bool) (unc : Fin 16)
  /-- SCRUB_WINDOW_END: A scrub window ends, carrying unfinished quota forward and raising SCRUB_BEHIND. (R105) -/
  | scrubWindowEnd
  /-- CALIBRATE_WINDOW: A CALIBRATE instant opens a window that calibrates the next channel of each stack. (R107) -/
  | calibrateWindow (k : Nat)
  /-- CALIBRATION_STEP: One storey of a channel is calibrated under a hold of at most 400 rc. (R107) -/
  | calibrationStep (st : Fin 16)
  /-- CAL_WINDOW_END: A calibration window ends with a channel unfinished and sets CAL_BEHIND. (R107) -/
  | calWindowEnd
  /-- CONTENT_ACCEPT: ST_CONTENT_CTRL ACCEPT starts a verification pass of a preserved sheet, or is refused. (R465) -/
  | contentAccept (st : Fin 16)
  /-- CONTENT_CLEAR: ST_CONTENT_CTRL CLEAR starts zeroing every block of the sheet with valid checks. (R466) -/
  | contentClear (st : Fin 16)
  /-- CONTENT_VERIFY_DONE: The verification pass ends, counting failures in ST_VERIFY, and the sheet becomes LIVE. (R465) -/
  | contentVerifyDone (st : Fin 16)
  /-- CONTENT_CLEAR_DONE: The clear ends, releasing held accesses, and the sheet becomes LIVE. (R466) -/
  | contentClearDone (st : Fin 16)
  /-- ROOM_CALL: A landing sends a room-call header and the room core enters the program with its initial state. (R116) -/
  | roomCall (wk : Work)
  /-- DIRECT_READ: The landing reads a row directly through the room's access unit without the room core. (R140) -/
  | directRead (r : Fin 1048576) (o : Fin 16384)
  /-- ILLEGAL: An instruction with an unassigned opcode or a non-zero reserved field takes the ILLEGAL exception. (R119) -/
  | illegal (r : Fin 1048576)
  /-- NOP: Room core NOP does nothing for one rc. (R120) -/
  | nop (r : Fin 1048576)
  /-- ADD: ADD writes a + b modulo 2^32. (R121) -/
  | add (r : Fin 1048576)
  /-- SUB: SUB writes a − b modulo 2^32. (R121) -/
  | sub (r : Fin 1048576)
  /-- AND: AND writes the bitwise and of a and b. (R120) -/
  | and (r : Fin 1048576)
  /-- OR: OR writes the bitwise or of a and b. (R120) -/
  | or (r : Fin 1048576)
  /-- XOR: XOR writes the bitwise xor of a and b. (R120) -/
  | xor (r : Fin 1048576)
  /-- SHL: SHL shifts a left by a register or immediate amount. (R121) -/
  | shl (r : Fin 1048576)
  /-- SHR: SHR shifts a logically right. (R121) -/
  | shr (r : Fin 1048576)
  /-- SRA: SRA shifts a arithmetically right. (R121) -/
  | sra (r : Fin 1048576)
  /-- MUL: MUL writes the low 32 bits of a × b. (R121) -/
  | mul (r : Fin 1048576)
  /-- SLT: SLT writes 1 if a is less than b, signed or unsigned. (R120) -/
  | slt (r : Fin 1048576)
  /-- ADDI: ADDI writes a + imm modulo 2^32. (R121) -/
  | addi (r : Fin 1048576)
  /-- LUI: LUI writes the unsigned immediate shifted left by 10. (R120) -/
  | lui (r : Fin 1048576)
  /-- BEQ: BEQ branches when a equals b. (R119) -/
  | beq (r : Fin 1048576)
  /-- BNE: BNE branches when a differs from b. (R119) -/
  | bne (r : Fin 1048576)
  /-- BLT: BLT branches when a is less than b, signed. (R119) -/
  | blt (r : Fin 1048576)
  /-- BGE: BGE branches when a is at least b, signed. (R119) -/
  | bge (r : Fin 1048576)
  /-- JAL: JAL writes the return word and jumps by the immediate. (R119) -/
  | jal (r : Fin 1048576)
  /-- JR: JR jumps to a + imm. (R119) -/
  | jr (r : Fin 1048576)
  /-- LOOP: LOOP decrements a and branches while it is non-zero. (R119) -/
  | loop (r : Fin 1048576)
  /-- LDS: LDS loads a scratch word. (R114) -/
  | lds (r : Fin 1048576)
  /-- STS: STS stores a word to scratch. (R114) -/
  | sts (r : Fin 1048576)
  /-- LDSV: LDSV loads 16 scratch bytes into a vector register. (R114) -/
  | ldsv (r : Fin 1048576)
  /-- STSV: STSV stores a vector register to scratch. (R114) -/
  | stsv (r : Fin 1048576)
  /-- LDC: LDC loads a word from the channel program store. (R115) -/
  | ldc (r : Fin 1048576)
  /-- LDCV: LDCV loads 16 bytes from the program store into a vector register. (R115) -/
  | ldcv (r : Fin 1048576)
  /-- FADD: FOP FADD writes the FP32 sum of a and b. (R122) -/
  | fadd (r : Fin 1048576)
  /-- FSUB: FOP FSUB writes the FP32 difference. (R122) -/
  | fsub (r : Fin 1048576)
  /-- FMUL: FOP FMUL writes the FP32 product. (R122) -/
  | fmul (r : Fin 1048576)
  /-- FDIV: FOP FDIV writes the correctly rounded FP32 quotient. (R122) -/
  | fdiv (r : Fin 1048576)
  /-- FSQRT: FOP FSQRT writes the FP32 square root. (R122) -/
  | fsqrt (r : Fin 1048576)
  /-- FRSQ: FOP FRSQ writes the reciprocal square root within 1 ulp. (R122) -/
  | frsq (r : Fin 1048576)
  /-- FMIN: FOP FMIN writes the lesser of a and b. (R122) -/
  | fmin (r : Fin 1048576)
  /-- FMAX: FOP FMAX writes the greater of a and b. (R122) -/
  | fmax (r : Fin 1048576)
  /-- ITOF: FOP ITOF converts an INT32 to FP32 under RNE. (R122) -/
  | itof (r : Fin 1048576)
  /-- FTOI: FOP FTOI converts FP32 to INT32 with saturation. (R86) -/
  | ftoi (r : Fin 1048576)
  /-- FLT: FOP FLT writes 1 if a is less than b, 0 if either is NaN. (R122) -/
  | flt (r : Fin 1048576)
  /-- VADD: VADD adds two vector registers lanewise. (R123) -/
  | vadd (r : Fin 1048576)
  /-- VMUL: VMUL multiplies two vector registers lanewise. (R123) -/
  | vmul (r : Fin 1048576)
  /-- VFMA: VFMA performs a fused multiply-add lanewise. (R123) -/
  | vfma (r : Fin 1048576)
  /-- VMAX: VMAX takes the lanewise maximum. (R122) -/
  | vmax (r : Fin 1048576)
  /-- VCVT: VCVT converts vector lanes between lane types, by RNE or stochastically. (R123) -/
  | vcvt (r : Fin 1048576)
  /-- VSPLAT: VSPLAT copies a register's bit pattern into every lane. (R120) -/
  | vsplat (r : Fin 1048576)
  /-- VSUM: VSUM sums the lanes of a vector register in a fixed tree. (R123) -/
  | vsum (r : Fin 1048576)
  /-- VMOV_GET: VMOV with f[13] = 0 reads one 32-bit lane into a general register. (R120) -/
  | vmovGet (r : Fin 1048576)
  /-- VMOV_PUT: VMOV with f[13] = 1 writes a general register into one lane. (R120) -/
  | vmovPut (r : Fin 1048576)
  /-- RFETCH: RFETCH issues an asynchronous copy from room DRAM to scratch on a slot. (R124) -/
  | rfetch (r : Fin 1048576)
  /-- RPUT: RPUT issues an asynchronous copy from scratch to room DRAM on a slot. (R124) -/
  | rput (r : Fin 1048576)
  /-- RFETCH_DONE: An RFETCH's data reaches scratch and sets its event, or its check fails and the call takes CHECK. (R124) -/
  | rfetchDone (r : Fin 1048576) (slot : Fin 4)
  /-- RPUT_DONE: An RPUT's data reaches DRAM and sets its event. (R124) -/
  | rputDone (r : Fin 1048576) (slot : Fin 4)
  /-- RCHECK: RCHECK verifies a record image's row check in scratch. (R127) -/
  | rcheck (r : Fin 1048576)
  /-- DQACC_ASSIGN: DQACC mode ASSIGN reads a record and writes weighted decoded elements to the accumulator. (R128) -/
  | dqaccAssign (r : Fin 1048576)
  /-- DQACC_ADD: DQACC mode ADD adds weighted decoded elements into the accumulator. (R128) -/
  | dqaccAdd (r : Fin 1048576)
  /-- DQACC_MAX: DQACC mode MAX takes the elementwise maximum into the accumulator. (R128) -/
  | dqaccMax (r : Fin 1048576)
  /-- SCALE: SCALE multiplies FP32 scratch words by a register value. (R129) -/
  | scale (r : Fin 1048576)
  /-- PACK: PACK converts FP32 scratch words into a narrower format. (R129) -/
  | pack (r : Fin 1048576)
  /-- FUPD: FUPD reads one record, applies the factored update and writes it back in one burst. (R131) -/
  | fupd (r : Fin 1048576)
  /-- RSEED: RSEED sets the generator key and resets its counter. (R134) -/
  | rseed (r : Fin 1048576)
  /-- RAND: RAND returns 32 random bits and advances the counter. (R134) -/
  | rand (r : Fin 1048576)
  /-- RECV: RECV issues an asynchronous copy of payload bytes into scratch. (R136) -/
  | recv (r : Fin 1048576)
  /-- RECV_DONE: RECV data reaches scratch and sets E4. (R137) -/
  | recvDone (r : Fin 1048576)
  /-- SEND: SEND issues an asynchronous transfer of scratch bytes to the landing as PARTIAL, RESULT or UPSTAT. (R136) -/
  | send (r : Fin 1048576)
  /-- SEND_DONE: A SEND leaves scratch and reaches the landing, which combines, forwards or accounts it. (R137) -/
  | sendDone (r : Fin 1048576)
  /-- WAIT: WAIT stalls until any or all of the named events are set. (R137) -/
  | wait (r : Fin 1048576)
  /-- EVT: EVT reads the event register and clears selected bits. (R137) -/
  | evt (r : Fin 1048576)
  /-- FENCE: FENCE waits until every outstanding DRAM, RECV and SEND operation of the call has completed. (R120) -/
  | fence (r : Fin 1048576)
  /-- GETS: GETS reads a special value such as room number, table id or step. (R135) -/
  | gets (r : Fin 1048576)
  /-- END: END fences and ends the call with a status reported to the landing. (R120) -/
  | endCall (r : Fin 1048576)
  /-- TRAP: TRAP ends the call with the TRAP exception and a status. (R138) -/
  | trap (r : Fin 1048576)
  /-- LIMIT: A call still running RM_CALL_LIMIT rc after entry takes the LIMIT exception. (R117) -/
  | limit (r : Fin 1048576)
  /-- CALL_CANCEL: The landing cancels a running call, which stops at the next instruction boundary. (R118) -/
  | callCancel (r : Fin 1048576)
  /-- RM_FLOG_CLEAR: Writing RM_FLOG_CLEAR invalidates every fault-log entry. (R142) -/
  | rmFlogClear (st : Fin 16) (v : BitVec 32)
  /-- BATCH_BOUNDARY: After a batch step retires, freed slots, leaves and joins are processed and the member table is written. (R168) -/
  | batchBoundary (b : Fin 64)
  /-- TILE_ACCEPT: An array checks a delivered tile descriptor and accepts it as running or next tile, or rejects it. (R181) -/
  | tileAccept (a : Fin 64)
  /-- TILE_FINISH: A tile's rows drain into the tile queue and the tile is finished, or it stops on a check or sparse error. (R179) -/
  | tileFinish (a : Fin 64)
  /-- ATTIC_FILL_DONE: An attic line fill completes and is delivered to the waiting array stores. (R198) -/
  | atticFillDone (line : Nat)
  /-- CHAIN_START: The vector engine begins a finished tile's chain once the tile is finished and the previous chain has issued. (R219) -/
  | chainStart (a : Fin 64)
  /-- CHAIN_COMPLETE: A chain's last vector completes, freeing its queue slot and writing Q buffers and any selection output. (R219) -/
  | chainComplete (a : Fin 64)
  /-- CHAIN_LOAD_APPLY: An accepted chain-load is applied once the tile queue is empty and no chain runs. (R209) -/
  | chainLoadApply (a : Fin 64)
  /-- ENGINE_RUN: A RUN descriptor runs a chain over a tile register. (R223) -/
  | engineRun (a : Fin 64)
  /-- ENGINE_GATHER: A GATHER descriptor checks its list and compacts the listed rows to the destination. (R224) -/
  | engineGather (a : Fin 64)
  /-- ENGINE_MERGE: A MERGE descriptor merges several TOPK outputs into one. (R223) -/
  | engineMerge (a : Fin 64)
  /-- ENGINE_SCATTER: A SCATTER descriptor combines expert outputs into a tile register by gates. (R225) -/
  | engineScatter (a : Fin 64)
  /-- ENGINE_DESCRIPTOR_DONE: An engine descriptor completes and the next queued tile or descriptor may proceed. (R223) -/
  | engineDescriptorDone (a : Fin 64)
  /-- SCAN_COMPLETE: A landing's scan of the closed bank completes and the device contributes its problem bit and proposed step. (R238) -/
  | scanComplete (st : Fin 16)
  /-- SCAN_DEADLINE: At T + F/4 a device whose scan is incomplete contributes a raised bit with cause LATE_SCAN. (R237) -/
  | scanDeadline
  /-- VERDICT_DEADLINE: At T + F/2 a device without the commit verdict skips locally and marks its shards and layers stale. (R239) -/
  | verdictDeadline
  /-- GRADIENT_CONTRIBUTION: A row-gradient contribution reaches a landing and is combined, dropped or refused as stale. (R244) -/
  | gradientContribution (l i : Nat)
  /-- PARAM_BLOCK_WRITE: The landing writes the shard's next parameter block into every channel's constant area, holding room-calls. (R247) -/
  | paramBlockWrite (wing : Fin 1024)
  /-- DENSE_WRITES_COMPLETE: A device's dense writes complete and it contributes its dense problem bit to the flip verdict. (R240) -/
  | denseWritesComplete
  /-- DENSE_DEADLINE: At T + F − F/8 a device with incomplete dense writes contributes a raised bit with DENSE_INTERRUPTED. (R237) -/
  | denseDeadline
  /-- STATE_LOAD_EFFECT: A STATE_LOAD takes effect between steps, clearing STALE when its STEP equals UP_STEP. (R241) -/
  | stateLoadEffect (wing : Fin 1024)
  /-- PORT_DISABLE: FB_CTRL DISABLE turns the port's laser off and makes it DARK. (R256) -/
  | portDisable (p : Fin 64)
  /-- PORT_ENABLE: FB_CTRL ENABLE turns the laser on and starts training. (R256) -/
  | portEnable (p : Fin 64)
  /-- REQUALIFY: FB_CTRL REQUALIFY returns a degraded port to eight lanes in a maintenance slot. (R265) -/
  | requalify (p : Fin 64)
  /-- FEC_LOCK: A training port reaches FEC lock on all eight lanes and goes to SURVEY. (R256) -/
  | fecLock (p : Fin 64)
  /-- TRAINING_RETRY: A port without FEC lock after 5,000,000 mt retries every 100,000,000 mt. (R256) -/
  | trainingRetry (p : Fin 64)
  /-- RX_DATA_FLIT: A DATA flit is received, accepted in sequence, forwarded or discarded with a NACK. (R260) -/
  | rxDataFlit (p : Fin 64) (b : List Byte)
  /-- RX_IDLE: An IDLE flit is received and its ACK and CREDIT are taken. (R259) -/
  | rxIdle (p : Fin 64) (b : List Byte)
  /-- RX_NACK: A NACK is received and the sender resends from the next SEQ. (R260) -/
  | rxNack (p : Fin 64) (b : List Byte)
  /-- RX_CTRL: A CTRL flit, such as DEGRADE, is received and acted on. (R264) -/
  | rxCtrl (p : Fin 64) (b : List Byte)
  /-- NACK_REPEAT: 2,000 mt without progress repeats a NACK. (R260) -/
  | nackRepeat (p : Fin 64)
  /-- LANE_FAIL: A lane fails and the port degrades to a healthy half or goes DOWN. (R264) -/
  | laneFail (p : Fin 64) (lane : Fin 8)
  /-- HELLO_SEND: Every HELLO_US a HELLO is sent on each SURVEY, UP or DEGRADED port. (R267) -/
  | helloSend (p : Fin 64)
  /-- RX_HELLO: A HELLO is received and the port goes UP or MISWIRED. (R268) -/
  | rxHello (p : Fin 64) (h : Hello)
  /-- HELLO_MISS: DEAD_HELLOS missed HELLOs take the port DOWN. (R268) -/
  | helloMiss (p : Fin 64)
  /-- TIME_SEND: Once per frame a TIME message is sent on each link. (R58) -/
  | timeSend
  /-- RX_TIME: A TIME message is received and link delay and time error are estimated. (R58) -/
  | rxTime (p : Fin 64) (far err rtt : Nat)
  /-- RX_ROUTE: A ROUTE message is received and distances are updated. (R270) -/
  | rxRoute (p : Fin 64) (es : List (Nat × Nat))
  /-- ROUTE_REFRESH: Every 1,000 frames the full route list is advertised. (R267) -/
  | routeRefresh
  /-- ROUTE_RECOMPUTE: Keeper cores recompute routes by distance vector and advertise changes. (R270) -/
  | routeRecompute
  /-- RX_DEPART: A DEPART is received and flooded on. (R269) -/
  | rxDepart (p : Fin 64) (origin seq effective reason : Nat)
  /-- DEPART_EFFECTIVE: At a DEPART's EFFECTIVE instant every device removes the departing device's links from its routes. (R269) -/
  | departEffective (ref : Fin 16384)
  /-- RX_MASTER: A MASTER message is received and flooded, feeding master election. (R59) -/
  | rxMaster (p : Fin 64) (origin : Fin 16384) (seq : BitVec 32) (eligible locked holdover : Bool)
  /-- MASTER_SEND: The master sends MASTER every frame. (R267) -/
  | masterSend
  /-- RX_OPEN: An OPEN creates a mirror partner entry and is answered with ACCEPT. (R283) -/
  | rxOpen (p : Fin 64) (m : Msg)
  /-- RX_ACCEPT: An ACCEPT completes a connect as accepted or refused. (R283) -/
  | rxAccept (p : Fin 64) (m : Msg)
  /-- RX_CLOSE: A CLOSE frees a mirror entry and completes unacknowledged sends REMOTE_UNREACHABLE. (R287) -/
  | rxClose (p : Fin 64) (m : Msg)
  /-- RX_ACK: An ACK completes covered sends, or with RESEND triggers a chunk resend. (R284) -/
  | rxAck (p : Fin 64) (m : Msg)
  /-- RX_WRITE: A WRITE is accepted in sequence into a receive window, or refused. (R280) -/
  | rxWrite (p : Fin 64) (m : Msg)
  /-- RX_SUBLIST: A remote lookup sublist is served at the owner's landing or refused. (R162) -/
  | rxSublist (p : Fin 64) (m : Msg)
  /-- RX_PARTIAL: Pooled partials or finals returned by an owner are combined at the steering landing. (R162) -/
  | rxPartial (p : Fin 64) (m : Msg)
  /-- RX_GRADLIST: A gradient sublist for a remote shard is accepted or refused by its owner. (R243) -/
  | rxGradlist (p : Fin 64) (m : Msg)
  /-- RX_COLL: A collective chunk is received, its digest checked and summed in rank order. (R297) -/
  | rxColl (p : Fin 64) (m : Msg)
  /-- RX_DGRAM: A datagram is written into a receive window or discarded. (R288) -/
  | rxDgram (p : Fin 64) (m : Msg)
  /-- RX_MCAST: A multicast message is replicated to child ports and written at members. (R290) -/
  | rxMcast (p : Fin 64) (m : Msg)
  /-- RX_PRUNE: A PRUNE reaches a member, which posts a PRUNED completion and starts recovery. (R291) -/
  | rxPrune (p : Fin 64) (m : Msg)
  /-- RX_PULL: A PULL at the root resends messages from its replay window. (R292) -/
  | rxPull (p : Fin 64) (m : Msg)
  /-- RX_GRAFT: A GRAFT restores a pruned child port at the next message boundary. (R292) -/
  | rxGraft (p : Fin 64) (m : Msg)
  /-- RX_TREE_SETUP: A TREE_SETUP installs or removes a tree entry. (R289) -/
  | rxTreeSetup (p : Fin 64) (dest : Fin 16384) (m : Msg)
  /-- RX_VTREE: A VTREE records a neighbour's parent and subtree count. (R301) -/
  | rxVtree (p : Fin 64) (child : Bool) (count : Fin 32768)
  /-- VTREE_SEND: Once per frame each device sends VTREE on every UP port. (R301) -/
  | vtreeSend
  /-- RX_VERDICT_UP: A child's aggregate is taken and forwarded, and the root decides when its count is complete. (R302) -/
  | rxVerdictUp (p : Fin 64) (flip raised : Bool) (step count : Nat)
  /-- RX_VERDICT_DOWN: A verdict is received, forwarded to children and acted on. (R303) -/
  | rxVerdictDown (p : Fin 64) (flip raised : Bool) (step count : Nat)
  /-- VERDICT_ROOT_DEADLINE: At T + 3F/8 or T + F − F/16 the root decides with any missing count as a raised bit. (R303) -/
  | verdictRootDeadline (flip : Bool)
  /-- RX_MARK: A fabric MARK is flooded on and scheduled for latching at M, or latched at once if late. (R305) -/
  | rxMark (p : Fin 64) (origin : Fin 16384) (seq : BitVec 32) (id : Fin 256) (m : BitVec 64)
  /-- RX_BAD_KIND: A message of a reserved kind is discarded and counted. (R277) -/
  | rxBadKind (p : Fin 64) (kind : Fin 256)
  /-- RETRANSMIT: RTO_US after the oldest unacknowledged message was sent, all are retransmitted in order. (R284) -/
  | retransmit (k : Fin 4096)
  /-- CONN_BREAK: CONN_TIMEOUT_US without acknowledgement breaks the connection and fails its sends. (R286) -/
  | connBreak (k : Fin 4096)
  /-- CONNECT_TIMEOUT: A connect with no answer within CONN_TIMEOUT_US completes REMOTE_UNREACHABLE. (R283) -/
  | connectTimeout (k : Fin 4096)
  /-- TREE_SETUP_TIMEOUT: A tree command whose members have not all installed within CONN_TIMEOUT_US completes REMOTE_UNREACHABLE. (R289) -/
  | treeSetupTimeout (tr : Fin 4096)
  /-- BRANCH_PRUNE: A flit waiting longer than the prune threshold prunes its branch and sends PRUNE. (R291) -/
  | branchPrune (tr : Fin 4096) (p : Fin 64)
  /-- BRANCH_REBUILD: Keeper cores rebuild a tree branch lost to a DOWN port. (R293) -/
  | branchRebuild (tr : Fin 4096) (p : Fin 64)
  /-- LINK_UP: The host link comes up and a parked device may resume. (R330) -/
  | linkUp (lanes rate : Fin 16) (flit : Bool)
  /-- LINK_DOWN: The host link goes down; queues enter HOST_LOST and the grace period starts. (R330) -/
  | linkDown
  /-- LINK_RECOVERY: Link retraining through Recovery holds requests and drops nothing. (R329) -/
  | linkRecovery (done : Bool)
  /-- HOST_GRACE_EXPIRY: The grace period ends and the device parks, announcing departure with reason 2. (R330) -/
  | hostGraceExpiry
  /-- HOT_RESET: A hot reset clears host-facing state and puts queues in HOST_LOST. (R460) -/
  | hotReset
  /-- FUNCTION_LEVEL_RESET: A function-level reset clears host-facing state and disables queues. (R460) -/
  | functionLevelReset
  /-- RESET_COMPLETE: A hot or function-level reset completes and configuration requests are answered normally. (R462) -/
  | resetComplete
  /-- PERST_ASSERT: PERST_N is asserted: stacks enter self-refresh and everything except the porch resets. (R461) -/
  | perstAssert
  /-- PERST_DEASSERT: PERST_N is deasserted and boot and link training start. (R442) -/
  | perstDeassert
  /-- CONFIG_REQUEST: A configuration request is answered, with Retry Status while booting or resetting. (R457) -/
  | configRequest (d : Fin 1024) (w : Option (BitVec 32))
  /-- POWER_STATE_CHANGE: The function moves between D0 and D3hot. (R306) -/
  | powerStateChange (d3 : Bool)
  /-- DOE_REQUEST: A DOE data object is taken and answered by Discovery or CMA/SPDM. (R311) -/
  | doeRequest (vendor : BitVec 16) (type : BitVec 8) (bytes : List Byte)
  /-- WRITEBACK_INVALIDATE: A CXL writeback-and-invalidate request completes within 1,000 mt. (R310) -/
  | writebackInvalidate
  /-- SNOOP: A host snoop removes a cached line and is answered without data. (R314) -/
  | snoop (addr : BitVec 64)
  /-- MSIX_UNMASK: Unmasking a vector delivers its pending message once. (R333) -/
  | msixUnmask (v : Fin 2048)
  /-- REGION_VALIDATE: Writing FLAGS with VALID 1 validates a letterbox region entry or logs an entry error. (R316) -/
  | regionValidate (i : Fin 65536) (v : BitVec 32) (hi : Option (BitVec 32))
  /-- REGION_END: Writing the first dword with VALID 0 ends a region at once. (R318) -/
  | regionEnd (i : Fin 65536) (v : BitVec 32) (hi : Option (BitVec 32))
  /-- LETTERBOX_WRITE: A posted write to BAR2 lands in its region's sheet range or is rejected and logged. (R317) -/
  | letterboxWrite (off : BitVec 36) (bytes : List Byte) (req : BitVec 16) (poisoned : Bool)
  /-- BAR2_READ: A read of BAR2 completes with Unsupported Request and is logged. (R313) -/
  | bar2Read (off : BitVec 36) (req : BitVec 16)
  /-- HC_LB_FENCE: Writing a region to HC_LB_FENCE sets BUSY until the region's accepted writes and flags are done. (R318) -/
  | hcLbFence (v : BitVec 32)
  /-- LB_FENCE_DONE: The fenced region's writes are visible and HC_LB_FENCE_STATUS.BUSY clears. (R318) -/
  | lbFenceDone
  /-- DMA_READ_COMPLETION: A host read completion for a DMA command lands its data, or poison or error stops the command. (R324) -/
  | dmaReadCompletion (k off : Nat) (bytes : List Byte) (ok : Bool)
  /-- AS_ENABLE: Setting XL_AS_CTRL.ENABLE enables an address space. (R334) -/
  | asEnable
  /-- AS_DISABLE: Clearing ENABLE invalidates the whole address space. (R334) -/
  | asDisable
  /-- AS_ROOT_WRITE: A write to XL_AS_ROOT stores the root, or is ignored while the address space is enabled. (R334) -/
  | asRootWrite (high : Bool) (v : BitVec 32)
  /-- TRANSLATE_UNIT: A translation unit has its pages translated before its first access, or halts on a fault. (R341) -/
  | translateUnit (k : Nat)
  /-- WALK_ENTRY_RETURN: A page-table entry read returns and the walk proceeds, completes or faults. (R339) -/
  | walkEntryReturn (k : Nat) (bytes : List Byte) (ok : Bool)
  /-- PRQ_RETRY: XL_PRQ_RESP with FAIL clear makes every waiting unit translate again. (R347) -/
  | prqRetry (req : Fin 1024)
  /-- PRQ_FAIL: XL_PRQ_RESP with FAIL set completes every waiting command FAULT_XLATE. (R347) -/
  | prqFail (req : Fin 1024)
  /-- XL_RING_HEAD_WRITE: Advancing XL_RING_HEAD frees ring space and posts held fault records in order. (R346) -/
  | xlRingHeadWrite (v : BitVec 32)
  /-- XL_INV_GO: XL_INV_CMD.GO starts an invalidation of a page range. (R348) -/
  | xlInvGo
  /-- INVALIDATION_DONE: An invalidation completes once accesses under withdrawn translations have finished. (R348) -/
  | invalidationDone (i : Nat)
  /-- XL_CW_COUNT_WRITE: A write of XL_CW_COUNT allocates counters to a window, or is ignored and sets CW_ERR. (R351) -/
  | xlCwCountWrite (v : BitVec 32)
  /-- XL_CNT_CLEAR: XL_CNT_CLEAR clears the selected counter and its NOTIFIED bit. (R351) -/
  | xlCntClear
  /-- DB_SQ_WRITE: A doorbell stores the producer index and the queue is examined and its entries fetched. (R356) -/
  | dbSqWrite (q : Fin 4096) (v : BitVec 32)
  /-- DB_CQ_WRITE: A completion doorbell reports consumption of completion entries. (R369) -/
  | dbCqWrite (q : Fin 4096) (v : BitVec 32)
  /-- Q_ENABLE: Q_CTRL ENABLE moves a DISABLED queue to ENABLED. (R355) -/
  | qEnable (q : Fin 4096)
  /-- Q_DISABLE: Q_CTRL DISABLE stops fetching; the queue reads DISABLED when none remain in flight. (R355) -/
  | qDisable (q : Fin 4096)
  /-- Q_RESET: Q_CTRL RESET cancels the queue's commands and moves it to RESETTING. (R375) -/
  | qReset (q : Fin 4096)
  /-- QUEUE_RESET_DONE: The queue's host-bound writes are delivered or discarded and the queue reads DISABLED. (R331) -/
  | queueResetDone (q : Fin 4096)
  /-- CQ_ACK: Q_CTRL CQ_ACK writes the overflow area's entries marked LATE and resumes fetching. (R370) -/
  | cqAck (q : Fin 4096)
  /-- Q_RESUME: Q_CTRL RESUME continues a HALTED privileged queue from the next entry. (R374) -/
  | qResume (q : Fin 4096)
  /-- ENTRY_FETCH_RETURN: Command entries arrive from the submission ring and are checked and dispatched in ring order. (R357) -/
  | entryFetchReturn (k : Nat) (bytes : List Byte) (ok : Bool)
  /-- CMD_NOP: NOP command does nothing and completes. (R363) -/
  | cmdNop (id : Nat)
  /-- CMD_DMA_IN: DMA_IN copies host bytes into a device address. (R324) -/
  | cmdDmaIn (id : Nat)
  /-- CMD_DMA_OUT: DMA_OUT copies device bytes to a host address. (R324) -/
  | cmdDmaOut (id : Nat)
  /-- CMD_WRITE_INLINE: WRITE_INLINE writes inline bytes to a device address. (R325) -/
  | cmdWriteInline (id : Nat)
  /-- CMD_LAUNCH: LAUNCH starts an itinerary with patched parameters. (R367) -/
  | cmdLaunch (id : Nat)
  /-- CMD_ITIN_LOAD: ITIN_LOAD checks an itinerary image and makes it resident, or unloads it. (R366) -/
  | cmdItinLoad (id : Nat)
  /-- CMD_BUFFER: BUFFER runs entries from a host buffer as if in the ring. (R364) -/
  | cmdBuffer (id : Nat)
  /-- CMD_ABORT: ABORT stops a target command, or reports it ALREADY_DONE. (R372) -/
  | cmdAbort (id : Nat)
  /-- CMD_LOOKUP: LOOKUP hands a lookup list to its steering landing to split, pool and combine. (R155) -/
  | cmdLookup (id : Nat)
  /-- CMD_GRADIENT: GRADIENT checks a gradient list and splits it by shard in class 2. (R243) -/
  | cmdGradient (id : Nat)
  /-- CMD_PROGRAM_LOAD: PROGRAM_LOAD writes channel program stores after draining their running calls. (R115) -/
  | cmdProgramLoad (id : Nat)
  /-- CMD_CHAIN_LOAD: CHAIN_LOAD checks a chain entry and accepts it for application. (R209) -/
  | cmdChainLoad (id : Nat)
  /-- CMD_ROW_FLAG: ROW_FLAG rewrites a row's FROZEN flag in one record burst. (R152) -/
  | cmdRowFlag (id : Nat)
  /-- CMD_JOIN: JOIN asks for a session slot in a batch at the next boundary. (R169) -/
  | cmdJoin (id : Nat)
  /-- CMD_LEAVE: LEAVE removes a session from a batch at the next boundary. (R169) -/
  | cmdLeave (id : Nat)
  /-- CMD_UPDATE_PARAM: UPDATE_PARAM sets a table or layer's pending update parameters. (R235) -/
  | cmdUpdateParam (id : Nat)
  /-- CMD_STATE_LOAD: STATE_LOAD submits a stale shard's update-state record. (R241) -/
  | cmdStateLoad (id : Nat)
  /-- CMD_STATE_READ: STATE_READ writes a shard's update-state record to a device address. (R241) -/
  | cmdStateRead (id : Nat)
  /-- CMD_CONNECT: CONNECT lists a partner connection and sends OPEN. (R283) -/
  | cmdConnect (id : Nat)
  /-- CMD_CLOSE: CLOSE waits for outstanding sends and sends CLOSE. (R287) -/
  | cmdClose (id : Nat)
  /-- CMD_TREE: TREE installs or removes a multicast tree from the root. (R289) -/
  | cmdTree (id : Nat)
  /-- CMD_GROUP: GROUP defines or deletes a collective group. (R294) -/
  | cmdGroup (id : Nat)
  /-- CMD_COLLECTIVE: COLLECTIVE starts a collective call, or waits if 8 are outstanding. (R295) -/
  | cmdCollective (id : Nat)
  /-- CMD_SEND: SEND sends a WRITE on a partner connection. (R285) -/
  | cmdSend (id : Nat)
  /-- CMD_DATAGRAM: DATAGRAM sends an unacknowledged datagram. (R288) -/
  | cmdDatagram (id : Nat)
  /-- CMD_MCAST: MCAST sends a multicast message from the root. (R290) -/
  | cmdMcast (id : Nat)
  /-- CMD_INVALIDATE: INVALIDATE performs a TLB invalidation and completes when it is done. (R348) -/
  | cmdInvalidate (id : Nat)
  /-- CMD_MIGRATE: MIGRATE copies pages from host bus addresses into a sheet range. (R350) -/
  | cmdMigrate (id : Nat)
  /-- CMD_RETURN: RETURN copies pages from a sheet back to host bus addresses, checking BCVs. (R350) -/
  | cmdReturn (id : Nat)
  /-- CMD_STREAM: STREAM starts a stream in an IDLE context or places a shadow descriptor. (R377) -/
  | cmdStream (id : Nat)
  /-- CMD_MARK: MARK schedules a local or fabric mark and completes at the latch. (R452) -/
  | cmdMark (id : Nat)
  /-- CMD_INVALID: A command with a reserved opcode or failing checks does nothing and completes INVALID_COMMAND. (R358) -/
  | cmdInvalid (id : Nat)
  /-- ITIN_NODE_DISPATCH: An itinerary node is dispatched once all its predecessors have completed. (R367) -/
  | itinNodeDispatch (l : Nat) (n : Fin 4096)
  /-- LAUNCH_START: A waiting level-1 launch takes a free launch slot and starts. (R368) -/
  | launchStart (l : Nat)
  /-- UNIT_TILE: A stream dispatches a TILE unit to its array once its barrier is met. (R380) -/
  | unitTile (ctx : Fin 262144)
  /-- UNIT_ENGINE: A stream dispatches an ENGINE unit to its vector engine. (R380) -/
  | unitEngine (ctx : Fin 262144)
  /-- UNIT_FETCH: A stream dispatches a FETCH of weights through the attic. (R387) -/
  | unitFetch (ctx : Fin 262144)
  /-- UNIT_HOST_IN: A stream dispatches a HOST_IN transfer. (R380) -/
  | unitHostIn (ctx : Fin 262144)
  /-- UNIT_HOST_OUT: A stream dispatches a HOST_OUT transfer. (R380) -/
  | unitHostOut (ctx : Fin 262144)
  /-- UNIT_COPY: A stream dispatches a COPY. (R380) -/
  | unitCopy (ctx : Fin 262144)
  /-- UNIT_LOOKUP: A stream dispatches a lookup list. (R380) -/
  | unitLookup (ctx : Fin 262144)
  /-- UNIT_GRADIENT: A stream dispatches a gradient list. (R380) -/
  | unitGradient (ctx : Fin 262144)
  /-- UNIT_NOP: A stream dispatches a NOP unit, which retires at once. (R380) -/
  | unitNop (ctx : Fin 262144)
  /-- UNIT_RETIRE: A unit retires; the stream may stop, complete or switch to its shadow descriptor. (R380) -/
  | unitRetire (ctx : Fin 262144) (iter unit : Nat)
  /-- PREEMPT_REQUEST: Admitted class 0 work names a pair held by class 1 or 2 and its save starts. (R392) -/
  | preemptRequest (a : Fin 64)
  /-- QUANTUM_EXPIRY: A class 1 or 2 stream holds a pair for QUANTUM_US while another waits and is pre-empted. (R391) -/
  | quantumExpiry (a : Fin 64)
  /-- PREEMPT_SAVE_DONE: The pair's state is saved, the position recorded and the pair handed over. (R392) -/
  | preemptSaveDone (a : Fin 64)
  /-- PREEMPT_RESUME: A pre-empted context's state is read back and it continues. (R393) -/
  | preemptResume (a : Fin 64)
  /-- SHADOW_COMPARE: Origin and shadow signatures are compared; a mismatch starts an arbiter run. (R409) -/
  | shadowCompare (k : Nat) (sig : BitVec 64)
  /-- ARBITER_DONE: An arbiter run completes and charges the disagreeing unit. (R409) -/
  | arbiterDone (k : Nat) (sig : BitVec 64) (unit : Nat)
  /-- TWIN_COMPARE: Twin-mode calls' signatures are compared and mismatches re-run. (R414) -/
  | twinCompare (k : Nat) (agree first second : Bool)
  /-- DIGEST_DECIDE: The digest ALL_GATHER completes and each member keeps, expels or splits each layer. (R419) -/
  | digestDecide (g : Fin 4096)
  /-- REJOIN_COPY_DONE: The expulsion BROADCAST completes and the expelled member recomputes its digest. (R420) -/
  | rejoinCopyDone (g : Fin 4096)
  /-- RL_RESTART_WRITE: Writing a layer id to RL_RESTART recomputes its digest and clears STALE. (R423) -/
  | rlRestartWrite (v : BitVec 32)
  /-- RL_CKPT_GO: RL_CKPT_CTRL.GO requests a checkpoint cut at the next committed verdict. (R422) -/
  | rlCkptGo
  /-- RL_LOG_CLEAR: RL_LOG_CLEAR invalidates every error-log entry. (R404) -/
  | rlLogClear (v : BitVec 32)
  /-- PW_SHUTTER: PW_CTRL.SHUTTER requests Shuttered entry, refused or moving to DEPARTING. (R431) -/
  | pwShutter
  /-- PW_WAKE: PW_CTRL.WAKE requests a wake. (R433) -/
  | pwWake
  /-- SHUTTER_ENTRY: At EFFECTIVE + 100,000 mt the device enters SHUTTERED. (R432) -/
  | shutterEntry
  /-- WAKE_AT: The count reaches PW_WAKE_AT and a wake starts. (R433) -/
  | wakeAt
  /-- WAKE_COMPLETE: The wake ledger ends and STATE becomes RUNNING. (R433) -/
  | wakeComplete
  /-- POWER_PROJECTION: Every 10,000 mt the controller projects the draw and tightens or loosens one notch. (R429) -/
  | powerProjection (watts : Nat)
  /-- POWER_WINDOW: A 100,000 mt window ends and its mean power is recorded. (R428) -/
  | powerWindow (watts : Fin 65536)
  /-- SENSOR_SAMPLE: A sensor channel is sampled and filtered, and its rules are evaluated in order. (R438) -/
  | sensorSample (c : Fin 256) (v : BitVec 32)
  /-- RAIL_OUT_OF_REGULATION: A rail out of its band for 100 µs trips the module. (R426) -/
  | railOutOfRegulation (rail : Fin 11)
  /-- PO_TRIP_CLEAR: PO_TRIP_CLEAR leaves TRIPPED once temperatures are low enough. (R436) -/
  | poTripClear (v : BitVec 32)
  /-- PO_RULE_CLEAR: PO_RULE_CLEAR clears a rule's LATCHED and ACTIVE. (R438) -/
  | poRuleClear (v : BitVec 32)
  /-- HEARTBEAT_LOST: A keeper core's heartbeat stops and a sibling takes its duties. (R424) -/
  | heartbeatLost (core : Fin 4)
  /-- INPUT_APPLIED: The 56 V input reaches 50 V and power-on starts. (R456) -/
  | inputApplied
  /-- INPUT_LOST: Loss of the 56 V input clears everything but fuses and boot bank. (R460) -/
  | inputLost
  /-- BOOT_STAGE: A boot stage verifies a firmware image, falling back to the other bank on failure. (R442) -/
  | bootStage (read : Bool)
  /-- BOOT_COMPLETE: Boot completes and the boot window and DOE mailbox answer. (R442) -/
  | bootComplete
  /-- SE_SUBMIT: SE_CTRL.SUBMIT submits the key record in SE_KEYREC. (R444) -/
  | seSubmit
  /-- ADVANCE_FW: SE_CTRL.ADVANCE_FW raises the fused firmware minimum. (R443) -/
  | advanceFw
  /-- ADVANCE_PLAN: SE_CTRL.ADVANCE_PLAN raises the fused floor-plan minimum. (R443) -/
  | advancePlan
  /-- PROGRAM: Key record PROGRAM makes an EMPTY owner slot ACTIVE. (R445) -/
  | program
  /-- REVOKE: Key record REVOKE makes an owner slot REVOKED. (R445) -/
  | revoke
  /-- SET_PLAN_KEY: Key record SET_PLAN_KEY burns the next plan-key bank. (R445) -/
  | setPlanKey
  /-- DEBUG_UNLOCK: Key record DEBUG_UNLOCK opens debug until the next PERST. (R445) -/
  | debugUnlock
  /-- RAISE_LOCK: Key record RAISE_LOCK burns a higher lock level. (R445) -/
  | raiseLock
  /-- GET_VERSION: SPDM GET_VERSION is answered. (R448) -/
  | getVersion (doe : Bool)
  /-- GET_CAPABILITIES: SPDM GET_CAPABILITIES is answered. (R448) -/
  | getCapabilities (doe : Bool)
  /-- NEGOTIATE_ALGORITHMS: SPDM NEGOTIATE_ALGORITHMS selects SM2 and SM3. (R448) -/
  | negotiateAlgorithms (doe sm2 sm3 : Bool)
  /-- GET_DIGESTS: SPDM GET_DIGESTS returns certificate-chain digests. (R448) -/
  | getDigests (doe : Bool)
  /-- GET_CERTIFICATE: SPDM GET_CERTIFICATE returns a certificate chain. (R448) -/
  | getCertificate (doe : Bool) (slot : Fin 4) (off len : BitVec 16)
  /-- CHALLENGE: SPDM CHALLENGE is answered signed with the Alias key. (R448) -/
  | challenge (doe : Bool) (slot : Fin 4) (nonce : List Byte)
  /-- GET_MEASUREMENTS: SPDM GET_MEASUREMENTS returns the measurement blocks. (R448) -/
  | getMeasurements (doe : Bool) (index : Fin 256) (sign : Bool) (nonce : List Byte)
  /-- SET_CERTIFICATE: SPDM SET_CERTIFICATE writes slots 1 to 3 with a DeviceID chain. (R448) -/
  | setCertificate (doe : Bool) (slot : Fin 4) (chain : List Byte)
  /-- CHUNK_SEND: SPDM CHUNK_SEND carries a large request in chunks. (R448) -/
  | chunkSend (doe last : Bool) (bytes : List Byte)
  /-- CHUNK_GET: SPDM CHUNK_GET returns a large response in chunks. (R448) -/
  | chunkGet (doe : Bool) (i : Nat)
  /-- SET_ENDPOINT_ID: MCTP Set Endpoint ID is answered. (R449) -/
  | setEndpointId (id : Fin 256)
  /-- GET_ENDPOINT_ID: MCTP Get Endpoint ID is answered. (R449) -/
  | getEndpointId
  /-- GET_MCTP_VERSION_SUPPORT: MCTP Get MCTP Version Support is answered. (R449) -/
  | getMctpVersionSupport (type : Fin 256)
  /-- GET_MESSAGE_TYPE_SUPPORT: MCTP Get Message Type Support is answered. (R449) -/
  | getMessageTypeSupport
  /-- GET_ENDPOINT_UUID: MCTP Get Endpoint UUID is answered. (R449) -/
  | getEndpointUuid
  /-- GETTID: PLDM GetTID is answered. (R450) -/
  | gettid
  /-- GETPLDMVERSION: PLDM GetPLDMVersion is answered. (R450) -/
  | getpldmversion (type : Fin 64)
  /-- GETPLDMTYPES: PLDM GetPLDMTypes is answered. (R450) -/
  | getpldmtypes
  /-- GETPLDMCOMMANDS: PLDM GetPLDMCommands is answered. (R450) -/
  | getpldmcommands (type : Fin 64)
  /-- QUERYDEVICEIDENTIFIERS: PLDM QueryDeviceIdentifiers returns the identity block and nonce. (R440) -/
  | querydeviceidentifiers
  /-- PLDM_SENSOR_READ: A PLDM sensor reading returns a channel's filtered value or the power state. (R450) -/
  | pldmSensorRead (c : Option (Fin 256))
  /-- STATE_SET_WAKE: The PLDM state-set command with state 1 requests a wake. (R450) -/
  | stateSetWake
  /-- STATE_SET_SHUTTER: The PLDM state-set command with state 2 requests Shuttered entry. (R450) -/
  | stateSetShutter
  /-- PLDM_COMPONENT_TRANSFER: PLDM firmware update transfers a component, taking the image store for a floor plan. (R450) -/
  | pldmComponentTransfer (id : BitVec 16) (off : Nat) (bytes : List Byte) (last : Bool)
  /-- PLDM_VERIFY: The PLDM verify stage verifies the transferred component. (R450) -/
  | pldmVerify
  /-- ACTIVATEFIRMWARE: ActivateFirmware applies a floor plan or amendment, a key record, or marks a firmware bank preferred. (R450) -/
  | activatefirmware
  /-- DEBUG_MESSAGE: An Iacel debug message is answered while debug is open. (R447) -/
  | debugMessage (bytes : List Byte)
  /-- MARK_LATCH: At a mark's instant every selected tracing register latches into the mark or capture bank. (R452) -/
  | markLatch
  /-- MARK_INSTANT: A MARK instant of the cycle table triggers a mark. (R452) -/
  | markInstant (k : Nat)
  /-- TR_MARK: TR_CTRL.MARK triggers an immediate local mark. (R452) -/
  | trMark (id : Fin 256)
  /-- TR_RELEASE: TR_CTRL.RELEASE releases the held mark bank. (R454) -/
  | trRelease
  /-- TR_DUMP: TR_CTRL.DUMP starts writing the held bank to TR_DUMP. (R455) -/
  | trDump
  /-- DUMP_DONE: A tracing dump completes and sets DUMP_DONE. (R455) -/
  | dumpDone
  /-- TELEMETRY_WINDOW: A TELEMETRY instant opens a snapshot into the page not current. (R451) -/
  | telemetryWindow (k : Nat)
  /-- SNAPSHOT_DONE: A telemetry snapshot completes and TR_TELEM_CUR names its page. (R451) -/
  | snapshotDone
  /-- TELEMETRY_WINDOW_END: A window ends with its snapshot incomplete, abandoning it and setting TELEM_LATE. (R451) -/
  | telemetryWindowEnd
  /-- MER_REF_EDGES_DETECTED: MER_REF edges return after a loss and REF_PRESENT becomes 1, so pulses can again be accepted in FREE and the source regained. (R56) -/
  | merRefEdgesDetected
  /-- XL_RING_CTRL_ENABLE: Setting XL_RING_CTRL.ENABLE lets faults that waited unrecorded post their fault records to the ring in fault order. (R346) -/
  | xlRingCtrlEnable
  /-- OLD_RULE_CAPS_EXPIRY: 100,000 mt after a new porch-rules section takes effect, caps that the old rules imposed are dropped if no first evaluation of their channel has released them. (R439) -/
  | oldRuleCapsExpiry
  /-- DEPARTURE_FORWARDING_END: At EFFECTIVE + 100,000 mt a departing device stops keeping its ports UP and stops forwarding. (R269) -/
  | departureForwardingEnd
deriving DecidableEq, Repr

end Sys2Proof
end

