-- ==== Sys2Proof/Config.lean ====
section
/-! DEFINITION. Config.lean: what the spec leaves open or to published standards, as constants without a body: no proof
can see what they are, so a statement holds whatever they are. -/

namespace Sys2Proof.Config

/-- A value that the spec leaves undefined, drawn by the model's own counter (log entry 7). -/
opaque freeValue : Nat → Nat
/-- A value that the spec leaves undefined in a room-call, whose results depend only on what the call reads (R135): a function
of those numbers and of a place (log entries 59 and 60). -/
opaque undefined : List Nat → Nat → Nat

/-- The SM2 signature of a digest by the Alias key that goes with measurement 3 (R446, R448; log entry 8). -/
opaque aliasSign : List Byte → List Byte → List Byte
/-- The certificate of that Alias key by the DeviceID key (R446; log entry 8). -/
opaque aliasCert : List Byte → List Byte
/-- The chain of the Iacel root CA and the DeviceID key, stored in flash at manufacture (R446, R448; log entry 8). -/
opaque deviceChain : List Byte
/-- Whether a certificate chain ends in the DeviceID key (R448; log entry 8). -/
opaque endsInDevice : List Byte → Bool
/-- The version that a keeper image carries (ID_FW_VERSION): the spec does not say where the image holds it. -/
opaque fwVersion : List Byte → Nat
/-- The 16 bytes that Get Endpoint UUID answers (R449): the spec gives no value. -/
opaque endpointUuid : List Byte
/-- The digest of the porch and keeper boot ROMs: measurement 1 (Table 19-6). -/
opaque romDigest : List Byte
/-- The fabricated pairs beneath a stack, four or five of them (R110): the spec does not say which. -/
opaque footprint : Nat → List Nat
/-- Configuration dwords that the standard defines and the manual does not give (Table 13-1). -/
opaque configSpace : Nat → Nat
/-- The dword of configuration space that holds MSI-X Message Control in its upper half: the manual does not place it. -/
opaque msixCap : Nat
/-- Where the Device Serial Number capability begins, in dwords: the manual does not place it. -/
opaque serialCap : Nat
/-- Where the PCIe DVSEC for CXL Devices begins, in dwords. -/
opaque cxlCap : Nat
/-- Where the Flex Bus Port DVSEC begins, in dwords. -/
opaque flexCap : Nat
/-- Where the Register Locator DVSEC begins, in dwords. -/
opaque locatorCap : Nat
/-- The versions that Get MCTP Version Support answers for a message type: the published standards'. -/
opaque mctpVersion : Nat → Nat
/-- The versions that GetPLDMVersion answers for a PLDM type: the published standards'. -/
opaque pldmVersion : Nat → Nat
/-- What a keeper core answers to a debug message of Iacel's (R447): the manual does not give it. -/
opaque debugAnswer : List Byte → List Byte
/-- The device id fused in a part (ID_DEVICE). -/
opaque deviceId : Nat
/-- The SM3 digest of the Iacel root public key, fused (ID_ROOT_HASH). -/
opaque rootHash : List Byte
/-- The porch image that both flash banks hold at delivery. -/
opaque shippedPorch : List Byte
/-- The keeper image that both flash banks hold at delivery. -/
opaque shippedKeeper : List Byte
/-- The DeviceID private key, derived at every boot from the fused unique device secret and measurement 1 (R446; log entry
8). -/
opaque deviceKey : Nat
/-- The signature of a sampled room-call over its SENDs, its held writes and its end: R408 says what it covers and no formula. -/
opaque callSignature : List (Nat × List (BitVec 8)) → List (Nat × List (BitVec 8)) → Option (Nat × Option Nat) → BitVec 64
/-- Which result within its bound a transcendental operation gives for an operand (R212, R122; log entry 41). -/
opaque engineFx : Nat → Nat → Nat

end Sys2Proof.Config
end

