-- ==== Sys2Proof/Machine/Number.lean ====
section
/-! DEFINITION. Machine/Number.lean: the number formats, roundings and conversions of Number formats (R72 to R86), the
check functions CRC-16 (R127) and CRC-32C (R258), and the reproducible generator's mixing function (R134). -/

namespace Sys2Proof.Machine

/-- The floating-point element formats of Table 4-1. -/
inductive Fp where
  | fp32 | bf16 | fp16 | e4 | e5 | e2m1
deriving DecidableEq, Repr

/-- Mantissa width (Table 4-1). -/
def Fp.mbits : Fp → Nat
  | .fp32 => 23 | .bf16 => 7 | .fp16 => 10 | .e4 => 3 | .e5 => 2 | .e2m1 => 1
/-- Exponent width (Table 4-1). -/
def Fp.ebits : Fp → Nat
  | .fp32 => 8 | .bf16 => 8 | .fp16 => 5 | .e4 => 4 | .e5 => 5 | .e2m1 => 2
/-- Exponent bias (Table 4-1). -/
def Fp.bias : Fp → Nat
  | .fp32 => 127 | .bf16 => 127 | .fp16 => 15 | .e4 => 7 | .e5 => 15 | .e2m1 => 1
/-- Bits of the largest finite magnitude (Table 4-1). -/
def Fp.maxBits : Fp → Nat
  | .fp32 => 0x7F7FFFFF | .bf16 => 0x7F7F | .fp16 => 0x7BFF | .e4 => 0x7E | .e5 => 0x7B | .e2m1 => 0x7
/-- Bits of +infinity; FP8-E4 and E2M1 have none (Table 4-1). -/
def Fp.infBits : Fp → Nat
  | .fp32 => 0x7F800000 | .bf16 => 0x7F80 | .fp16 => 0x7C00 | .e4 => 0x7F | .e5 => 0x7C | .e2m1 => 0x7
/-- Bits of the canonical NaN with sign + (R74). -/
def Fp.nanBits : Fp → Nat
  | .fp32 => 0x7FC00000 | .bf16 => 0x7FC0 | .fp16 => 0x7E00 | .e4 => 0x7F | .e5 => 0x7E | .e2m1 => 0x7
/-- Bits of the sign position. -/
def Fp.signBits (f : Fp) : Nat := 1 <<< (f.ebits + f.mbits)
/-- The exponent of the last place of a subnormal, 1 − bias − m (R72). -/
def Fp.qmin (f : Fp) : Int := 1 - (f.bias : Int) - (f.mbits : Int)

/-- A decoded value: a NaN with its sign, an infinity, or the finite number ± m × 2^e exactly (R72, R73). -/
inductive Val where
  | nan (neg : Bool)
  | inf (neg : Bool)
  | fin (neg : Bool) (m : Nat) (e : Int)
deriving DecidableEq, Repr

/-- Decode bits of a format (R72; every subnormal is read, R73). -/
def Fp.decode (f : Fp) (w : Nat) : Val :=
  let w := w % (2 * f.signBits)
  let neg := decide (f.signBits ≤ w)
  let mag := w % f.signBits
  let m := mag % (1 <<< f.mbits)
  let e := mag >>> f.mbits
  if f ≠ .e4 ∧ f ≠ .e2m1 ∧ e = (1 <<< f.ebits) - 1 then (if m = 0 then .inf neg else .nan neg)
  else if f = .e4 ∧ mag = 0x7F then .nan neg
  else if e = 0 then .fin neg m f.qmin
  else .fin neg (m + (1 <<< f.mbits)) (f.qmin + (e : Int) - 1)

/-- How a narrowing conversion rounds: to nearest even, or stochastically with the 16-bit integer r (R81, R82). -/
inductive Rnd where
  | rne
  | stoch (r : Nat)
deriving DecidableEq, Repr

/-- Round the magnitude m × 2^e, or a value strictly above it and below (m + 1) × 2^e when `sticky`, to a multiple of
2^q (R81, R82). The answer is the multiple and whether it is exact. -/
def roundAt (mode : Rnd) (m : Nat) (e q : Int) (sticky : Bool) : Nat :=
  if q ≤ e then m <<< (e - q).toNat
  else
    let k := (q - e).toNat
    let n := m >>> k
    let rem := m % (1 <<< k)
    match mode with
    | .rne =>
      let half := 1 <<< (k - 1)
      if half < rem ∨ (rem = half ∧ (sticky = true ∨ n % 2 = 1)) then n + 1 else n
    | .stoch r => if 65536 ≤ (rem <<< 16) >>> k + r then n + 1 else n

/-- The exponent of the last place to which a format rounds the magnitude m × 2^e (R81). -/
def Fp.quantum (f : Fp) (m : Nat) (e : Int) : Int :=
  max f.qmin ((Nat.log2 m : Int) + e - (f.mbits : Int))

/-- Bits of a magnitude rounded to the format with an unbounded exponent range. -/
def Fp.roundBits (f : Fp) (mode : Rnd) (m : Nat) (e : Int) (sticky : Bool) : Nat :=
  let q := f.quantum m e
  ((q - f.qmin).toNat <<< f.mbits) + roundAt mode m e q sticky

/-- Bits of a finite magnitude in the format, with the overflow column of Table 4-3; a magnitude above the largest finite
value is converted as under RNE (R82). -/
def Fp.encodeMag (f : Fp) (mode : Rnd) (m : Nat) (e : Int) (sticky : Bool) : Nat :=
  if m = 0 then 0
  else
    let down := f.roundBits (.stoch 0) m e sticky
    let exactDown := decide (f.quantum m e ≤ e) || decide (m % (1 <<< (f.quantum m e - e).toNat) = 0 && !sticky)
    let above := decide (f.maxBits < down) || (decide (down = f.maxBits) && !exactDown)
    let w := f.roundBits (if above then .rne else mode) m e sticky
    if w ≤ f.maxBits then w
    else match f with
      | .e4 => 0x7E
      | .e5 => 0x7B
      | .e2m1 => 0x7
      | g => g.infBits

/-- Bits of a value in the format (R74, R81, R84, Table 4-3). -/
def Fp.encodeS (f : Fp) (mode : Rnd) (v : Val) (sticky : Bool) : Nat :=
  match v with
  | .nan neg => f.nanBits + (if neg then f.signBits else 0)
  | .inf neg => f.infBits + (if neg then f.signBits else 0)
  | .fin neg m e => f.encodeMag mode m e sticky + (if neg then f.signBits else 0)

/-- Bits of an exact value in the format. -/
def Fp.encode (f : Fp) (mode : Rnd) (v : Val) : Nat := f.encodeS mode v false

/-- The sign of a value. -/
def Val.neg? : Val → Bool
  | .nan n => n | .inf n => n | .fin n _ _ => n

/-- Zero, of either sign. -/
def Val.isZero : Val → Bool
  | .fin _ m _ => m == 0
  | _ => false

/-- NaN. -/
def Val.isNan : Val → Bool
  | .nan _ => true
  | _ => false

/-- Finite. -/
def Val.isFin : Val → Bool
  | .fin _ _ _ => true
  | _ => false

/-- The value with its sign changed; a NaN changes sign too where an operation is defined to negate. -/
def Val.negate : Val → Val
  | .nan n => .nan (!n) | .inf n => .inf (!n) | .fin n m e => .fin (!n) m e

/-- The exact sum of two values under IEEE 754 (R74): a NaN operand decides first, opposite infinities give NaN +, an
exact zero sum is +0 unless both operands are −0. -/
def Val.add : Val → Val → Val
  | .nan n, _ => .nan n
  | _, .nan n => .nan n
  | .inf a, .inf b => if a = b then .inf a else .nan false
  | .inf a, .fin _ _ _ => .inf a
  | .fin _ _ _, .inf b => .inf b
  | .fin na ma ea, .fin nb mb eb =>
    let e := min ea eb
    let x : Int := ((ma <<< (ea - e).toNat : Nat) : Int)
    let y : Int := ((mb <<< (eb - e).toNat : Nat) : Int)
    let s : Int := (if na then -x else x) + (if nb then -y else y)
    if s = 0 then .fin (na && nb && decide (ma = 0) && decide (mb = 0)) 0 e
    else .fin (decide (s < 0)) s.natAbs e

/-- The exact product of two values under IEEE 754 (R74). -/
def Val.mul : Val → Val → Val
  | .nan n, _ => .nan n
  | _, .nan n => .nan n
  | .inf a, .inf b => .inf (xor a b)
  | .inf a, .fin b m _ => if m = 0 then .nan false else .inf (xor a b)
  | .fin a m _, .inf b => if m = 0 then .nan false else .inf (xor a b)
  | .fin a m e, .fin b n f => .fin (xor a b) (m * n) (e + f)

/-- The exact value of a × b + c; NaN operands decide in the order a, b, c (R74). Where an accumulation uses it, R74's operand
order and its order of a reduction can both be read: the model takes both factors before the partial (log entry 154). -/
def Val.fma (a b c : Val) : Val :=
  match a, b, c with
  | .nan n, _, _ => .nan n
  | _, .nan n, _ => .nan n
  | _, _, .nan n => .nan n
  | a, b, c => (a.mul b).add c

/-- The exact value of c + a × b; the earlier partial c decides before the factors (R74's order of a reduction). -/
def Val.mac (c a b : Val) : Val :=
  match c with
  | .nan n => .nan n
  | c => a.fma b c

/-- An FP32 bit pattern as a value. -/
def fv (w : Word) : Val := Fp.fp32.decode w.toNat

/-- A value rounded to FP32 under RNE. -/
def vf (v : Val) : Word := BitVec.ofNat 32 (Fp.fp32.encode .rne v)

/-- Canonical FP32 NaN with sign + (R74). -/
def nan32 : Word := 0x7FC00000#32
/-- FP32 one. -/
def one32 : Word := 0x3F800000#32
/-- The largest finite FP32 value (R132). -/
def fp32max : Word := 0x7F7FFFFF#32

/-- FP32 sum, rounded once under RNE. -/
def f32add (a b : Word) : Word := vf ((fv a).add (fv b))

/-- FP32 difference; a NaN subtrahend keeps its own sign (R74). -/
def f32sub (a b : Word) : Word :=
  match fv a, fv b with
  | .nan n, _ => vf (.nan n)
  | _, .nan n => vf (.nan n)
  | x, y => vf (x.add y.negate)

/-- FP32 product. -/
def f32mul (a b : Word) : Word := vf ((fv a).mul (fv b))

/-- FP32 fused a × b + c, rounded once. -/
def f32fma (a b c : Word) : Word := vf ((fv a).fma (fv b) (fv c))

/-- FP32 fused c + a × b of a reduction, rounded once. -/
def f32mac (c a b : Word) : Word := vf ((fv c).mac (fv a) (fv b))

/-- An FP32 value with the opposite sign; a NaN keeps its own and is canonical (R74). -/
def f32neg (a : Word) : Word :=
  match fv a with
  | .nan n => vf (.nan n)
  | v => vf v.negate

/-- The magnitude of an FP32 value; a NaN keeps its own sign and is canonical (R74). -/
def f32mag (a : Word) : Word :=
  match fv a with
  | .nan n => vf (.nan n)
  | _ => a &&& 0x7FFFFFFF#32

/-- The quotient of two finite values, the second not zero: its value to 80 bits and whether it lies strictly above. -/
def divFin (na : Bool) (ma : Nat) (ea : Int) (nb : Bool) (mb : Nat) (eb : Int) : Val × Bool :=
  let k := 80 + Nat.log2 mb
  let q := (ma <<< k) / mb
  (.fin (xor na nb) q (ea - eb - (k : Int)), decide ((ma <<< k) % mb ≠ 0))

/-- The quotient of two values with its sticky bit, under IEEE 754 (R74, R122). -/
def Val.div : Val → Val → Val × Bool
  | .nan n, _ => (.nan n, false)
  | _, .nan n => (.nan n, false)
  | .inf _, .inf _ => (.nan false, false)
  | .inf a, .fin b _ _ => (.inf (xor a b), false)
  | .fin a _ _, .inf b => (.fin (xor a b) 0 0, false)
  | .fin a m e, .fin b n f =>
    if n = 0 then (if m = 0 then (.nan false, false) else (.inf (xor a b), false))
    else divFin a m e b n f

/-- FP32 quotient, correctly rounded (R122). -/
def f32div (a b : Word) : Word :=
  let q := (fv a).div (fv b)
  BitVec.ofNat 32 (Fp.fp32.encodeS .rne q.1 q.2)

/-- The integer square root of n, found from bit `k` − 1 down, above the root r found so far. -/
def isqrtFrom (n : Nat) : Nat → Nat → Nat
  | 0, r => r
  | k + 1, r => if (r + (1 <<< k)) * (r + (1 <<< k)) ≤ n then isqrtFrom n k (r + (1 <<< k)) else isqrtFrom n k r

/-- The integer square root. -/
def isqrt (n : Nat) : Nat := isqrtFrom n (Nat.log2 n / 2 + 1) 0

/-- The square root of a value with its sticky bit: −0 keeps its sign, a negative number gives NaN + (R74, R122). -/
def Val.sqrt : Val → Val × Bool
  | .nan n => (.nan n, false)
  | .inf false => (.inf false, false)
  | .inf true => (.nan false, false)
  | .fin n m e =>
    if m = 0 then (.fin n 0 0, false)
    else if n then (.nan false, false)
    else
      let m2 := if e % 2 = 0 then m else 2 * m
      let e2 := if e % 2 = 0 then e else e - 1
      let x := m2 <<< 128
      (.fin false (isqrt x) (e2 / 2 - 64), decide (isqrt x * isqrt x ≠ x))

/-- FP32 square root, correctly rounded (R122). -/
def f32sqrt (a : Word) : Word :=
  let q := (fv a).sqrt
  BitVec.ofNat 32 (Fp.fp32.encodeS .rne q.1 q.2)

/-- 1 / sqrt of a value with its sticky bit. The root of ±0 is infinity of that sign; a negative number gives NaN +. -/
def Val.rsqrt : Val → Val × Bool
  | .nan n => (.nan n, false)
  | .inf false => (.fin false 0 0, false)
  | .inf true => (.nan false, false)
  | .fin n m e =>
    if m = 0 then (.inf n, false)
    else if n then (.nan false, false)
    else
      let m2 := if e % 2 = 0 then m else 2 * m
      let e2 := if e % 2 = 0 then e else e - 1
      let k := 80 + Nat.log2 m2
      let r := isqrt ((1 <<< (2 * k)) / m2)
      (.fin false r (-(e2 / 2) - (k : Int)), decide (r * r * m2 ≠ 1 <<< (2 * k)))

/-- The correctly rounded FP32 reciprocal square root. -/
def f32rsqrtExact (a : Word) : Word :=
  let q := (fv a).rsqrt
  BitVec.ofNat 32 (Fp.fp32.encodeS .rne q.1 q.2)

/-- Whether a < b as numbers; false if either is a NaN. Both zeros are equal (R73). -/
def Val.lt : Val → Val → Bool
  | .nan _, _ => false
  | _, .nan _ => false
  | .inf a, .inf b => a && !b
  | .inf a, .fin _ _ _ => a
  | .fin _ _ _, .inf b => !b
  | .fin na ma ea, .fin nb mb eb =>
    let e := min ea eb
    let x : Int := ((ma <<< (ea - e).toNat : Nat) : Int)
    let y : Int := ((mb <<< (eb - e).toNat : Nat) : Int)
    decide ((if na then -x else x) < (if nb then -y else y))

/-- FP32 less-than. -/
def f32lt (a b : Word) : Bool := (fv a).lt (fv b)

/-- The greater of a and b under R122: a NaN operand gives a canonical NaN with the sign of the first NaN; operands that
compare equal give a. -/
def f32max (a b : Word) : Word :=
  match fv a, fv b with
  | .nan n, _ => vf (.nan n)
  | _, .nan n => vf (.nan n)
  | x, y => if x.lt y then b else a

/-- The lesser of a and b under R122. -/
def f32min (a b : Word) : Word :=
  match fv a, fv b with
  | .nan n, _ => vf (.nan n)
  | _, .nan n => vf (.nan n)
  | x, y => if y.lt x then b else a

/-- Whether an FP32 pattern is a NaN. -/
def f32nan (a : Word) : Bool := (fv a).isNan
/-- Whether an FP32 pattern is finite. -/
def f32fin (a : Word) : Bool := (fv a).isFin
/-- Whether an FP32 pattern is finite, positive and normal (R78). -/
def f32posNormal (a : Word) : Bool := decide (0x00800000#32 ≤ a) && decide (a ≤ fp32max)
/-- Magnitude of an FP32 pattern. -/
def f32abs (a : Word) : Word := a &&& 0x7FFFFFFF#32

/-- A two's complement integer as a value. -/
def intVal (i : Int) : Val := .fin (decide (i < 0)) i.natAbs 0

/-- Conversion of a value to an integer with saturation (R86): NaN gives 0, infinities saturate by sign. -/
def Val.toInt (mode : Rnd) (lo hi : Int) : Val → Int
  | .nan _ => 0
  | .inf n => if n then lo else hi
  | .fin n m e =>
    let k := roundAt mode m e 0 false
    let i : Int := if n then -(k : Int) else (k : Int)
    max lo (min hi i)

/-- FP32 to INT32 (R86). -/
def f32toInt32 (mode : Rnd) (a : Word) : Word :=
  BitVec.ofInt 32 ((fv a).toInt mode (-2147483648) 2147483647)

/-- INT32 to FP32 under the mode (R86). -/
def int32toF32 (mode : Rnd) (a : Word) : Word := BitVec.ofNat 32 (Fp.fp32.encode mode (intVal a.toInt))

/-- The value of 2^k. -/
def pow2 (k : Int) : Val := .fin false 1 k

/-- Sum of the FP32 values of a list in a pairwise tree of `depth` levels (R217): neighbours first. -/
def treeSum : Nat → List Word → Word
  | 0, xs => xs.headD 0#32
  | k + 1, xs =>
    let h := xs.length / 2
    f32add (treeSum k (xs.take h)) (treeSum k (xs.drop h))

/-! ### Check functions -/

/-- One bit step of CRC-16 with polynomial 0x1021 (R127). -/
def crc16Step (c : Nat) : Nat :=
  if c &&& 0x8000 ≠ 0 then ((c <<< 1) ^^^ 0x1021) &&& 0xFFFF else (c <<< 1) &&& 0xFFFF

/-- `n` bit steps. -/
def crc16Steps : Nat → Nat → Nat
  | 0, c => c
  | n + 1, c => crc16Steps n (crc16Step c)

/-- CRC-16 of bytes in address order, most significant bit first (R127). -/
def crc16 (bs : List Byte) : Nat := bs.foldl (fun c b => crc16Steps 8 (c ^^^ (b.toNat <<< 8))) 0xFFFF

/-- One bit step of the reflected CRC-32C (R258). -/
def crc32cStep (c : Nat) : Nat := if c % 2 = 1 then (c >>> 1) ^^^ 0x82F63B78 else c >>> 1

/-- `n` bit steps. -/
def crc32cSteps : Nat → Nat → Nat
  | 0, c => c
  | n + 1, c => crc32cSteps n (crc32cStep c)

/-- CRC-32C of bytes (R258). -/
def crc32c (bs : List Byte) : Word :=
  BitVec.ofNat 32 ((bs.foldl (fun c b => crc32cSteps 8 (c ^^^ b.toNat)) 0xFFFFFFFF) ^^^ 0xFFFFFFFF)

/-! ### The reproducible generator -/

/-- The mixing function of R134. -/
def mix (z : DWord) : DWord :=
  let z := (z ^^^ (z >>> 30)) * 0xBF58476D1CE4E5B9#64
  let z := (z ^^^ (z >>> 27)) * 0x94D049BB133111EB#64
  z ^^^ (z >>> 31)

/-- The generator key of R134 from step, table and stream. -/
def genKey (step table stream : Nat) : DWord :=
  (BitVec.ofNat 64 step <<< 32) ||| (BitVec.ofNat 64 table <<< 20) ||| (BitVec.ofNat 64 stream <<< 16)

/-- One draw: z of R134 for a key, a row and a counter. -/
def genDraw (key : DWord) (row ctr : Nat) : DWord :=
  let x := (BitVec.ofNat 64 row <<< 32) ||| BitVec.ofNat 64 ctr
  mix (mix (x ^^^ key) + key)

/-- The 16-bit random integer of a stochastic rounding, z[63:48] (R134). -/
def draw16 (z : DWord) : Nat := (z >>> 48).toNat

end Sys2Proof.Machine
end

