-- ==== Sys2Proof/Machine/Real.lean ====
section
/-! DEFINITION. Machine/Real.lean: exponentials and logarithms in fixed point with 320 fraction bits, for the
transcendental stages (R212, Table 9-4), β2 (R232) and the room core's FRSQ (R122). -/

namespace Sys2Proof.Machine

/-- 1.0 in fixed point. -/
def fxOne : Int := 2 ^ 320
/-- ln 2 in fixed point. -/
def fxLn2 : Int := 1480553391661173448385607439722553250922680800745876974795605978609098082859138712941075737848984
/-- 1 / sqrt(2 pi) in fixed point. -/
def fxInvSqrt2Pi : Int := 852135539018184763820396513245673747463731821652439675318870577517399952981679869195813084020151

/-- Product in fixed point. -/
def fxMul (a b : Int) : Int := a * b / fxOne
/-- Quotient in fixed point. -/
def fxDiv (a b : Int) : Int := a * fxOne / b

/-- A finite value m × 2^e, e at least −320, in fixed point. -/
def fxOf (neg : Bool) (m : Nat) (e : Int) : Int :=
  let v : Int := ((m <<< (e + 320).toNat : Nat) : Int)
  if neg then -v else v

/-- Terms of the exponential series from term number `n` on, `t` being the term before. -/
def expTerms (r : Int) : Nat → Nat → Int → Int → Int
  | 0, _, _, acc => acc
  | f + 1, n, t, acc =>
    let t' := fxMul t r / (n : Int)
    expTerms r f (n + 1) t' (acc + t')

/-- e^x as a mantissa in [1, 2] and a power of two. -/
def fxExp (x : Int) : Int × Int :=
  let k := x / fxLn2
  let r := x - k * fxLn2
  (expTerms r 90 1 fxOne fxOne, k)

/-- e^x in fixed point; x at most 1,024. -/
def fxExpFixed (x : Int) : Int :=
  let p := fxExp x
  if 0 ≤ p.2 then p.1 * 2 ^ p.2.toNat else p.1 / 2 ^ (-p.2).toNat

/-- Terms s^(2n+1)/(2n+1) from n on. -/
def atanhTerms (s2 : Int) : Nat → Nat → Int → Int → Int
  | 0, _, _, acc => acc
  | f + 1, n, p, acc => atanhTerms s2 f (n + 1) (fxMul p s2) (acc + p / (2 * (n : Int) + 1))

/-- ln(m × 2^e) for m above 0. -/
def fxLn (m : Nat) (e : Int) : Int :=
  let l := Nat.log2 m
  let f : Int := if l ≤ 320 then ((m <<< (320 - l) : Nat) : Int) else ((m >>> (l - 320) : Nat) : Int)
  let s := fxDiv (f - fxOne) (f + fxOne)
  (e + (l : Int)) * fxLn2 + 2 * atanhTerms (fxMul s s) 110 0 s 0

/-- Terms of x + x³/3 + x⁵/15 + …, for the normal distribution function. -/
def phiTerms (x2 : Int) : Nat → Nat → Int → Int → Int
  | 0, _, _, acc => acc
  | f + 1, n, t, acc =>
    let t' := fxMul t x2 / (2 * (n : Int) + 1)
    phiTerms x2 f (n + 1) t' (acc + t')

/-- The normal distribution function, |x| at most 16. -/
def fxPhi (x : Int) : Int :=
  let d := fxMul fxInvSqrt2Pi (fxExpFixed (-(fxMul x x) / 2))
  fxOne / 2 + fxMul d (phiTerms (fxMul x x) 700 1 x x)

/-- A fixed-point number as a value. -/
def fxVal (v : Int) : Val := .fin (decide (v < 0)) v.natAbs (-320)

/-! ### Results within a bound of the exact one (R212) -/

/-- A result at most `n` ulp from the exactly rounded `r`: which one is not known, and it depends on operation and operand
alone (R212; log entry 41). An ulp is that of `r`. -/
def within (n op : Nat) (x r : Word) : Word :=
  match fv r with
  | .fin neg m e =>
    let c : Int := ((Config.engineFx op x.toNat % (4 * n + 1) : Nat) : Int) - 2 * (n : Int)
    if c = 0 then r
    else
      let q := Fp.fp32.quantum m e - 1
      let v : Int := ((m <<< (e - q).toNat : Nat) : Int)
      let w := (if neg then -v else v) + c
      vf (.fin (decide (w < 0)) w.natAbs q)
  | _ => r

/-- The exactly rounded result of a transcendental operation: 0 EXP, 1 LOG, 2 TANH, 3 SIGMOID, 4 GELU, 5 SILU, 6 SOFTPLUS,
for a finite operand that is not zero. -/
def fxResult (op : Nat) (neg : Bool) (m : Nat) (e : Int) : Word :=
  let big := decide ((2 : Nat) ^ 10 ≤ m * 2 ^ e.toNat / 2 ^ (-e).toNat)
  let x := fxOf neg m e
  let fin (v : Val) : Word := BitVec.ofNat 32 (Fp.fp32.encodeS .rne v true)
  match op with
  | 0 =>
    if big then (if neg then 0#32 else 0x7F800000#32)
    else let p := fxExp x; fin (.fin false p.1.natAbs (p.2 - 320))
  | 1 => if neg then nan32 else if m <<< e.toNat = 1 <<< (-e).toNat then 0#32 else fin (fxVal (fxLn m e))
  | 2 =>
    if big then (if neg then 0xBF800000#32 else one32)
    else
      let y := fxExpFixed (-2 * x.natAbs)
      let t := fxDiv (fxOne - y) (fxOne + y)
      fin (.fin neg t.natAbs (-320))
  | 3 =>
    if big then (if neg then 0#32 else one32)
    else
      let y := fxExpFixed (-(x.natAbs : Int))
      fin (fxVal (if neg then fxDiv y (fxOne + y) else fxDiv fxOne (fxOne + y)))
  | 4 =>
    if 16 * fxOne ≤ (x.natAbs : Int) then (if neg then 0x80000000#32 else vf (.fin neg m e))
    else
      let v := fxMul x (fxPhi x)
      fin (.fin neg v.natAbs (-320))
  | 5 =>
    if big then (if neg then 0x80000000#32 else vf (.fin neg m e))
    else
      let y := fxExpFixed (-(x.natAbs : Int))
      let g := if neg then fxDiv y (fxOne + y) else fxDiv fxOne (fxOne + y)
      fin (.fin neg (fxMul x g).natAbs (-320))
  | _ =>
    if big then (if neg then 0#32 else vf (.fin neg m e))
    else
      let y := fxExpFixed (-(x.natAbs : Int))
      let l := fxLn (fxOne + y).natAbs (-320)
      fin (fxVal (if neg then l else x + l))

/-- The error bound of each operation in ulp (Table 9-4). -/
def fxBound : Nat → Nat
  | 0 => 1 | 1 => 1 | 4 => 4 | 5 => 3 | _ => 2

/-- A transcendental stage (R212, Table 9-4): its edges are exact, every other result lies within the bound. -/
def transcend (op : Nat) (x : Word) : Word :=
  match fv x with
  | .nan n => vf (.nan n)
  | .inf neg =>
    match op with
    | 0 => if neg then 0#32 else x
    | 1 => if neg then nan32 else x
    | 2 => if neg then 0xBF800000#32 else one32
    | 3 => if neg then 0#32 else one32
    | 4 | 5 => if neg then 0x80000000#32 else x
    | _ => if neg then 0#32 else x
  | .fin neg m e =>
    if m = 0 then
      match op with
      | 0 => within 1 0 x one32
      | 1 => 0xFF800000#32
      | 3 => within 2 3 x 0x3F000000#32
      | 6 => within 2 6 x 0x3F317218#32
      | o => within (fxBound o) o x x
    else if op = 0 ∧ neg = false ∧ 0x42B17218#32 ≤ x then 0x7F800000#32
    else if op = 0 ∧ neg = true ∧ 0xC2CFF1B5#32 ≤ x then 0#32
    else if op = 1 ∧ neg = true then nan32
    else within (fxBound op) op x (fxResult op neg m e)

/-- RSQRT (R212): correctly rounded, or at most 1 ulp away; RSQRT(+0) is +∞, a negative operand gives NaN. -/
def engineRsqrt (x : Word) : Word :=
  if x = 0x80000000#32 then 0xFF800000#32 else if x = 0x7F800000#32 then 0#32 else within 1 7 x (f32rsqrtExact x)

/-- RCP (R211, R212): RCP(±0) is ±∞, and of an infinity the zero of its sign. -/
def engineRcp (x : Word) : Word :=
  if f32mag x = 0x7F800000#32 then x &&& 0x80000000#32 else within 1 8 x (f32div one32 x)

/-! ### Binary64 (R232) -/

/-- Round a positive magnitude m × 2^e, not exact, to binary64's 53 bits. -/
def round64 (m : Nat) (e : Int) (sticky : Bool) : Nat × Int :=
  let q : Int := (Nat.log2 m : Int) + e - 52
  (roundAt .rne m e q sticky, q)

/-- β2 of step t and κ (R232). -/
def beta2 (t : Nat) (kappa : Word) : Word :=
  if t ≤ 1 then 0#32
  else
    match fv kappa with
    | .fin _ km ke =>
      let exactLog := decide (t = 2 ^ Nat.log2 t)
      let l := if exactLog then (Nat.log2 t, (0 : Int)) else
        round64 (fxDiv (fxLn t 0) fxLn2).natAbs (-320) true
      let p := round64 (km * l.1) (ke + l.2) false
      let whole := decide (0 ≤ p.2) || decide (p.1 % 2 ^ (-p.2).toNat = 0)
      let pv := fxOf false p.1 p.2
      let w : Nat × Int :=
        if whole then (1, -(pv / fxOne))
        else
          let x := fxExp (-(fxMul pv fxLn2))
          round64 x.1.natAbs (x.2 - 320) true
      let d : Int := fxOne - fxOf false w.1 w.2
      vf (fxVal d)
    | _ => nan32

end Sys2Proof.Machine
end

