-- ==== Sys2Proof/Machine/SMap.lean ====
section
/-! DEFINITION. Machine/SMap.lean: sparse tables keyed by a number, in one canonical form: keys strictly rising, and no
entry equal to what an unlisted key reads as. Equal tables are equal lists. -/

namespace Sys2Proof.Machine

/-- A sparse table: what an unlisted key reads as is a function of the key that every reader and writer names. -/
abbrev SMap (α : Type) := List (Nat × α)

/-- What the table reads at `k`. -/
def SMap.get {α : Type} (d : Nat → α) : SMap α → Nat → α
  | [], k => d k
  | (a, v) :: m, k => if k = a then v else if k < a then d k else SMap.get d m k

/-- Put `v` at `k` in front of a table whose keys are all above `k`; nothing where `v` is what `k` reads as anyway. -/
def SMap.cons {α : Type} [DecidableEq α] (d : Nat → α) (k : Nat) (v : α) (m : SMap α) : SMap α :=
  if v = d k then m else (k, v) :: m

/-- The table with `v` at `k`, in canonical form. -/
def SMap.set {α : Type} [DecidableEq α] (d : Nat → α) : SMap α → Nat → α → SMap α
  | [], k, v => SMap.cons d k v []
  | (a, w) :: m, k, v =>
    if k = a then SMap.cons d k v m
    else if k < a then SMap.cons d k v ((a, w) :: m)
    else (a, w) :: SMap.set d m k v

/-- The table without the keys that `p` holds of: they read as unlisted. -/
def SMap.drop {α : Type} (p : Nat → Bool) (m : SMap α) : SMap α := m.filter (fun e => !p e.1)

/-- The canonical form. -/
abbrev SMap.Wf {α : Type} (d : Nat → α) (m : SMap α) : Prop :=
  m.Pairwise (fun a b => a.1 < b.1) ∧ ∀ e ∈ m, e.2 ≠ d e.1

end Sys2Proof.Machine
end

