-- ==== Sys2Proof/Machine/Bytes.lean ====
section
/-! DEFINITION. Machine/Bytes.lean: little-endian fields of byte strings (R6), and the one byte-addressed memory. -/

namespace Sys2Proof.Machine

/-- The unsigned number held by `n` bytes from `off`, least significant first (R6); bytes beyond the end read 0. -/
def le (bs : List Byte) (off : Nat) : Nat → Nat
  | 0 => 0
  | n + 1 => (bs.getD off 0#8).toNat + 256 * le bs (off + 1) n

/-- One byte field. -/
def u8 (bs : List Byte) (off : Nat) : Nat := le bs off 1
/-- One 16-bit field. -/
def u16 (bs : List Byte) (off : Nat) : Nat := le bs off 2
/-- One 32-bit field. -/
def u32 (bs : List Byte) (off : Nat) : Nat := le bs off 4
/-- One 64-bit field. -/
def u64 (bs : List Byte) (off : Nat) : Nat := le bs off 8

/-- `n` bytes from `off`; short where the string ends. -/
def slice (bs : List Byte) (off n : Nat) : List Byte := (bs.drop off).take n

/-- A number as `n` bytes, least significant first (R6). -/
def bytesOf (v : Nat) : Nat → List Byte
  | 0 => []
  | n + 1 => BitVec.ofNat 8 v :: bytesOf (v / 256) n

/-- Whether bit `i` of a number is 1 (R5). -/
def bit (v i : Nat) : Bool := v.testBit i

/-- Bits [hi:lo] of a number. -/
def bits (v hi lo : Nat) : Nat := v / 2 ^ lo % 2 ^ (hi + 1 - lo)

/-- Strings of bytes of width `w`, one after another. -/
def chunks (bs : List Byte) (w : Nat) : Nat → List (List Byte)
  | 0 => []
  | n + 1 => bs.take w :: chunks (bs.drop w) w n

/-- `n` zero bytes. -/
def zeros (n : Nat) : List Byte := List.replicate n 0#8

/-- Byte memory: what an unlisted address reads as is 0 (log entry 3). -/
abbrev Mem := SMap Byte

/-- What an unlisted byte of memory reads as (log entry 3: DESIGN CHOICE, unsafe). -/
def memDflt : Nat → Byte := fun _ => 0#8

/-- The canonical form of memory. -/
abbrev Mem.wf (m : Mem) : Prop := SMap.Wf memDflt m

/-- `n` bytes from `a`, where an unlisted byte reads as `d` says. -/
def Mem.readD (d : Nat → Byte) (m : Mem) (a : Nat) : Nat → List Byte
  | 0 => []
  | n + 1 => SMap.get d m a :: Mem.readD d m (a + 1) n

/-- Write bytes from `a` up, where an unlisted byte reads as `d` says. -/
def Mem.writeD (d : Nat → Byte) (m : Mem) (a : Nat) : List Byte → Mem
  | [] => m
  | b :: bs => Mem.writeD d (SMap.set d m a b) (a + 1) bs

/-- One byte. -/
def Mem.byte (m : Mem) (a : Nat) : Byte := SMap.get memDflt m a

/-- `n` bytes from `a`. -/
def Mem.read (m : Mem) (a n : Nat) : List Byte := Mem.readD memDflt m a n

/-- Write bytes from `a` up. -/
def Mem.write (m : Mem) (a : Nat) (bs : List Byte) : Mem := Mem.writeD memDflt m a bs

end Sys2Proof.Machine
end

