-- ==== Sys2Proof/Machine/Elems.lean ====
section
/-! DEFINITION. Machine/Elems.lean: elements in row records (R113, Table 7-6) and in tensor blocks (R80, R185), and the
encoding of groups (R85). -/

namespace Sys2Proof.Machine

/-- The floating-point format of an element format code (Table 6-2); BS8 holds FP8-E4 elements and BS4 E2M1 (R76). -/
def fmtFp : Nat → Fp
  | 0 => .fp32 | 1 => .bf16 | 2 => .fp16 | 3 => .e4 | 4 => .e5 | 5 => .e4 | _ => .e2m1

/-- Bits of one element of a format code (Table 7-6). -/
def fmtBits : Nat → Nat
  | 0 => 32 | 1 => 16 | 2 => 16 | 6 => 4 | _ => 8

/-- Whether the format has block scales (R76). -/
def fmtBlock (f : Nat) : Bool := f == 5 || f == 6

/-- The value 2^(X − 127) times a decoded element (R75 to R77), as FP32 with R79's overflow. -/
def scaled (v : Val) (x : Nat) : Val :=
  if x = 0xFF then .nan false
  else match v with
    | .fin n m e => fv (vf (.fin n m (e + (x : Int) - 127)))
    | w => w

/-- A signed byte (R86). -/
def int8Val (b : Nat) : Val := intVal (if 128 ≤ b then (b : Int) - 256 else (b : Int))

/-- Element `j` of `bs`, whose elements begin at byte `o`, without block scale. -/
def plainElem (fmt : Nat) (bs : List Byte) (o j : Nat) : Val :=
  match fmt with
  | 0 => Fp.fp32.decode (le bs (o + 4 * j) 4)
  | 1 => Fp.bf16.decode (le bs (o + 2 * j) 2)
  | 2 => Fp.fp16.decode (le bs (o + 2 * j) 2)
  | 7 => int8Val (u8 bs (o + j))
  | 6 => Fp.e2m1.decode (if j % 2 = 0 then u8 bs (o + j / 2) % 16 else u8 bs (o + j / 2) / 16)
  | f => (fmtFp f).decode (u8 bs (o + j))

/-! ### Row records (R151) -/

/-- Bytes of the element area of a record of `d` elements (Table 7-6). -/
def areaBytes (fmt d : Nat) : Nat := d * fmtBits fmt / 8 + (if fmtBlock fmt then d / 16 else 0)

/-- Record length L (R151). -/
def recLen (fmt d : Nat) : Nat := (32 + areaBytes fmt d + 63) / 64 * 64

/-- The decoded value of element `j` of a record, before the row scale (R76, R79). -/
def recElem (fmt d : Nat) (r : List Byte) (j : Nat) : Val :=
  let v := plainElem fmt r 32 j
  if fmtBlock fmt then scaled v (u8 r (32 + d * fmtBits fmt / 8 + j / 16)) else v

/-- The decoded value of element `j` of a record (R113): times the row scale, rounded once. -/
def recVal (fmt d : Nat) (r : List Byte) (j : Nat) : Word :=
  vf ((recElem fmt d r j).mul (Fp.fp32.decode (u32 r 0)))

/-- The record's bytes with its check field taken as zero (R127). -/
def uncheck (r : List Byte) : List Byte := r.take 12 ++ [0#8, 0#8] ++ r.drop 14

/-- Whether a record image passes its row check (R127). -/
def rowCheckOk (r : List Byte) : Bool := crc16 (uncheck r) == u16 r 12

/-- The record with its check computed anew (R127). -/
def withCheck (r : List Byte) : List Byte := r.take 12 ++ bytesOf (crc16 (uncheck r)) 2 ++ r.drop 14

/-! ### Encoding (R84, R85) -/

/-- The block exponent s of a group (R85): the least s with amax ≤ emax × 2^s, clamped. -/
def groupExp (bs8 : Bool) (amax : Val) : Int :=
  match amax with
  | .fin _ m e =>
    let c : Nat := if bs8 then 7 else 3
    let k : Int := if bs8 then 6 else 1
    let lc : Nat := if bs8 then 2 else 1
    let l := Nat.log2 m
    let s0 : Int := e + (l : Int) - k - (lc : Int)
    let s := if m <<< lc ≤ c <<< l then s0 else s0 + 1
    max (-127) (min 127 s)
  | _ => 127

/-- Block scale and element codes of a group of 16 FP32 values (R85); `mode i` rounds element i. -/
def encodeGroup (bs8 : Bool) (xs : List Word) (mode : Nat → Rnd) : Nat × List Nat :=
  if xs.any (fun w => !f32fin w) then (0xFF, xs.map (fun _ => 0))
  else
    let fmt := if bs8 then Fp.e4 else Fp.e2m1
    let amax := xs.foldl (fun a w => if a < f32abs w then f32abs w else a) 0#32
    if amax = 0#32 then (127, xs.map (fun w => if w = 0#32 then 0 else fmt.signBits))
    else
      let s := groupExp bs8 (fv amax)
      let codes := xs.zipIdx.map (fun p =>
        match fv p.1 with
        | .fin n m e => fmt.encode (mode p.2) (.fin n m (e - s))
        | v => fmt.encode (mode p.2) v)
      ((s + 127).toNat, codes)

/-- Two nibbles to a byte, the lower element in bits [3:0] (R80). -/
def packNibbles : List Nat → List Byte
  | a :: b :: r => BitVec.ofNat 8 (a % 16 + 16 * (b % 16)) :: packNibbles r
  | [a] => [BitVec.ofNat 8 (a % 16)]
  | [] => []

/-- An FP32 value as one element of a plain format, little-endian (R84, R86). -/
def encodeElem (fmt : Nat) (mode : Rnd) (w : Word) : List Byte :=
  match fmt with
  | 7 => bytesOf (BitVec.ofInt 8 ((fv w).toInt mode (-128) 127)).toNat 1
  | f => bytesOf ((fmtFp f).encode mode (fv w)) (fmtBits f / 8)

/-! ### Tensor blocks (Table 4-2, Table 8-7) -/

/-- Elements of one 256-byte tensor block. -/
def blockElems : Nat → Nat
  | 0 => 64 | 1 => 128 | 2 => 128 | 5 => 240 | 6 => 448 | _ => 256

/-- Element `e` of a 256-byte tensor block (R80). -/
def blockElem (fmt : Nat) (blk : List Byte) (e : Nat) : Val :=
  match fmt with
  | 5 => scaled (plainElem 5 blk 0 e) (u8 blk (240 + e / 16))
  | 6 => scaled (plainElem 6 blk 0 e) (u8 blk (224 + e / 16))
  | f => plainElem f blk 0 e

/-- Elements of one sparse block (Table 8-7). -/
def sparseElems (fmt : Nat) : Nat := if fmt = 6 then 576 else 320

/-- The number of ones among the low `n` bits. -/
def popBelow (v : Nat) : Nat → Nat
  | 0 => 0
  | n + 1 => popBelow v n + (if v.testBit n then 1 else 0)

/-- The occupancy byte that covers element `e` of a sparse block (Table 8-7). -/
def occupancy (fmt : Nat) (blk : List Byte) (e : Nat) : Nat :=
  u8 blk ((if fmt = 6 then 144 else 160) + 2 * (e / 16) + e / 8 % 2)

/-- Element `e` of a sparse block (R185): +0 where its occupancy bit is 0. -/
def sparseElem (fmt : Nat) (blk : List Byte) (e : Nat) : Val :=
  let occ := occupancy fmt blk e
  if !occ.testBit (e % 8) then .fin false 0 0
  else
    let g := e / 16
    let slot := 8 * g + 4 * (e / 8 % 2) + popBelow occ (e % 8)
    match fmt with
    | 5 => scaled (plainElem 5 blk 0 slot) (u8 blk (200 + g))
    | 6 => scaled (plainElem 6 blk 0 slot) (u8 blk (216 + g))
    | f => plainElem f blk 0 slot

/-- A 256-byte block of a plain or block format built from FP32 values that start at element `e0` of it, over the old
block. Values past the format's elements are dropped, and the Reserved bytes of Table 4-2 are 0. `mode i` rounds value i
(R215). -/
def packBlock (fmt : Nat) (old : List Byte) (e0 : Nat) (xs : List Word) (mode : Nat → Rnd) : List Byte :=
  if fmtBlock fmt then
    let bs8 := fmt == 5
    let w := if bs8 then 16 else 8
    let groups := (List.range (xs.length / 16)).map (fun g =>
      (e0 / 16 + g, encodeGroup bs8 (slice' xs (16 * g)) (fun i => mode (16 * g + i))))
    let all := groups.foldl (fun b g =>
      let bytes := if bs8 then g.2.2.map (fun c => BitVec.ofNat 8 c) else packNibbles g.2.2
      let o := w * g.1
      let so := (if bs8 then 240 else 224) + g.1
      let b := b.take o ++ bytes ++ b.drop (o + w)
      b.take so ++ [BitVec.ofNat 8 g.2.1] ++ b.drop (so + 1)) old
    let n := if bs8 then 255 else 252
    all.take n ++ zeros (all.length - n)
  else
    let k := fmtBits fmt / 8
    let bytes := (xs.zipIdx.map (fun p => encodeElem fmt (mode p.2) p.1)).flatten
    old.take (k * e0) ++ bytes ++ old.drop (k * e0 + bytes.length)
where
  /-- Sixteen values from `o`. -/
  slice' (xs : List Word) (o : Nat) : List Word := (xs.drop o).take 16

end Sys2Proof.Machine
end

