-- ==== Sys2Proof/Machine/Crypto.lean ====
section
/-! DEFINITION. Machine/Crypto.lean: the published algorithms that the spec names and does not restate (log entry 8): the
SM3 digest, SM2 signature verification and SM4 in GCM mode (R24, R28, R444). -/

namespace Sys2Proof.Machine

/-- A byte string as a number, most significant byte first (R6's exception: the published standards' order). -/
def beNat (bs : List Byte) : Nat := bs.foldl (fun n b => 256 * n + b.toNat) 0

/-- A number as `n` bytes, most significant first. -/
def beBytes (v n : Nat) : List Byte := (bytesOf v n).reverse

/-! ### SM3 (GB/T 32905) -/

/-- Rotate a 32-bit word left. -/
def rotl (x : BitVec 32) (n : Nat) : BitVec 32 := x.rotateLeft (n % 32)

/-- The words of a 64-byte block. -/
def sm3Words (b : List Byte) : List (BitVec 32) := (List.range 16).map (fun i => BitVec.ofNat 32 (beNat (slice b (4 * i) 4)))

/-- Message expansion: `n` further words; the last sixteen stand first, newest first. -/
def sm3Expand : Nat → List (BitVec 32) → List (BitVec 32)
  | 0, w => w
  | n + 1, w =>
    let at' := fun (i : Nat) => w.getD (i - 1) 0#32
    let x := at' 16 ^^^ at' 9 ^^^ rotl (at' 3) 15
    sm3Expand n ((x ^^^ rotl x 15 ^^^ rotl x 23 ^^^ rotl (at' 13) 7 ^^^ at' 6) :: w)

/-- The eight registers of the compression. -/
structure Sm3V where
  a : BitVec 32
  b : BitVec 32
  c : BitVec 32
  d : BitVec 32
  e : BitVec 32
  f : BitVec 32
  g : BitVec 32
  h : BitVec 32

/-- One round of the compression with W_j and W_(j+4). -/
def sm3Round (j : Nat) (w w4 : BitVec 32) (v : Sm3V) : Sm3V :=
  let t : BitVec 32 := if j < 16 then 0x79CC4519#32 else 0x7A879D8A#32
  let ff := if j < 16 then v.a ^^^ v.b ^^^ v.c else (v.a &&& v.b) ||| (v.a &&& v.c) ||| (v.b &&& v.c)
  let gg := if j < 16 then v.e ^^^ v.f ^^^ v.g else (v.e &&& v.f) ||| (~~~v.e &&& v.g)
  let s1 := rotl (rotl v.a 12 + v.e + rotl t j) 7
  let s2 := s1 ^^^ rotl v.a 12
  let t1 := ff + v.d + s2 + (w ^^^ w4)
  let t2 := gg + v.h + s1 + w
  ⟨t1, v.a, rotl v.b 9, v.c, t2 ^^^ rotl t2 9 ^^^ rotl t2 17, v.e, rotl v.f 19, v.g⟩

/-- The compression of one block. -/
def sm3Block (v : Sm3V) (b : List Byte) : Sm3V :=
  let w := (sm3Expand 52 (sm3Words b).reverse).reverse
  let x := (List.range 64).foldl (fun x j => sm3Round j (w.getD j 0#32) (w.getD (j + 4) 0#32) x) v
  ⟨v.a ^^^ x.a, v.b ^^^ x.b, v.c ^^^ x.c, v.d ^^^ x.d, v.e ^^^ x.e, v.f ^^^ x.f, v.g ^^^ x.g, v.h ^^^ x.h⟩

/-- The padding of a message of `n` bytes. -/
def sm3Pad (n : Nat) : List Byte := 0x80#8 :: zeros ((119 - n % 64) % 64) ++ beBytes (8 * n) 8

/-- The SM3 digest, 32 bytes. -/
def sm3 (m : List Byte) : List Byte :=
  let p := m ++ sm3Pad m.length
  let iv : Sm3V := ⟨0x7380166F#32, 0x4914B2B9#32, 0x172442D7#32, 0xDA8A0600#32, 0xA96F30BC#32, 0x163138AA#32, 0xE38DEE4D#32, 0xB0FB0E4E#32⟩
  let v := (chunks p 64 (p.length / 64)).foldl sm3Block iv
  ([v.a, v.b, v.c, v.d, v.e, v.f, v.g, v.h]).flatMap (fun x => beBytes x.toNat 4)

/-! ### SM2 (GB/T 32918, the recommended curve) -/

/-- Prime of the field. -/
def sm2P : Nat := 0xFFFFFFFEFFFFFFFFFFFFFFFFFFFFFFFFFFFFFFFF00000000FFFFFFFFFFFFFFFF
/-- Coefficients of the curve. -/
def sm2A : Nat := 0xFFFFFFFEFFFFFFFFFFFFFFFFFFFFFFFFFFFFFFFF00000000FFFFFFFFFFFFFFFC
/-- Coefficients of the curve. -/
def sm2B : Nat := 0x28E9FA9E9D9F5E344D5A9E4BCF6509A7F39789F515AB8F92DDBCBD414D940E93
/-- Order of the base point. -/
def sm2N : Nat := 0xFFFFFFFEFFFFFFFFFFFFFFFFFFFFFFFF7203DF6B21C6052B53BBF40939D54123
/-- Base point. -/
def sm2Gx : Nat := 0x32C4AE2C1F1981195F9904466A39C9948FE30BBFF2660BE1715A4589334C74C7
/-- Base point. -/
def sm2Gy : Nat := 0xBC3736A2F4F6779C59BDCEE36B692153D0A9877CC62A474002DF32E52139F0A0

/-- A point as (X, Y, Z) in Jacobian coordinates; Z is 0 at infinity. -/
abbrev EcPoint := Nat × Nat × Nat

/-- `a - b` in the field. -/
def sm2Sub (a b : Nat) : Nat := (a + sm2P - b % sm2P) % sm2P

/-- Twice a point. -/
def ecDouble (p : EcPoint) : EcPoint :=
  let (x, y, z) := p
  let yy := y * y % sm2P
  let s := 4 * x * yy % sm2P
  let zz := z * z % sm2P
  let m := (3 * x * x + sm2A * (zz * zz % sm2P)) % sm2P
  let x' := sm2Sub (m * m) (2 * s)
  (x', sm2Sub (m * sm2Sub s x') (8 * yy * yy), 2 * y * z % sm2P)

/-- The sum of two points. -/
def ecAdd (p q : EcPoint) : EcPoint :=
  let (x1, y1, z1) := p
  let (x2, y2, z2) := q
  if z1 = 0 then q
  else if z2 = 0 then p
  else
    let a := z1 * z1 % sm2P
    let b := z2 * z2 % sm2P
    let u1 := x1 * b % sm2P
    let u2 := x2 * a % sm2P
    let s1 := y1 * b % sm2P * z2 % sm2P
    let s2 := y2 * a % sm2P * z1 % sm2P
    let h := sm2Sub u2 u1
    let r := sm2Sub s2 s1
    if h = 0 then (if r = 0 then ecDouble p else (0, 1, 0))
    else
      let hh := h * h % sm2P
      let hhh := h * hh % sm2P
      let v := u1 * hh % sm2P
      let x3 := sm2Sub (r * r) (hhh + 2 * v)
      (x3, sm2Sub (r * sm2Sub v x3) (s1 * hhh), h * z1 % sm2P * z2 % sm2P)

/-- `k` times a point, from the lowest `n` bits of `k`. -/
def ecMul (k : Nat) (p : EcPoint) : Nat → EcPoint
  | 0 => (0, 1, 0)
  | n + 1 => let q := ecDouble (ecMul (k / 2) p n)
    if k % 2 = 1 then ecAdd q p else q

/-- `b` to the power `e` modulo `m`, from the lowest `n` bits of `e`. -/
def modPow (m b e : Nat) : Nat → Nat
  | 0 => 1
  | n + 1 => let h := modPow m b (e / 2) n
    if e % 2 = 1 then h * h % m * b % m else h * h % m

/-- The coordinates of a point that is not at infinity. -/
def ecAffine (p : EcPoint) : Nat × Nat :=
  let i := modPow sm2P p.2.2 (sm2P - 2) 256
  (p.1 * i % sm2P * i % sm2P, p.2.1 * i % sm2P * i % sm2P * i % sm2P)

/-- Whether two numbers are the coordinates of a point of the curve. -/
def onCurve (x y : Nat) : Bool :=
  decide (x < sm2P) && decide (y < sm2P) && y * y % sm2P == (x * x % sm2P * x + sm2A * x + sm2B) % sm2P

/-- The default distinguishing identifier (R24): "1234567812345678". -/
def sm2Id : List Byte := ([1, 2, 3, 4, 5, 6, 7, 8, 1, 2, 3, 4, 5, 6, 7, 8] : List Nat).map (fun d => BitVec.ofNat 8 (48 + d))

/-- The digest of the signer's identity, curve and key: Z of GB/T 32918. -/
def sm2Z (key : List Byte) : List Byte :=
  sm3 (beBytes 128 2 ++ sm2Id ++ beBytes sm2A 32 ++ beBytes sm2B 32 ++ beBytes sm2Gx 32 ++ beBytes sm2Gy 32 ++ key)

/-- The SM2 check of a key (x then y), a message and a signature (r then s) (R24). -/
def sm2Verify (key msg sig : List Byte) : Bool :=
  let x := beNat (key.take 32)
  let y := beNat (slice key 32 32)
  let r := beNat (sig.take 32)
  let s := beNat (slice sig 32 32)
  let e := beNat (sm3 (sm2Z (key.take 64) ++ msg))
  let t := (r + s) % sm2N
  let p := ecAdd (ecMul s (sm2Gx, sm2Gy, 1) 256) (ecMul t (x, y, 1) 256)
  onCurve x y && decide (1 ≤ r) && decide (r < sm2N) && decide (1 ≤ s) && decide (s < sm2N) && t != 0 && p.2.2 != 0 &&
  (e + (ecAffine p).1) % sm2N == r

/-- The SM2 decryption of a 16-byte key under a private key (Table 19-4, GB/T 32918.4): C1 as x then y, then C3, then C2; none
where C1 is no point of the curve, the key stream is zero or C3 does not match. -/
def sm2Decrypt (d : Nat) (c : List Byte) : Option (List Byte) :=
  let x := beNat (c.take 32)
  let y := beNat (slice c 32 32)
  let p := ecMul d (x, y, 1) 256
  let x2 := beBytes (ecAffine p).1 32
  let y2 := beBytes (ecAffine p).2 32
  let t := (sm3 (x2 ++ y2 ++ beBytes 1 4)).take 16
  let m := (slice c 96 16).zipWith (· ^^^ ·) t
  if onCurve x y && p.2.2 != 0 && t != zeros 16 && sm3 (x2 ++ m ++ y2) == slice c 64 32 then some m else none

/-! ### SM4 (GB/T 32907) and GCM -/

/-- Bytes from a number's digits in base 256, most significant first. -/
def sm4Row (v : Nat) : List Byte := beBytes v 16

/-- The S-box. -/
def sm4Box : List Byte :=
  (sm4Row 0xd690e9fecce13db716b614c228fb2c05 ++ sm4Row 0x2b679a762abe04c3aa44132649860699 ++
   sm4Row 0x9c4250f491ef987a33540b43edcfac62 ++ sm4Row 0xe4b31ca9c908e89580df94fa758f3fa6) ++
  (sm4Row 0x4707a7fcf37317ba83593c19e6854fa8 ++ sm4Row 0x686b81b27164da8bf8eb0f4b70569d35 ++
   sm4Row 0x1e240e5e6358d1a225227c3b01217887 ++ sm4Row 0xd40046579fd327524c3602e7a0c4c89e) ++
  (sm4Row 0xeabf8ad240c738b5a3f7f2cef96115a1 ++ sm4Row 0xe0ae5da49b341a55ad933230f58cb1e3 ++
   sm4Row 0x1df6e22e8266ca60c02923ab0d534e6f ++ sm4Row 0xd5db3745defd8e2f03ff6a726d6c5b51) ++
  (sm4Row 0x8d1baf92bbddbc7f11d95c411f105ad8 ++ sm4Row 0x0ac13188a5cd7bbd2d74d012b8e5b4b0 ++
   sm4Row 0x8969974a0c96777e65b9f109c56ec684 ++ sm4Row 0x18f07dec3adc4d2079ee5f3ed7cb3948)

/-- The S-box on the four bytes of a word. -/
def sm4Tau (w : BitVec 32) : BitVec 32 :=
  BitVec.ofNat 32 (beNat ((beBytes w.toNat 4).map (fun b => sm4Box.getD b.toNat 0#8)))

/-- One step of a word sequence, newest first: the key schedule where `key`, a round otherwise. -/
def sm4Step (key : Bool) (rk : BitVec 32) (x : List (BitVec 32)) : List (BitVec 32) :=
  let b := sm4Tau (x.getD 2 0#32 ^^^ x.getD 1 0#32 ^^^ x.getD 0 0#32 ^^^ rk)
  let l := if key then b ^^^ rotl b 13 ^^^ rotl b 23 else b ^^^ rotl b 2 ^^^ rotl b 10 ^^^ rotl b 18 ^^^ rotl b 24
  (x.getD 3 0#32 ^^^ l) :: x

/-- Constant CK of a round. -/
def sm4CK (i : Nat) : BitVec 32 :=
  BitVec.ofNat 32 (beNat ((List.range 4).map (fun j => BitVec.ofNat 8 ((4 * i + j) * 7))))

/-- A 16-byte block as four words, newest first. -/
def sm4In (b : List Byte) : List (BitVec 32) :=
  ([3, 2, 1, 0] : List Nat).map (fun i => BitVec.ofNat 32 (beNat (slice b (4 * i) 4)))

/-- The round keys. -/
def sm4Keys (k : List Byte) : List (BitVec 32) :=
  let x := (sm4In k).zipWith (· ^^^ ·) [0xB27022DC#32, 0x677D9197#32, 0x56AA3350#32, 0xA3B1BAC6#32]
  (((List.range 32).foldl (fun x i => sm4Step true (sm4CK i) x) x).take 32).reverse

/-- The encryption of one block under round keys. -/
def sm4Enc (rks : List (BitVec 32)) (b : List Byte) : List Byte :=
  let x := rks.foldl (fun x rk => sm4Step false rk x) (sm4In b)
  (x.take 4).flatMap (fun w => beBytes w.toNat 4)

/-- Product in GCM's field, from bit 127 of `x` down: `n` bits of it are left. -/
def gcmMul (x : Nat) : Nat → Nat → Nat → Nat
  | 0, z, _ => z
  | n + 1, z, v =>
    let z := if x.testBit n then z ^^^ v else z
    gcmMul x n z (if v % 2 = 1 then v / 2 ^^^ (0xE1 * 2 ^ 120) else v / 2)

/-- GHASH of a string of whole blocks under `h`. -/
def ghash (h : Nat) (m : List Byte) : Nat :=
  (chunks m 16 (m.length / 16)).foldl (fun y b => gcmMul (y ^^^ beNat b) 128 0 h) 0

/-- A string padded with zeros to whole blocks. -/
def pad16 (m : List Byte) : List Byte := m ++ zeros ((16 - m.length % 16) % 16)

/-- Bytes of a string exclusive-or'd with the key stream from block counter `c` on. -/
def gcmStream (rks : List (BitVec 32)) (nonce m : List Byte) (c : Nat) : List Byte :=
  ((chunks m 16 ((m.length + 15) / 16)).zipIdx).flatMap (fun q =>
    q.1.zipWith (· ^^^ ·) (sm4Enc rks (nonce ++ beBytes (c + q.2) 4)))

/-- SM4-GCM decryption (R28): key, 12-byte nonce, additional data, ciphertext, 16-byte tag; none where the tag fails. -/
def sm4gcm (key nonce aad ct tag : List Byte) : Option (List Byte) :=
  let rks := sm4Keys key
  let h := beNat (sm4Enc rks (zeros 16))
  let s := ghash h (pad16 aad ++ pad16 ct ++ beBytes (8 * aad.length) 8 ++ beBytes (8 * ct.length) 8)
  if gcmStream rks nonce (beBytes s 16) 1 = tag then some (gcmStream rks nonce ct 2) else none

end Sys2Proof.Machine
end

