-- ==== Sys2Proof/Machine/Regs.lean ====
section
/-! DEFINITION. Machine/Regs.lean: every register of the BAR0 control window by the manual's name, with its place,
access code, writable bits and reset value, taken from the register summary tables of the spec (R20, Table 0-5;
Tables 2-6, 3-10, 5-7, 6-16, 7-9, 8-11, 9-8, 10-7, 11-7, 12-7, 13-8, 14-6, 15-5, 15-9, 16-8, 17-7, 18-8, 19-1, 19-10,
19-11, 20-5). A register that repeats per stack, array, port or queue is named once and carries an instance number. -/
namespace Sys2Proof.Machine

/-- Access codes of Table 0-5. -/
inductive Access where
  | ro | rw | w1c | wo
deriving DecidableEq, Repr

/-- Every register of the control window, by the manual's name. -/
inductive Reg where
  | FP_CTRL | FP_STATUS | FP_ERROR | FP_ERR_DETAIL | FP_SRC_LO | FP_SRC_HI | FP_LEN | FP_STAGE_BASE | FP_AMEND_SEQ 
  | FP_EVENT | FP_EVENT_EN | FP_DROPPED | FP_APPLIED_DIGEST0 | FP_APPLIED_DIGEST1 | FP_APPLIED_DIGEST2 
  | FP_APPLIED_DIGEST3 | FP_APPLIED_DIGEST4 | FP_APPLIED_DIGEST5 | FP_APPLIED_DIGEST6 | FP_APPLIED_DIGEST7 
  | FP_DRAIN_STACKS | FP_DRAINED_STACKS | FP_DRAIN_ARRAYS_LO | FP_DRAIN_ARRAYS_HI | FP_DRAINED_ARRAYS_LO 
  | FP_DRAINED_ARRAYS_HI | FP_DRAIN_PORTS_LO | FP_DRAIN_PORTS_HI | FP_DRAINED_PORTS_LO | FP_DRAINED_PORTS_HI 
  | MER_COUNT_LO | MER_COUNT_HI | MER_STATUS | MER_MASTER | MER_PHASE_ERR | MER_LOCAL_OFFSET | MER_SLOT 
  | MER_CTRL | MER_EVENT | MER_EVENT_EN | MER_ADMIT_DEFERRED | MER_FRAME_START_LO | MER_FRAME_START_HI 
  | ST_STATUS | ST_SHEET_SIZE | ST_CH_FAILED_LO | ST_CH_FAILED_HI | ST_CH_MAPPED_OUT_LO | ST_CH_MAPPED_OUT_HI 
  | ST_CHMAP_SEL | ST_CHMAP | ST_TEMP | ST_GOV | ST_ACTIVE | ST_GOV_STALLS | ST_RETRAIN_COUNT | ST_SCRUB_POS 
  | ST_SCRUB_CORRECTED | ST_SOFT_REPAIRS | ST_EVENT | ST_EVENT_EN | ST_FOOTPRINT_LO | ST_FOOTPRINT_HI 
  | ST_REPAIR_CMD | ST_REPAIR_ARG0 | ST_REPAIR_ARG1 | ST_REPAIR_STATUS | ST_FUSE_INDEX | ST_FUSE_DATA_LO 
  | ST_FUSE_DATA_HI | ST_SPARES_SEL | ST_SPARES | RM_CALL_LIMIT | RM_CALLS | RM_FAULTS | RM_UPDATES | RM_FROZEN 
  | RM_EVENT | RM_EVENT_EN | RM_FLOG_SEL | RM_FLOG_ROOM | RM_FLOG_INFO | RM_FLOG_TAG | RM_FLOG_CLEAR 
  | RM_PSTORE_SEL | RM_PSTORE_CRC | RM_PSTORE_LOADS | WG_STATUS | WG_LISTS | WG_ROWS_LO | WG_ROWS_HI 
  | WG_REMOTE_OUT | WG_REMOTE_IN | WG_OOR | WG_CHECK_FAILS | WG_TWIN_READS | WG_DAMAGED | WG_EVENT | WG_EVENT_EN 
  | WG_WING_SEL | WG_WING | WG_WING_SLOTS | WG_BATCH_SEL | WG_BATCH_MEMBERS | WG_BATCH_FREE | WG_BATCH_REFUSED 
  | WG_BATCH_STEP_LO | WG_BATCH_STEP_HI | MX_STATUS | MX_FAB | MX_TILES | MX_FEED_LO | MX_FEED_HI | MX_STALL_A 
  | MX_STALL_W | MX_STALL_STORE | MX_STALL_DRAIN | MX_SKIPPED | MX_STORE_CHECKS | MX_EVENT | MX_EVENT_EN 
  | MX_LAST_FAULT | MX_ATTIC_HITS_LO | MX_ATTIC_HITS_HI | MX_ATTIC_MISSES | MX_ATTIC_INVALS | MX_ATTIC_PINNED 
  | VE_STATUS | VE_CHAINS | VE_BUSY_LO | VE_BUSY_HI | VE_QUEUE_FULL | VE_STALL_OPERAND | VE_CHECKS | VE_NAN_SCORES 
  | VE_ROUTE_DROPPED | VE_SEL_ABANDONED | VE_EVENT | VE_EVENT_EN | VE_LAST_FAULT | VE_CHAIN_SEL | VE_CHAIN_CRC 
  | VE_TREG_LIVE | UP_CMB_ROWS | UP_CMB_ELEMS | UP_CMB_DRAIN | UP_CMB_PEAK | UP_CONTRIB_LO | UP_CONTRIB_HI 
  | UP_DROPPED | UP_ROW_FAULTS | UP_SHARD_SEL | UP_SHARD | UP_SHARD_STEP | UP_SHARD_Q | UP_CTRL | UP_STATUS 
  | UP_STEP | UP_CAUSE | UP_CLOSE_LO | UP_CLOSE_HI | UP_COMMITS | UP_SKIPS | UP_FLIP_SKIPS | UP_REJECTED 
  | UP_FROZEN | UP_EVENT | UP_EVENT_EN | UP_LAYER_SEL | UP_LAYER | UP_LAYER_STEP | FB_STATUS | FB_NEIGHBOUR 
  | FB_LANES | FB_FEC_CORR_LO | FB_FEC_CORR_HI | FB_FEC_UNCORR | FB_NACK_TX | FB_NACK_RX | FB_CRC_ERRORS 
  | FB_STOMPED | FB_TX_FLITS_LO | FB_TX_FLITS_HI | FB_RX_FLITS_LO | FB_RX_FLITS_HI | FB_CREDIT_STALL0 
  | FB_CREDIT_STALL1 | FB_CREDIT_STALL2 | FB_CREDIT_STALL3 | FB_LINK_DELAY | FB_EVENT | FB_EVENT_EN | FB_CTRL 
  | FB_LANE_SEL | FB_LANE_SYMERR | FB_GRID | FB_FABRIC_ID | FB_ROUTE_SEL | FB_ROUTE | FB_ROUTE_PORTS 
  | FB_ROUTE_EPOCH | FB_DEVICES | FB_NO_ROUTE | FB_HOP_EXPIRED | FB_EVENT_GLOBAL | FB_EVENT_GLOBAL_EN 
  | FB_CONN_SEL | FB_CONN | FB_CONN_OUT | FB_CONN_RETX | FB_CONNS | FB_CONN_REFUSED | FB_NO_PARTNER | FB_WINDOW_REFUSED 
  | FB_BAD_KIND | FB_C0_DEMOTED | FB_C0_OVER | FB_PRUNES | FB_PULLS | FB_DIGEST_FAILS | FB_VERDICT | FB_VERDICT_STEP 
  | FB_VTREE | FB_TRAFFIC_EVENT | FB_TRAFFIC_EVENT_EN | FB_COLL_WAITS | HC_STATUS | HC_LINK | HC_LINK_DOWNS 
  | HC_RETRAINS | HC_RESETS | HC_LOST_WRITES | HC_GRACE_LEFT | HC_POISONED | HC_LB_ACCEPTED_LO | HC_LB_ACCEPTED_HI 
  | HC_LB_FLAGS | HC_LB_FLAG_DROPS | HC_LB_REJECTS | HC_LB_REJ_LOG0 | HC_LB_REJ_LOG1 | HC_LB_ENTRY_ERR 
  | HC_LB_FENCE | HC_LB_FENCE_STATUS | HC_EVENT | HC_EVENT_EN | XL_STATUS | XL_AS_SEL | XL_AS_ROOT_LO 
  | XL_AS_ROOT_HI | XL_AS_CTRL | XL_INV_AS | XL_INV_VA_LO | XL_INV_VA_HI | XL_INV_PAGES | XL_INV_CMD 
  | XL_INV_STATUS | XL_RING_LO | XL_RING_HI | XL_RING_CTRL | XL_RING_HEAD | XL_RING_TAIL | XL_PRQ_RESP 
  | XL_PRQ_OPEN | XL_BAD_RESP | XL_HITS_LO | XL_HITS_HI | XL_WALKS | XL_FAULTS | XL_RUNS | XL_HOT_DROPS 
  | XL_HOT_THRESH | XL_DECAY | XL_CW_SEL | XL_CW_AS | XL_CW_BASE_LO | XL_CW_BASE_HI | XL_CW_COUNT | XL_CW_FIRST 
  | XL_CNT_SEL | XL_CNT | XL_CNT_CLEAR | XL_EVENT | XL_EVENT_EN | DB_SQ | DB_CQ | Q_CTRL | Q_STATUS | SQ_BASE_LO 
  | SQ_BASE_HI | CQ_BASE_LO | CQ_BASE_HI | Q_CAUSE | Q_CAUSE_EN | Q_HEADS | Q_INFLIGHT | CF_STATUS | CF_COMMANDS_LO 
  | CF_COMMANDS_HI | CF_LAUNCH_WAITS | CF_ENQ_REFUSED | CF_ORPHAN_FAULTS | CF_Q_DROPS | CF_GUILTY | CF_ITIN_SEL 
  | CF_ITIN | CF_CAP_SEL | CF_CAP_INFO | CF_CAP_SLOT | CF_CAP_VA_LO | CF_CAP_VA_HI | CF_CAP_COUNT_LO 
  | CF_CAP_COUNT_HI | CF_CAP_ARRAYS_LO | CF_CAP_ARRAYS_HI | CF_CAP_STACKS | CF_CAP_WORD_SEL | CF_CAP_WORD 
  | CF_EVENT | CF_EVENT_EN | SC_STATUS | SC_STREAMS | SC_PREEMPT_C0 | SC_PREEMPT_QUANTUM | SC_SAVE_MAX 
  | SC_REARM_BUSY | SC_HALTS | SC_SKIPPED | SC_CTX_SEL | SC_CTX | SC_CTX_ITER | SC_CTX_UNIT | SC_ARRAY_SEL 
  | SC_ARRAY | SC_GRP_SEL | SC_GRP_ENGINE_LO | SC_GRP_ENGINE_HI | SC_GRP_GRANTS_LO | SC_GRP_GRANTS_HI 
  | SC_GRP_FLITS_LO | SC_GRP_FLITS_HI | SC_GRP_DMA_LO | SC_GRP_DMA_HI | SC_GRP_HELD | SC_EVENT | SC_EVENT_EN 
  | RL_STATUS | RL_ECC_CORR_LO | RL_ECC_CORR_HI | RL_UNCORR | RL_BCV_FAILS | RL_SHADOW_TILES | RL_SHADOW_CALLS 
  | RL_SHADOW_VOID | RL_MISMATCH | RL_QUAR_ARRAYS_LO | RL_QUAR_ARRAYS_HI | RL_QUAR_ROOMS | RL_QUAR_SEL 
  | RL_QUAR_ROOM | RL_DIGESTS | RL_DIGEST_LATE | RL_EXPELLED | RL_RESTART | RL_CKPT_LIST_LO | RL_CKPT_LIST_HI 
  | RL_CKPT_COUNT | RL_CKPT_DEST_LO | RL_CKPT_DEST_HI | RL_CKPT_CTRL | RL_CKPT_STATUS | RL_CKPT_STEP 
  | RL_LOG_SEL | RL_LOG_INFO | RL_LOG_WHERE | RL_LOG_COUNT_LO | RL_LOG_COUNT_HI | RL_LOG_CLEAR | RL_LOG_LOST 
  | RL_EVENT | RL_EVENT_EN | PW_STATUS | PW_CTRL | PW_POWER | PW_ENVELOPE | PW_WAKE_AT_LO | PW_WAKE_AT_HI 
  | PW_THROTTLED | PW_BELOW_FLOOR | PW_ARRAY_SEL | PW_ARRAY_STEP | PW_EVENT | PW_EVENT_EN | PO_STATUS 
  | PO_CH_SEL | PO_CH_VALUE | PO_CH_RAW | PO_RULE_SEL | PO_RULE_STATE | PO_RULE_CLEAR | PO_TRIP_CAUSE 
  | PO_TRIP_CLEAR | PO_EVENT | PO_EVENT_EN | ID_MAGIC | ID_PART | ID_DEVICE_LO | ID_DEVICE_HI | ID_BOOT 
  | ID_FW_VERSION | ID_SEC_MIN | ID_LOCK | ID_NONCE0 | ID_NONCE1 | ID_NONCE2 | ID_NONCE3 | ID_ROOT_HASH0 
  | ID_ROOT_HASH1 | ID_ROOT_HASH2 | ID_ROOT_HASH3 | ID_ROOT_HASH4 | ID_ROOT_HASH5 | ID_ROOT_HASH6 | ID_ROOT_HASH7 
  | SE_STATUS | SE_CTRL | SE_RESULT | SE_SLOT_SEL | SE_SLOT | SE_SLOT_HASH0 | SE_SLOT_HASH1 | SE_SLOT_HASH2 
  | SE_SLOT_HASH3 | SE_SLOT_HASH4 | SE_SLOT_HASH5 | SE_SLOT_HASH6 | SE_SLOT_HASH7 | SE_EVENT | SE_EVENT_EN 
  | TR_STATUS | TR_CTRL | TR_MARK_ID | TR_LATCH_LO | TR_LATCH_HI | TR_MISSED | TR_MISSED_ID | TR_SEL 
  | TR_DATA | TR_DUMP_LO | TR_DUMP_HI | TR_DUMP_LEN | TR_EVENT | TR_EVENT_EN | TR_TELEM_CUR | ST_PRESERVE 
  | ST_CONTENT_CTRL | ST_CONTENT_STATUS | ST_VERIFY 
deriving DecidableEq, Repr

/-- Where a register lies and how it answers. `addr` is the BAR0 offset of instance 0 (R20), `stride` and `count` its
repetition, `shared` whether every repetition reads the same device-wide state, `mask` the bits that are not Reserved
(R8), `reset` its reset value. -/
structure RegSpec where
  addr : Nat
  stride : Nat
  count : Nat
  shared : Bool
  acc : Access
  mask : Word
  reset : Word
deriving DecidableEq, Repr

/-- One row of a register table. -/
def RegSpec.mk1 (addr stride count : Nat) (shared : Bool) (acc : Access) (mask reset : Nat) : RegSpec :=
  ⟨addr, stride, count, shared, acc, BitVec.ofNat 32 mask, BitVec.ofNat 32 reset⟩

/-- The register tables of the spec, one arm per register. Fused values and values without a reset entry are those of
the fuse state (log entry 5) and are held outside this table. -/
def Reg.spec : Reg → RegSpec
  | .FP_CTRL => .mk1 0x10000 0x0 1 false .wo 0xFFFFFFFF 0
  | .FP_STATUS => .mk1 0x10004 0x0 1 false .ro 0xFFFFFFFF 0
  | .FP_ERROR => .mk1 0x10008 0x0 1 false .ro 0xFFFFFFFF 0
  | .FP_ERR_DETAIL => .mk1 0x1000C 0x0 1 false .ro 0xFFFFFFFF 0
  | .FP_SRC_LO => .mk1 0x10010 0x0 1 false .rw 0xFFFFFFFF 0
  | .FP_SRC_HI => .mk1 0x10014 0x0 1 false .rw 0xFFFFFFFF 0
  | .FP_LEN => .mk1 0x10018 0x0 1 false .rw 0xFFFFFFFF 0
  | .FP_STAGE_BASE => .mk1 0x1001C 0x0 1 false .rw 0xFFFF8000 0
  | .FP_AMEND_SEQ => .mk1 0x10020 0x0 1 false .ro 0xFFFFFFFF 0
  | .FP_EVENT => .mk1 0x10024 0x0 1 false .w1c 0x7 0
  | .FP_EVENT_EN => .mk1 0x10028 0x0 1 false .rw 0x7 0
  | .FP_DROPPED => .mk1 0x1002C 0x0 1 false .ro 0xFFFFFFFF 0
  | .FP_APPLIED_DIGEST0 => .mk1 0x10040 0x0 1 false .ro 0xFFFFFFFF 0
  | .FP_APPLIED_DIGEST1 => .mk1 0x10044 0x0 1 false .ro 0xFFFFFFFF 0
  | .FP_APPLIED_DIGEST2 => .mk1 0x10048 0x0 1 false .ro 0xFFFFFFFF 0
  | .FP_APPLIED_DIGEST3 => .mk1 0x1004C 0x0 1 false .ro 0xFFFFFFFF 0
  | .FP_APPLIED_DIGEST4 => .mk1 0x10050 0x0 1 false .ro 0xFFFFFFFF 0
  | .FP_APPLIED_DIGEST5 => .mk1 0x10054 0x0 1 false .ro 0xFFFFFFFF 0
  | .FP_APPLIED_DIGEST6 => .mk1 0x10058 0x0 1 false .ro 0xFFFFFFFF 0
  | .FP_APPLIED_DIGEST7 => .mk1 0x1005C 0x0 1 false .ro 0xFFFFFFFF 0
  | .FP_DRAIN_STACKS => .mk1 0x10080 0x0 1 false .rw 0xFFFF 0
  | .FP_DRAINED_STACKS => .mk1 0x10084 0x0 1 false .ro 0xFFFFFFFF 0
  | .FP_DRAIN_ARRAYS_LO => .mk1 0x10088 0x0 1 false .rw 0xFFFFFFFF 0
  | .FP_DRAIN_ARRAYS_HI => .mk1 0x1008C 0x0 1 false .rw 0xFFFFFFFF 0
  | .FP_DRAINED_ARRAYS_LO => .mk1 0x10090 0x0 1 false .ro 0xFFFFFFFF 0
  | .FP_DRAINED_ARRAYS_HI => .mk1 0x10094 0x0 1 false .ro 0xFFFFFFFF 0
  | .FP_DRAIN_PORTS_LO => .mk1 0x10098 0x0 1 false .rw 0xFFFFFFFF 0
  | .FP_DRAIN_PORTS_HI => .mk1 0x1009C 0x0 1 false .rw 0xFFFFFFFF 0
  | .FP_DRAINED_PORTS_LO => .mk1 0x100A0 0x0 1 false .ro 0xFFFFFFFF 0
  | .FP_DRAINED_PORTS_HI => .mk1 0x100A4 0x0 1 false .ro 0xFFFFFFFF 0
  | .MER_COUNT_LO => .mk1 0x20000 0x0 1 false .ro 0xFFFFFFFF 0
  | .MER_COUNT_HI => .mk1 0x20004 0x0 1 false .ro 0xFFFFFFFF 0
  | .MER_STATUS => .mk1 0x20008 0x0 1 false .ro 0xFFFFFFFF 0
  | .MER_MASTER => .mk1 0x2000C 0x0 1 false .ro 0xFFFFFFFF 0
  | .MER_PHASE_ERR => .mk1 0x20010 0x0 1 false .ro 0xFFFFFFFF 0
  | .MER_LOCAL_OFFSET => .mk1 0x20014 0x0 1 false .ro 0xFFFFFFFF 0
  | .MER_SLOT => .mk1 0x20018 0x0 1 false .ro 0xFFFFFFFF 0
  | .MER_CTRL => .mk1 0x2001C 0x0 1 false .wo 0x1 0
  | .MER_EVENT => .mk1 0x20020 0x0 1 false .w1c 0x1F 0
  | .MER_EVENT_EN => .mk1 0x20024 0x0 1 false .rw 0x1F 0
  | .MER_ADMIT_DEFERRED => .mk1 0x20028 0x0 1 false .ro 0xFFFFFFFF 0
  | .MER_FRAME_START_LO => .mk1 0x20030 0x0 1 false .ro 0xFFFFFFFF 0
  | .MER_FRAME_START_HI => .mk1 0x20034 0x0 1 false .ro 0xFFFFFFFF 0
  | .ST_STATUS => .mk1 0x800000 0x4000 16 false .ro 0xFFFFFFFF 0
  | .ST_SHEET_SIZE => .mk1 0x800004 0x4000 16 false .ro 0xFFFFFFFF 0
  | .ST_CH_FAILED_LO => .mk1 0x800008 0x4000 16 false .ro 0xFFFFFFFF 0
  | .ST_CH_FAILED_HI => .mk1 0x80000C 0x4000 16 false .ro 0xFFFFFFFF 0
  | .ST_CH_MAPPED_OUT_LO => .mk1 0x800010 0x4000 16 false .ro 0xFFFFFFFF 0
  | .ST_CH_MAPPED_OUT_HI => .mk1 0x800014 0x4000 16 false .ro 0xFFFFFFFF 0
  | .ST_CHMAP_SEL => .mk1 0x800018 0x4000 16 false .rw 0x3F 0
  | .ST_CHMAP => .mk1 0x80001C 0x4000 16 false .ro 0xFFFFFFFF 0
  | .ST_TEMP => .mk1 0x800020 0x4000 16 false .ro 0xFFFFFFFF 0
  | .ST_GOV => .mk1 0x800024 0x4000 16 false .ro 0xFFFFFFFF 0
  | .ST_ACTIVE => .mk1 0x800028 0x4000 16 false .ro 0xFFFFFFFF 0
  | .ST_GOV_STALLS => .mk1 0x80002C 0x4000 16 false .ro 0xFFFFFFFF 0
  | .ST_RETRAIN_COUNT => .mk1 0x800030 0x4000 16 false .ro 0xFFFFFFFF 0
  | .ST_SCRUB_POS => .mk1 0x800034 0x4000 16 false .ro 0xFFFFFFFF 0
  | .ST_SCRUB_CORRECTED => .mk1 0x800038 0x4000 16 false .ro 0xFFFFFFFF 0
  | .ST_SOFT_REPAIRS => .mk1 0x80003C 0x4000 16 false .ro 0xFFFFFFFF 0
  | .ST_EVENT => .mk1 0x800040 0x4000 16 false .w1c 0xFF 0
  | .ST_EVENT_EN => .mk1 0x800044 0x4000 16 false .rw 0xFF 0
  | .ST_FOOTPRINT_LO => .mk1 0x800048 0x4000 16 false .ro 0xFFFFFFFF 0
  | .ST_FOOTPRINT_HI => .mk1 0x80004C 0x4000 16 false .ro 0xFFFFFFFF 0
  | .ST_REPAIR_CMD => .mk1 0x800080 0x4000 16 false .wo 0xFFFFFFFF 0
  | .ST_REPAIR_ARG0 => .mk1 0x800084 0x4000 16 false .rw 0x73F 0
  | .ST_REPAIR_ARG1 => .mk1 0x800088 0x4000 16 false .rw 0xFFFFFFFF 0
  | .ST_REPAIR_STATUS => .mk1 0x80008C 0x4000 16 false .ro 0xFFFFFFFF 0
  | .ST_FUSE_INDEX => .mk1 0x800090 0x4000 16 false .rw 0x3FF 0
  | .ST_FUSE_DATA_LO => .mk1 0x800094 0x4000 16 false .ro 0xFFFFFFFF 0
  | .ST_FUSE_DATA_HI => .mk1 0x800098 0x4000 16 false .ro 0xFFFFFFFF 0
  | .ST_SPARES_SEL => .mk1 0x80009C 0x4000 16 false .rw 0x3F 0
  | .ST_SPARES => .mk1 0x8000A0 0x4000 16 false .ro 0xFFFFFFFF 0
  | .RM_CALL_LIMIT => .mk1 0x800100 0x4000 16 false .rw 0x1FFF 0x00001000
  | .RM_CALLS => .mk1 0x800104 0x4000 16 false .ro 0xFFFFFFFF 0
  | .RM_FAULTS => .mk1 0x800108 0x4000 16 false .ro 0xFFFFFFFF 0
  | .RM_UPDATES => .mk1 0x80010C 0x4000 16 false .ro 0xFFFFFFFF 0
  | .RM_FROZEN => .mk1 0x800110 0x4000 16 false .ro 0xFFFFFFFF 0
  | .RM_EVENT => .mk1 0x800114 0x4000 16 false .w1c 0x3 0
  | .RM_EVENT_EN => .mk1 0x800118 0x4000 16 false .rw 0x3 0
  | .RM_FLOG_SEL => .mk1 0x80011C 0x4000 16 false .rw 0xF 0
  | .RM_FLOG_ROOM => .mk1 0x800120 0x4000 16 false .ro 0xFFFFFFFF 0
  | .RM_FLOG_INFO => .mk1 0x800124 0x4000 16 false .ro 0xFFFFFFFF 0
  | .RM_FLOG_TAG => .mk1 0x800128 0x4000 16 false .ro 0xFFFFFFFF 0
  | .RM_FLOG_CLEAR => .mk1 0x80012C 0x4000 16 false .wo 0x1 0
  | .RM_PSTORE_SEL => .mk1 0x800130 0x4000 16 false .rw 0x3F 0
  | .RM_PSTORE_CRC => .mk1 0x800134 0x4000 16 false .ro 0xFFFFFFFF 0
  | .RM_PSTORE_LOADS => .mk1 0x800138 0x4000 16 false .ro 0xFFFFFFFF 0
  | .WG_STATUS => .mk1 0x801000 0x4000 16 false .ro 0xFFFFFFFF 0
  | .WG_LISTS => .mk1 0x801004 0x4000 16 false .ro 0xFFFFFFFF 0
  | .WG_ROWS_LO => .mk1 0x801008 0x4000 16 false .ro 0xFFFFFFFF 0
  | .WG_ROWS_HI => .mk1 0x80100C 0x4000 16 false .ro 0xFFFFFFFF 0
  | .WG_REMOTE_OUT => .mk1 0x801010 0x4000 16 false .ro 0xFFFFFFFF 0
  | .WG_REMOTE_IN => .mk1 0x801014 0x4000 16 false .ro 0xFFFFFFFF 0
  | .WG_OOR => .mk1 0x801018 0x4000 16 false .ro 0xFFFFFFFF 0
  | .WG_CHECK_FAILS => .mk1 0x80101C 0x4000 16 false .ro 0xFFFFFFFF 0
  | .WG_TWIN_READS => .mk1 0x801020 0x4000 16 false .ro 0xFFFFFFFF 0
  | .WG_DAMAGED => .mk1 0x801024 0x4000 16 false .ro 0xFFFFFFFF 0
  | .WG_EVENT => .mk1 0x801028 0x4000 16 false .w1c 0x1F 0
  | .WG_EVENT_EN => .mk1 0x80102C 0x4000 16 false .rw 0x1F 0
  | .WG_WING_SEL => .mk1 0x801030 0x4000 16 false .rw 0x3FF 0
  | .WG_WING => .mk1 0x801034 0x4000 16 false .ro 0xFFFFFFFF 0
  | .WG_WING_SLOTS => .mk1 0x801038 0x4000 16 false .ro 0xFFFFFFFF 0
  | .WG_BATCH_SEL => .mk1 0x801040 0x4000 16 true .rw 0x3F 0
  | .WG_BATCH_MEMBERS => .mk1 0x801044 0x4000 16 true .ro 0xFFFFFFFF 0
  | .WG_BATCH_FREE => .mk1 0x801048 0x4000 16 true .ro 0xFFFFFFFF 0
  | .WG_BATCH_REFUSED => .mk1 0x80104C 0x4000 16 true .ro 0xFFFFFFFF 0
  | .WG_BATCH_STEP_LO => .mk1 0x801050 0x4000 16 true .ro 0xFFFFFFFF 0
  | .WG_BATCH_STEP_HI => .mk1 0x801054 0x4000 16 true .ro 0xFFFFFFFF 0
  | .MX_STATUS => .mk1 0xC00000 0x4000 64 false .ro 0xFFFFFFFF 0
  | .MX_FAB => .mk1 0xC00004 0x4000 64 false .ro 0xFFFFFFFF 0
  | .MX_TILES => .mk1 0xC00008 0x4000 64 false .ro 0xFFFFFFFF 0
  | .MX_FEED_LO => .mk1 0xC0000C 0x4000 64 false .ro 0xFFFFFFFF 0
  | .MX_FEED_HI => .mk1 0xC00010 0x4000 64 false .ro 0xFFFFFFFF 0
  | .MX_STALL_A => .mk1 0xC00014 0x4000 64 false .ro 0xFFFFFFFF 0
  | .MX_STALL_W => .mk1 0xC00018 0x4000 64 false .ro 0xFFFFFFFF 0
  | .MX_STALL_STORE => .mk1 0xC0001C 0x4000 64 false .ro 0xFFFFFFFF 0
  | .MX_STALL_DRAIN => .mk1 0xC00020 0x4000 64 false .ro 0xFFFFFFFF 0
  | .MX_SKIPPED => .mk1 0xC00024 0x4000 64 false .ro 0xFFFFFFFF 0
  | .MX_STORE_CHECKS => .mk1 0xC00028 0x4000 64 false .ro 0xFFFFFFFF 0
  | .MX_EVENT => .mk1 0xC0002C 0x4000 64 false .w1c 0xF 0
  | .MX_EVENT_EN => .mk1 0xC00030 0x4000 64 false .rw 0xF 0
  | .MX_LAST_FAULT => .mk1 0xC00034 0x4000 64 false .ro 0xFFFFFFFF 0
  | .MX_ATTIC_HITS_LO => .mk1 0xC00080 0x4000 64 true .ro 0xFFFFFFFF 0
  | .MX_ATTIC_HITS_HI => .mk1 0xC00084 0x4000 64 true .ro 0xFFFFFFFF 0
  | .MX_ATTIC_MISSES => .mk1 0xC00088 0x4000 64 true .ro 0xFFFFFFFF 0
  | .MX_ATTIC_INVALS => .mk1 0xC0008C 0x4000 64 true .ro 0xFFFFFFFF 0
  | .MX_ATTIC_PINNED => .mk1 0xC00090 0x4000 64 true .ro 0xFFFFFFFF 0
  | .VE_STATUS => .mk1 0xC01000 0x4000 64 false .ro 0xFFFFFFFF 0
  | .VE_CHAINS => .mk1 0xC01004 0x4000 64 false .ro 0xFFFFFFFF 0
  | .VE_BUSY_LO => .mk1 0xC01008 0x4000 64 false .ro 0xFFFFFFFF 0
  | .VE_BUSY_HI => .mk1 0xC0100C 0x4000 64 false .ro 0xFFFFFFFF 0
  | .VE_QUEUE_FULL => .mk1 0xC01010 0x4000 64 false .ro 0xFFFFFFFF 0
  | .VE_STALL_OPERAND => .mk1 0xC01014 0x4000 64 false .ro 0xFFFFFFFF 0
  | .VE_CHECKS => .mk1 0xC01018 0x4000 64 false .ro 0xFFFFFFFF 0
  | .VE_NAN_SCORES => .mk1 0xC0101C 0x4000 64 false .ro 0xFFFFFFFF 0
  | .VE_ROUTE_DROPPED => .mk1 0xC01020 0x4000 64 false .ro 0xFFFFFFFF 0
  | .VE_SEL_ABANDONED => .mk1 0xC01024 0x4000 64 false .ro 0xFFFFFFFF 0
  | .VE_EVENT => .mk1 0xC01028 0x4000 64 false .w1c 0xF 0
  | .VE_EVENT_EN => .mk1 0xC0102C 0x4000 64 false .rw 0xF 0
  | .VE_LAST_FAULT => .mk1 0xC01030 0x4000 64 false .ro 0xFFFFFFFF 0
  | .VE_CHAIN_SEL => .mk1 0xC01034 0x4000 64 false .rw 0xFF 0
  | .VE_CHAIN_CRC => .mk1 0xC01038 0x4000 64 false .ro 0xFFFFFFFF 0
  | .VE_TREG_LIVE => .mk1 0xC0103C 0x4000 64 false .ro 0xFFFFFFFF 0
  | .UP_CMB_ROWS => .mk1 0x801100 0x4000 16 false .ro 0xFFFFFFFF 0
  | .UP_CMB_ELEMS => .mk1 0x801104 0x4000 16 false .ro 0xFFFFFFFF 0
  | .UP_CMB_DRAIN => .mk1 0x801108 0x4000 16 false .ro 0xFFFFFFFF 0
  | .UP_CMB_PEAK => .mk1 0x80110C 0x4000 16 false .ro 0xFFFFFFFF 0
  | .UP_CONTRIB_LO => .mk1 0x801110 0x4000 16 false .ro 0xFFFFFFFF 0
  | .UP_CONTRIB_HI => .mk1 0x801114 0x4000 16 false .ro 0xFFFFFFFF 0
  | .UP_DROPPED => .mk1 0x801118 0x4000 16 false .ro 0xFFFFFFFF 0
  | .UP_ROW_FAULTS => .mk1 0x80111C 0x4000 16 false .ro 0xFFFFFFFF 0
  | .UP_SHARD_SEL => .mk1 0x801120 0x4000 16 false .rw 0x3FF 0
  | .UP_SHARD => .mk1 0x801124 0x4000 16 false .ro 0xFFFFFFFF 0
  | .UP_SHARD_STEP => .mk1 0x801128 0x4000 16 false .ro 0xFFFFFFFF 0
  | .UP_SHARD_Q => .mk1 0x80112C 0x4000 16 false .ro 0xFFFFFFFF 0
  | .UP_CTRL => .mk1 0x801200 0x4000 16 true .rw 0x800003FF 0
  | .UP_STATUS => .mk1 0x801204 0x4000 16 true .ro 0xFFFFFFFF 0
  | .UP_STEP => .mk1 0x801208 0x4000 16 true .ro 0xFFFFFFFF 0
  | .UP_CAUSE => .mk1 0x80120C 0x4000 16 true .ro 0xFFFFFFFF 0
  | .UP_CLOSE_LO => .mk1 0x801210 0x4000 16 true .ro 0xFFFFFFFF 0
  | .UP_CLOSE_HI => .mk1 0x801214 0x4000 16 true .ro 0xFFFFFFFF 0
  | .UP_COMMITS => .mk1 0x801218 0x4000 16 true .ro 0xFFFFFFFF 0
  | .UP_SKIPS => .mk1 0x80121C 0x4000 16 true .ro 0xFFFFFFFF 0
  | .UP_FLIP_SKIPS => .mk1 0x801220 0x4000 16 true .ro 0xFFFFFFFF 0
  | .UP_REJECTED => .mk1 0x801224 0x4000 16 true .ro 0xFFFFFFFF 0
  | .UP_FROZEN => .mk1 0x801228 0x4000 16 true .ro 0xFFFFFFFF 0
  | .UP_EVENT => .mk1 0x80122C 0x4000 16 true .w1c 0x3F 0
  | .UP_EVENT_EN => .mk1 0x801230 0x4000 16 true .rw 0x3F 0
  | .UP_LAYER_SEL => .mk1 0x801234 0x4000 16 true .rw 0xFFF 0
  | .UP_LAYER => .mk1 0x801238 0x4000 16 true .ro 0xFFFFFFFF 0
  | .UP_LAYER_STEP => .mk1 0x80123C 0x4000 16 true .ro 0xFFFFFFFF 0
  | .FB_STATUS => .mk1 0x400000 0x1000 64 false .ro 0xFFFFFFFF 0
  | .FB_NEIGHBOUR => .mk1 0x400004 0x1000 64 false .ro 0xFFFFFFFF 0
  | .FB_LANES => .mk1 0x400008 0x1000 64 false .ro 0xFFFFFFFF 0
  | .FB_FEC_CORR_LO => .mk1 0x40000C 0x1000 64 false .ro 0xFFFFFFFF 0
  | .FB_FEC_CORR_HI => .mk1 0x400010 0x1000 64 false .ro 0xFFFFFFFF 0
  | .FB_FEC_UNCORR => .mk1 0x400014 0x1000 64 false .ro 0xFFFFFFFF 0
  | .FB_NACK_TX => .mk1 0x400018 0x1000 64 false .ro 0xFFFFFFFF 0
  | .FB_NACK_RX => .mk1 0x40001C 0x1000 64 false .ro 0xFFFFFFFF 0
  | .FB_CRC_ERRORS => .mk1 0x400020 0x1000 64 false .ro 0xFFFFFFFF 0
  | .FB_STOMPED => .mk1 0x400024 0x1000 64 false .ro 0xFFFFFFFF 0
  | .FB_TX_FLITS_LO => .mk1 0x400028 0x1000 64 false .ro 0xFFFFFFFF 0
  | .FB_TX_FLITS_HI => .mk1 0x40002C 0x1000 64 false .ro 0xFFFFFFFF 0
  | .FB_RX_FLITS_LO => .mk1 0x400030 0x1000 64 false .ro 0xFFFFFFFF 0
  | .FB_RX_FLITS_HI => .mk1 0x400034 0x1000 64 false .ro 0xFFFFFFFF 0
  | .FB_CREDIT_STALL0 => .mk1 0x400038 0x1000 64 false .ro 0xFFFFFFFF 0
  | .FB_CREDIT_STALL1 => .mk1 0x40003C 0x1000 64 false .ro 0xFFFFFFFF 0
  | .FB_CREDIT_STALL2 => .mk1 0x400040 0x1000 64 false .ro 0xFFFFFFFF 0
  | .FB_CREDIT_STALL3 => .mk1 0x400044 0x1000 64 false .ro 0xFFFFFFFF 0
  | .FB_LINK_DELAY => .mk1 0x400048 0x1000 64 false .ro 0xFFFFFFFF 0
  | .FB_EVENT => .mk1 0x40004C 0x1000 64 false .w1c 0xFF 0
  | .FB_EVENT_EN => .mk1 0x400050 0x1000 64 false .rw 0xFF 0
  | .FB_CTRL => .mk1 0x400054 0x1000 64 false .wo 0x7 0
  | .FB_LANE_SEL => .mk1 0x400058 0x1000 64 false .rw 0x7 0
  | .FB_LANE_SYMERR => .mk1 0x40005C 0x1000 64 false .ro 0xFFFFFFFF 0
  | .FB_GRID => .mk1 0x400800 0x1000 64 true .ro 0xFFFFFFFF 0
  | .FB_FABRIC_ID => .mk1 0x400804 0x1000 64 true .ro 0xFFFFFFFF 0
  | .FB_ROUTE_SEL => .mk1 0x400808 0x1000 64 true .rw 0x3FFF 0
  | .FB_ROUTE => .mk1 0x40080C 0x1000 64 true .ro 0xFFFFFFFF 0
  | .FB_ROUTE_PORTS => .mk1 0x400810 0x1000 64 true .ro 0xFFFFFFFF 0
  | .FB_ROUTE_EPOCH => .mk1 0x400814 0x1000 64 true .ro 0xFFFFFFFF 0
  | .FB_DEVICES => .mk1 0x400818 0x1000 64 true .ro 0xFFFFFFFF 0
  | .FB_NO_ROUTE => .mk1 0x40081C 0x1000 64 true .ro 0xFFFFFFFF 0
  | .FB_HOP_EXPIRED => .mk1 0x400820 0x1000 64 true .ro 0xFFFFFFFF 0
  | .FB_EVENT_GLOBAL => .mk1 0x400824 0x1000 64 true .w1c 0x7 0
  | .FB_EVENT_GLOBAL_EN => .mk1 0x400828 0x1000 64 true .rw 0x7 0
  | .FB_CONN_SEL => .mk1 0x400900 0x1000 64 true .rw 0xFFF 0
  | .FB_CONN => .mk1 0x400904 0x1000 64 true .ro 0xFFFFFFFF 0
  | .FB_CONN_OUT => .mk1 0x400908 0x1000 64 true .ro 0xFFFFFFFF 0
  | .FB_CONN_RETX => .mk1 0x40090C 0x1000 64 true .ro 0xFFFFFFFF 0
  | .FB_CONNS => .mk1 0x400910 0x1000 64 true .ro 0xFFFFFFFF 0
  | .FB_CONN_REFUSED => .mk1 0x400914 0x1000 64 true .ro 0xFFFFFFFF 0
  | .FB_NO_PARTNER => .mk1 0x400918 0x1000 64 true .ro 0xFFFFFFFF 0
  | .FB_WINDOW_REFUSED => .mk1 0x40091C 0x1000 64 true .ro 0xFFFFFFFF 0
  | .FB_BAD_KIND => .mk1 0x400920 0x1000 64 true .ro 0xFFFFFFFF 0
  | .FB_C0_DEMOTED => .mk1 0x400924 0x1000 64 true .ro 0xFFFFFFFF 0
  | .FB_C0_OVER => .mk1 0x400928 0x1000 64 true .ro 0xFFFFFFFF 0
  | .FB_PRUNES => .mk1 0x40092C 0x1000 64 true .ro 0xFFFFFFFF 0
  | .FB_PULLS => .mk1 0x400930 0x1000 64 true .ro 0xFFFFFFFF 0
  | .FB_DIGEST_FAILS => .mk1 0x400934 0x1000 64 true .ro 0xFFFFFFFF 0
  | .FB_VERDICT => .mk1 0x400938 0x1000 64 true .ro 0xFFFFFFFF 0
  | .FB_VERDICT_STEP => .mk1 0x40093C 0x1000 64 true .ro 0xFFFFFFFF 0
  | .FB_VTREE => .mk1 0x400940 0x1000 64 true .ro 0xFFFFFFFF 0
  | .FB_TRAFFIC_EVENT => .mk1 0x400944 0x1000 64 true .w1c 0x7F 0
  | .FB_TRAFFIC_EVENT_EN => .mk1 0x400948 0x1000 64 true .rw 0x7F 0
  | .FB_COLL_WAITS => .mk1 0x40094C 0x1000 64 true .ro 0xFFFFFFFF 0
  | .HC_STATUS => .mk1 0x40000 0x0 1 false .ro 0xFFFFFFFF 0
  | .HC_LINK => .mk1 0x40004 0x0 1 false .ro 0xFFFFFFFF 0
  | .HC_LINK_DOWNS => .mk1 0x40008 0x0 1 false .ro 0xFFFFFFFF 0
  | .HC_RETRAINS => .mk1 0x4000C 0x0 1 false .ro 0xFFFFFFFF 0
  | .HC_RESETS => .mk1 0x40010 0x0 1 false .ro 0xFFFFFFFF 0
  | .HC_LOST_WRITES => .mk1 0x40014 0x0 1 false .ro 0xFFFFFFFF 0
  | .HC_GRACE_LEFT => .mk1 0x40018 0x0 1 false .ro 0xFFFFFFFF 0
  | .HC_POISONED => .mk1 0x4001C 0x0 1 false .ro 0xFFFFFFFF 0
  | .HC_LB_ACCEPTED_LO => .mk1 0x40020 0x0 1 false .ro 0xFFFFFFFF 0
  | .HC_LB_ACCEPTED_HI => .mk1 0x40024 0x0 1 false .ro 0xFFFFFFFF 0
  | .HC_LB_FLAGS => .mk1 0x40028 0x0 1 false .ro 0xFFFFFFFF 0
  | .HC_LB_FLAG_DROPS => .mk1 0x4002C 0x0 1 false .ro 0xFFFFFFFF 0
  | .HC_LB_REJECTS => .mk1 0x40030 0x0 1 false .ro 0xFFFFFFFF 0
  | .HC_LB_REJ_LOG0 => .mk1 0x40034 0x0 1 false .w1c 0x8007FFFF 0
  | .HC_LB_REJ_LOG1 => .mk1 0x40038 0x0 1 false .ro 0xFFFFFFFF 0
  | .HC_LB_ENTRY_ERR => .mk1 0x4003C 0x0 1 false .w1c 0x800FFFFF 0
  | .HC_LB_FENCE => .mk1 0x40040 0x0 1 false .wo 0xFFFF 0
  | .HC_LB_FENCE_STATUS => .mk1 0x40044 0x0 1 false .ro 0xFFFFFFFF 0
  | .HC_EVENT => .mk1 0x40050 0x0 1 false .w1c 0x1FF 0
  | .HC_EVENT_EN => .mk1 0x40054 0x0 1 false .rw 0x1FF 0
  | .XL_STATUS => .mk1 0x80000 0x0 1 false .ro 0xFFFFFFFF 0
  | .XL_AS_SEL => .mk1 0x80004 0x0 1 false .rw 0xFF 0
  | .XL_AS_ROOT_LO => .mk1 0x80008 0x0 1 false .rw 0xFFFFFFFF 0
  | .XL_AS_ROOT_HI => .mk1 0x8000C 0x0 1 false .rw 0xFFFFFFFF 0
  | .XL_AS_CTRL => .mk1 0x80010 0x0 1 false .rw 0x1 0
  | .XL_INV_AS => .mk1 0x80020 0x0 1 false .rw 0x1FF 0
  | .XL_INV_VA_LO => .mk1 0x80024 0x0 1 false .rw 0xFFFFFFFF 0
  | .XL_INV_VA_HI => .mk1 0x80028 0x0 1 false .rw 0xFFFFFFFF 0
  | .XL_INV_PAGES => .mk1 0x8002C 0x0 1 false .rw 0xFFFFFFFF 0
  | .XL_INV_CMD => .mk1 0x80030 0x0 1 false .wo 0x1 0
  | .XL_INV_STATUS => .mk1 0x80034 0x0 1 false .ro 0xFFFFFFFF 0
  | .XL_RING_LO => .mk1 0x80040 0x0 1 false .rw 0xFFFFFFFF 0
  | .XL_RING_HI => .mk1 0x80044 0x0 1 false .rw 0xFFFFFFFF 0
  | .XL_RING_CTRL => .mk1 0x80048 0x0 1 false .rw 0x1 0
  | .XL_RING_HEAD => .mk1 0x8004C 0x0 1 false .rw 0xFFF 0
  | .XL_RING_TAIL => .mk1 0x80050 0x0 1 false .ro 0xFFFFFFFF 0
  | .XL_PRQ_RESP => .mk1 0x80054 0x0 1 false .wo 0x800003FF 0
  | .XL_PRQ_OPEN => .mk1 0x80058 0x0 1 false .ro 0xFFFFFFFF 0
  | .XL_BAD_RESP => .mk1 0x8005C 0x0 1 false .ro 0xFFFFFFFF 0
  | .XL_HITS_LO => .mk1 0x80060 0x0 1 false .ro 0xFFFFFFFF 0
  | .XL_HITS_HI => .mk1 0x80064 0x0 1 false .ro 0xFFFFFFFF 0
  | .XL_WALKS => .mk1 0x80068 0x0 1 false .ro 0xFFFFFFFF 0
  | .XL_FAULTS => .mk1 0x8006C 0x0 1 false .ro 0xFFFFFFFF 0
  | .XL_RUNS => .mk1 0x80070 0x0 1 false .ro 0xFFFFFFFF 0
  | .XL_HOT_DROPS => .mk1 0x80074 0x0 1 false .ro 0xFFFFFFFF 0
  | .XL_HOT_THRESH => .mk1 0x80080 0x0 1 false .rw 0xFFFF 0
  | .XL_DECAY => .mk1 0x80084 0x0 1 false .rw 0xFFFF 0
  | .XL_CW_SEL => .mk1 0x80088 0x0 1 false .rw 0xF 0
  | .XL_CW_AS => .mk1 0x8008C 0x0 1 false .rw 0x1FF 0
  | .XL_CW_BASE_LO => .mk1 0x80090 0x0 1 false .rw 0xFFFFFFFF 0
  | .XL_CW_BASE_HI => .mk1 0x80094 0x0 1 false .rw 0xFFFFFFFF 0
  | .XL_CW_COUNT => .mk1 0x80098 0x0 1 false .rw 0x1FFFF 0
  | .XL_CW_FIRST => .mk1 0x8009C 0x0 1 false .ro 0xFFFFFFFF 0
  | .XL_CNT_SEL => .mk1 0x800A0 0x0 1 false .rw 0xFFFF 0
  | .XL_CNT => .mk1 0x800A4 0x0 1 false .ro 0xFFFFFFFF 0
  | .XL_CNT_CLEAR => .mk1 0x800A8 0x0 1 false .wo 0x1 0
  | .XL_EVENT => .mk1 0x800B0 0x0 1 false .w1c 0xF 0
  | .XL_EVENT_EN => .mk1 0x800B4 0x0 1 false .rw 0xF 0
  | .DB_SQ => .mk1 0x1400000 0x40 4096 false .wo 0xFFFF 0
  | .DB_CQ => .mk1 0x1400004 0x40 4096 false .wo 0xFFFF 0
  | .Q_CTRL => .mk1 0x1400008 0x40 4096 false .wo 0x1F 0
  | .Q_STATUS => .mk1 0x140000C 0x40 4096 false .ro 0xFFFFFFFF 0
  | .SQ_BASE_LO => .mk1 0x1400010 0x40 4096 false .rw 0xFFFFFFFF 0
  | .SQ_BASE_HI => .mk1 0x1400014 0x40 4096 false .rw 0xFFFFFFFF 0
  | .CQ_BASE_LO => .mk1 0x1400018 0x40 4096 false .rw 0xFFFFFFFF 0
  | .CQ_BASE_HI => .mk1 0x140001C 0x40 4096 false .rw 0xFFFFFFFF 0
  | .Q_CAUSE => .mk1 0x1400020 0x40 4096 false .w1c 0xFF 0
  | .Q_CAUSE_EN => .mk1 0x1400024 0x40 4096 false .rw 0xFF 0
  | .Q_HEADS => .mk1 0x1400028 0x40 4096 false .ro 0xFFFFFFFF 0
  | .Q_INFLIGHT => .mk1 0x140002C 0x40 4096 false .ro 0xFFFFFFFF 0
  | .CF_STATUS => .mk1 0xC0000 0x0 1 false .ro 0xFFFFFFFF 0
  | .CF_COMMANDS_LO => .mk1 0xC0004 0x0 1 false .ro 0xFFFFFFFF 0
  | .CF_COMMANDS_HI => .mk1 0xC0008 0x0 1 false .ro 0xFFFFFFFF 0
  | .CF_LAUNCH_WAITS => .mk1 0xC000C 0x0 1 false .ro 0xFFFFFFFF 0
  | .CF_ENQ_REFUSED => .mk1 0xC0010 0x0 1 false .ro 0xFFFFFFFF 0
  | .CF_ORPHAN_FAULTS => .mk1 0xC0014 0x0 1 false .ro 0xFFFFFFFF 0
  | .CF_Q_DROPS => .mk1 0xC0018 0x0 1 false .ro 0xFFFFFFFF 0
  | .CF_GUILTY => .mk1 0xC001C 0x0 1 false .ro 0xFFFFFFFF 0
  | .CF_ITIN_SEL => .mk1 0xC0020 0x0 1 false .rw 0x3FF 0
  | .CF_ITIN => .mk1 0xC0024 0x0 1 false .ro 0xFFFFFFFF 0
  | .CF_CAP_SEL => .mk1 0xC0028 0x0 1 false .rw 0xF 0
  | .CF_CAP_INFO => .mk1 0xC002C 0x0 1 false .ro 0xFFFFFFFF 0
  | .CF_CAP_SLOT => .mk1 0xC0030 0x0 1 false .ro 0xFFFFFFFF 0
  | .CF_CAP_VA_LO => .mk1 0xC0034 0x0 1 false .ro 0xFFFFFFFF 0
  | .CF_CAP_VA_HI => .mk1 0xC0038 0x0 1 false .ro 0xFFFFFFFF 0
  | .CF_CAP_COUNT_LO => .mk1 0xC003C 0x0 1 false .ro 0xFFFFFFFF 0
  | .CF_CAP_COUNT_HI => .mk1 0xC0040 0x0 1 false .ro 0xFFFFFFFF 0
  | .CF_CAP_ARRAYS_LO => .mk1 0xC0044 0x0 1 false .ro 0xFFFFFFFF 0
  | .CF_CAP_ARRAYS_HI => .mk1 0xC0048 0x0 1 false .ro 0xFFFFFFFF 0
  | .CF_CAP_STACKS => .mk1 0xC004C 0x0 1 false .ro 0xFFFFFFFF 0
  | .CF_CAP_WORD_SEL => .mk1 0xC0050 0x0 1 false .rw 0x1F 0
  | .CF_CAP_WORD => .mk1 0xC0054 0x0 1 false .ro 0xFFFFFFFF 0
  | .CF_EVENT => .mk1 0xC0058 0x0 1 false .w1c 0xF 0
  | .CF_EVENT_EN => .mk1 0xC005C 0x0 1 false .rw 0xF 0
  | .SC_STATUS => .mk1 0x100000 0x0 1 false .ro 0xFFFFFFFF 0
  | .SC_STREAMS => .mk1 0x100004 0x0 1 false .ro 0xFFFFFFFF 0
  | .SC_PREEMPT_C0 => .mk1 0x100008 0x0 1 false .ro 0xFFFFFFFF 0
  | .SC_PREEMPT_QUANTUM => .mk1 0x10000C 0x0 1 false .ro 0xFFFFFFFF 0
  | .SC_SAVE_MAX => .mk1 0x100010 0x0 1 false .ro 0xFFFFFFFF 0
  | .SC_REARM_BUSY => .mk1 0x100014 0x0 1 false .ro 0xFFFFFFFF 0
  | .SC_HALTS => .mk1 0x100018 0x0 1 false .ro 0xFFFFFFFF 0
  | .SC_SKIPPED => .mk1 0x10001C 0x0 1 false .ro 0xFFFFFFFF 0
  | .SC_CTX_SEL => .mk1 0x100020 0x0 1 false .rw 0x3FFFF 0
  | .SC_CTX => .mk1 0x100024 0x0 1 false .ro 0xFFFFFFFF 0
  | .SC_CTX_ITER => .mk1 0x100028 0x0 1 false .ro 0xFFFFFFFF 0
  | .SC_CTX_UNIT => .mk1 0x10002C 0x0 1 false .ro 0xFFFFFFFF 0
  | .SC_ARRAY_SEL => .mk1 0x100030 0x0 1 false .rw 0x3F 0
  | .SC_ARRAY => .mk1 0x100034 0x0 1 false .ro 0xFFFFFFFF 0
  | .SC_GRP_SEL => .mk1 0x100040 0x0 1 false .rw 0x3F 0
  | .SC_GRP_ENGINE_LO => .mk1 0x100044 0x0 1 false .ro 0xFFFFFFFF 0
  | .SC_GRP_ENGINE_HI => .mk1 0x100048 0x0 1 false .ro 0xFFFFFFFF 0
  | .SC_GRP_GRANTS_LO => .mk1 0x10004C 0x0 1 false .ro 0xFFFFFFFF 0
  | .SC_GRP_GRANTS_HI => .mk1 0x100050 0x0 1 false .ro 0xFFFFFFFF 0
  | .SC_GRP_FLITS_LO => .mk1 0x100054 0x0 1 false .ro 0xFFFFFFFF 0
  | .SC_GRP_FLITS_HI => .mk1 0x100058 0x0 1 false .ro 0xFFFFFFFF 0
  | .SC_GRP_DMA_LO => .mk1 0x10005C 0x0 1 false .ro 0xFFFFFFFF 0
  | .SC_GRP_DMA_HI => .mk1 0x100060 0x0 1 false .ro 0xFFFFFFFF 0
  | .SC_GRP_HELD => .mk1 0x100064 0x0 1 false .ro 0xFFFFFFFF 0
  | .SC_EVENT => .mk1 0x100068 0x0 1 false .w1c 0x1F 0
  | .SC_EVENT_EN => .mk1 0x10006C 0x0 1 false .rw 0x1F 0
  | .RL_STATUS => .mk1 0x140000 0x0 1 false .ro 0xFFFFFFFF 0
  | .RL_ECC_CORR_LO => .mk1 0x140004 0x0 1 false .ro 0xFFFFFFFF 0
  | .RL_ECC_CORR_HI => .mk1 0x140008 0x0 1 false .ro 0xFFFFFFFF 0
  | .RL_UNCORR => .mk1 0x14000C 0x0 1 false .ro 0xFFFFFFFF 0
  | .RL_BCV_FAILS => .mk1 0x140010 0x0 1 false .ro 0xFFFFFFFF 0
  | .RL_SHADOW_TILES => .mk1 0x140014 0x0 1 false .ro 0xFFFFFFFF 0
  | .RL_SHADOW_CALLS => .mk1 0x140018 0x0 1 false .ro 0xFFFFFFFF 0
  | .RL_SHADOW_VOID => .mk1 0x14001C 0x0 1 false .ro 0xFFFFFFFF 0
  | .RL_MISMATCH => .mk1 0x140020 0x0 1 false .ro 0xFFFFFFFF 0
  | .RL_QUAR_ARRAYS_LO => .mk1 0x140024 0x0 1 false .ro 0xFFFFFFFF 0
  | .RL_QUAR_ARRAYS_HI => .mk1 0x140028 0x0 1 false .ro 0xFFFFFFFF 0
  | .RL_QUAR_ROOMS => .mk1 0x14002C 0x0 1 false .ro 0xFFFFFFFF 0
  | .RL_QUAR_SEL => .mk1 0x140030 0x0 1 false .rw 0x1FFF 0
  | .RL_QUAR_ROOM => .mk1 0x140034 0x0 1 false .ro 0xFFFFFFFF 0
  | .RL_DIGESTS => .mk1 0x140038 0x0 1 false .ro 0xFFFFFFFF 0
  | .RL_DIGEST_LATE => .mk1 0x14003C 0x0 1 false .ro 0xFFFFFFFF 0
  | .RL_EXPELLED => .mk1 0x140040 0x0 1 false .ro 0xFFFFFFFF 0
  | .RL_RESTART => .mk1 0x140044 0x0 1 false .wo 0xFFF 0
  | .RL_CKPT_LIST_LO => .mk1 0x140048 0x0 1 false .rw 0xFFFFFFFF 0
  | .RL_CKPT_LIST_HI => .mk1 0x14004C 0x0 1 false .rw 0xFFFFFFFF 0
  | .RL_CKPT_COUNT => .mk1 0x140050 0x0 1 false .rw 0x7FF 0
  | .RL_CKPT_DEST_LO => .mk1 0x140054 0x0 1 false .rw 0xFFFFFFFF 0
  | .RL_CKPT_DEST_HI => .mk1 0x140058 0x0 1 false .rw 0xFFFFFFFF 0
  | .RL_CKPT_CTRL => .mk1 0x14005C 0x0 1 false .wo 0x1 0
  | .RL_CKPT_STATUS => .mk1 0x140060 0x0 1 false .ro 0xFFFFFFFF 0
  | .RL_CKPT_STEP => .mk1 0x140064 0x0 1 false .ro 0xFFFFFFFF 0
  | .RL_LOG_SEL => .mk1 0x140068 0x0 1 false .rw 0x3F 0
  | .RL_LOG_INFO => .mk1 0x14006C 0x0 1 false .ro 0xFFFFFFFF 0
  | .RL_LOG_WHERE => .mk1 0x140070 0x0 1 false .ro 0xFFFFFFFF 0
  | .RL_LOG_COUNT_LO => .mk1 0x140074 0x0 1 false .ro 0xFFFFFFFF 0
  | .RL_LOG_COUNT_HI => .mk1 0x140078 0x0 1 false .ro 0xFFFFFFFF 0
  | .RL_LOG_CLEAR => .mk1 0x14007C 0x0 1 false .wo 0x1 0
  | .RL_LOG_LOST => .mk1 0x140080 0x0 1 false .ro 0xFFFFFFFF 0
  | .RL_EVENT => .mk1 0x140084 0x0 1 false .w1c 0x3F 0
  | .RL_EVENT_EN => .mk1 0x140088 0x0 1 false .rw 0x3F 0
  | .PW_STATUS => .mk1 0x180000 0x0 1 false .ro 0xFFFFFFFF 0
  | .PW_CTRL => .mk1 0x180004 0x0 1 false .wo 0x3 0
  | .PW_POWER => .mk1 0x180008 0x0 1 false .ro 0xFFFFFFFF 0
  | .PW_ENVELOPE => .mk1 0x18000C 0x0 1 false .ro 0xFFFFFFFF 0x000004B0
  | .PW_WAKE_AT_LO => .mk1 0x180010 0x0 1 false .rw 0xFFFFFFFF 0
  | .PW_WAKE_AT_HI => .mk1 0x180014 0x0 1 false .rw 0xFFFFFFFF 0
  | .PW_THROTTLED => .mk1 0x180018 0x0 1 false .ro 0xFFFFFFFF 0
  | .PW_BELOW_FLOOR => .mk1 0x18001C 0x0 1 false .ro 0xFFFFFFFF 0
  | .PW_ARRAY_SEL => .mk1 0x180020 0x0 1 false .rw 0x3F 0
  | .PW_ARRAY_STEP => .mk1 0x180024 0x0 1 false .ro 0xFFFFFFFF 0
  | .PW_EVENT => .mk1 0x180028 0x0 1 false .w1c 0x1F 0
  | .PW_EVENT_EN => .mk1 0x18002C 0x0 1 false .rw 0x1F 0
  | .PO_STATUS => .mk1 0x180100 0x0 1 false .ro 0xFFFFFFFF 0
  | .PO_CH_SEL => .mk1 0x180104 0x0 1 false .rw 0xFF 0
  | .PO_CH_VALUE => .mk1 0x180108 0x0 1 false .ro 0xFFFFFFFF 0
  | .PO_CH_RAW => .mk1 0x18010C 0x0 1 false .ro 0xFFFFFFFF 0
  | .PO_RULE_SEL => .mk1 0x180110 0x0 1 false .rw 0x7F 0
  | .PO_RULE_STATE => .mk1 0x180114 0x0 1 false .ro 0xFFFFFFFF 0
  | .PO_RULE_CLEAR => .mk1 0x180118 0x0 1 false .wo 0x1 0
  | .PO_TRIP_CAUSE => .mk1 0x18011C 0x0 1 false .w1c 0xFF001F 0
  | .PO_TRIP_CLEAR => .mk1 0x180120 0x0 1 false .wo 0x1 0
  | .PO_EVENT => .mk1 0x180124 0x0 1 false .w1c 0x7 0
  | .PO_EVENT_EN => .mk1 0x180128 0x0 1 false .rw 0x7 0
  | .ID_MAGIC => .mk1 0x0 0x0 1 false .ro 0xFFFFFFFF 0x36314D50
  | .ID_PART => .mk1 0x4 0x0 1 false .ro 0xFFFFFFFF 0
  | .ID_DEVICE_LO => .mk1 0x8 0x0 1 false .ro 0xFFFFFFFF 0
  | .ID_DEVICE_HI => .mk1 0xC 0x0 1 false .ro 0xFFFFFFFF 0
  | .ID_BOOT => .mk1 0x10 0x0 1 false .ro 0xFFFFFFFF 0
  | .ID_FW_VERSION => .mk1 0x14 0x0 1 false .ro 0xFFFFFFFF 0
  | .ID_SEC_MIN => .mk1 0x18 0x0 1 false .ro 0xFFFFFFFF 0
  | .ID_LOCK => .mk1 0x1C 0x0 1 false .ro 0xFFFFFFFF 0
  | .ID_NONCE0 => .mk1 0x20 0x0 1 false .ro 0xFFFFFFFF 0
  | .ID_NONCE1 => .mk1 0x24 0x0 1 false .ro 0xFFFFFFFF 0
  | .ID_NONCE2 => .mk1 0x28 0x0 1 false .ro 0xFFFFFFFF 0
  | .ID_NONCE3 => .mk1 0x2C 0x0 1 false .ro 0xFFFFFFFF 0
  | .ID_ROOT_HASH0 => .mk1 0x40 0x0 1 false .ro 0xFFFFFFFF 0
  | .ID_ROOT_HASH1 => .mk1 0x44 0x0 1 false .ro 0xFFFFFFFF 0
  | .ID_ROOT_HASH2 => .mk1 0x48 0x0 1 false .ro 0xFFFFFFFF 0
  | .ID_ROOT_HASH3 => .mk1 0x4C 0x0 1 false .ro 0xFFFFFFFF 0
  | .ID_ROOT_HASH4 => .mk1 0x50 0x0 1 false .ro 0xFFFFFFFF 0
  | .ID_ROOT_HASH5 => .mk1 0x54 0x0 1 false .ro 0xFFFFFFFF 0
  | .ID_ROOT_HASH6 => .mk1 0x58 0x0 1 false .ro 0xFFFFFFFF 0
  | .ID_ROOT_HASH7 => .mk1 0x5C 0x0 1 false .ro 0xFFFFFFFF 0
  | .SE_STATUS => .mk1 0x1C0000 0x0 1 false .ro 0xFFFFFFFF 0
  | .SE_CTRL => .mk1 0x1C0004 0x0 1 false .wo 0x7 0
  | .SE_RESULT => .mk1 0x1C0008 0x0 1 false .ro 0xFFFFFFFF 0
  | .SE_SLOT_SEL => .mk1 0x1C000C 0x0 1 false .rw 0x3 0
  | .SE_SLOT => .mk1 0x1C0010 0x0 1 false .ro 0xFFFFFFFF 0
  | .SE_SLOT_HASH0 => .mk1 0x1C0020 0x0 1 false .ro 0xFFFFFFFF 0
  | .SE_SLOT_HASH1 => .mk1 0x1C0024 0x0 1 false .ro 0xFFFFFFFF 0
  | .SE_SLOT_HASH2 => .mk1 0x1C0028 0x0 1 false .ro 0xFFFFFFFF 0
  | .SE_SLOT_HASH3 => .mk1 0x1C002C 0x0 1 false .ro 0xFFFFFFFF 0
  | .SE_SLOT_HASH4 => .mk1 0x1C0030 0x0 1 false .ro 0xFFFFFFFF 0
  | .SE_SLOT_HASH5 => .mk1 0x1C0034 0x0 1 false .ro 0xFFFFFFFF 0
  | .SE_SLOT_HASH6 => .mk1 0x1C0038 0x0 1 false .ro 0xFFFFFFFF 0
  | .SE_SLOT_HASH7 => .mk1 0x1C003C 0x0 1 false .ro 0xFFFFFFFF 0
  | .SE_EVENT => .mk1 0x1C0040 0x0 1 false .w1c 0x7 0
  | .SE_EVENT_EN => .mk1 0x1C0044 0x0 1 false .rw 0x7 0
  | .TR_STATUS => .mk1 0x200000 0x0 1 false .ro 0xFFFFFFFF 0
  | .TR_CTRL => .mk1 0x200004 0x0 1 false .wo 0xFF07 0
  | .TR_MARK_ID => .mk1 0x200008 0x0 1 false .ro 0xFFFFFFFF 0
  | .TR_LATCH_LO => .mk1 0x20000C 0x0 1 false .ro 0xFFFFFFFF 0
  | .TR_LATCH_HI => .mk1 0x200010 0x0 1 false .ro 0xFFFFFFFF 0
  | .TR_MISSED => .mk1 0x200014 0x0 1 false .ro 0xFFFFFFFF 0
  | .TR_MISSED_ID => .mk1 0x200018 0x0 1 false .ro 0xFFFFFFFF 0
  | .TR_SEL => .mk1 0x20001C 0x0 1 false .rw 0xFFFFFF07 0
  | .TR_DATA => .mk1 0x200020 0x0 1 false .ro 0xFFFFFFFF 0
  | .TR_DUMP_LO => .mk1 0x200024 0x0 1 false .rw 0xFFFFFFFF 0
  | .TR_DUMP_HI => .mk1 0x200028 0x0 1 false .rw 0xFFFFFFFF 0
  | .TR_DUMP_LEN => .mk1 0x20002C 0x0 1 false .ro 0xFFFFFFFF 0
  | .TR_EVENT => .mk1 0x200030 0x0 1 false .w1c 0x3F 0
  | .TR_EVENT_EN => .mk1 0x200034 0x0 1 false .rw 0x3F 0
  | .TR_TELEM_CUR => .mk1 0x200038 0x0 1 false .ro 0xFFFFFFFF 0
  | .ST_PRESERVE => .mk1 0x8000B0 0x4000 16 false .ro 0xFFFFFFFF 0
  | .ST_CONTENT_CTRL => .mk1 0x8000B4 0x4000 16 false .wo 0x3 0
  | .ST_CONTENT_STATUS => .mk1 0x8000B8 0x4000 16 false .ro 0xFFFFFFFF 0
  | .ST_VERIFY => .mk1 0x8000BC 0x4000 16 false .ro 0xFFFFFFFF 0

/-- Registers 0 to 45. -/
def Reg.all0 : List Reg := [.FP_CTRL, .FP_STATUS, .FP_ERROR, .FP_ERR_DETAIL, .FP_SRC_LO, .FP_SRC_HI, .FP_LEN, .FP_STAGE_BASE, .FP_AMEND_SEQ, .FP_EVENT, .FP_EVENT_EN, .FP_DROPPED, .FP_APPLIED_DIGEST0, .FP_APPLIED_DIGEST1, .FP_APPLIED_DIGEST2, .FP_APPLIED_DIGEST3, .FP_APPLIED_DIGEST4, .FP_APPLIED_DIGEST5, .FP_APPLIED_DIGEST6, .FP_APPLIED_DIGEST7, .FP_DRAIN_STACKS, .FP_DRAINED_STACKS, .FP_DRAIN_ARRAYS_LO, .FP_DRAIN_ARRAYS_HI, .FP_DRAINED_ARRAYS_LO, .FP_DRAINED_ARRAYS_HI, .FP_DRAIN_PORTS_LO, .FP_DRAIN_PORTS_HI, .FP_DRAINED_PORTS_LO, .FP_DRAINED_PORTS_HI, .MER_COUNT_LO, .MER_COUNT_HI, .MER_STATUS, .MER_MASTER, .MER_PHASE_ERR, .MER_LOCAL_OFFSET, .MER_SLOT, .MER_CTRL, .MER_EVENT, .MER_EVENT_EN, .MER_ADMIT_DEFERRED, .MER_FRAME_START_LO, .MER_FRAME_START_HI, .ST_STATUS, .ST_SHEET_SIZE, .ST_CH_FAILED_LO]

/-- Registers 46 to 91. -/
def Reg.all1 : List Reg := [.ST_CH_FAILED_HI, .ST_CH_MAPPED_OUT_LO, .ST_CH_MAPPED_OUT_HI, .ST_CHMAP_SEL, .ST_CHMAP, .ST_TEMP, .ST_GOV, .ST_ACTIVE, .ST_GOV_STALLS, .ST_RETRAIN_COUNT, .ST_SCRUB_POS, .ST_SCRUB_CORRECTED, .ST_SOFT_REPAIRS, .ST_EVENT, .ST_EVENT_EN, .ST_FOOTPRINT_LO, .ST_FOOTPRINT_HI, .ST_REPAIR_CMD, .ST_REPAIR_ARG0, .ST_REPAIR_ARG1, .ST_REPAIR_STATUS, .ST_FUSE_INDEX, .ST_FUSE_DATA_LO, .ST_FUSE_DATA_HI, .ST_SPARES_SEL, .ST_SPARES, .RM_CALL_LIMIT, .RM_CALLS, .RM_FAULTS, .RM_UPDATES, .RM_FROZEN, .RM_EVENT, .RM_EVENT_EN, .RM_FLOG_SEL, .RM_FLOG_ROOM, .RM_FLOG_INFO, .RM_FLOG_TAG, .RM_FLOG_CLEAR, .RM_PSTORE_SEL, .RM_PSTORE_CRC, .RM_PSTORE_LOADS, .WG_STATUS, .WG_LISTS, .WG_ROWS_LO, .WG_ROWS_HI, .WG_REMOTE_OUT]

/-- Registers 92 to 137. -/
def Reg.all2 : List Reg := [.WG_REMOTE_IN, .WG_OOR, .WG_CHECK_FAILS, .WG_TWIN_READS, .WG_DAMAGED, .WG_EVENT, .WG_EVENT_EN, .WG_WING_SEL, .WG_WING, .WG_WING_SLOTS, .WG_BATCH_SEL, .WG_BATCH_MEMBERS, .WG_BATCH_FREE, .WG_BATCH_REFUSED, .WG_BATCH_STEP_LO, .WG_BATCH_STEP_HI, .MX_STATUS, .MX_FAB, .MX_TILES, .MX_FEED_LO, .MX_FEED_HI, .MX_STALL_A, .MX_STALL_W, .MX_STALL_STORE, .MX_STALL_DRAIN, .MX_SKIPPED, .MX_STORE_CHECKS, .MX_EVENT, .MX_EVENT_EN, .MX_LAST_FAULT, .MX_ATTIC_HITS_LO, .MX_ATTIC_HITS_HI, .MX_ATTIC_MISSES, .MX_ATTIC_INVALS, .MX_ATTIC_PINNED, .VE_STATUS, .VE_CHAINS, .VE_BUSY_LO, .VE_BUSY_HI, .VE_QUEUE_FULL, .VE_STALL_OPERAND, .VE_CHECKS, .VE_NAN_SCORES, .VE_ROUTE_DROPPED, .VE_SEL_ABANDONED, .VE_EVENT]

/-- Registers 138 to 183. -/
def Reg.all3 : List Reg := [.VE_EVENT_EN, .VE_LAST_FAULT, .VE_CHAIN_SEL, .VE_CHAIN_CRC, .VE_TREG_LIVE, .UP_CMB_ROWS, .UP_CMB_ELEMS, .UP_CMB_DRAIN, .UP_CMB_PEAK, .UP_CONTRIB_LO, .UP_CONTRIB_HI, .UP_DROPPED, .UP_ROW_FAULTS, .UP_SHARD_SEL, .UP_SHARD, .UP_SHARD_STEP, .UP_SHARD_Q, .UP_CTRL, .UP_STATUS, .UP_STEP, .UP_CAUSE, .UP_CLOSE_LO, .UP_CLOSE_HI, .UP_COMMITS, .UP_SKIPS, .UP_FLIP_SKIPS, .UP_REJECTED, .UP_FROZEN, .UP_EVENT, .UP_EVENT_EN, .UP_LAYER_SEL, .UP_LAYER, .UP_LAYER_STEP, .FB_STATUS, .FB_NEIGHBOUR, .FB_LANES, .FB_FEC_CORR_LO, .FB_FEC_CORR_HI, .FB_FEC_UNCORR, .FB_NACK_TX, .FB_NACK_RX, .FB_CRC_ERRORS, .FB_STOMPED, .FB_TX_FLITS_LO, .FB_TX_FLITS_HI, .FB_RX_FLITS_LO]

/-- Registers 184 to 229. -/
def Reg.all4 : List Reg := [.FB_RX_FLITS_HI, .FB_CREDIT_STALL0, .FB_CREDIT_STALL1, .FB_CREDIT_STALL2, .FB_CREDIT_STALL3, .FB_LINK_DELAY, .FB_EVENT, .FB_EVENT_EN, .FB_CTRL, .FB_LANE_SEL, .FB_LANE_SYMERR, .FB_GRID, .FB_FABRIC_ID, .FB_ROUTE_SEL, .FB_ROUTE, .FB_ROUTE_PORTS, .FB_ROUTE_EPOCH, .FB_DEVICES, .FB_NO_ROUTE, .FB_HOP_EXPIRED, .FB_EVENT_GLOBAL, .FB_EVENT_GLOBAL_EN, .FB_CONN_SEL, .FB_CONN, .FB_CONN_OUT, .FB_CONN_RETX, .FB_CONNS, .FB_CONN_REFUSED, .FB_NO_PARTNER, .FB_WINDOW_REFUSED, .FB_BAD_KIND, .FB_C0_DEMOTED, .FB_C0_OVER, .FB_PRUNES, .FB_PULLS, .FB_DIGEST_FAILS, .FB_VERDICT, .FB_VERDICT_STEP, .FB_VTREE, .FB_TRAFFIC_EVENT, .FB_TRAFFIC_EVENT_EN, .FB_COLL_WAITS, .HC_STATUS, .HC_LINK, .HC_LINK_DOWNS, .HC_RETRAINS]

/-- Registers 230 to 275. -/
def Reg.all5 : List Reg := [.HC_RESETS, .HC_LOST_WRITES, .HC_GRACE_LEFT, .HC_POISONED, .HC_LB_ACCEPTED_LO, .HC_LB_ACCEPTED_HI, .HC_LB_FLAGS, .HC_LB_FLAG_DROPS, .HC_LB_REJECTS, .HC_LB_REJ_LOG0, .HC_LB_REJ_LOG1, .HC_LB_ENTRY_ERR, .HC_LB_FENCE, .HC_LB_FENCE_STATUS, .HC_EVENT, .HC_EVENT_EN, .XL_STATUS, .XL_AS_SEL, .XL_AS_ROOT_LO, .XL_AS_ROOT_HI, .XL_AS_CTRL, .XL_INV_AS, .XL_INV_VA_LO, .XL_INV_VA_HI, .XL_INV_PAGES, .XL_INV_CMD, .XL_INV_STATUS, .XL_RING_LO, .XL_RING_HI, .XL_RING_CTRL, .XL_RING_HEAD, .XL_RING_TAIL, .XL_PRQ_RESP, .XL_PRQ_OPEN, .XL_BAD_RESP, .XL_HITS_LO, .XL_HITS_HI, .XL_WALKS, .XL_FAULTS, .XL_RUNS, .XL_HOT_DROPS, .XL_HOT_THRESH, .XL_DECAY, .XL_CW_SEL, .XL_CW_AS, .XL_CW_BASE_LO]

/-- Registers 276 to 321. -/
def Reg.all6 : List Reg := [.XL_CW_BASE_HI, .XL_CW_COUNT, .XL_CW_FIRST, .XL_CNT_SEL, .XL_CNT, .XL_CNT_CLEAR, .XL_EVENT, .XL_EVENT_EN, .DB_SQ, .DB_CQ, .Q_CTRL, .Q_STATUS, .SQ_BASE_LO, .SQ_BASE_HI, .CQ_BASE_LO, .CQ_BASE_HI, .Q_CAUSE, .Q_CAUSE_EN, .Q_HEADS, .Q_INFLIGHT, .CF_STATUS, .CF_COMMANDS_LO, .CF_COMMANDS_HI, .CF_LAUNCH_WAITS, .CF_ENQ_REFUSED, .CF_ORPHAN_FAULTS, .CF_Q_DROPS, .CF_GUILTY, .CF_ITIN_SEL, .CF_ITIN, .CF_CAP_SEL, .CF_CAP_INFO, .CF_CAP_SLOT, .CF_CAP_VA_LO, .CF_CAP_VA_HI, .CF_CAP_COUNT_LO, .CF_CAP_COUNT_HI, .CF_CAP_ARRAYS_LO, .CF_CAP_ARRAYS_HI, .CF_CAP_STACKS, .CF_CAP_WORD_SEL, .CF_CAP_WORD, .CF_EVENT, .CF_EVENT_EN, .SC_STATUS, .SC_STREAMS]

/-- Registers 322 to 367. -/
def Reg.all7 : List Reg := [.SC_PREEMPT_C0, .SC_PREEMPT_QUANTUM, .SC_SAVE_MAX, .SC_REARM_BUSY, .SC_HALTS, .SC_SKIPPED, .SC_CTX_SEL, .SC_CTX, .SC_CTX_ITER, .SC_CTX_UNIT, .SC_ARRAY_SEL, .SC_ARRAY, .SC_GRP_SEL, .SC_GRP_ENGINE_LO, .SC_GRP_ENGINE_HI, .SC_GRP_GRANTS_LO, .SC_GRP_GRANTS_HI, .SC_GRP_FLITS_LO, .SC_GRP_FLITS_HI, .SC_GRP_DMA_LO, .SC_GRP_DMA_HI, .SC_GRP_HELD, .SC_EVENT, .SC_EVENT_EN, .RL_STATUS, .RL_ECC_CORR_LO, .RL_ECC_CORR_HI, .RL_UNCORR, .RL_BCV_FAILS, .RL_SHADOW_TILES, .RL_SHADOW_CALLS, .RL_SHADOW_VOID, .RL_MISMATCH, .RL_QUAR_ARRAYS_LO, .RL_QUAR_ARRAYS_HI, .RL_QUAR_ROOMS, .RL_QUAR_SEL, .RL_QUAR_ROOM, .RL_DIGESTS, .RL_DIGEST_LATE, .RL_EXPELLED, .RL_RESTART, .RL_CKPT_LIST_LO, .RL_CKPT_LIST_HI, .RL_CKPT_COUNT, .RL_CKPT_DEST_LO]

/-- Registers 368 to 413. -/
def Reg.all8 : List Reg := [.RL_CKPT_DEST_HI, .RL_CKPT_CTRL, .RL_CKPT_STATUS, .RL_CKPT_STEP, .RL_LOG_SEL, .RL_LOG_INFO, .RL_LOG_WHERE, .RL_LOG_COUNT_LO, .RL_LOG_COUNT_HI, .RL_LOG_CLEAR, .RL_LOG_LOST, .RL_EVENT, .RL_EVENT_EN, .PW_STATUS, .PW_CTRL, .PW_POWER, .PW_ENVELOPE, .PW_WAKE_AT_LO, .PW_WAKE_AT_HI, .PW_THROTTLED, .PW_BELOW_FLOOR, .PW_ARRAY_SEL, .PW_ARRAY_STEP, .PW_EVENT, .PW_EVENT_EN, .PO_STATUS, .PO_CH_SEL, .PO_CH_VALUE, .PO_CH_RAW, .PO_RULE_SEL, .PO_RULE_STATE, .PO_RULE_CLEAR, .PO_TRIP_CAUSE, .PO_TRIP_CLEAR, .PO_EVENT, .PO_EVENT_EN, .ID_MAGIC, .ID_PART, .ID_DEVICE_LO, .ID_DEVICE_HI, .ID_BOOT, .ID_FW_VERSION, .ID_SEC_MIN, .ID_LOCK, .ID_NONCE0, .ID_NONCE1]

/-- Registers 414 to 457. -/
def Reg.all9 : List Reg := [.ID_NONCE2, .ID_NONCE3, .ID_ROOT_HASH0, .ID_ROOT_HASH1, .ID_ROOT_HASH2, .ID_ROOT_HASH3, .ID_ROOT_HASH4, .ID_ROOT_HASH5, .ID_ROOT_HASH6, .ID_ROOT_HASH7, .SE_STATUS, .SE_CTRL, .SE_RESULT, .SE_SLOT_SEL, .SE_SLOT, .SE_SLOT_HASH0, .SE_SLOT_HASH1, .SE_SLOT_HASH2, .SE_SLOT_HASH3, .SE_SLOT_HASH4, .SE_SLOT_HASH5, .SE_SLOT_HASH6, .SE_SLOT_HASH7, .SE_EVENT, .SE_EVENT_EN, .TR_STATUS, .TR_CTRL, .TR_MARK_ID, .TR_LATCH_LO, .TR_LATCH_HI, .TR_MISSED, .TR_MISSED_ID, .TR_SEL, .TR_DATA, .TR_DUMP_LO, .TR_DUMP_HI, .TR_DUMP_LEN, .TR_EVENT, .TR_EVENT_EN, .TR_TELEM_CUR, .ST_PRESERVE, .ST_CONTENT_CTRL, .ST_CONTENT_STATUS, .ST_VERIFY]

/-- Every register, in table order. -/
def Reg.all : List Reg :=
  Reg.all0 ++ Reg.all1 ++ Reg.all2 ++ Reg.all3 ++ Reg.all4 ++ Reg.all5 ++ Reg.all6 ++ Reg.all7 ++ Reg.all8 ++ Reg.all9

/-- The instance of `r` that the BAR0 offset `off` names, if any (R20). A shared register has the one instance 0. -/
def Reg.at? (r : Reg) (off : Nat) : Option Nat :=
  let sp := r.spec
  if off < sp.addr then none
  else if sp.stride = 0 then (if off = sp.addr then some 0 else none)
  else
    let d := off - sp.addr
    if d % sp.stride = 0 ∧ d / sp.stride < sp.count then some (if sp.shared then 0 else d / sp.stride) else none

/-- The register and instance at a BAR0 offset; none where the manual assigns none (R9). -/
def findReg (off : Nat) : Option (Reg × Nat) :=
  Reg.all.findSome? (fun r => (r.at? off).map (fun i => (r, i)))

/-- The key of one instance of a register in the register store. -/
def Reg.key (r : Reg) (inst : Nat) : Nat := inst * 512 + r.ctorIdx

end Sys2Proof.Machine
end

