-- ==== Sys2Proof/Machine/State.lean ====
section
/-! DEFINITION. Machine/State.lean: everything the spec gives the module, as plain data, and the state after reset. -/

namespace Sys2Proof.Machine

/-- A sparse table of optional records: an unlisted key holds none. -/
abbrev Tab (α : Type) := SMap (Option α)

/-- The record at a key. -/
def Tab.at {α : Type} (t : Tab α) (k : Nat) : Option α := SMap.get (fun _ => none) t k
/-- Put a record. -/
def Tab.put {α : Type} [DecidableEq α] (t : Tab α) (k : Nat) (v : α) : Tab α := SMap.set (fun _ => none) t k (some v)
/-- Take a record out. -/
def Tab.del {α : Type} [DecidableEq α] (t : Tab α) (k : Nat) : Tab α := SMap.set (fun _ => none) t k none
/-- The records with their keys, keys rising. -/
def Tab.list {α : Type} (t : Tab α) : List (Nat × α) := t.filterMap (fun e => e.2.map (fun v => (e.1, v)))
/-- Change the record at a key, where there is one. -/
def Tab.upd {α : Type} [DecidableEq α] (t : Tab α) (k : Nat) (f : α → α) : Tab α :=
  match t.at k with
  | some v => t.put k (f v)
  | none => t

/-! ### What leaves the module -/

/-- What the module sends out, oldest first in the outbox (R326: one ordering domain for host-bound writes). -/
inductive Out where
  /-- The answer of a BAR0 read. -/
  | readData (v : Nat)
  /-- A read of host memory: CXL.io or CXL.cache (R314). -/
  | hostRead (addr len : Nat)
  /-- A posted write to host memory (R314). -/
  | hostWrite (addr : Nat) (bytes : List Byte)
  /-- An MSI-X message (R333). -/
  | msix (vector : Nat)
  /-- An Unsupported Request completion (R313, R317). -/
  | unsupported
  /-- A configuration answer; Retry Status while `ready` is false (R457). -/
  | config (ready : Bool) (v : Nat)
  /-- A snoop answer, always without data (R314). -/
  | snoopAck (addr : Nat)
  /-- A flit of 256 bytes on a port (Table 11-1), as its lanes carry it: lane and bytes (R257). -/
  | flit (port : Nat) (lanes : List (Nat × List Byte))
  /-- An answer on the management bus or the DOE mailbox: protocol, code, fields. -/
  | mgmt (proto code : Nat) (fields : List Nat) (payload : List Byte)
deriving DecidableEq, Repr

/-- Registers, interrupts and everything on its way out. -/
structure Io where
  /-- 32-bit registers that hold their own value, keyed by `Reg.key` (Table 0-5). -/
  regs : SMap Word
  /-- 64-bit counters, keyed by the key of their _LO register. -/
  wide : SMap DWord
  /-- MSI-X Enable and Function Mask of configuration space (R333). -/
  msixOn : Bool
  msixMask : Bool
  /-- The MSI-X table, keyed by 4 × vector + dword (R333). -/
  msixTab : SMap Word
  /-- The pending-bit array (R333). -/
  pba : SMap Bool
  /-- Link state of HC_STATUS (Table 13-9). -/
  link : Nat
  /-- Outbound, oldest first (log entry 6). -/
  out : List Out
deriving DecidableEq, Repr

/-! ### The floor plan (chapter 2) -/

/-- The plan in force: its sections' plaintext by section id (R36), the slot that signed it (R42) and its security
version. -/
structure Plan where
  active : Bool
  signer : Nat
  version : Nat
  sections : List (Nat × List Byte)
deriving DecidableEq, Repr

/-- Image store states (Table 2-10). -/
inductive FpState where
  | empty | loading | loaded | verifying | verified | applying | failed
deriving DecidableEq, Repr

/-- What a verification was started by (R33). -/
inductive FpCmd where
  | verify | apply | amend
deriving DecidableEq, Repr

/-- The loader (R31, R33). The image bytes stand in memory at `imageBase`. -/
structure Loader where
  st : FpState
  /-- FP_STATUS.SOURCE: 0 none, 1 boot window, 2 DMA, 3 management. -/
  source : Nat
  pending : Bool
  /-- FP_STATUS.STEP. -/
  step : Nat
  /-- The command whose verification runs. -/
  cmd : FpCmd
  /-- Count at which the AMEND command in progress was written (R43). -/
  amendAt : Nat
  /-- Length of the fetch in progress, and its bytes that have arrived, as rising disjoint (offset, length) runs (R32). -/
  want : Nat
  landed : List (Nat × Nat)
  /-- Length of the image, held when the store became LOADED: a later write of FP_LEN is for a later FETCH (R33). -/
  len : Nat
  /-- Plaintext of the verified image's sections. -/
  sections : List (Nat × List Byte)
  /-- Count at which the amendment in the store takes effect, fixed when its verification ended (R43). -/
  effective : Nat
deriving DecidableEq, Repr

/-! ### Meridian time (chapter 3) -/

/-- Meridian states (Table 3-1). -/
inductive MerState where
  | off | free | acquiring | locked | holdover
deriving DecidableEq, Repr

/-- The meridian block. -/
structure Mer where
  st : MerState
  /-- The 64-bit count (R54). -/
  count : Nat
  /-- mt that have passed since power was applied, whatever the count does. -/
  now : Nat
  /-- REF_PRESENT: edges seen on MER_REF. -/
  refPresent : Bool
  /-- `now` at the previous MER_PULSE edge (R56). -/
  lastPulse : Option Nat
  /-- Consecutive rejected pulses. -/
  rejected : Nat
  /-- Consecutive frames within tolerance since alignment, and `now` at the last of them. -/
  good : Nat
  goodAt : Nat
  /-- The source in use has been lost since the last lock: the spacing rule governs pulses (R56). -/
  spaced : Bool
  everLocked : Bool
  /-- Source in use: 0 none, 1 local, 2 fabric (Table 3-11). -/
  use : Nat
  /-- The source in use is lost: the count runs on the internal oscillator (R57). -/
  lost : Bool
  /-- Source time minus own count still to be slewed (R57). -/
  slew : Int
  /-- Source time minus own count that a step would take (R57, R64). -/
  offset : Int
  stepNeeded : Bool
  stepAsked : Bool
  /-- `now` at entry to HOLDOVER, and whether its alarm is raised. -/
  holdSince : Nat
  alarmed : Bool
  /-- Master as survey reports it: VALID, SELF, grid reference; HOPS and PORT towards it (Tables 3-10, 3-11). -/
  masterValid : Bool
  masterSelf : Bool
  master : Nat
  hops : Nat
  port : Nat
  /-- The master in force is not LOCKED on its own inputs (R58, R59). -/
  masterHold : Bool
  /-- A change of master that waits for the frame boundary (R59): VALID, SELF, grid reference. -/
  nextMaster : Option (Bool × Bool × Nat)
  /-- The frame boundary at which that change takes effect. -/
  nextFrom : Nat
  /-- The source's count at which an asked step is made (R64). -/
  stepAt : Int
  /-- Local frames within the window while the fabric is followed, and whether they make a lock (R59). -/
  localGood : Nat
  localLocked : Bool
  /-- Own estimated error to the master, mt (R58). -/
  error : Nat
  /-- Frame, plus 1, in which TIME last left (R58); the same of MASTER, and what it last said (R267). -/
  timeFrame : Nat
  saidFrame : Nat
  said : Option (Bool × Bool × Bool)
  /-- The count from which the table in force gives slots (R488). -/
  slotFrom : Nat
  /-- Frame number, slot index and whether a slot has begun (R68). -/
  frame : Nat
  slot : Nat
  inSlot : Bool
  /-- Class 0 requests admitted in this slot, and those held, in arrival order (R69). -/
  admitted : Nat
  held : List Nat
  /-- For each instant of the cycle table, the first count at which it may fire next (R64). -/
  due : SMap Nat
  /-- The same for instants not listed: the count at which the table took effect. -/
  dueFrom : Nat
  /-- The count above which scheduled events fire again after a backward step (R64). -/
  high : Nat
deriving DecidableEq, Repr

/-! ### Translation (chapter 14) -/

/-- What a translation unit belongs to (R341, R354, R364). -/
inductive Owner where
  | cmd (id : Nat)
  | stream (ctx iter unit : Nat)
  | sq (q : Nat)
  | cq (q : Nat)
  | buffer (id : Nat)
deriving DecidableEq, Repr

/-- States of a translation unit. -/
inductive UnitState where
  | waiting | walking | halted | ready | accessing
deriving DecidableEq, Repr

/-- A translation unit (R341): `len` bytes from `va`. `dev` is the device side's DPA or store address. -/
structure XUnit where
  owner : Owner
  queue : Nat
  as : Nat
  va : Nat
  len : Nat
  write : Bool
  dev : Nat
  /-- Bytes of the command before this unit. -/
  base : Nat
  st : UnitState
  /-- Pages already translated, as (resident, address) of each 4 KiB page in order. -/
  pages : List (Bool × Nat)
  /-- Bytes of its requests that have come back, as rising disjoint (offset, length) runs; one came back bad. -/
  landed : List (Nat × Nat)
  bad : Bool
deriving DecidableEq, Repr

/-- A walk in progress (R337): level, and address of the table at that level. -/
structure Walk where
  unit : Nat
  as : Nat
  va : Nat
  write : Bool
  level : Nat
  table : Nat
deriving DecidableEq, Repr

/-- A TLB entry (R343): a run of pages of one size from `va`. -/
structure TlbEntry where
  as : Nat
  va : Nat
  shift : Nat
  m : Nat
  addr : Nat
  writable : Bool
  dirty : Bool
  resident : Bool
deriving DecidableEq, Repr

/-- An open page request (R345). -/
structure PageReq where
  as : Nat
  page : Nat
  write : Bool
  waiting : List Nat
deriving DecidableEq, Repr

/-- A fault record (Table 14-5) not yet posted. -/
structure FaultRec where
  va : Nat
  entry : Nat
  count : Nat
  req : Nat
  as : Nat
  cause : Nat
  queue : Nat
  level : Nat
  write : Bool
deriving DecidableEq, Repr

/-- An access-counter window (R351). -/
structure Window where
  as : Nat
  on : Bool
  base : Nat
  count : Nat
deriving DecidableEq, Repr

/-- An invalidation in progress (R348): address space (none: all), first page, pages (0: all), and the command that asked. -/
structure Inval where
  as : Option Nat
  va : Nat
  pages : Nat
  cmd : Option Nat
  /-- Issued by clearing ENABLE (R334); issued through XL_INV_CMD. -/
  disable : Bool
  reg : Bool
deriving DecidableEq, Repr

/-- The translation block. -/
structure Xl where
  /-- Roots and enables of the address spaces (R334). -/
  roots : SMap Nat
  enabled : SMap Bool
  /-- Most recently used first (R343). -/
  tlb : List TlbEntry
  /-- Cached host lines of 64 bytes, most recently used first (R339). -/
  lines : List (Nat × List Byte)
  units : Tab XUnit
  nextUnit : Nat
  walks : Tab Walk
  reqs : Tab PageReq
  held : List FaultRec
  tail : Nat
  phase : Bool
  invs : List Inval
  windows : Tab Window
  /-- 16-bit counts with NOTIFIED as bit 16 (R351). -/
  counters : SMap Nat
  cwErr : Bool
  /-- Deficits of the 128 queues of group and class for host-link DMA units, in bytes × 65,536 (R390). -/
  deficit : SMap Int
deriving DecidableEq, Repr

/-! ### Host coupling (chapter 13) -/

/-- Host coupling: the letterbox, the grace period, configuration space and the DOE mailbox. -/
structure HostSide where
  /-- The region table, keyed by 8 × region + dword (Table 13-2). -/
  regions : SMap Word
  fence : Option Nat
  /-- `now` at which the grace period ends. -/
  graceEnd : Option Nat
  parked : Bool
  /-- A queue has been reset since the host was lost (R330). -/
  driverBack : Bool
  /-- Writable bytes of configuration space. -/
  config : SMap Byte
  d3 : Bool
  /-- Bytes that wait in the DOE mailbox (R311). -/
  doe : List Byte
  /-- A function-level reset (1) or a hot reset (2) is in progress (R462). -/
  resetting : Nat
deriving DecidableEq, Repr

/-! ### The command front end (chapter 15) -/

/-- Queue states (Table 15-5). ABSENT is the plan's. -/
inductive QState where
  | disabled | enabled | hostLost | halted | resetting
deriving DecidableEq, Repr

/-- A completion entry before it is written (Table 15-8); PHASE and LATE are set when it is. -/
structure Cpl where
  result : Nat
  start : Nat
  duration : Nat
  engine : Nat
  tag : Nat
  head : Nat
  status : Nat
  irq : Bool
  /-- Made by a command of the queue (R371), and its id. -/
  own : Bool
  id : Nat
deriving DecidableEq, Repr

/-- One queue pair (R354 to R357). -/
structure Queue where
  st : QState
  /-- A DISABLE is awaited by commands in flight (R355). -/
  disabling : Bool
  sqHead : Nat
  prod : Nat
  /-- First slot whose fetch has not been asked for, and slots asked for and not returned. -/
  fetchNext : Nat
  fetching : Nat
  cqTail : Nat
  cqHead : Nat
  /-- Completion entries that the driver has not consumed. -/
  unread : Nat
  phase : Bool
  pending : Bool
  examining : Bool
  /-- Fetching stopped by a completion fault (R370), a submission fault (R357) or a capture (R374). -/
  cqStall : Bool
  sqFault : Bool
  /-- Completions not committed, and those of the overflow area (R370). -/
  cpls : List Cpl
  overflow : List Cpl
  /-- The command most recently fetched from each slot: its id + 1, and slots that hold extensions (R372). -/
  slots : SMap Nat
  /-- Unfetched slots that an ABORT names, with the ABORT's id (R372). -/
  aborts : List (Nat × Nat)
  /-- Entry and extension bytes of a command not yet complete (R360), with its first slot. -/
  partialAt : Nat
  partialBytes : List Byte
  /-- Entries of a guilty queue still to be read for their TAGs (R373): latched index. -/
  guiltyTo : Option Nat
deriving DecidableEq, Repr

/-- Where a command comes from. -/
inductive Origin where
  | ring
  | buffer (parent idx : Nat)
  | node (launch node : Nat)
deriving DecidableEq, Repr

/-- How far a command has come. -/
inductive Phase where
  | fetched | held | ready | running
deriving DecidableEq, Repr

/-- A command in flight (R357 to R362). -/
structure Cmd where
  queue : Option Nat
  slot : Nat
  entry : List Byte
  origin : Origin
  phase : Phase
  cls : Nat
  share : Nat
  start : Nat
  /-- Count at which the watchdog expires (R362). -/
  expiry : Option Nat
  engine : Nat
  /-- Arrays and stacks touched, as bit sets (R374). -/
  arrMask : Nat
  stkMask : Nat
  /-- Parts still to finish, and the first failure among them with its RESULT. -/
  parts : Nat
  fail : Option (Nat × Nat)
  /-- Bytes landed, as rising disjoint (offset, length) runs from the command's first byte (R324). -/
  landed : List (Nat × Nat)
  /-- Stopped by a cancellation: status it completes with once its work has stopped. -/
  stop : Option Nat
deriving DecidableEq, Repr

/-- A BUFFER being run (R364). -/
structure Buffer where
  /-- Bytes read so far, from the next entry on. -/
  bytes : List Byte
  /-- Host offset of the next read, in bytes from the buffer's start. -/
  readOff : Nat
  /-- Next entry to dispatch, entries of COUNT. -/
  next : Nat
  count : Nat
  running : Nat
  stopped : Option (Nat × Nat)
deriving DecidableEq, Repr

/-- What made a launch (R367). -/
inductive Source where
  | cmd (id : Nat)
  | flag (region word count : Nat)
  | update (t : Nat)
deriving DecidableEq, Repr

/-- A launch: running in its slot, or waiting for one (R367, R368). -/
structure Launch where
  itin : Nat
  source : Source
  level : Nat
  cls : Nat
  share : Nat
  /-- Patch: byte offset and bytes. -/
  patch : Nat × List Byte
  /-- Launch slot, once it has one. -/
  slot : Option Nat
  admitted : Bool
  /-- Predecessors of each node still to complete. -/
  waits : List Nat
  /-- Nodes dispatched and not complete, nodes not yet complete. -/
  running : Nat
  left : Nat
  status : Nat
  result : Nat
  start : Nat
  expiry : Option Nat
  /-- Dense buffer set selected at dispatch (R17): twice each layer and the number of its current buffer. -/
  buffers : List Nat
  /-- Engine time charged to its nodes, where no command made it (R369). -/
  engine : Nat
deriving DecidableEq, Repr

/-- A resident itinerary (R366): image address, nodes; and the ITIN_LOAD that waits for its launches. -/
structure Itin where
  addr : Nat
  nodes : Nat
  loading : Option Nat
deriving DecidableEq, Repr

/-- A capture slot (R374). -/
structure Capture where
  queue : Nat
  slot : Nat
  va : Nat
  status : Nat
  count : Nat
  arrMask : Nat
  stkMask : Nat
  entry : List Byte
deriving DecidableEq, Repr

/-- The command front end. -/
structure Cf where
  queues : SMap Queue
  cmds : Tab Cmd
  nextCmd : Nat
  buffers : Tab Buffer
  launches : Tab Launch
  nextLaunch : Nat
  itins : Tab Itin
  captures : Tab Capture
deriving DecidableEq, Repr

/-! ### Streams and pre-emption (chapter 16) -/

/-- Stream context states (R376). -/
inductive ScState where
  | running | halted | preempted
deriving DecidableEq, Repr

/-- A unit dispatched and not retired (R380). -/
structure UnitRun where
  iter : Nat
  unit : Nat
  kind : Nat
  target : Nat
  /-- Status once its engine has finished, DONE included. -/
  status : Option Nat
deriving DecidableEq, Repr

/-- A stream context that is not IDLE (R376). -/
structure Stream where
  st : ScState
  queue : Option Nat
  cmd : Nat
  /-- The header of the descriptor in force (Table 16-1). -/
  desc : List Byte
  shadow : Option (Nat × List Byte)
  cls : Nat
  group : Nat
  iter : Nat
  unit : Nat
  runs : List UnitRun
  skipped : Nat
  /-- Position of the last FULL barrier passed (R386). -/
  fullIter : Nat
  fullUnit : Nat
  /-- Quarantined targets and their STANDBY (R386). -/
  moved : List (Nat × Nat)
  /-- First stopping status with its position; the status kept from a LOOKUP and that kept from GRADIENT units, each with
  its position (R381). -/
  stop : Option (Nat × Nat × Nat)
  kept : Option (Nat × Nat × Nat)
  gkept : Option (Nat × Nat × Nat)
  /-- SRC and LENGTH of the FETCH units dispatched since the last FULL barrier (R387). -/
  fetched : List (Nat × Nat)
  /-- Remote operations outstanding: (iteration, unit, index in the landing slot) (R394). -/
  remote : List (Nat × Nat × Nat)
  /-- Saved engine state: logical array and save slot (R392). -/
  saves : List (Nat × Nat)
deriving DecidableEq, Repr

/-- An array pair's holder (R391). -/
structure Pair where
  ctx : Nat
  cls : Nat
  group : Nat
  since : Nat
  /-- Pre-emption asked for: the context that waits, and the save slot; and the count at which it was asked for (R392). -/
  wanted : Option (Nat × Nat)
  asked : Nat
deriving DecidableEq, Repr

/-- Streams, scheduling and pre-emption. -/
structure Sc where
  streams : Tab Stream
  pairs : Tab Pair
  /-- Contexts waiting for each pair, in arrival order: (array, context). -/
  waiting : List (Nat × Nat)
  /-- Contexts saved in each array's reserved slot (R392). -/
  reserved : Tab Nat
  /-- Pool slots in use: slot and context. -/
  pool : Tab Nat
  /-- Deficit of each queue of group and class, in 1/65,536 mt: key 2 × group + class − 1 (R390). -/
  deficit : SMap Int
deriving DecidableEq, Repr

/-! ### Reset values of the parts above -/

/-- Registers, interrupts and the link at reset (Table 0-5, R333). -/
def Io.reset : Io where
  regs := []
  wide := []
  msixOn := false
  msixMask := false
  msixTab := []
  pba := []
  link := 0
  out := []

/-- No plan in force. -/
def Plan.off : Plan := ⟨false, 0, 0, []⟩

/-- The loader at reset (Table 2-10). -/
def Loader.reset : Loader where
  st := .empty
  source := 0
  pending := false
  step := 0
  cmd := .verify
  amendAt := 0
  want := 0
  landed := []
  len := 0
  sections := []
  effective := 0

/-- The meridian block at reset (R54, Table 3-1). -/
def Mer.reset : Mer where
  st := .off
  count := 0
  now := 0
  refPresent := false
  lastPulse := none
  rejected := 0
  good := 0
  goodAt := 0
  spaced := false
  everLocked := false
  use := 0
  lost := false
  slew := 0
  offset := 0
  stepNeeded := false
  stepAsked := false
  holdSince := 0
  alarmed := false
  masterValid := false
  masterSelf := false
  master := 0
  hops := 0
  port := 0
  masterHold := false
  nextMaster := none
  nextFrom := 0
  stepAt := 0
  localGood := 0
  localLocked := false
  error := 0
  timeFrame := 0
  saidFrame := 0
  said := none
  slotFrom := 0
  frame := 0
  slot := 0
  inSlot := false
  admitted := 0
  held := []
  due := []
  dueFrom := 0
  high := 0

/-- Translation at reset (R352). -/
def Xl.reset : Xl where
  roots := []
  enabled := []
  tlb := []
  lines := []
  units := []
  nextUnit := 0
  walks := []
  reqs := []
  held := []
  tail := 0
  phase := true
  invs := []
  windows := []
  counters := []
  cwErr := false
  deficit := []

/-- Host coupling at reset. -/
def HostSide.reset : HostSide where
  regions := []
  fence := none
  graceEnd := none
  parked := false
  driverBack := false
  config := []
  d3 := false
  doe := []
  resetting := 0

/-- A queue at reset: DISABLED once a plan defines it (Table 15-5). -/
def Queue.reset : Queue where
  st := .disabled
  disabling := false
  sqHead := 0
  prod := 0
  fetchNext := 0
  fetching := 0
  cqTail := 0
  cqHead := 0
  unread := 0
  phase := true
  pending := false
  examining := false
  cqStall := false
  sqFault := false
  cpls := []
  overflow := []
  slots := []
  aborts := []
  partialAt := 0
  partialBytes := []
  guiltyTo := none

/-- The front end at reset. -/
def Cf.reset : Cf := ⟨[], [], 0, [], [], 0, [], []⟩

/-- Streams at reset: every context IDLE, every pair free. -/
def Sc.reset : Sc := ⟨[], [], [], [], [], []⟩



/-! ### Memory and its check values (R397, R402) -/

/-- The check bits of one 256-byte block: the ROWCHK marker, a BCV that fails, and which of its four 64-byte access
units hold an uncorrectable ECC error, as a bit set (R397, R402). -/
structure Blk where
  rowchk : Bool
  bad : Bool
  unc : Nat
deriving DecidableEq, Repr

/-- A block that nothing has marked: a tensor block whose BCV passes. -/
def blkDflt : Nat → Blk := fun _ => ⟨false, false, 0⟩

/-- Every byte the module stores, and the check bits of every block. -/
structure Ram where
  bytes : Mem
  blks : SMap Blk
  /-- Logical channels, 64 × stack + channel, whose physical channel has failed (R100): reads of them fail, and writes are
  discarded. -/
  dead : List Nat
  /-- Logical channels whose content a channel map made undefined (R94): 64 × stack + channel, the first of the free values
  that its bytes and checks read as, and whether its rooms' dirty-row maps read as zero (R421). -/
  lost : List (Nat × Nat × Bool)
deriving DecidableEq, Repr

/-- The free values of the channel that holds an address, where its content is undefined (R94). -/
def Ram.lostAt (m : Ram) (a : Nat) : Option Nat :=
  if a < 2 ^ 40 then
    match m.lost.find? (fun e => e.1 == a / 2 ^ 30) with
    | some (_, seed, maps) => if maps && decide (0xFF000 ≤ a / 2 ^ 18 % 4096 * 256) then none else some seed
    | none => none
  else none

/-- What an unlisted byte reads as (log entries 3 and 7). -/
def Ram.dflt (m : Ram) (a : Nat) : Byte :=
  match m.lostAt a with
  | some seed => BitVec.ofNat 8 (Config.freeValue (seed + a % 2 ^ 30))
  | none => memDflt a

/-- What the check bits of an unlisted block read as, by the block's address / 256. -/
def Ram.blkD (m : Ram) (k : Nat) : Blk :=
  match m.lostAt (256 * k) with
  | some seed =>
    let v := Config.freeValue (seed + 2 ^ 30 + k % 2 ^ 22)
    ⟨v % 2 == 1, v / 2 % 2 == 1, v / 4 % 16⟩
  | none => blkDflt k

/-- The canonical form of memory. -/
abbrev Ram.wf (m : Ram) : Prop := SMap.Wf m.dflt m.bytes ∧ SMap.Wf m.blkD m.blks

/-! ### Stacks (chapters 5 and 20) -/

/-- A repair record (Table 5-4), its stack apart. -/
structure Repair where
  kind : Nat
  channel : Nat
  storey : Nat
  target : Nat
deriving DecidableEq, Repr

/-- What a channel is doing (R96 to R100). -/
inductive ChanState where
  | ready | planned | unplanned | failed
deriving DecidableEq, Repr

/-- A physical channel. -/
structure Chan where
  st : ChanState
  /-- `now` at which its retraining began. -/
  since : Nat
  /-- Frames in which it lost timing margin (R100). -/
  losses : List Nat
  /-- Temperatures of its eight storeys, and the frame, at its last training (R97). -/
  temps : List Nat
  frame : Nat
deriving DecidableEq, Repr

/-- Content state of a sheet (R112). -/
inductive Content where
  | none | preserved | live
deriving DecidableEq, Repr

/-- A preservation record (R464). -/
structure Preserve where
  since : Nat
  continuous : Bool
  mapMatch : Bool
  hot : Bool
  cause : Nat
  /-- Milliseconds in self-refresh, fixed when the stack leaves it. -/
  ms : Option Nat
  /-- The channel map in force when the record was opened: STACK entry bytes. -/
  map : List Byte
deriving DecidableEq, Repr

/-- A scrub or calibration window that is open: its end, and whether its last 1 % matters (R105, R107). -/
structure OpenWindow where
  ends : Nat
  quota : Nat
deriving DecidableEq, Repr

/-- One stack. -/
structure Stack where
  content : Content
  selfRefresh : Bool
  /-- The application in progress trains channels of it: at step 7 of R36 it reads TRAINING (R96). -/
  training : Bool
  /-- Physical channels that are not in their reset state. -/
  chans : SMap Chan
  /-- Hard repairs burned, oldest first (R101); those that have taken effect at a training (R96); and soft repairs in effect
  (R92, R102). -/
  hard : List Repair
  hardOn : List Repair
  soft : List Repair
  burn : Option Repair
  /-- PERST came during the burn: its RESULT is lost (R461). -/
  burnLost : Bool
  /-- The map of the last plan that put the stack in service: MAPPED_OUT and FILL of its entry (R94, R464). -/
  lastMap : List Byte
  /-- Time of the last refresh of each storey of each channel: key 8 × channel + storey (R104). -/
  refreshed : SMap Nat
  scrub : Option OpenWindow
  scrubCarry : Nat
  scrubPass : Nat
  /-- For each DRAM row with corrected errors: last pass seen × 4 + passes (R102). -/
  weakRows : SMap Nat
  /-- Rows scheduled for soft sparing. -/
  spareDue : List Repair
  cal : Option OpenWindow
  /-- Channels that earlier windows left unfinished (R107). -/
  calCarry : Nat
  calChannel : Nat
  calStep : Nat
  /-- Temperatures of the eight storeys, °C (R110). -/
  temps : List Nat
  thermStep : Nat
  /-- Rate the power controller or a porch rule imposes, where it does (R108, R111). -/
  cap : Option Nat
  verifying : Bool
  clearing : Bool
  preserve : Option Preserve
deriving DecidableEq, Repr

/-! ### Reliability (chapter 17) -/

/-- An error-log entry (Table 17-7). -/
structure LogEntry where
  kind : Nat
  status : Nat
  place : Nat
  count : Nat
deriving DecidableEq, Repr

/-- A sample being compared (R406 to R409, R415). -/
structure Sample where
  /-- A tile on logical arrays, or a room-call on rooms. -/
  tile : Bool
  /-- The shadow is the twin's room (R414). -/
  twin : Bool
  origin : Nat
  shadow : Nat
  arbiter : Option Nat
  /-- The stream unit that waits: context, iteration and unit. -/
  ctx : Nat
  iter : Nat
  unit : Nat
  /-- What the room-call serves; its end, once it has ended: status, its exception's code, the writes and SENDs held
  (R408). -/
  work : Option Work
  ended : Option (Nat × Option Nat)
  writes : List (Bool × Nat × List Byte)
  sends : List (Nat × List Byte)
  /-- A tile's signature S (R406, R407); the shadow's signature, once a comparison has failed (R409). -/
  sig : DWord
  other : DWord
deriving DecidableEq, Repr

/-- A checkpoint cut asked for (R422). -/
structure Ckpt where
  list : Nat
  count : Nat
  dest : Nat
deriving DecidableEq, Repr

/-- A digest comparison (R418): step, group, and whether its ALL_GATHER has been issued. -/
structure Digest where
  step : Nat
  group : Nat
  issued : Bool
deriving DecidableEq, Repr

/-- A rejoin copy after an expulsion (R420): step, group, layer, rank of its root, whether this device is the one expelled,
whether its BROADCAST has been issued, whether a commit verdict has come since, and whether it waits for the next flip. -/
structure Rejoin where
  step : Nat
  group : Nat
  layer : Nat
  root : Nat
  own : Bool
  issued : Bool
  late : Bool
  waits : Bool
deriving DecidableEq, Repr

/-- The reliability block. -/
structure Rl where
  log : List LogEntry
  /-- Frames of the charges of each room, and of each fabricated pair at 2^20 + pair (R412). -/
  charges : SMap (List Nat)
  /-- Rooms and fabricated pairs quarantined, in order (R413). -/
  rooms : List Nat
  pairs : List Nat
  samples : Tab Sample
  nextSample : Nat
  /-- Previous shadow of each array (R406). -/
  lastShadow : SMap Nat
  /-- Accumulating half of the dirty-row map of each wing (R421). -/
  half : SMap Nat
  ckpt : Option Ckpt
  /-- Digest of each buffer of each dense layer: key 2 × layer + buffer (R416). -/
  digests : SMap Nat
  comparing : List Digest
  rejoin : List Rejoin
deriving DecidableEq, Repr

/-- A physical channel at reset. One that has never been trained holds 0 °C and frame 0 as its last training: the spec gives
no value (log entry 155). -/
def Chan.reset : Chan := ⟨.ready, 0, [], List.replicate 8 0, 0⟩

/-- A stack when the 56 V input is applied (R112, Table 20-3). Its temperature reads 0 until a sensor is sampled (Table 5-7).
Calibration begins with logical channel 0: R107 names no first channel (log entry 156). -/
def Stack.reset : Stack where
  content := .none
  selfRefresh := false
  training := false
  chans := []
  hard := []
  hardOn := []
  soft := []
  burn := none
  burnLost := false
  lastMap := []
  refreshed := []
  scrub := none
  scrubCarry := 0
  scrubPass := 0
  weakRows := []
  spareDue := []
  cal := none
  calCarry := 0
  calChannel := 0
  calStep := 0
  temps := [0, 0, 0, 0, 0, 0, 0, 0]
  thermStep := 0
  cap := none
  verifying := false
  clearing := false
  preserve := none

/-- The reliability block at reset. -/
def Rl.reset : Rl := ⟨[], [], [], [], [], 0, [], [], none, [], [], []⟩

/-! ### Rooms and room cores (chapter 6) -/

/-- The header and payload of a room-call (Table 6-3). -/
structure Call where
  entry : Nat
  cls : Nat
  update : Bool
  tag : Nat
  args : List Word
  payload : List Byte
  work : Work
deriving DecidableEq, Repr

/-- An RFETCH or RPUT outstanding on a slot (R124). `data` is what DRAM held, or what was written, at issue; `fail` a
check that failed, and `known` once its completion has shown it; `raced` the scratch lines touched meanwhile (R126). -/
structure SlotOp where
  put : Bool
  scratch : Nat
  addr : Nat
  data : List Byte
  bcv : Bool
  fail : Bool
  known : Bool
  raced : List Nat
deriving DecidableEq, Repr

/-- A SEND that has not left scratch (R136). -/
structure SendOp where
  kind : Nat
  scratch : Nat
  data : List Byte
  raced : List Nat
deriving DecidableEq, Repr

/-- What a room core waits for: a WAIT, a FENCE or an END (R137). -/
inductive RoomWait where
  | run
  | events (mask : Nat) (all : Bool)
  | fence
  | endOf (status : Nat)
deriving DecidableEq, Repr

/-- A room core that runs a call (R113). -/
structure Core where
  /-- g0 to g15; the entry of g0 is never read. -/
  g : Vector Word 16
  v : Vector (BitVec 128) 8
  pc : Nat
  events : Nat
  /-- Generator state (R134): key, row and counter. -/
  key : DWord
  row : Nat
  ctr : Nat
  ppos : Nat
  /-- Scratch of the running call; an unwritten byte reads 0 (R114). -/
  scratch : SMap Byte
  call : Call
  slots : Tab SlotOp
  /-- The RECV outstanding: scratch address and bytes. -/
  recv : Option (Nat × List Byte)
  /-- SENDs outstanding, oldest first, and those the landing has received: kind and bytes. -/
  sends : List SendOp
  sent : List (Nat × List Byte)
  /-- rc since entry by the costs of R120 and R139, `now` at entry, and the rc at which each event is set. -/
  rc : Nat
  entered : Nat
  evAt : List Nat
  /-- rc at which each SEND has left scratch or will have, the newest first, at most four (R136); rc held under R98, which
  RM_CALL_LIMIT does not count (R117). -/
  sendAt : List Nat
  paused : Nat
  wait : RoomWait
  /-- Room whose DRAM the call reaches, and room whose number and index it reads (R408, R413, R414). -/
  home : Nat
  ident : Nat
  /-- The sample this call belongs to (R408), and the writes it holds: whether with BCVs, room-local offset, bytes. -/
  sample : Option Nat
  held : List (Bool × Nat × List Byte)
  cancelled : Bool
deriving DecidableEq, Repr

/-- An entry of a stack's fault log (R142). -/
structure FaultEntry where
  room : Nat
  code : Nat
  cls : Nat
  update : Bool
  pc : Nat
  entry : Nat
  tag : Nat
deriving DecidableEq, Repr

/-- What waits to write program stores (R115): a PROGRAM_LOAD command, or the parameter block of a wing. -/
inductive StoreWriter where
  | load (cmd : Nat)
  | block (wing : Nat)
deriving DecidableEq, Repr

/-- The rooms. -/
structure Rooms where
  cores : Tab Core
  /-- Fault logs, by stack, oldest first (R142). -/
  flog : SMap (List FaultEntry)
  /-- Channels whose room-calls are stopped for a write of their program store, and what waits to write it: 64 × stack +
  logical channel (R115). -/
  locked : List (Nat × StoreWriter)
  /-- PROGRAM_LOADs of each channel's store since the plan was applied (Table 6-16). -/
  loads : SMap Nat
  /-- Open DRAM row, plus 1, of each room's storey segment: key 8 × room + storey (R139). -/
  openRow : SMap Nat
deriving DecidableEq, Repr

/-! ### Wings, lookups and batches (chapter 7) -/

/-- What a list reports to. -/
inductive ListOwner where
  | cmd (id : Nat)
  | unit (ctx iter unit : Nat)
  | remote (conn ref : Nat)
deriving DecidableEq, Repr

/-- How far a part of a lookup has come. -/
inductive PartState where
  | waiting | running | done | damaged (status : Nat)
deriving DecidableEq, Repr

/-- One room-call's share of a lookup, or a remote sublist's share of a bag (R157, R162). -/
structure Part where
  bag : Nat
  shard : Nat
  /-- Wing of the primary; none: a remote sublist on connection `conn`. -/
  wing : Option Nat
  conn : Nat
  w : Nat
  slice : Nat
  /-- Entries of the bag in list order: index, room-local offset, weight. -/
  entries : List (Nat × Nat × Word)
  st : PartState
  /-- Whether the primary and the twin have failed for this call (R165). -/
  failedAt : List Nat
  /-- Partial received, as FP32 words. -/
  words : List Word
deriving DecidableEq, Repr

/-- A lookup list being served (R153 to R163). -/
structure Lookup where
  owner : ListOwner
  table : Nat
  mode : Nat
  flags : Nat
  k : Nat
  destKind : Nat
  destArray : Nat
  dest : Nat
  stride : Nat
  cls : Nat
  /-- Each bag's entries: list index, global row, weight, read or skipped (R156). -/
  bags : List (List (Nat × Nat × Word × Bool))
  /-- Of a sublist served for another device: the bags whose every entry it holds, which it answers finally (R160). -/
  finals : List Bool
  parts : List Part
  stack : Nat
  /-- The whole list has failed with this status (R155, R158). -/
  fail : Option Nat
deriving DecidableEq, Repr

/-- A member of a running batch (R170). -/
structure Member where
  handle : Nat
  fresh : Bool
  slot : Nat
deriving DecidableEq, Repr

/-- A join or leave that waits for the boundary (R168): its command, and the handle. -/
structure BatchReq where
  cmd : Nat
  join : Bool
  handle : Nat
deriving DecidableEq, Repr

/-- A running batch (R168 to R171). -/
structure Batch where
  members : List Member
  /-- Slots in use or marked freed, by DPA. -/
  freed : List Nat
  reqs : List BatchReq
  /-- Launch of the step in progress. -/
  running : Option Nat
  step : Nat
deriving DecidableEq, Repr

/-- The landings' lookups and the device's batches. -/
structure Wings where
  lookups : Tab Lookup
  nextList : Nat
  batches : SMap Batch
deriving DecidableEq, Repr

/-- A batch that nothing has joined. -/
def Batch.reset : Batch := ⟨[], [], [], none, 0⟩

/-! ### Online update (chapter 10) -/

/-- A row in a combiner bank (R244). -/
structure AccRow where
  table : Nat
  row : Nat
  wing : Nat
  acc : List Word
deriving DecidableEq, Repr

/-- The combiner of one landing: the accumulating bank and the draining one, in ascending table and row (R245). -/
structure Combiner where
  acc : List AccRow
  drain : List AccRow
  /-- The draining bank's step is committed: its rows are dispatched (R245). -/
  go : Bool
  /-- Lookup lists taken up before its rows began to wait: the order of arrival (R109). -/
  after : Nat
  /-- A contribution was dropped, or a swap failed, in the open epoch and in the closed one (R238). -/
  overOpen : Bool
  overClosed : Bool
  nonfinite : Bool
  absurd : Bool
  scanned : Bool
deriving DecidableEq, Repr

/-- One shard's statistics (R231 to R234, R241); su and the column sums are exact until they are rounded (R245). -/
structure Shard where
  created : Bool
  /-- Rows of the step are still to return. -/
  busy : Bool
  step : Nat
  stale : Bool
  c : List Word
  cmean : Word
  q : Word
  /-- q has its created value: no step taken yet (R233). -/
  fresh : Bool
  m : Nat
  su : Val
  cols : List Val
  /-- Rows of the step not returned, with their gradients: sent to the room, or at a twin still to be sent. -/
  running : List (Nat × List Word × Bool)
  /-- STATE_LOAD that waits for the boundary between steps: its command and record (R241). -/
  load : Option (Nat × List Byte)
deriving DecidableEq, Repr

/-- The update-parameter entries of one table or layer (R235). -/
structure Param where
  now : Option (List Byte)
  next : Option (List Byte)
deriving DecidableEq, Repr

/-- A dense layer (R248 to R253). -/
structure Layer where
  current : Nat
  stale : Bool
  /-- Updated in the step whose flip is awaited, and its header written (R240). -/
  updated : Bool
  written : Bool
  /-- No step has flipped since the layer's state was made: q of its step is 1 (R233). -/
  fresh : Bool
deriving DecidableEq, Repr

/-- Phases of UP_STATUS (Table 10-8). -/
inductive UpPhase where
  | off | collecting | scanning | await | applying | awaitFlip
deriving DecidableEq, Repr

/-- A gradient list (R243, R246). -/
structure GradList where
  owner : ListOwner
  table : Nat
  cls : Nat
  /-- Contributions not yet at their landing: bag, shard, row, weight, vector. -/
  todo : List (Nat × Nat × Nat × Word × List Word)
  /-- Contributions sent to remote owners and not answered. -/
  remote : Nat
  invalid : Bool
  frozen : Bool
  rejected : Bool
  skipped : Bool
  unreach : Bool
  /-- Contributions placed in the open epoch and in the one being decided. -/
  openEpoch : Bool
  closedEpoch : Bool
deriving DecidableEq, Repr

/-- The update block. -/
structure Update where
  phase : UpPhase
  /-- T of the step being decided (R237). -/
  close : Nat
  combiners : SMap Combiner
  shards : SMap Shard
  params : SMap Param
  layers : SMap Layer
  lists : Tab GradList
  nextList : Nat
  /-- Own problem bits contributed: commit and flip (R236). -/
  commitSent : Bool
  flipSent : Bool
  flipVerdict : Option Bool
  /-- Step of the commit in progress. -/
  deciding : Nat
  lastSkipped : Bool
  lastFlipSkipped : Bool
  /-- Parameter blocks to write: wing (R247). -/
  blocks : List Nat
  denseNonfinite : Bool
  denseAbsurd : Bool
  denseDamaged : Bool
  denseFault : Bool
deriving DecidableEq, Repr

/-- The rooms at reset: every core halted, every log empty. -/
def Rooms.reset : Rooms := ⟨[], [], [], [], []⟩
/-- The landings at reset. -/
def Wings.reset : Wings := ⟨[], 0, []⟩
/-- A combiner with empty banks. -/
def Combiner.reset : Combiner := ⟨[], [], false, 0, false, false, false, false, false⟩
/-- A shard that no plan has assigned. -/
def Shard.reset : Shard := ⟨false, false, 0, false, [], 0x3F800000#32, 0x3F800000#32, true, 0, .fin false 0 0, [], [], none⟩
/-- A layer that no entry has made. -/
def Layer.reset : Layer := ⟨0, false, false, false, true⟩
/-- The update block at reset. -/
def Update.reset : Update where
  phase := .off
  close := 0
  combiners := []
  shards := []
  params := []
  layers := []
  lists := []
  nextList := 0
  commitSent := false
  flipSent := false
  flipVerdict := none
  deciding := 0
  lastSkipped := false
  lastFlipSkipped := false
  blocks := []
  denseNonfinite := false
  denseAbsurd := false
  denseDamaged := false
  denseFault := false

/-! ### Matrix arrays and vector engines (chapters 8 and 9) -/

/-- A tile descriptor delivered to an array (Table 8-4), and the stream unit that owns it. -/
structure Tile where
  desc : List Byte
  ctx : Nat
  iter : Nat
  unit : Nat
  seq : Nat
deriving DecidableEq, Repr

/-- A finished tile in the tile queue (R179, R204): rows × 128 + columns, row by row, and the operand vectors it read. -/
structure QTile where
  m : Nat
  n : Nat
  tag : Nat
  chain : Nat
  vals : List Word
  opv : List (List Word)
  opvBad : Bool
  cancelled : Bool
  ctx : Nat
  iter : Nat
  unit : Nat
  seq : Nat
  /-- A tile register run by RUN: it takes no queue slot (R223). -/
  run : Bool
deriving DecidableEq, Repr

/-- A selection entry: id, and score or gate. -/
structure SelEntry where
  id : Nat
  score : Word
deriving DecidableEq, Repr

/-- An open selection group (R220 to R222). -/
structure Sel where
  route : Bool
  k : Nat
  experts : Nat
  entries : List SelEntry
  buckets : List (List SelEntry)
  nans : Nat
  offered : Nat
  dropped : Nat
deriving DecidableEq, Repr

/-- An engine descriptor delivered to a vector engine (R223), and the tiles accepted before it. -/
structure EDesc where
  desc : List Byte
  ctx : Nat
  iter : Nat
  unit : Nat
  after : Nat
deriving DecidableEq, Repr

/-- A chain-load accepted and not yet applied (R209). -/
structure ChainLoad where
  entry : Nat
  bytes : List Byte
  cmd : Nat
deriving DecidableEq, Repr

/-- One logical array, its vector engine included. -/
structure Arr where
  quarantined : Bool
  accSet : Bool
  inbox : List Tile
  running : Option Tile
  next : Option Tile
  seq : Nat
  /-- Store blocks written since the running tile, and since the next one, was accepted, with what they held (R197): block,
  bytes, and whether they passed their check. -/
  raced : List (Nat × List Byte × Bool)
  racedNext : List (Nat × List Byte × Bool)
  queue : List QTile
  chain : Option QTile
  /-- O0 to O3, as the last chain that used each read it; +0 at enable (R203, R213). -/
  ops : SMap (List Word)
  tregs : SMap (List Word)
  live : Nat
  q0 : List Word
  q1 : List Word
  sel : Option Sel
  loads : List ChainLoad
  edescs : List EDesc
  /-- The engine descriptor at work, with its status once it has finished. -/
  eact : Option (EDesc × Option Nat)
  /-- DUPD's row sums, and its running sums of c and u² over a layer's last strip (R252). -/
  racc : List Word
  csum : Word
  usum : Word
deriving DecidableEq, Repr

/-- A line of the attic (R198): address of the sheet line, whether a fill is in progress and a write reached it; once filled,
its bytes and the check bits of its 16 blocks as they were read (R199, R399). -/
structure AtticLine where
  line : Nat
  filling : Bool
  spoiled : Bool
  bytes : List Byte
  blks : List Blk
deriving DecidableEq, Repr

/-- A FETCH in progress (R387): destination array, sheet address, store offset, lines still to come. -/
structure Fetch where
  ctx : Nat
  iter : Nat
  unit : Nat
  arr : Nat
  src : Nat
  dst : Nat
  len : Nat
  left : List Nat
  bad : Bool
deriving DecidableEq, Repr

/-- A saved pair (R194, R229, R393), and the command and share group that caused the save (R393). -/
structure Saved where
  ctx : Nat
  arr : Nat
  state : Arr
  cmd : Nat
  group : Nat
deriving DecidableEq, Repr

/-- The arrays, their vector engines and the attic. -/
structure Mx where
  arrs : SMap Arr
  /-- Attic lines, most recently used first. -/
  attic : List AtticLine
  fetches : Tab Fetch
  nextFetch : Nat
  /-- Contents of the save area's slots, by slot (R389). -/
  saves : Tab Saved
  /-- Arrays whose store a hot reset clears once their work has ended (R195). -/
  clearing : List Nat
deriving DecidableEq, Repr

/-- An array when a plan enables it: stores, registers and buffers read as zero (R195, R203). -/
def Arr.reset : Arr where
  quarantined := false
  accSet := false
  inbox := []
  running := none
  next := none
  seq := 0
  raced := []
  racedNext := []
  queue := []
  chain := none
  ops := []
  tregs := []
  live := 0
  q0 := List.replicate 128 0#32
  q1 := List.replicate 128 0#32
  sel := none
  loads := []
  edescs := []
  eact := none
  racc := List.replicate 128 0#32
  csum := 0#32
  usum := 0#32

/-- The arrays at reset. -/
def Mx.reset : Mx := ⟨[], [], [], 0, [], []⟩

/-! ### Fabric links and survey (chapter 11) -/

/-- Port states (Table 11-8). -/
inductive PortState where
  | dark | training | survey | up | degraded | down | miswired
deriving DecidableEq, Repr

/-- A DATA flit that waits on an egress port, the port whose receive buffer holds it (R262; none: this device's), and the share
group of the queue it waits in (R390; 0 where no share group of this device sends it), and the command that completes when
it leaves (R288, R290). -/
structure TxItem where
  flit : Flit
  src : Option Nat
  group : Nat
  cmd : Option Nat
deriving DecidableEq, Repr

/-- A port (R254 to R268). -/
structure Port where
  st : PortState
  /-- CAUSE of MISWIRED. -/
  cause : Nat
  /-- FB_CTRL.DISABLE has been written, and no ENABLE since (R256). -/
  disabled : Bool
  /-- `now` at which training began. -/
  since : Nat
  /-- Lanes failed and lanes in use, as bit sets. -/
  failed : Nat
  inUse : Nat
  /-- Neighbour's grid reference and port, its meridian state and eligibility. -/
  nbr : Option (Nat × Nat)
  nbrState : Nat
  nbrEligible : Bool
  /-- SEQ of the next DATA flit, and the flits not acknowledged, oldest first (R259). -/
  txSeq : Nat
  replay : List Flit
  /-- Resends of the oldest flit without acknowledgement (R260). -/
  resent : Nat
  /-- SEQ expected next, and `now` at which a NACK was sent for it. -/
  rxSeq : Nat
  nacked : Option Nat
  /-- Credits held for each class, credits to return, and the class of the last credit returned (R262). -/
  credits : List Nat
  owed : List Nat
  lastCredit : Nat
  /-- DATA flits that wait for credit, for the replay buffer or for the link. -/
  waiting : List TxItem
  /-- For each class, the message whose flits are being sent (R276): ingress port of its last flit, source, DEST, and KIND with
  PATH. -/
  cur : List (Option (Option Nat × Nat × Nat × Nat))
  /-- `now` at the last HELLO sent and heard. -/
  helloAt : Nat
  heard : Nat
  /-- DATA flits sent since the last one of class 3, and the deficits of the queues of classes 1 and 2 (R390, Table 11-2). -/
  since3 : Nat
  deficit : SMap Int
  /-- `now` of each class 0 flit sent in the last 1,200 mt (R282). -/
  c0 : List Nat
  /-- HOPS of the last flooded flit accepted (R267). -/
  floodHops : Option Nat
  /-- The neighbour has departed: its links are out of the routes (R269). -/
  gone : Bool
  /-- The neighbour's last VTREE: it names this device as parent; its subtree count; count at which it came (R301). -/
  child : Bool
  childCount : Nat
  childAt : Nat
  /-- Corrected symbols of each lane. -/
  symErr : List Nat
deriving DecidableEq, Repr

/-- A departure announced (R269). -/
structure Depart where
  ref : Nat
  effective : Nat
  reason : Nat
deriving DecidableEq, Repr

/-- What survey has heard of a device's mastership (R59). -/
structure MasterInfo where
  ref : Nat
  eligible : Bool
  locked : Bool
  holdover : Bool
deriving DecidableEq, Repr

/-- A child's aggregate (R302). -/
structure Aggregate where
  port : Nat
  raised : Bool
  step : Nat
  count : Nat
deriving DecidableEq, Repr

/-- One verdict reduction (R301 to R303). -/
structure Verdict where
  /-- EPOCH_CLOSE instant it belongs to; none: no reduction is open. -/
  close : Option Nat
  /-- Own problem bit and proposed step, once contributed. -/
  own : Option (Bool × Nat)
  kids : List Aggregate
  /-- This device was the master at T, and its subtree count then. -/
  root : Bool
  need : Nat
  decided : Bool
deriving DecidableEq, Repr

/-! ### Fabric traffic and collectives (chapter 12) -/

/-- Partner connection states (Table 12-7). -/
inductive ConnState where
  | opening | opened | broken | closing
deriving DecidableEq, Repr

/-- A message sent on a connection and not acknowledged (R284). -/
structure Outgoing where
  kind : Nat
  msg : Msg
  /-- Address in memory of the payload that a retransmission reads again (R285). -/
  src : Option Nat
  cmd : Option Nat
  firstAt : Nat
  lastAt : Nat
deriving DecidableEq, Repr

/-- A partner entry (R283). -/
structure Conn where
  remote : Nat
  cls : Nat
  path : Nat
  st : ConnState
  epoch : Nat
  /-- The partner's entry number, once known. -/
  partner : Nat
  mirror : Bool
  cmd : Option Nat
  since : Nat
  txNext : Nat
  rxNext : Nat
  outs : List Outgoing
  retx : Nat
  /-- ARG of the ACK of the last message accepted: a discarded one is answered with it again (R284). -/
  lastAck : Nat
deriving DecidableEq, Repr

/-- A message kept in a tree's replay window (R290). -/
structure Replay where
  mseq : Nat
  offset : Nat
  window : Nat
  arg : Nat
  len : Nat
deriving DecidableEq, Repr

/-- A member that a tree entry leads to: by which port, its grid reference, receive window and notify queue (R289). -/
structure Leaf where
  port : Nat
  ref : Nat
  window : Nat
  notify : Nat
deriving DecidableEq, Repr

/-- A multicast tree entry (R289 to R293). -/
structure Tree where
  cls : Nat
  /-- This device is the root; the root's grid reference. -/
  root : Bool
  rootRef : Nat
  parent : Nat
  kids : Nat
  /-- Members that this entry leads to. -/
  leaves : List Leaf
  /-- Child ports pruned, with the first MSEQ not sent on each, and those that a GRAFT restores at the next message. -/
  pruned : List (Nat × Nat)
  grafts : List Nat
  /-- Tree flits that wait for credit on every child port, and `now` since which the first of them waits (R290, R291). -/
  queue : List TxItem
  waitSince : Option Nat
  /-- MSEQ of the message whose flits pass, or of the next one; whether one is passing. -/
  flow : Nat
  mid : Bool
  member : Bool
  window : Nat
  notify : Nat
  /-- MSEQ next to send (root) or to take (member). -/
  next : Nat
  /-- First missing MSEQ of a pruned member that recovers, and the device that pruned it. -/
  missing : Option (Nat × Nat)
  /-- Replay window: base, size, place of the next message, messages kept. -/
  base : Nat
  size : Nat
  place : Nat
  log : List Replay
  /-- Members that have not installed their entry, members reached, and the command. -/
  todo : List Nat
  reached : Nat
  cmd : Option Nat
  since : Nat
deriving DecidableEq, Repr

/-- What has arrived of a chunk of a collective call (R296, R297): its sender's rank, whether it is a result, its pieces by
byte offset, and the offsets answered with RESEND (R299). -/
structure Chunk where
  rank : Nat
  result : Bool
  pieces : List (Nat × List Byte)
  damaged : Bool
  retried : List Nat
deriving DecidableEq, Repr

/-- A collective call (R295). -/
structure Coll where
  group : Nat
  call : Nat
  op : Nat
  fmts : Nat
  e : Nat
  src : Nat
  dst : Nat
  root : Nat
  bit : Bool
  /-- Source and destination in array stores, and their arrays. -/
  kinds : Nat
  srcArr : Nat
  dstArr : Nat
  cls : Nat
  cmd : Option Nat
  /-- A digest comparison or a rejoin copy issued it (R418, R420). -/
  device : Bool
  started : Bool
  chunks : List Chunk
  /-- The own result chunk has been formed and sent on (R296). -/
  reduced : Bool
  /-- Status of a call of the device that is over and has not been taken. -/
  overWith : Option Nat
deriving DecidableEq, Repr

/-- Ports, survey, routes, connections, trees and collectives. -/
structure Fabric where
  ports : SMap Port
  /-- Distance that the neighbour on a port advertises: key 16384 × port + destination (R270). -/
  heard : SMap Nat
  /-- Own distance to each destination. -/
  dist : SMap Nat
  /-- Route choices: (alternate, port), primaries first. -/
  choices : SMap (List (Bool × Nat))
  /-- Last sequence held of each origin, plus 1 (R267). -/
  seqs : SMap Nat
  ownSeq : Nat
  departs : List Depart
  masters : List MasterInfo
  conns : Tab Conn
  nextEpoch : Nat
  trees : Tab Tree
  groups : Tab (List Nat)
  colls : List Coll
  /-- Calls that ended early, by group and call number: what still arrives for them is discarded. -/
  dead : List (Nat × Nat)
  /-- `now` at which a window of class 0 flits was last counted (R282). -/
  c0At : Option Nat
  commit : Verdict
  flip : Verdict
deriving DecidableEq, Repr

/-- A port with its laser off. -/
def Port.reset : Port where
  st := .dark
  cause := 0
  disabled := false
  since := 0
  failed := 0
  inUse := 0
  nbr := none
  nbrState := 0
  nbrEligible := false
  txSeq := 0
  replay := []
  resent := 0
  rxSeq := 0
  nacked := none
  credits := [512, 640, 768, 128]
  owed := [0, 0, 0, 0]
  lastCredit := 3
  waiting := []
  cur := [none, none, none, none]
  helloAt := 0
  heard := 0
  since3 := 0
  deficit := []
  c0 := []
  floodHops := none
  gone := false
  child := false
  childCount := 0
  childAt := 0
  symErr := [0, 0, 0, 0, 0, 0, 0, 0]

/-- No reduction open. -/
def Verdict.reset : Verdict := ⟨none, none, [], false, 0, false⟩

/-- The fabric at reset: every port DARK, nothing learnt. -/
def Fabric.reset : Fabric where
  ports := []
  heard := []
  dist := []
  choices := []
  seqs := []
  ownSeq := 0
  departs := []
  masters := []
  conns := []
  nextEpoch := 0
  trees := []
  groups := []
  colls := []
  dead := []
  c0At := none
  commit := Verdict.reset
  flip := Verdict.reset

/-! ### Power, sleep and the porch (chapter 18) -/

/-- PW_STATUS.STATE (Table 18-8). -/
inductive PwState where
  | noPlan | running | departing | shuttered | waking | tripped
deriving DecidableEq, Repr

/-- The power controller and the Shuttered state. -/
structure Power where
  st : PwState
  /-- REFUSE_CAUSE of the last refusal. -/
  refuse : Nat
  /-- Notches tightened: the controller's step for the arrays, and eighths taken from the governors (R429). -/
  step : Nat
  notch : Nat
  /-- `now` since which every projection has been low; and of the last projection. -/
  lowSince : Option Nat
  lastProjection : Nat
  /-- EFFECTIVE of the departure (R431), and whether a wake has been asked for meanwhile. -/
  effective : Nat
  wakeAsked : Bool
  /-- `now` of the wake request. -/
  wakeSince : Nat
  belowFloor : Bool
  /-- ALERT_N, THERMTRIP_N and RESET_N asserted; the 56 V input is present. -/
  alert : Bool
  therm : Bool
  input : Bool
  /-- PERST_N is asserted. -/
  perst : Bool
deriving DecidableEq, Repr

/-- A sensor channel (R435, R437): last sample, the samples of the window, newest first, and the filtered value. -/
structure Sensor where
  raw : Word
  window : List Word
  value : Word
deriving DecidableEq, Repr

/-- A rule's state (R438). -/
structure RuleState where
  active : Bool
  latched : Bool
  times : Nat
  /-- Consecutive filtered samples beyond THRESHOLD, and back past it. -/
  beyond : Nat
  back : Nat
deriving DecidableEq, Repr

/-- The porch: it survives PERST, hot reset and function-level reset (R439). -/
structure Porch where
  sensors : SMap Sensor
  rules : SMap RuleState
  /-- The porch-rules section in force. -/
  plan : List Byte
  /-- Caps of the old rules: (channel, action, argument), until their `now` (R439). -/
  oldCaps : List (Nat × Nat × Nat)
  oldUntil : Nat
  /-- Micro cores and keeper cores alive, as bit sets. -/
  micro : Nat
  keepers : Nat
  /-- The quarantine list it keeps across PERST (R413): rooms, and pairs. -/
  quarRooms : List Nat
  quarPairs : List Nat
  /-- `now` since which the input voltage has been outside its trip range (R436). -/
  outSince : Option Nat
deriving DecidableEq, Repr

/-! ### Security and management (chapter 19) -/

/-- An owner slot's state (R444). -/
inductive SlotState where
  | empty | active | revoked
deriving DecidableEq, Repr

/-- The fuses (R440, R444, Table 19-5). -/
structure Fuses where
  part : Nat
  device : Nat
  rootHash : List Byte
  minFw : Nat
  minPlan : Nat
  /-- Advances burned of each minimum. -/
  fwAdvances : Nat
  planAdvances : Nat
  slots : List (SlotState × List Byte)
  /-- Plan-key banks burned, oldest first. -/
  keys : List (List Byte)
  lock : Nat
deriving DecidableEq, Repr

/-- A firmware bank of the flash: one porch image and one keeper image. -/
structure Bank where
  porch : List Byte
  keeper : List Byte
deriving DecidableEq, Repr

/-- Boot stages (Table 19-2). -/
inductive Boot where
  | off | rom | keeper | keys | done | failed
deriving DecidableEq, Repr

/-- Security, SPDM, MCTP and PLDM. -/
structure Se where
  fuses : Fuses
  bankA : Bank
  bankB : Bank
  /-- Preferred bank and bank running: true is B. -/
  preferB : Bool
  runB : Bool
  boot : Boot
  /-- Measurement 2, taken of the porch image as it is started (R442). -/
  m2 : List Byte
  /-- The other bank is being tried. -/
  retry : Bool
  failA : Nat
  failB : Nat
  result : Nat
  nonce : List Byte
  debug : Bool
  /-- The key record being processed (R444). -/
  record : Option (List Byte)
  /-- Certificates of slots 0 to 3. -/
  certs : SMap (List Byte)
  /-- SPDM: version and algorithms agreed, the request being carried in chunks and the large response waiting. -/
  version : Bool
  agreed : Bool
  chunkIn : List Byte
  chunkOut : List Byte
  /-- MCTP endpoint id. -/
  eid : Nat
  /-- PLDM firmware update: component, its bytes, and whether it has passed the verify stage. -/
  comp : Nat
  compBytes : List Byte
  verified : Bool
deriving DecidableEq, Repr

/-! ### Tracing and telemetry (chapter 19) -/

/-- A mark that waits for its instant (R452). -/
structure Mark where
  id : Nat
  instant : Nat
  source : Nat
  fabric : Bool
  cmd : Option Nat
  /-- The capture slot whose engines it marks (R374). -/
  cap : Option Nat
  /-- Grid reference of the device that triggered it. -/
  origin : Nat
  /-- It latches at once: its instant had come when it was triggered. -/
  asap : Bool
deriving DecidableEq, Repr

/-- A bank of tracing registers (R454): the latched entries by 2^20 × kind + instance. -/
structure TrBank where
  held : Bool
  id : Nat
  source : Nat
  count : Nat
  origin : Nat
  /-- The entry of the tracing-sources section that selected them (R453). -/
  sel : List Byte
  entries : SMap (List Byte)
deriving DecidableEq, Repr

/-- The tracing block. -/
structure Tr where
  mark : TrBank
  capture : TrBank
  marks : List Mark
  dumping : Bool
  /-- Where the dump at work goes: TR_DUMP as DUMP found it (R455). -/
  dumpAt : Nat
  releaseAsked : Bool
  /-- A snapshot in progress: end of its window, page, SEQ and the count at its opening (R451). -/
  snapshot : Option (Nat × Nat × Nat × Nat)
  seq : Nat
  cur : Nat
deriving DecidableEq, Repr

/-- The power controller with the input applied and PERST_N asserted. -/
def Power.reset : Power where
  st := .noPlan
  refuse := 0
  step := 0
  notch := 0
  lowSince := none
  lastProjection := 0
  effective := 0
  wakeAsked := false
  wakeSince := 0
  belowFloor := false
  alert := false
  therm := false
  input := true
  perst := true

/-- The porch when the input is applied: no rules, every core alive. -/
def Porch.reset : Porch := ⟨[], [], [], [], 0, 15, 15, [], [], none⟩

/-- The fuses as the model names them (log entry 5): part PM16-1T-LC, B1, lock level FIELD, nothing else burned. -/
def Fuses.reset : Fuses where
  part := 0x0001B100
  device := Config.deviceId
  rootHash := Config.rootHash
  minFw := 0
  minPlan := 0
  fwAdvances := 0
  planAdvances := 0
  slots := List.replicate 4 (.empty, zeros 32)
  keys := []
  lock := 1

/-- Security with nothing booted. -/
def Se.reset : Se where
  fuses := Fuses.reset
  bankA := ⟨Config.shippedPorch, Config.shippedKeeper⟩
  bankB := ⟨Config.shippedPorch, Config.shippedKeeper⟩
  preferB := false
  runB := false
  boot := .off
  m2 := zeros 32
  retry := false
  failA := 0
  failB := 0
  result := 0
  nonce := zeros 16
  debug := false
  record := none
  certs := []
  version := false
  agreed := false
  chunkIn := []
  chunkOut := []
  eid := 0
  comp := 0
  compBytes := []
  verified := false

/-- An empty bank of tracing registers. -/
def TrBank.reset : TrBank := ⟨false, 0, 0, 0, 0, [], []⟩
/-- Tracing at reset. -/
def Tr.reset : Tr := ⟨TrBank.reset, TrBank.reset, [], false, 0, false, none, 0, 0⟩


/-! ### The whole machine -/

/-- The state of the module: every piece of state the spec gives it, and the queue of commands that wait. -/
structure State where
  /-- Commands that wait, first in first out. -/
  pending : List Instr
  /-- Registers, interrupts, the link and what is on its way out. -/
  io : Io
  /-- Every byte the module stores, in one address space (log entry 4), with the check bits of every block. -/
  ram : Ram
  /-- The model's own counter of free values drawn (log entry 7). -/
  free : Nat
  /-- The floor plan in force. -/
  plan : Plan
  /-- The floor plan loader. -/
  fp : Loader
  /-- Meridian time. -/
  mer : Mer
  /-- Translation. -/
  xl : Xl
  /-- Host coupling. -/
  host : HostSide
  /-- The command front end. -/
  cf : Cf
  /-- Streams and pre-emption. -/
  sc : Sc
  /-- The sixteen stacks. -/
  stk : SMap Stack
  /-- Reliability. -/
  rl : Rl
  /-- The room cores. -/
  rooms : Rooms
  /-- Lookups and batches. -/
  wings : Wings
  /-- Online update. -/
  upd : Update
  /-- Matrix arrays, vector engines and the attic. -/
  mx : Mx
  /-- Fabric links, survey and traffic. -/
  fab : Fabric
  /-- The power controller and the Shuttered state. -/
  pw : Power
  /-- The porch. -/
  po : Porch
  /-- Security, boot and management. -/
  se : Se
  /-- Tracing and telemetry. -/
  tr : Tr
deriving DecidableEq, Repr

/-- No command stops the machine with a fault: the type is empty (log entry 2). -/
inductive Fault where
deriving DecidableEq, Repr

/-- Why a step may be refused. -/
inductive Refusal where
  /-- Raised by Dispatch for a command that has no meaning yet; none is left, so no step raises it. Safe: the machine
  stops where the hardware goes on. -/
  | notModelled (mnemonic : String)
deriving DecidableEq, Repr

/-- The outcome of a command. -/
abbrev Result := Host.Outcome State Fault Refusal

/-- The module at reset: power just applied, nothing loaded, every register at its reset value (Table 0-5). -/
def State.reset : State where
  pending := []
  io := Io.reset
  ram := ⟨[], [], [], []⟩
  free := 0
  plan := Plan.off
  fp := Loader.reset
  mer := Mer.reset
  xl := Xl.reset
  host := HostSide.reset
  cf := Cf.reset
  sc := Sc.reset
  stk := []
  rl := Rl.reset
  rooms := Rooms.reset
  wings := Wings.reset
  upd := Update.reset
  mx := Mx.reset
  fab := Fabric.reset
  pw := Power.reset
  po := Porch.reset
  se := Se.reset
  tr := Tr.reset

end Sys2Proof.Machine
end

