-- ==== Sys2Proof/Machine/Ops.lean ====
section
/-! DEFINITION. Machine/Ops.lean: the named operations over registers, events, interrupts, host-bound writes, the plan in
force, memory's regions and completion statuses. -/

namespace Sys2Proof.Machine

/-! ### Registers -/

/-- The register a key names. -/
def regOf (k : Nat) : Reg := Reg.ofNat (k % 512)

/-- What an unlisted register reads as: its reset value (Table 0-5). -/
def regDflt (k : Nat) : Word := (regOf k).spec.reset

/-- What an unlisted 64-bit counter reads as. -/
def wideDflt : Nat → DWord := fun _ => 0#64

/-- The stored value of a register. -/
def Io.reg (io : Io) (r : Reg) (i : Nat := 0) : Word := SMap.get regDflt io.regs (r.key i)

/-- The stored value of a register as a number. -/
def Io.val (io : Io) (r : Reg) (i : Nat := 0) : Nat := (io.reg r i).toNat

/-- Store a register. -/
def Io.put (io : Io) (r : Reg) (i : Nat) (v : Word) : Io :=
  { io with regs := SMap.set regDflt io.regs (r.key i) v }

/-- Store a number in a register. -/
def Io.putN (io : Io) (r : Reg) (i v : Nat) : Io := io.put r i (BitVec.ofNat 32 v)

/-- Advance a counter by `n`; it saturates at 0xFFFF_FFFF. -/
def Io.add (io : Io) (r : Reg) (i n : Nat) : Io := io.putN r i (min (io.val r i + n) 0xFFFFFFFF)

/-- Advance a saturating counter by one. -/
def Io.inc (io : Io) (r : Reg) (i : Nat := 0) : Io := io.add r i 1

/-- Advance the lower 16-bit half of a register; it saturates. -/
def Io.incLo (io : Io) (r : Reg) (i : Nat := 0) : Io :=
  if io.val r i % 65536 = 65535 then io else io.putN r i (io.val r i + 1)

/-- Advance the upper 16-bit half of a register; it saturates. -/
def Io.incHi (io : Io) (r : Reg) (i : Nat := 0) : Io :=
  if io.val r i / 65536 = 65535 then io else io.putN r i (io.val r i + 65536)

/-- A 64-bit counter, named by its _LO register. -/
def Io.wideReg (io : Io) (r : Reg) (i : Nat := 0) : DWord := SMap.get wideDflt io.wide (r.key i)

/-- Store a 64-bit counter. -/
def Io.putWide (io : Io) (r : Reg) (i : Nat) (v : DWord) : Io :=
  { io with wide := SMap.set wideDflt io.wide (r.key i) v }

/-- Advance a 64-bit counter. -/
def Io.addWide (io : Io) (r : Reg) (i n : Nat) : Io := io.putWide r i (io.wideReg r i + BitVec.ofNat 64 n)

/-- Set or clear one bit of a register. -/
def Io.setBit (io : Io) (r : Reg) (i b : Nat) (v : Bool) : Io :=
  let m := 1#32 <<< b
  io.put r i (if v then io.reg r i ||| m else io.reg r i &&& ~~~m)

/-! ### Interrupts and events -/

/-- Send something out. -/
def Io.send (io : Io) (o : Out) : Io := { io with out := io.out ++ [o] }

/-- What an unlisted dword of the MSI-X table reads as: every vector is masked out of reset (R333; the standard). -/
def msixDflt (k : Nat) : Word := if k % 4 = 3 then 1#32 else 0#32

/-- Whether a vector can send now (R333). -/
def Io.vectorOpen (io : Io) (v : Nat) : Bool :=
  io.msixOn && !io.msixMask && !(SMap.get msixDflt io.msixTab (4 * v + 3)).getLsbD 0

/-- Raise a vector: a message, or its pending bit while it is masked or MSI-X is disabled (R333). A message that finds the
link down is discarded and counted like every host-bound write (R330). -/
def Io.raise (io : Io) (v : Nat) : Io :=
  if io.vectorOpen v then (if io.link = 2 ∨ io.link = 3 then io.send (.msix v) else io.inc .HC_LOST_WRITES)
  else { io with pba := SMap.set (fun _ => false) io.pba v true }

/-- The enable register of an event register, which follows it in every table. -/
def Reg.enable (r : Reg) : Reg := Reg.ofNat (r.ctorIdx + 1)

/-- The vector of an event register's instance (Table 13-6). -/
def eventVector (r : Reg) (i : Nat) : Nat :=
  match r with
  | .FP_EVENT => 0
  | .MER_EVENT => 1
  | .UP_EVENT => 2
  | .RL_EVENT => 3
  | .PW_EVENT | .PO_EVENT => 4
  | .SE_EVENT | .TR_EVENT => 5
  | .HC_EVENT => 6
  | .XL_EVENT => 7
  | .CF_EVENT => 8
  | .SC_EVENT => 9
  | .ST_EVENT | .RM_EVENT | .WG_EVENT => 16 + i
  | .MX_EVENT | .VE_EVENT => 32 + i
  | .FB_EVENT => 96 + i
  | _ => 96

/-- Set bit `b` of an event register; an enabled event raises its vector (Table 13-6). -/
def Io.event (io : Io) (r : Reg) (i b : Nat) : Io :=
  let io := io.setBit r i b true
  if (io.reg r.enable i).getLsbD b then io.raise (eventVector r i) else io

/-! ### The plan in force -/

/-- The plaintext of a section of the plan in force; empty where the plan has none. -/
def Plan.sec (p : Plan) (id : Nat) : List Byte := (p.sections.lookup id).getD []

/-- Whether the plan in force carries a section. -/
def Plan.has (p : Plan) (id : Nat) : Bool := p.active && (p.sections.lookup id).isSome

/-- Frame length of the meridian section (Table 3-2). -/
def Plan.frameLen (p : Plan) : Nat := u32 (p.sec 0x20) 0

/-- The entry of a queue in the host-queues section (Table 15-2). -/
def queueEntry (sec : List Byte) (q : Nat) : Option (List Byte) :=
  (chunks (sec.drop 16) 16 (u16 sec 0)).find? (fun e => u16 e 0 == q)

/-- The definition of a queue in the plan in force (R353). -/
def Plan.queue (p : Plan) (q : Nat) : Option (List Byte) :=
  if p.active then queueEntry (p.sec 0x60) q else none

/-- Ring size of a queue definition (Table 15-2). -/
def ringSize (d : List Byte) : Nat := 2 ^ u8 d 7

/-- PRIVILEGED of a queue definition. -/
def qPrivileged (d : List Byte) : Bool := bit (u8 d 2) 0
/-- ADMIN of a queue definition. -/
def qAdmin (d : List Byte) : Bool := bit (u8 d 2) 1
/-- TOLERATE_CHECK of a queue definition. -/
def qTolerate (d : List Byte) : Bool := bit (u8 d 2) 2

/-! ### Completion status codes (Table 1-8) -/

/-- DONE. -/
def stDone : Nat := 0x00
/-- ALREADY_DONE. -/
def stAlready : Nat := 0x01
/-- ABORTED. -/
def stAborted : Nat := 0x02
/-- CANCELLED. -/
def stCancelled : Nat := 0x03
/-- FAULT_XLATE. -/
def stXlate : Nat := 0x04
/-- FAULT_CHECK. -/
def stCheck : Nat := 0x05
/-- NO_STATE. -/
def stNoState : Nat := 0x06
/-- FROZEN_SKIPPED. -/
def stFrozen : Nat := 0x07
/-- STEP_SKIPPED. -/
def stSkipped : Nat := 0x08
/-- STEP_REJECTED. -/
def stRejected : Nat := 0x09
/-- HOST_LOST. -/
def stHostLost : Nat := 0x0A
/-- WATCHDOG. -/
def stWatchdog : Nat := 0x0B
/-- REMOTE_UNREACHABLE. -/
def stUnreach : Nat := 0x0C
/-- PRUNED. -/
def stPruned : Nat := 0x0D
/-- INVALID_COMMAND. -/
def stInvalid : Nat := 0x0E
/-- CAPTURED. -/
def stCaptured : Nat := 0x0F

/-! ### Regions of memory (log entry 4) -/

/-- Address of byte `o` of array `a`'s store (8 MiB). -/
def storeAddr (a o : Nat) : Nat := 2 ^ 40 + a * 2 ^ 23 + o
/-- Address of byte `o` of the program store of a stack's logical channel (64 KiB). -/
def progAddr (st lch o : Nat) : Nat := 2 ^ 41 + (st * 64 + lch) * 2 ^ 16 + o
/-- Address of byte `o` of chain entry `e` of array `a` (128 bytes). -/
def chainAddr (a e o : Nat) : Nat := 2 ^ 42 + (a * 256 + e) * 128 + o
/-- Address of byte `o` of the image store (4 MiB). -/
def imageAddr (o : Nat) : Nat := 2 ^ 43 + o
/-- Address of byte `o` of the security block's key-record window. -/
def keyrecAddr (o : Nat) : Nat := 2 ^ 44 + o
/-- Address of byte `o` of telemetry page `p` (4 KiB). -/
def telemAddr (p o : Nat) : Nat := 2 ^ 44 + 2 ^ 20 + p * 4096 + o

/-- Stack of a device-physical address (R88). -/
def dpaStack (a : Nat) : Nat := a / 2 ^ 36
/-- Room number (R13) of a device-physical address (R88): stack, channel and room fields. -/
def dpaRoom (a : Nat) : Nat := a / 2 ^ 36 * 65536 + a / 2 ^ 30 % 64 * 1024 + a / 2 ^ 8 % 1024
/-- Offset inside its room of a device-physical address (R88). -/
def dpaOffset (a : Nat) : Nat := a / 2 ^ 18 % 4096 * 256 + a % 256
/-- Device-physical address of an offset of a room (R88). -/
def roomDpa (room off : Nat) : Nat :=
  room / 65536 * 2 ^ 36 + room / 1024 % 64 * 2 ^ 30 + off / 256 * 2 ^ 18 + room % 1024 * 2 ^ 8 + off % 256

/-! ### The state as a whole -/

/-- Change the registers and outbox. -/
def State.mapIo (s : State) (f : Io → Io) : State := { s with io := f s.io }

/-- Whether the device is SHUTTERED or WAKING: no scheduled event fires (R432). -/
def State.asleep (s : State) : Bool := s.pw.st == .shuttered || s.pw.st == .waking

/-- Whether nothing of BAR0 is reached: D3hot stops the host's requests (R306), and so does a reset in progress (R462). -/
def State.barGone (s : State) : Bool := s.host.d3 || s.host.resetting != 0

/-- Whether BAR0 answers only where it does in SHUTTERED (R432) or TRIPPED, or not at all. -/
def State.barShut (s : State) : Bool := s.barGone || s.asleep || s.pw.st == .tripped

/-- The outcome of a command that has no effect in this state (log entry 2). -/
def ignored (s : State) : Result := .next s

/-- Draw a free value (log entry 7). -/
def State.draw (s : State) : Nat := Config.freeValue s.free

/-- Count a free value as drawn. -/
def State.drew (s : State) (n : Nat) : State := { s with free := s.free + n }

end Sys2Proof.Machine
end

