-- ==== Sys2Proof/Machine/Sheets.lean ====
section
/-! DEFINITION. Machine/Sheets.lean: channel maps and sheet sizes (R90, R93), wings and tables of the plan in force
(R143 to R149), and the reads and writes of sheets and array stores with their check values (R322, R398 to R402). -/

namespace Sys2Proof.Machine

/-! ### Stacks of the plan in force -/

/-- Whether a stacks section puts a stack in service (Table 5-2). -/
def secInService (sec : List Byte) (st : Nat) : Bool := decide (st < 16) && bit (u16 sec 0) st

/-- A stack entry (Table 5-3). -/
def stackEntry (sec : List Byte) (st : Nat) : List Byte := slice sec (0x40 + 32 * st) 32

/-- Physical channels mapped out by a stack entry, as a bit set. -/
def mappedOut (e : List Byte) : Nat := u64 e 0

/-- Physical channels that survive, ascending. -/
def survivors (e : List Byte) : List Nat := (List.range 64).filter (fun p => !bit (mappedOut e) p)

/-- The physical channel of a logical channel (R93). -/
def physOf (e : List Byte) (l : Nat) : Option Nat :=
  let sv := survivors e
  let n := sv.length
  if n ≤ l then none
  else if u8 e 8 = 0 then sv[l]?
  else if !bit (mappedOut e) l then some l
  else
    let k := ((List.range l).filter (fun m => bit (mappedOut e) m)).length
    (sv.filter (fun p => decide (n ≤ p))).reverse[k]?

/-- Whether a stack is in service under the plan in force. -/
def Plan.inService (p : Plan) (st : Nat) : Bool := p.active && secInService (p.sec 0x30) st

/-- Logical channels of a stack: its sheet size in GiB (R90). -/
def Plan.channels (p : Plan) (st : Nat) : Nat :=
  if p.inService st then (survivors (stackEntry (p.sec 0x30) st)).length else 0

/-- The physical channel of a stack's logical channel. -/
def Plan.phys (p : Plan) (st l : Nat) : Option Nat :=
  if p.inService st then physOf (stackEntry (p.sec 0x30) st) l else none

/-- Whether `n` bytes from a device-physical address lie within one sheet (R90). -/
def Plan.dpaOk (p : Plan) (a n : Nat) : Bool :=
  decide (dpaStack a < 16) && decide (a % 2 ^ 36 + n ≤ p.channels (dpaStack a) * 2 ^ 30) &&
  decide (0 < p.channels (dpaStack a))

/-! ### Wings and tables (chapter 7) -/

/-- The table entries of a wings section (Table 7-2). -/
def secTables (sec : List Byte) : List (List Byte) := chunks (sec.drop 16) 48 (u16 sec 0)
/-- The wing entries of a wings section (Table 7-3). -/
def secWings (sec : List Byte) : List (List Byte) := chunks (sec.drop (16 + 48 * u16 sec 0)) 16 (u16 sec 2)
/-- The batch entries of a wings section (Table 7-4). -/
def secBatches (sec : List Byte) : List (List Byte) :=
  chunks (sec.drop (16 + 48 * u16 sec 0 + 16 * u16 sec 2)) 16 (u16 sec 4)

/-- Table id of a table entry. -/
def tId (t : List Byte) : Nat := u16 t 0 % 4096
/-- Element format of a table entry. -/
def tFmt (t : List Byte) : Nat := u8 t 2
/-- FROZEN of a table entry. -/
def tFrozen (t : List Byte) : Bool := bit (u8 t 3) 0
/-- Row dimension of a table entry. -/
def tDim (t : List Byte) : Nat := u16 t 4
/-- PARTIAL_FMT of a table entry. -/
def tPartial (t : List Byte) : Nat := u8 t 6
/-- STEER_STACK of a table entry. -/
def tSteer (t : List Byte) : Nat := u8 t 7
/-- ROWS of a table entry. -/
def tRows (t : List Byte) : Nat := u32 t 8
/-- S of a table entry. -/
def tShards (t : List Byte) : Nat := u32 t 0xC
/-- OWNER_MAP of a table entry. -/
def tOwnerMap (t : List Byte) : Nat := u64 t 0x10
/-- LOOKUP_ENTRY of a table entry. -/
def tLookup (t : List Byte) : Nat := u16 t 0x18
/-- UPDATE_ENTRY of a table entry. -/
def tUpdate (t : List Byte) : Nat := u16 t 0x1A
/-- L of a table's records. -/
def tRecLen (t : List Byte) : Nat := recLen (tFmt t) (tDim t)

/-- Wing id. -/
def wId (w : List Byte) : Nat := u16 w 0
/-- Stack of a wing. -/
def wStack (w : List Byte) : Nat := u8 w 2
/-- KIND of a wing: 1 TABLE, 2 SESSION. -/
def wKind (w : List Byte) : Nat := u8 w 3
/-- c0 of a wing. -/
def wFirst (w : List Byte) : Nat := u8 w 4
/-- C of a wing. -/
def wChans (w : List Byte) : Nat := u8 w 5
/-- OWNER of a wing: table id or batch id. -/
def wOwner (w : List Byte) : Nat := u16 w 6
/-- PARAM of a wing: shard or SLOT_BYTES. -/
def wParam (w : List Byte) : Nat := u32 w 8
/-- TWIN of a wing. -/
def wTwin (w : List Byte) : Nat := u16 w 0xC
/-- READ of a wing. -/
def wRead (w : List Byte) : Nat := u8 w 0xE
/-- n of a wing (R143). -/
def wRooms (w : List Byte) : Nat := 1024 * wChans w

/-- Wings of the plan in force. -/
def Plan.wingList (p : Plan) : List (List Byte) := if p.active then secWings (p.sec 0x31) else []
/-- Tables of the plan in force. -/
def Plan.tableList (p : Plan) : List (List Byte) := if p.active then secTables (p.sec 0x31) else []
/-- Batches of the plan in force. -/
def Plan.batchList (p : Plan) : List (List Byte) := if p.active then secBatches (p.sec 0x31) else []
/-- A wing by id. -/
def Plan.wing (p : Plan) (id : Nat) : Option (List Byte) := p.wingList.find? (fun w => wId w == id)
/-- A table by id. -/
def Plan.table (p : Plan) (id : Nat) : Option (List Byte) := p.tableList.find? (fun t => tId t == id)
/-- A batch by id. -/
def Plan.batch (p : Plan) (id : Nat) : Option (List Byte) := p.batchList.find? (fun b => u8 b 0 == id)

/-- The wing that holds a room (R143, R144). -/
def Plan.wingOf (p : Plan) (room : Nat) : Option (List Byte) :=
  p.wingList.find? (fun w => wStack w == room / 65536 &&
    decide (wFirst w ≤ room / 1024 % 64) && decide (room / 1024 % 64 < wFirst w + wChans w))

/-- Room number of a wing's room w (R144). -/
def wingRoom (w : List Byte) (i : Nat) : Nat :=
  wStack w * 65536 + (wFirst w + i % wChans w) * 1024 + i / wChans w

/-- Wing room index of a room (R144). -/
def roomIndex (w : List Byte) (room : Nat) : Nat := room % 1024 * wChans w + (room / 1024 % 64 - wFirst w)

/-- The local wings that hold a shard of a table, primary first: the lower id where no owner map says (R165). -/
def Plan.shardWings (p : Plan) (table shard : Nat) : List (List Byte) :=
  let ws := p.wingList.filter (fun w => wKind w == 1 && wOwner w % 4096 == table && wParam w == shard)
  match ws with
  | [a, b] => if wId b < wId a then [b, a] else [a, b]
  | l => l

/-- The twin of a wing (R165). -/
def Plan.twin (p : Plan) (w : List Byte) : Option (List Byte) :=
  if wTwin w = 0xFFFF then none else p.wing (wTwin w)

/-! ### Channels -/

/-- What a channel that nothing has touched reads as. -/
def chanDflt : Nat → Chan := fun _ => Chan.reset
/-- What a stack that nothing has touched reads as. -/
def stackDflt : Nat → Stack := fun _ => Stack.reset

/-- One stack. -/
def State.stack (s : State) (st : Nat) : Stack := SMap.get stackDflt s.stk st

/-- The stacks with one changed. -/
def setStack (m : SMap Stack) (st : Nat) (f : Stack → Stack) : SMap Stack :=
  SMap.set stackDflt m st (f (SMap.get stackDflt m st))

/-- A physical channel of a stack. -/
def Stack.chan (k : Stack) (p : Nat) : Chan := SMap.get chanDflt k.chans p

/-- A stack with one physical channel changed. -/
def Stack.setChan (k : Stack) (p : Nat) (f : Chan → Chan) : Stack :=
  { k with chans := SMap.set chanDflt k.chans p (f (k.chan p)) }

/-- State of the channel of a room (R98, R100). -/
def State.roomChan (s : State) (room : Nat) : ChanState :=
  match s.plan.phys (room / 65536) (room / 1024 % 64) with
  | some p => ((s.stack (room / 65536)).chan p).st
  | none => .failed

/-- Whether a stack's drain is requested and not released (R47). -/
def State.draining (s : State) (st : Nat) : Bool := bit (s.io.val .FP_DRAIN_STACKS) st

/-- Whether an array's drain is requested and not released (R47). -/
def State.arrDraining (s : State) (a : Nat) : Bool :=
  if a < 32 then bit (s.io.val .FP_DRAIN_ARRAYS_LO) a else bit (s.io.val .FP_DRAIN_ARRAYS_HI) (a - 32)

/-- Whether work for a stack is held: a drain (R48) or a clear in progress (R466). -/
def State.stackHeld (s : State) (st : Nat) : Bool := s.draining st || (s.stack st).clearing

/-- Whether a logical channel, 64 × stack + channel, is being retrained: accesses to it are held (R97, R98). -/
def State.chanHeld (s : State) (c : Nat) : Bool := s.roomChan (c * 1024) == .planned || s.roomChan (c * 1024) == .unplanned

/-- Whether an access of `n` bytes from a device-physical address is held: by its stack, or by a retraining of a channel that
it reaches (R48, R97, R98, R466). -/
def State.dpaHeld (s : State) (a n : Nat) : Bool :=
  (List.range ((a + n - 1) / 2 ^ 30 - a / 2 ^ 30 + 1)).any (fun i =>
    s.stackHeld ((a / 2 ^ 30 + i) / 64) || s.chanHeld (a / 2 ^ 30 + i))

/-! ### Check bits (R397 to R402) -/

/-- Whether an address lies in a failed channel (R100). -/
def Ram.gone (m : Ram) (a : Nat) : Bool := decide (a < 2 ^ 40) && m.dead.contains (a / 2 ^ 30)

/-- Check bits of the block that holds an address; every read of a failed channel fails (R100). -/
def Ram.blk (m : Ram) (a : Nat) : Blk := if m.gone a then ⟨false, true, 15⟩ else SMap.get m.blkD m.blks (a / 256)

/-- Set the check bits of a block. -/
def Ram.setBlk (m : Ram) (a : Nat) (b : Blk) : Ram := { m with blks := SMap.set m.blkD m.blks (a / 256) b }

/-- One byte of memory. -/
def Ram.byte (m : Ram) (a : Nat) : Byte := SMap.get m.dflt m.bytes a

/-- Bytes of memory. -/
def Ram.read (m : Ram) (a n : Nat) : List Byte := Mem.readD m.dflt m.bytes a n

/-- Bytes written where no block check is kept: stores under SEC-DED alone, the image store, tables. -/
def Ram.poke (m : Ram) (a : Nat) (bs : List Byte) : Ram := { m with bytes := Mem.writeD m.dflt m.bytes a bs }

/-- Addresses of the blocks that `n` bytes from `a` touch. -/
def blocksOf (a n : Nat) : List Nat :=
  if n = 0 then [] else (List.range ((a % 256 + n + 255) / 256)).map (fun i => (a / 256 + i) * 256)

/-- Whether `n` bytes from `a` reach a failed channel: a write of them completes FAULT_CHECK (R100). -/
def Ram.goneIn (m : Ram) (a n : Nat) : Bool := (blocksOf a n).any m.gone

/-- The access units, as a bit set of the block's four, that bytes [lo, hi) of a block touch. -/
def unitsTouched (lo hi : Nat) : Nat :=
  ((List.range 4).filter (fun u => decide (lo < 64 * u + 64) && decide (64 * u < hi))).foldl (fun m u => m + 2 ^ u) 0

/-- The access units that bytes [lo, hi) of a block cover wholly. -/
def unitsCovered (lo hi : Nat) : Nat :=
  ((List.range 4).filter (fun u => decide (lo ≤ 64 * u) && decide (64 * u + 64 ≤ hi))).foldl (fun m u => m + 2 ^ u) 0

/-- Whether `n` bytes from `a` hold no uncorrectable ECC error (R402). -/
def Ram.eccOk (m : Ram) (a n : Nat) : Bool :=
  (blocksOf a n).all (fun b =>
    let lo := a - b
    let hi := min 256 (a + n - b)
    (m.blk b).unc &&& unitsTouched lo hi == 0)

/-- Whether a block passes a mover's check (R399). -/
def Blk.moverOk (b : Blk) : Bool := b.unc == 0 && (b.rowchk || !b.bad)

/-- Whether a block passes a consumer's check (R400). -/
def Blk.consumerOk (b : Blk) : Bool := b.unc == 0 && !b.rowchk && !b.bad

/-- Whether every block that the bytes touch passes a mover's check. -/
def Ram.moverOk (m : Ram) (a n : Nat) : Bool := (blocksOf a n).all (fun b => (m.blk b).moverOk)

/-- Whether every block that the bytes touch passes a consumer's check. -/
def Ram.consumerOk (m : Ram) (a n : Nat) : Bool := (blocksOf a n).all (fun b => (m.blk b).consumerOk)

/-- Who writes (Table 17-1). -/
inductive Writer where
  /-- Host paths, with R322's merge of a failing block. -/
  | host
  /-- A device writer that generates BCVs. -/
  | device
  /-- A writer of records: the BCV is not maintained and ROWCHK is 1. -/
  | row
deriving DecidableEq, Repr

/-- Bytes of a failing block as they were read, whose values are undefined (R322): free values from `fr` on. -/
def freeBytes (fr : Nat) (n : Nat) : List Byte :=
  (List.range n).map (fun i => BitVec.ofNat 8 (Config.freeValue (fr + i)))

/-- Whether a partial write by `w` meets a block that fails its check or its ECC (R322). -/
def Blk.poisons (b : Blk) (w : Writer) : Bool := (w == .host) && (b.unc != 0 || (!b.rowchk && b.bad))

/-- Write bytes that lie within one block, with the block's check bits (R322, R398). -/
def Ram.writePart (m : Ram) (w : Writer) (fr a : Nat) (bs : List Byte) : Ram :=
  let old := m.blk a
  let lo := a % 256
  let full := bs.length == 256
  let left := old.unc &&& (15 - unitsCovered lo (lo + bs.length))
  if m.gone a then m
  else if full then (m.poke a bs).setBlk a ⟨w == .row, false, 0⟩
  else if w == .row then (m.poke a bs).setBlk a ⟨true, false, left⟩
  else if old.poisons w then
    let base := a - lo
    let b0 := freeBytes fr 256
    let merged := b0.take lo ++ bs ++ b0.drop (lo + bs.length)
    (m.poke base merged).setBlk a ⟨false, true, 0⟩
  else (m.poke a bs).setBlk a ⟨false, !old.rowchk && old.bad, left⟩

/-- Bytes split at block boundaries, each with its address. -/
def splitBlocks (a : Nat) (bs : List Byte) : List (Nat × List Byte) :=
  (blocksOf a bs.length).map (fun b =>
    let lo := if b < a then a else b
    let hi := min (b + 256) (a + bs.length)
    (lo, slice bs (lo - a) (hi - lo)))

/-- Write bytes with their check bits, block by block. -/
def Ram.write (m : Ram) (w : Writer) (fr a : Nat) (bs : List Byte) : Ram :=
  (splitBlocks a bs).foldl (fun m p => m.writePart w (fr + (p.1 - a)) p.1 p.2) m

/-- Blocks that a host write merges although they fail (R322). -/
def Ram.poisonCount (m : Ram) (w : Writer) (a : Nat) (bs : List Byte) : Nat :=
  ((splitBlocks a bs).filter (fun p => p.2.length != 256 && !m.gone p.1 && (m.blk p.1).poisons w)).length

/-- Copy whole blocks with their check bits carried unchanged (Table 17-1). -/
def Ram.carry (m : Ram) (src dst n : Nat) : Ram :=
  (List.range (n / 256)).foldl (fun m i =>
    if m.gone (dst + 256 * i) then m
    else (m.poke (dst + 256 * i) (m.read (src + 256 * i) 256)).setBlk (dst + 256 * i) (m.blk (src + 256 * i))) m

/-! ### Writes to sheets -/

/-- The slots of a TABLE wing's room that bytes [o, o + n) of the room touch, as the bits of its dirty-row map (R421). -/
def dirtySlots (t : List Byte) (o n : Nat) : List Nat :=
  let l := tRecLen t
  if n = 0 ∨ l = 0 then []
  else (List.range ((o + n - 1) / l - o / l + 1)).map (fun i => o / l + i)

/-- The dirty-row bits of slots in a room's accumulating half: the byte of the map and the bit in it (R421). -/
def dirtyBits (m : Ram) (room half : Nat) (slots : List Nat) : List (Nat × Nat) :=
  slots.filterMap (fun j =>
    let a := roomDpa room (0xFF000 + half * 0x800 + j / 8 % 2048)
    if 1044480 ≤ j ∨ m.gone a = true then none else some (a, j % 8))

/-- The dirty-row bits that a write of `n` bytes sets (R421). -/
def State.dirtied (s : State) (a n : Nat) : List (Nat × Nat) :=
  (splitBlocks a (zeros n)).flatMap (fun p =>
    let room := dpaRoom p.1
    match s.plan.wingOf room with
    | some w =>
      if wKind w = 1 ∧ dpaOffset p.1 < 0xFF000 then
        match s.plan.table (wOwner w % 4096) with
        | some t => dirtyBits s.ram room (SMap.get (fun _ => 0) s.rl.half (wId w)) (dirtySlots t (dpaOffset p.1) p.2.length)
        | none => []
      else []
    | none => [])

/-- Set dirty-row bits. -/
def Ram.mark (m : Ram) (ds : List (Nat × Nat)) : Ram :=
  ds.foldl (fun m d => m.poke d.1 [m.byte d.1 ||| BitVec.ofNat 8 (2 ^ d.2)]) m

/-- Lines of the attic without those that a write to a sheet covers; a fill in progress is spoiled instead (R199). -/
def atticInvalidate (ls : List AtticLine) (a n : Nat) : List AtticLine :=
  ls.filterMap (fun l =>
    if l.line < a + n ∧ a < l.line + 4096 then
      (if l.filling then some { l with spoiled := true } else none)
    else some l)

/-- Lines of the attic without those with a block that `p` holds of (R199). -/
def atticForget (ls : List AtticLine) (p : Nat → Bool) : List AtticLine :=
  ls.filterMap (fun l =>
    if (List.range 16).any (fun i => p (l.line + 256 * i)) then (if l.filling then some { l with spoiled := true } else none)
    else some l)

/-- The attic after writes that reach every block that `p` holds of (R199). -/
def State.forgetLines (s : State) (p : Nat → Bool) : State :=
  let attic := atticForget s.mx.attic p
  { s with
    io := s.io.add .MX_ATTIC_INVALS 0 (s.mx.attic.length - attic.length)
    mx := { s.mx with attic := attic } }

/-- The attic after a write to a sheet of `n` bytes and the dirty-row bits it sets (R199). -/
def State.atticAfter (s : State) (a n : Nat) (ds : List (Nat × Nat)) : List AtticLine :=
  ds.foldl (fun ls d => atticInvalidate ls d.1 1) (atticInvalidate s.mx.attic a n)

/-- DRAM rows that accesses to the bytes leave open (R139). -/
def openRows (m : SMap Nat) (a n : Nat) : SMap Nat :=
  (blocksOf a n).foldl (fun m b =>
    let o := dpaOffset b
    SMap.set (fun _ => 0) m (8 * dpaRoom b + o / 131072) (o / 1024 % 128 + 1)) m

/-- Write bytes to a sheet (R322, R398): check bits, attic coherence (R199), dirty-row map (R421), open rows (R139). -/
def State.sheetWrite (s : State) (w : Writer) (a : Nat) (bs : List Byte) : State :=
  let bad := s.ram.poisonCount w a bs
  let ds := s.dirtied a bs.length
  let attic := s.atticAfter a bs.length ds
  let io := s.io.add .MX_ATTIC_INVALS 0 (s.mx.attic.length - attic.length)
  let io := if bad = 0 then io else (io.add .HC_POISONED 0 bad).event .HC_EVENT 0 8
  { s with
    ram := (s.ram.write w s.free a bs).mark ds
    free := s.free + (if bad = 0 then 0 else bs.length + 256)
    io := io
    mx := { s.mx with attic := attic }
    rooms := { s.rooms with openRow := openRows s.rooms.openRow a bs.length } }

/-- Copy whole blocks to a sheet with their check bits (Table 17-1). -/
def State.sheetCarry (s : State) (src dst n : Nat) : State :=
  let ds := s.dirtied dst n
  let attic := s.atticAfter dst n ds
  { s with
    ram := (s.ram.carry src dst n).mark ds
    io := s.io.add .MX_ATTIC_INVALS 0 (s.mx.attic.length - attic.length)
    mx := { s.mx with attic := attic }
    rooms := { s.rooms with openRow := openRows s.rooms.openRow dst n } }

/-! ### Writes to array stores -/

/-- What an array that nothing has touched reads as. -/
def arrDflt : Nat → Arr := fun _ => Arr.reset

/-- One logical array. -/
def State.arr (s : State) (a : Nat) : Arr := SMap.get arrDflt s.mx.arrs a

/-- The arrays with one changed. -/
def Mx.set (m : Mx) (a : Nat) (f : Arr → Arr) : Mx :=
  { m with arrs := SMap.set arrDflt m.arrs a (f (SMap.get arrDflt m.arrs a)) }

/-- What store blocks held before a write, added to what a tile may still read of them (R197). -/
def raceLog (m : Ram) (a o n : Nat) (log : List (Nat × List Byte × Bool)) : List (Nat × List Byte × Bool) :=
  let new := (blocksOf o n).filter (fun b => !log.any (fun e => e.1 == b / 256))
  log ++ new.map (fun b => (b / 256, m.read (storeAddr a b) 256, (m.blk (storeAddr a b)).consumerOk))

/-- A write reaches a store whose array holds accepted tiles: each tile's log has what the blocks held at its acceptance
(R197). -/
def Arr.race (r : Arr) (m : Ram) (a o n : Nat) : Arr :=
  { r with
    raced := if r.running.isSome then raceLog m a o n r.raced else r.raced
    racedNext := if r.next.isSome then raceLog m a o n r.racedNext else r.racedNext }

/-- The same for the array as it stands and as contexts saved from it hold it (R194). -/
def Mx.race (x : Mx) (m : Ram) (a o n : Nat) : Mx :=
  let x := x.set a (fun r => r.race m a o n)
  { x with saves := x.saves.map (fun e => (e.1, e.2.map (fun v =>
      if v.arr = a then { v with state := v.state.race m a o n } else v))) }

/-- An array store that reads as zero with valid BCVs (R195). -/
def Ram.clearStore (m : Ram) (a : Nat) : Ram :=
  let mine := fun (x : Nat) => decide (storeAddr a 0 ≤ x ∧ x < storeAddr (a + 1) 0)
  { m with bytes := SMap.drop mine m.bytes, blks := SMap.drop (fun b => mine (256 * b)) m.blks }

/-- Write bytes to an array store with new BCVs (Table 17-1). -/
def State.storeWrite (s : State) (w : Writer) (a o : Nat) (bs : List Byte) : State :=
  let bad := s.ram.poisonCount w (storeAddr a o) bs
  { s with
    ram := s.ram.write w s.free (storeAddr a o) bs
    free := s.free + (if bad = 0 then 0 else bs.length + 256)
    io := if bad = 0 then s.io else (s.io.add .HC_POISONED 0 bad).event .HC_EVENT 0 8
    mx := s.mx.race s.ram a o bs.length }

/-- Copy whole blocks to an array store with their check bits. -/
def State.storeCarry (s : State) (src a o n : Nat) : State :=
  { s with
    ram := s.ram.carry src (storeAddr a o) n
    mx := s.mx.race s.ram a o n }

/-- Put whole blocks into an array store with check bits as they were read elsewhere (R198, R399). -/
def State.storePut (s : State) (a o : Nat) (bs : List Byte) (blks : List Blk) : State :=
  { s with
    ram := blks.zipIdx.foldl (fun m b =>
      (m.poke (storeAddr a (o + 256 * b.2)) (slice bs (256 * b.2) 256)).setBlk (storeAddr a (o + 256 * b.2)) b.1) s.ram
    mx := s.mx.race s.ram a o bs.length }

/-! ### The error log (R404) -/

/-- Enter an event in the error log, or count it as lost (R404). -/
def State.logError (s : State) (kind status place : Nat) : State :=
  if s.rl.log.length < 64 then
    { s with
      rl := { s.rl with log := s.rl.log ++ [⟨kind, status, place, s.mer.count⟩] }
      io := s.io.event .RL_EVENT 0 0 }
  else { s with io := s.io.inc .RL_LOG_LOST }

/-- A failed BCV or ROWCHK test of a block (R404, RL_BCV_FAILS), or an uncorrectable word (RL_UNCORR). -/
def State.logBlk (s : State) (b : Blk) (place : Nat) : State :=
  if b.unc != 0 then ({ s with io := s.io.inc .RL_UNCORR }).logError 1 stCheck place
  else ({ s with io := s.io.inc .RL_BCV_FAILS }).logError (if b.rowchk then 3 else 2) stCheck place

/-- The same for the block at an address. A read of a failed channel is neither. -/
def State.logCheck (s : State) (a : Nat) (place : Nat) : State :=
  if s.ram.gone a then s else s.logBlk (s.ram.blk a) place

end Sys2Proof.Machine
end

