-- ==== Sys2Proof/Machine/Chains.lean ====
section
/-! DEFINITION. Machine/Chains.lean: chain entries (R205 to R209), what a chain computes stage by stage (R210 to R218), its
writes (R215, R216) and the selection unit (R220 to R222). -/

namespace Sys2Proof.Machine

/-! ### Arrays of the plan in force -/

/-- The fabricated pair of a logical array under the plan in force (Table 8-2); none: not enabled (R172). -/
def Plan.fab (p : Plan) (a : Nat) : Option Nat :=
  if p.has 0x40 && decide (a < 64) then
    (if u8 (p.sec 0x40) (0x10 + 4 * a) = 0xFF then none else some (u8 (p.sec 0x40) (0x10 + 4 * a)))
  else none

/-- Whether an array's pair is under the enable test: step 9 of an application that enables or moves it (R174). -/
def State.arrTesting (s : State) (a : Nat) : Bool :=
  let p := { s.plan with active := true, sections := s.fp.sections }
  s.fp.st == .applying && s.fp.step == 9 && (p.fab a).isSome && p.fab a != s.plan.fab a

/-- Whether a logical array takes work: enabled, not quarantined (R172, R201). -/
def State.arrOk (s : State) (a : Nat) : Bool := (s.plan.fab a).isSome && !(s.arr a).quarantined

/-- An entry of a landing slot, VALID, with an inline result of 0 (R394). -/
def landingEntry (iter unit st : Nat) : List Byte := bytesOf 1 1 ++ bytesOf st 1 ++ bytesOf unit 2 ++ bytesOf iter 4 ++ zeros 8

/-- A unit of a stream has this status (R380). -/
def State.setRun (s : State) (ctx iter unit st : Nat) : State :=
  { s with sc := { s.sc with streams := s.sc.streams.upd ctx (fun x =>
      { x with runs := x.runs.map (fun r =>
          if r.iter = iter ∧ r.unit = unit then { r with status := some st } else r) }) } }

/-- The status with which the engine of a stream's unit has finished (R380). One that a save recorded goes to the landing
slot (R394). -/
def State.unitStatus (s : State) (ctx iter unit st : Nat) : State :=
  match s.sc.streams.at ctx with
  | none => s
  | some x =>
    match x.remote.find? (fun r => r.1 == iter && r.2.1 == unit) with
    | some r => s.sheetWrite .device (u64 x.desc 0x20 + 16 * r.2.2) (landingEntry iter unit st)
    | none => s.setRun ctx iter unit st

/-- Change one array. -/
def State.setArr (s : State) (a : Nat) (f : Arr → Arr) : State := { s with mx := s.mx.set a f }

/-! ### Chain entries (Tables 9-1 and 9-2) -/

/-- STAGES of an entry. -/
def chStages (c : List Byte) : Nat := u8 c 0
/-- SEL_FIRST. -/
def chSelFirst (c : List Byte) : Bool := bit (u8 c 1) 0
/-- SEL_LAST. -/
def chSelLast (c : List Byte) : Bool := bit (u8 c 1) 1
/-- Q_ACCUM. -/
def chQAccum (c : List Byte) : Bool := bit (u8 c 1) 2
/-- STEPKEY. -/
def chStepKey (c : List Byte) : Bool := bit (u8 c 1) 3
/-- DEST_KIND. -/
def chDestKind (c : List Byte) : Nat := u8 c 3
/-- DEST_ARRAY. -/
def chDestArray (c : List Byte) : Nat := u16 c 4
/-- DCOL0, with ARG × 128 where ARG_MASK bit 4 selects it (R206). -/
def chDcol (c : List Byte) (arg : Nat) : Nat := u16 c 6 + (if bit (u8 c 2) 4 then arg * 128 else 0)
/-- DEST. -/
def chDest (c : List Byte) : Nat := u64 c 8
/-- DSTRIDE. -/
def chStride (c : List Byte) : Nat := u32 c 0x10
/-- OPV_BASE of a vector; none: unused. With ARG × 512 where ARG_MASK selects it (R206). -/
def chOpv (c : List Byte) (arg q : Nat) : Option Nat :=
  let b := u32 c (0x18 + 4 * q)
  if b = 0xFFFFFFFF then none else some (b + (if bit (u8 c 2) q then arg * 512 else 0))
/-- Destination of a Q buffer; none: not written. -/
def chQDest (c : List Byte) (arg q : Nat) : Option Nat :=
  let b := u32 c (0x28 + 4 * q)
  if b = 0xFFFFFFFF then none else some (b + (if bit (u8 c 2) (5 + q) then arg * 512 else 0))
/-- SEED. -/
def chSeed (c : List Byte) : Nat := u64 c 0x30
/-- SEL_K. -/
def chSelK (c : List Byte) : Nat := u16 c 0x38
/-- SEL_DEST. -/
def chSelDest (c : List Byte) : Nat := u32 c 0x3C

/-- A stage descriptor (Table 9-2). -/
structure Stage where
  op : Nat
  src : Nat
  opv : Nat
  byrow : Bool
  treg : Nat
  aux : Nat
  aux2 : Nat
  imm : Word
deriving DecidableEq, Repr

/-- The fields of a stage descriptor. -/
def stageOf (w : Nat) : Stage :=
  ⟨bits w 63 56, bits w 55 54, bits w 53 52, bit w 51, bits w 50 48, bits w 47 40, bits w 39 32, BitVec.ofNat 32 w⟩

/-- The stages that an entry uses. -/
def chainStages (c : List Byte) : List Stage :=
  (List.range (min 8 (chStages c))).map (fun i => stageOf (u64 c (64 + 8 * i)))

/-- Cost of a stage in ac per vector (Table 9-3). -/
def stageCost (op : Nat) : Nat := if op = 0x38 then 4 else if op = 0x39 then 3 else if op = 0x50 then 4 else 1

/-- Cost of a chain per vector. -/
def chainCost (c : List Byte) : Nat := ((chainStages c).map (fun g => stageCost g.op)).foldl (· + ·) 0

/-! ### Chain-load checks (R209, R251) -/

/-- The two-operand opcodes of Table 9-3. -/
def binOps : List Nat := [1, 2, 3, 4, 5, 6, 7, 8]
/-- The sinks of Table 9-3. -/
def sinkOps : List Nat := [0x60, 0x61, 0x62]
/-- Every opcode of Table 9-3. -/
def stageOps : List Nat :=
  binOps ++ [0x10, 0x11, 0x12, 0x13, 0x14, 0x15, 0x16, 0x17, 0x18, 0x19, 0x1A, 0x1B, 0x1C, 0x1D, 0x1E] ++
  [0x30, 0x31, 0x32, 0x33, 0x38, 0x39, 0x42, 0x43, 0x50] ++ sinkOps

/-- Bits of AUX that an opcode uses. -/
def auxMask (op : Nat) : Nat :=
  if op = 5 then 3 else if op = 0x30 ∨ op = 0x32 then 3 else if op = 0x31 ∨ op = 0x33 then 2
  else if op = 0x43 then 7 else if op = 0x50 then 1 else if op = 0x60 then 15 else 0

/-- Bits of AUX2 that a stage uses. -/
def aux2Mask (g : Stage) : Nat := if g.op = 0x42 then 0xFF else if g.src = 2 then 0x80 else 0

/-- Whether a stage obeys Table 9-3 (R209): a known opcode, and zero in every field the opcode does not use. -/
def stageOk (g : Stage) : Bool :=
  let two := binOps.contains g.op
  stageOps.contains g.op && g.src != 3 && (two || g.src == 0) && (g.src == 1 || g.opv == 0) &&
  (!g.byrow || g.src == 1 || g.op == 5) && (g.src == 2 || g.op == 0x61 || g.treg == 0) &&
  ((two && g.src == 0) || [0x1E, 0x39, 0x42, 0x50].contains g.op || g.imm == 0#32) &&
  (g.aux &&& (255 - auxMask g.op)) == 0 && (g.aux2 &&& (255 - aux2Mask g)) == 0 &&
  (g.op != 0x43 || bits g.aux 2 1 != 3) &&
  (g.op != 0x50 || g.imm.toNat % 64 == 0)

/-- Operand vectors that a stage reads. -/
def stageOpvs (g : Stage) : List Nat :=
  (if g.src = 1 then [g.opv] else []) ++ (if g.op = 5 then [g.aux % 4] else [])

/-- Whether the chain-load command takes an entry (R208, R209, R251). -/
def chainOk (c : List Byte) : Bool :=
  let gs := chainStages c
  let n := chStages c
  let ops := gs.map (·.op)
  let sel := ops.filter (fun o => o == 0x42 || o == 0x43)
  let dupd := ops.contains 0x50
  c.length == 128 && decide (1 ≤ n ∧ n ≤ 8) && decide (u8 c 1 < 16) && decide (u8 c 2 < 128) && decide (u8 c 3 < 3) &&
  (if chDestKind c = 1 then decide (chDestArray c < 64) else chDestArray c == 0) && u16 c 6 % 16 == 0 &&
  chDest c % 256 == 0 && chStride c % 256 == 0 && u32 c 0x14 == 0 &&
  (chDestKind c != 1 || decide (chDest c < 2 ^ 23)) &&
  (List.range 6).all (fun i => u32 c (0x18 + 4 * i) == 0xFFFFFFFF ||
    (u32 c (0x18 + 4 * i) % 16 == 0 && decide (u32 c (0x18 + 4 * i) + 512 ≤ 2 ^ 23))) &&
  u16 c 0x3A == 0 && chSelDest c % 16 == 0 && decide (chSelDest c < 2 ^ 23) && (c.drop (64 + 8 * n)).all (fun b => b == 0#8) &&
  gs.all stageOk && decide (sel.length ≤ 1) &&
  (if sel.contains 0x42 then decide (1 ≤ chSelK c ∧ chSelK c ≤ 1024)
   else if sel.contains 0x43 then decide (1 ≤ chSelK c ∧ chSelK c ≤ 2048) else chSelK c == 0) &&
  (match ops.reverse with
   | last :: before => sinkOps.contains last && before.all (fun o => !sinkOps.contains o)
   | [] => false) &&
  (!ops.contains 0x60 || chDestKind c != 0) &&
  (gs.flatMap stageOpvs).all (fun q => (chOpv c 0 q).isSome) &&
  (!dupd || (n == 2 && (ops == [0x50, 0x60]) && chDestKind c == 2 && chStepKey c &&
    gs.all (fun g => (g.op != 0x60 || (bit g.aux 3 && decide (1 ≤ g.aux % 8) && decide (g.aux % 8 ≤ 6))))))

/-! ### Values in flight -/

/-- A 128-value vector as bytes. -/
def wordsBytes (xs : List Word) : List Byte := xs.flatMap (fun w => bytesOf w.toNat 4)

/-- `n` FP32 words of memory. -/
def Ram.words (m : Ram) (a n : Nat) : List Word :=
  (chunks (m.read a (4 * n)) 4 n).map (fun b => BitVec.ofNat 32 (u32 b 0))

/-- 128 words: those given, then +0. -/
def pad128 (xs : List Word) : List Word := xs ++ List.replicate (128 - xs.length) 0#32

/-- The row sum of R217. -/
def rowSum (xs : List Word) : Word := treeSum 7 (pad128 xs)

/-- Adjacent squares added, each sum rounded once: the square is fused into the first addition (R217; log entry 42). -/
def squarePairs : List Word → List Word
  | a :: b :: r => vf (((fv a).mul (fv a)).add ((fv b).mul (fv b))) :: squarePairs r
  | [a] => [f32mul a a]
  | [] => []

/-- The row sum of squares of R217. -/
def rowSumSq (xs : List Word) : Word := treeSum 6 (squarePairs (pad128 xs))

/-- The row maximum over the active columns (R217). A pairwise tree in ascending j gives what a fold gives: the first of the
greatest values, or the first NaN. -/
def rowMax : List Word → Word
  | [] => 0#32
  | x :: xs => xs.foldl f32max x

/-- A tile in a chain: its active rows and columns. -/
abbrev Cells := List (List Word)

/-- Change every active value by its place. -/
def Cells.mapAt (x : Cells) (f : Nat → Nat → Word → Word) : Cells :=
  x.zipIdx.map (fun r => r.1.zipIdx.map (fun e => f r.2 e.2 e.1))

/-- Value (i, j). -/
def Cells.at (x : Cells) (i j : Nat) : Word := (x.getD i []).getD j 0#32

/-- Replace entry `i` of a list of words. -/
def setWord (xs : List Word) (i : Nat) (v : Word) : List Word := xs.set i v

/-- A chain at work. -/
structure Run where
  x : Cells
  opv : List (List Word)
  q0 : List Word
  q1 : List Word
  tregs : SMap (List Word)
  live : Nat
  /-- Registers that stop being live after the last vector (R214). -/
  dead : Nat
  sel : Option Sel
  nans : Nat
  dropped : Nat
  /-- Status that stops the chain. -/
  stop : Option Nat
deriving DecidableEq, Repr

/-- What a tile register that nothing has written reads as. -/
def tregDflt : Nat → List Word := fun _ => []

/-- Element (i, j) of a tile register (R203: +0 where nothing is written). -/
def tregAt (m : SMap (List Word)) (t i j : Nat) : Word := (SMap.get tregDflt m t).getD (128 * i + j) 0#32

/-- A tile register with active cells replaced (R210: inactive cells are not written). -/
def tregPut (m : SMap (List Word)) (t : Nat) (x : Cells) : SMap (List Word) :=
  let old := SMap.get tregDflt m t
  SMap.set tregDflt m t ((List.range 16384).map (fun k =>
    match (x.getD (k / 128) [])[k % 128]? with
    | some v => v
    | none => old.getD k 0#32))

/-- The second operand b of a stage for element (i, j) (R208). -/
def Run.operand (r : Run) (g : Stage) (i j : Nat) : Word :=
  match g.src with
  | 0 => g.imm
  | 1 => (r.opv.getD g.opv []).getD (if g.byrow then i else j) 0#32
  | _ => tregAt r.tregs g.treg i j

/-- Operand c of FMA (Table 9-3). -/
def Run.third (r : Run) (g : Stage) (i j : Nat) : Word :=
  (r.opv.getD (g.aux % 4) []).getD (if g.byrow then i else j) 0#32

/-- A canonical FP32 pattern: a NaN keeps its sign only (R211). -/
def canon (w : Word) : Word := vf (fv w)

/-- x > 0, NaN apart (RELU, LEAKY). -/
def positive (w : Word) : Bool := f32lt 0#32 w

/-- An element-wise stage on one value (Table 9-3, R211, R212). -/
def elementOp (g : Stage) (x b c : Word) : Word :=
  match g.op with
  | 1 => f32add x b
  | 2 => f32sub x b
  | 3 => if f32nan x then canon x else f32sub b x
  | 4 => f32mul x b
  | 5 => f32fma x b c
  | 6 => f32max x b
  | 7 => f32min x b
  | 8 => f32div x b
  | 0x10 => f32mag x
  | 0x11 => f32neg x
  | 0x12 => f32mul x x
  | 0x13 => f32sqrt x
  | 0x14 => engineRsqrt x
  | 0x15 => engineRcp x
  | 0x16 => transcend 0 x
  | 0x17 => transcend 1 x
  | 0x18 => transcend 2 x
  | 0x19 => transcend 3 x
  | 0x1A => transcend 4 x
  | 0x1B => transcend 5 x
  | 0x1C => transcend 6 x
  | 0x1D => if f32nan x then canon x else if positive x then x else 0#32
  | 0x1E => if f32nan x then canon x else if positive x then x else f32mul x g.imm
  | _ => x

/-- RSOFTMAX of one row's active columns (R218). -/
def softmaxRow (xs : List Word) : List Word :=
  let m := rowMax xs
  let es := xs.map (fun x => transcend 0 (f32sub x m))
  let t := rowSum es
  es.map (fun e => f32div e t)

/-- RNORM of one row's active columns with ε (R218). -/
def normRow (eps : Word) (xs : List Word) : List Word :=
  let n := vf (.fin false xs.length 0)
  let r := engineRsqrt (f32add (f32div (rowSumSq xs) n) eps)
  xs.map (fun x => f32mul x r)

/-- Change the Q buffer that AUX[1] names. -/
def Run.mapQ (r : Run) (g : Stage) (f : List Word → List Word) : Run :=
  if bit g.aux 1 then { r with q1 := f r.q1 } else { r with q0 := f r.q0 }

/-! ### Selection (R220 to R222) -/

/-- Whether candidate a ranks before b (R221). -/
def ranksBefore (a b : SelEntry) : Bool := f32lt b.score a.score || (!f32lt a.score b.score && decide (a.id < b.id))

/-- Insert a candidate in rank order; entries that rank equal keep their order. -/
def insertRank (e : SelEntry) : List SelEntry → List SelEntry
  | [] => [e]
  | x :: xs => if ranksBefore e x then e :: x :: xs else x :: insertRank e xs

/-- Offer one candidate to a TOPK group (R221). -/
def Sel.offer (k : Sel) (thr : Word) (id : Nat) (score : Word) : Sel :=
  let k := { k with offered := k.offered + 1 }
  if f32nan score then { k with nans := k.nans + 1 }
  else if f32nan thr || f32lt score thr then k
  else { k with entries := (insertRank ⟨id, score⟩ k.entries).take k.k }

/-- The best column of a row among those allowed: the lower index wins a tie, NaN is never chosen (R222). -/
def bestColumn (xs : List Word) (ok : Nat → Bool) : Option Nat :=
  (xs.zipIdx.filter (fun e => !f32nan e.1 && ok e.2)).foldl (fun b e =>
    match b with
    | none => some e.2
    | some j => if f32lt (xs.getD j 0#32) e.1 then some e.2 else some j) none

/-- The experts a row chooses, best first (R222). -/
def chosen (two : Bool) (xs : List Word) : List Nat :=
  match bestColumn xs (fun _ => true) with
  | none => []
  | some a =>
    if two then
      match bestColumn xs (fun j => j != a) with
      | none => [a]
      | some b => [a, b]
    else [a]

/-- The gates of a row's chosen experts (R222). -/
def gates (mode : Nat) (xs : List Word) (js : List Nat) : List Word :=
  match mode with
  | 0 => js.map (fun j => canon (xs.getD j 0#32))
  | 1 =>
    match js with
    | [a, b] =>
      let es := if a < b then softmaxRow [xs.getD a 0#32, xs.getD b 0#32]
        else (softmaxRow [xs.getD b 0#32, xs.getD a 0#32]).reverse
      es
    | _ => js.map (fun _ => one32)
  | _ => let ps := softmaxRow xs; js.map (fun j => ps.getD j 0#32)

/-- Put an entry in a bucket, or drop it (R222). -/
def Sel.enter (k : Sel) (j : Nat) (e : SelEntry) : Sel :=
  if (k.buckets.getD j []).length < k.k then { k with buckets := k.buckets.set j (k.buckets.getD j [] ++ [e]) }
  else { k with dropped := k.dropped + 1 }

/-- Offer one row to a ROUTE group (R222). -/
def Sel.route1 (k : Sel) (aux id : Nat) (xs : List Word) : Sel :=
  let js := chosen (bit aux 0) xs
  if js.isEmpty then { k with nans := k.nans + 1, offered := k.offered + 1 }
  else (js.zip (gates (bits aux 2 1) xs js)).foldl (fun k e => k.enter e.1 ⟨id, e.2⟩) { k with offered := k.offered + 1 }

/-- The group that SEL_FIRST opens (R220). -/
def Sel.open (c : List Byte) : Sel :=
  ⟨(chainStages c).any (fun g => g.op == 0x43), chSelK c, 0, [], [], 0, 0, 0⟩

/-- A group's output (R221, R222). -/
def Sel.output (k : Sel) : List Byte :=
  let entry (e : SelEntry) : List Byte := bytesOf e.id 4 ++ bytesOf e.score.toNat 4
  if k.route then
    let counts := k.buckets.flatMap (fun b => bytesOf b.length 4)
    bytesOf k.experts 2 ++ bytesOf k.k 2 ++ bytesOf k.dropped 4 ++ bytesOf k.nans 4 ++ zeros 4 ++
    counts ++ zeros ((16 - counts.length % 16) % 16) ++
    k.buckets.flatMap (fun b => b.flatMap entry ++ zeros (8 * (k.k - b.length)))
  else
    bytesOf k.entries.length 4 ++ bytesOf k.nans 4 ++ bytesOf k.offered 4 ++ zeros 4 ++ k.entries.flatMap entry

/-- A TOPK stage (R220, R221). -/
def Run.topk (r : Run) (g : Stage) (tag n : Nat) : Run :=
  match r.sel with
  | some k =>
    if k.route ∨ n ≤ g.aux2 then { r with stop := some stInvalid }
    else
      let k' := r.x.zipIdx.foldl (fun k row => k.offer g.imm ((tag + row.2) % 2 ^ 32) (row.1.getD g.aux2 0#32)) k
      { r with sel := some k', nans := r.nans + (k'.nans - k.nans) }
  | none => { r with stop := some stInvalid }

/-- A ROUTE stage (R220, R222). N fixes E at the group's first tile. -/
def Run.route (r : Run) (g : Stage) (tag n : Nat) : Run :=
  match r.sel with
  | some k0 =>
    let k := if k0.offered = 0 ∧ k0.experts = 0 then { k0 with experts := n, buckets := List.replicate n [] } else k0
    if !k.route ∨ k.experts ≠ n ∨ 2048 < n * k.k then { r with stop := some stInvalid }
    else
      let k' := r.x.zipIdx.foldl (fun k row => k.route1 g.aux ((tag + row.2) % 2 ^ 32) row.1) k
      { r with sel := some k', nans := r.nans + (k'.nans - k.nans), dropped := r.dropped + (k'.dropped - k.dropped) }
  | none => { r with stop := some stInvalid }

/-! ### Stages (R208) -/

/-- The column statistic of a reduction (R217). -/
def colReduce (q : List Word) (x : Cells) (f : Word → Word → Word) : List Word :=
  q.zipIdx.map (fun e => x.foldl (fun acc row => match row[e.2]? with | some v => f acc v | none => acc) e.1)

/-- One stage over the whole tile. -/
def Run.stage (tag n : Nat) (r : Run) (g : Stage) : Run :=
  if r.stop.isSome then r
  else
    let r := if g.src = 2 ∧ bit g.aux2 7 ∧ g.op ≠ 0x42 then { r with dead := r.dead ||| 2 ^ g.treg } else r
    match g.op with
    | 0x30 =>
      r.mapQ g (fun q => q.zipIdx.map (fun e =>
        match r.x[e.2]? with
        | some row => f32add e.1 (if bit g.aux 0 then rowSumSq row else rowSum row)
        | none => e.1))
    | 0x31 =>
      r.mapQ g (fun q => q.zipIdx.map (fun e =>
        match r.x[e.2]? with
        | some row => f32max e.1 (rowMax row)
        | none => e.1))
    | 0x32 => r.mapQ g (fun q => colReduce q r.x (fun a v => if bit g.aux 0 then f32mac a v v else f32add a v))
    | 0x33 => r.mapQ g (fun q => colReduce q r.x f32max)
    | 0x38 => { r with x := r.x.map softmaxRow }
    | 0x39 => { r with x := r.x.map (normRow g.imm) }
    | 0x42 => r.topk g tag n
    | 0x43 => r.route g tag n
    | 0x61 => { r with tregs := tregPut r.tregs g.treg r.x, live := r.live ||| 2 ^ g.treg }
    | 0x60 | 0x62 | 0x50 => r
    | _ => { r with x := r.x.mapAt (fun i j v => elementOp g v (r.operand g i j) (r.third g i j)) }

/-- Bytes of a chain entry. -/
def State.chainEntry (s : State) (a e : Nat) : List Byte := s.ram.read (chainAddr a (e % 256) 0) 128

/-- Whether a chain entry of an array has a DUPD stage (R251). -/
def State.dupdChain (s : State) (a e : Nat) : Bool := (chainStages (s.chainEntry a e)).any (fun g => g.op == 0x50)

/-- The format of a chain's WRITE. -/
def writeFmt (gs : List Stage) : Nat :=
  match gs.find? (fun g => g.op == 0x60) with
  | some g => g.aux % 8
  | none => 0

/-- A dense problem of the device (R240), with its UP_CAUSE bit. -/
def State.denseProblem (s : State) (cause : Nat) : State :=
  let u := s.upd
  { s with
    upd := { u with
      denseNonfinite := u.denseNonfinite || cause == 8
      denseAbsurd := u.denseAbsurd || cause == 9
      denseDamaged := u.denseDamaged || cause == 11
      denseFault := u.denseFault || cause == 10 }
    io := s.io.setBit .UP_CAUSE 0 cause true }

/-! ### Writing (R215, R216) -/

/-- The random integer of element (i, j) (R216). -/
def chainDraw (c : List Byte) (t tag i j : Nat) : Nat :=
  let key := BitVec.ofNat 64 (chSeed c) ^^^ (if chStepKey c then BitVec.ofNat 64 t <<< 32 else 0#64)
  let x := (BitVec.ofNat 64 tag <<< 32) ||| BitVec.ofNat 64 (128 * i + j)
  draw16 (mix (mix (x ^^^ key) + key))

/-- The pieces of a stored row, one per tensor block: block, first element in it, first index and values. -/
def rowPieces (fmt e0 : Nat) (xs : List Word) : List (Nat × Nat × Nat × List Word) :=
  let b := blockElems fmt
  if xs.isEmpty then []
  else (List.range ((e0 + xs.length - 1) / b - e0 / b + 1)).map (fun k =>
    let blk := e0 / b + k
    let lo := max e0 (blk * b)
    let hi := min (e0 + xs.length) ((blk + 1) * b)
    (blk, lo - blk * b, lo - e0, (xs.drop (lo - e0)).take (hi - lo)))

/-- Where a chain writes: an array store or sheets. -/
inductive Place where
  | store (a : Nat)
  | sheet
deriving DecidableEq, Repr

/-- The address in memory of a place's offset. -/
def Place.addr (p : Place) (o : Nat) : Nat :=
  match p with
  | .store a => storeAddr a o
  | .sheet => o

/-- Whether `n` bytes from an offset lie in a place. -/
def Place.ok (p : Place) (s : State) (o n : Nat) : Bool :=
  match p with
  | .store a => decide (o + n ≤ 2 ^ 23) && (s.plan.fab a).isSome
  | .sheet => s.plan.dpaOk o n

/-- Write bytes to a place with new BCVs. -/
def Place.write (p : Place) (s : State) (o : Nat) (bs : List Byte) : State :=
  match p with
  | .store a => s.storeWrite .device a o bs
  | .sheet => s.sheetWrite .device o bs

/-- Write one piece: a block covered whole is written whole; another is read, checked and merged (R215, R227). -/
def writePiece (p : Place) (fmt base : Nat) (mode : Nat → Rnd) (s : State) (pc : Nat × Nat × Nat × List Word) :
    State × Option Nat :=
  let o := base + pc.1 * 256
  let whole := pc.2.1 == 0 && pc.2.2.2.length == blockElems fmt
  if !p.ok s o 256 then (s, some stInvalid)
  else if s.ram.gone (p.addr o) || !whole && !(s.ram.blk (p.addr o)).moverOk then (s, some stCheck)
  else
    let old := if whole then zeros 256 else s.ram.read (p.addr o) 256
    (p.write s o (packBlock fmt old pc.2.1 pc.2.2.2 (fun i => mode (pc.2.2.1 + i))), none)

/-- Run a list of writes until one stops. -/
def writeAll {α : Type} (f : State → α → State × Option Nat) : State → List α → State × Option Nat
  | s, [] => (s, none)
  | s, x :: xs =>
    match f s x with
    | (s', none) => writeAll f s' xs
    | r => r

/-- The WRITE stage over every active row (R215). -/
def writeRows (s : State) (c : List Byte) (arg t tag : Nat) (g : Stage) (x : Cells) : State × Option Nat :=
  let fmt := g.aux % 8
  let p : Place := if chDestKind c = 1 then .store (chDestArray c) else .sheet
  writeAll (fun s row =>
    let xs := if fmtBlock fmt then pad128 row.1 else row.1
    let mode := fun j => if bit g.aux 3 then Rnd.stoch (chainDraw c t tag row.2 j) else Rnd.rne
    writeAll (writePiece p fmt (chDest c + row.2 * chStride c) mode) s (rowPieces fmt (chDcol c arg) xs)) s x.zipIdx

/-- 16-byte pieces of a string for a store write, merged into blocks: the blocks read must pass their check (R195, R227). -/
def storeMerge (s : State) (a o : Nat) (bs : List Byte) : State × Option Nat :=
  writeAll (fun s pc =>
    let off := pc.1 - storeAddr a 0
    if 2 ^ 23 < off + pc.2.length then (s, some stInvalid)
    else if pc.2.length ≠ 256 ∧ (s.ram.blk pc.1).moverOk = false then (s, some stCheck)
    else (s.storeWrite .device a off pc.2, none)) s (splitBlocks (storeAddr a o) bs)

end Sys2Proof.Machine
end

