-- ==== Sys2Proof/Machine/Cycle.lean ====
section
/-! DEFINITION. Machine/Cycle.lean: the meridian count's scheduled events: the cycle table's slots and instants (R65), when
an instant fires and when a step lets it fire again (R64), class 0 admission (R69), the clock's tick, and MER_OUT (R61). -/

namespace Sys2Proof.Machine

/-! ### The cycle table (R65) -/

/-- A slot: start within the frame, length, owner, admission limit (Table 3-4). -/
structure Slot where
  start : Nat
  len : Nat
  owner : Nat
  limit : Nat
deriving DecidableEq, Repr

/-- Slots from their entries, the first beginning at `start`. -/
def slotsFrom (start : Nat) : List (List Byte) → List Slot
  | [] => []
  | e :: es => ⟨start, u32 e 0, u8 e 4, u16 e 6⟩ :: slotsFrom (start + u32 e 0) es

/-- The slots of a cycle-table section. -/
def tableSlots (sec : List Byte) : List Slot := slotsFrom 0 (chunks (sec.drop 32) 8 (u16 sec 0))

/-- An instant (Table 3-5). -/
structure Instant where
  kind : Nat
  arg : Nat
  period : Nat
  phase : Nat
  offset : Nat
  len : Nat
deriving DecidableEq, Repr

/-- The instants of a cycle-table section. -/
def tableInstants (sec : List Byte) : List Instant :=
  (chunks (sec.drop (32 + 8 * u16 sec 0)) 16 (u16 sec 2)).map (fun e =>
    ⟨u8 e 0, u8 e 1, u16 e 2, u16 e 4, u32 e 8, u32 e 12⟩)

/-- The slots in force. -/
def Plan.slots (p : Plan) : List Slot := if p.active then tableSlots (p.sec 0x21) else []
/-- The instants in force. -/
def Plan.instants (p : Plan) : List Instant := if p.active then tableInstants (p.sec 0x21) else []

/-- The first frame boundary at or after a count. -/
def nextFrame (f c : Nat) : Nat := (c + f - 1) / f * f

/-- The slot of a frame that holds an offset: its index. -/
def slotIndex (ss : List Slot) (off : Nat) : Nat := (ss.takeWhile (fun s => s.start + s.len ≤ off)).length

/-- Least number at or above `n` that is `phase` modulo `period`. -/
def nextPhase (n period phase : Nat) : Nat := n + (phase + period - n % period) % period

/-- First count at or above `x` at which an instant falls, in frames of length `f` (R55, Table 3-5). -/
def Instant.nextAt (i : Instant) (f x : Nat) : Nat := nextPhase ((x + f - 1 - i.offset) / f) i.period i.phase * f + i.offset

/-! ### What has come due (R64, R67) -/

/-- Events fire on the count in every state but OFF (R67). -/
def Mer.fires (m : Mer) : Bool := m.st != .off

/-- Whether a stated count value has been reached and may fire: after a backward step nothing fires until the count
exceeds the highest value it had (R64). -/
def Mer.reached (m : Mer) (v : Nat) : Bool := m.fires && decide (v ≤ m.count) && decide (m.dueFrom ≤ m.count)

/-- The count of instant `k`'s next occurrence. -/
def State.occurs (s : State) (k : Nat) (i : Instant) : Nat :=
  i.nextAt s.plan.frameLen (max (SMap.get (fun _ => 0) s.mer.due k) s.mer.dueFrom)

/-- The instant of the table with index `k`, once its count has been reached: it, and the count it was due at. -/
def State.ripe (s : State) (k : Nat) : Option (Instant × Nat) :=
  match s.plan.instants[k]? with
  | none => none
  | some i =>
    let c := s.occurs k i
    if 0 < s.plan.frameLen ∧ 0 < i.period ∧ s.mer.fires ∧ c ≤ s.mer.count ∧ s.asleep = false then some (i, c) else none

/-- The next slot to begin: its frame, its index, and the count at which it begins or, for the first slot of a table, the
count from which the table gives slots (R55, R488). -/
def State.nextSlot (s : State) : Option (Nat × Nat × Nat) :=
  let f := s.plan.frameLen
  let ss := s.plan.slots
  if f = 0 ∨ ss = [] then none
  else
    let at' := fun (fr i from' : Nat) => (ss[i]?).map (fun x => (fr, i, max from' (fr * f + x.start)))
    if s.mer.inSlot then
      (if s.mer.slot + 1 < ss.length then at' s.mer.frame (s.mer.slot + 1) 0 else at' (s.mer.frame + 1) 0 0)
    else at' (s.mer.slotFrom / f) (slotIndex ss (s.mer.slotFrom % f)) s.mer.slotFrom

/-- Place of an instant's kind in R68's order. -/
def kindPlace (kind : Nat) : Nat :=
  match kind with
  | 3 => 1
  | 1 => 4
  | 2 => 5
  | _ => 7

/-- Whether a mark's instant has come. -/
def State.markDue (s : State) (m : Mark) : Bool := m.asap || (s.mer.reached m.instant && !s.asleep)

/-- Whether the effective instant of the pending amendment has come: asleep or not (R432). -/
def State.amendDue (s : State) : Bool := s.fp.st == .verified && s.fp.pending && s.mer.reached s.fp.effective

/-- Every scheduled event that is due, as 8 × its count + its place in R68's order. While the device sleeps, none but an
amendment's effect is (R432). -/
def State.dueKeys (s : State) : List Nat :=
  (if s.amendDue then [8 * s.fp.effective + 2] else []) ++
  if s.mer.fires = false ∨ s.asleep = true then []
  else
    (s.tr.marks.filter s.markDue).map (fun m => 8 * m.instant + 1) ++
    (match s.nextSlot with
      | some (_, _, c) => if s.mer.reached c then [8 * c + 3] else []
      | none => []) ++
    (List.range s.plan.instants.length).filterMap (fun k => (s.ripe k).map (fun x => 8 * x.2 + kindPlace x.1.kind))

/-- Whether no event that is due comes before place `r` at count `c` (R64: in count order; R68: the order at one count). -/
def State.comesFirst (s : State) (c r : Nat) : Bool := s.dueKeys.all (fun k => decide (8 * c + r ≤ k))

/-- The instant with index `k`, where it is due and no event before it is. -/
def State.dueInstant (s : State) (k : Nat) : Option (Instant × Nat) :=
  match s.ripe k with
  | some (i, c) => if s.comesFirst c (kindPlace i.kind) then some (i, c) else none
  | none => none

/-- The index of the first instant of a kind. -/
def Plan.instantOf (p : Plan) (kind : Nat) : Option Nat := p.instants.findIdx? (fun i => i.kind == kind)

/-- Instant `k` has fired at count `c`. -/
def State.fired (s : State) (k c : Nat) : State :=
  { s with mer := { s.mer with due := SMap.set (fun _ => 0) s.mer.due k (c + 1) } }

/-- Step the count (R64): going back, every event waits until the count exceeds the highest value it had reached; going
forward, every event passed has come due. -/
def Mer.stepTo (m : Mer) (c' : Nat) : Mer :=
  let c := c' % 2 ^ 64
  let high := max m.high m.count
  if c < m.count then { m with count := c, high := high, dueFrom := max m.dueFrom (high + 1) }
  else { m with count := c, high := max high c }

/-- A cycle table takes effect at count `c`: its instants are looked for from there on (R43), and its slots from `slots'`. -/
def Mer.newTable (m : Mer) (c slots' : Nat) : Mer :=
  { m with due := [], dueFrom := max m.dueFrom c, inSlot := false, slotFrom := slots' }

/-! ### Slots and admission (R68, R69) -/

/-- Where the count stands in the table in force: frame and slot index. -/
def State.slotPos (s : State) : Option (Nat × Nat) :=
  let f := s.plan.frameLen
  if f = 0 ∨ s.plan.slots = [] ∨ s.mer.fires = false ∨ s.mer.count < s.mer.slotFrom then none
  else some (s.mer.count / f, slotIndex s.plan.slots (s.mer.count % f))

/-- The slot that the count is in. -/
def State.slotNow (s : State) : Option Slot := s.slotPos.bind (fun p => s.plan.slots[p.2]?)

/-- Count at which the current slot ends. -/
def State.slotEnd (s : State) : Nat :=
  match s.slotPos, s.slotNow with
  | some p, some x => p.1 * s.plan.frameLen + x.start + x.len
  | _, _ => 0

/-- Class 0 requests that the current slot may still admit (R69). -/
def State.admitLeft (s : State) : Nat :=
  match s.slotNow with
  | some x => if x.owner = 0 then x.limit - s.mer.admitted else 0
  | none => 0

/-- Whether the current slot is a maintenance slot. -/
def State.inMaintenance (s : State) : Bool :=
  match s.slotNow with
  | some x => x.owner == 2
  | none => false

/-- A held request, once admitted at a count: that is its START (R69, R369). -/
def Cf.admitKey (now : Nat) (cf : Cf) (k : Nat) : Cf :=
  if k % 2 = 0 then
    { cf with cmds := cf.cmds.upd (k / 2) (fun c => if c.phase = .held then { c with phase := .ready, start := now } else c) }
  else { cf with launches := cf.launches.upd (k / 2) (fun l => { l with admitted := true }) }

/-- Admit held requests in arrival order while the slot has budget (R69). -/
def State.admitHeld (s : State) : State :=
  let n := s.admitLeft
  { s with
    mer := { s.mer with admitted := s.mer.admitted + min n s.mer.held.length, held := s.mer.held.drop n }
    cf := (s.mer.held.take n).foldl (Cf.admitKey s.mer.count) s.cf }

/-- Halve every access counter (R351). -/
def halveCounters (th : Nat) (m : SMap Nat) : SMap Nat :=
  m.foldl (fun acc e =>
    let v := e.2 % 65536 / 2
    SMap.set (fun _ => 0) acc e.1 (v + 65536 * (if 2 * v < th then 0 else e.2 / 65536))) []

/-- The slot boundary that is due, where no event before it is. -/
def State.dueSlot (s : State) : Option (Nat × Nat × Nat) :=
  match s.nextSlot with
  | some (fr, i, c) => if s.mer.reached c = true ∧ s.asleep = false ∧ s.comesFirst c 3 = true then some (fr, i, c) else none
  | none => none

/-- A slot begins (R68, R69): held class 0 requests are admitted. At a frame boundary whose number is a multiple of XL_DECAY
the access counters are halved (R351). -/
def State.enterSlot (s : State) (fr i c : Nat) : State :=
  let s := { s with mer := { s.mer with frame := fr, slot := i, inSlot := true, admitted := 0 } }
  let d := s.io.val .XL_DECAY % 65536
  let s := if i = 0 ∧ c = fr * s.plan.frameLen ∧ d ≠ 0 ∧ fr % d = 0 then
      { s with xl := { s.xl with counters := halveCounters (s.io.val .XL_HOT_THRESH % 65536) s.xl.counters } }
    else s
  s.admitHeld

/-- At most `n` of the slot boundaries that are due. -/
def State.enterSlots : Nat → State → State
  | 0, s => s
  | n + 1, s =>
    match s.dueSlot with
    | some (fr, i, c) => State.enterSlots n (s.enterSlot fr i c)
    | none => s

/-- Admit the class 0 request with key `k`, or hold it in arrival order and count the deferral (R69). A boundary that the count
has reached comes first, so that a dispatch at the count at which a slot begins belongs to that slot. The key is twice a
command's id, or twice a launch's id plus 1. -/
def State.admitClass0 (s : State) (k : Nat) : Bool × State :=
  let s := State.enterSlots (s.mer.count / 5000 + 2) s
  if 0 < s.admitLeft ∧ s.mer.held = [] then (true, { s with mer := { s.mer with admitted := s.mer.admitted + 1 } })
  else (false, { s with mer := { s.mer with held := s.mer.held ++ [k] }, io := s.io.inc .MER_ADMIT_DEFERRED })

/-! ### The tick and the output -/

/-- Whether the count runs on the internal oscillator (R57). -/
def Mer.free (m : Mer) : Bool := m.st == .holdover && m.lost || m.st == .acquiring && m.lost || m.st == .free

/-- How the count's advance differs from one in this mt: the internal oscillator drifts by at most 2 ppm, and a slew
proceeds at 100 ppm (R57; log entry 9). -/
def Mer.adjust (m : Mer) (v : Nat) : Int :=
  if m.free then (if m.now % 500000 = 0 then ((v % 3 : Nat) : Int) - 1 else 0)
  else if m.now % 10000 = 0 then (if 0 < m.slew then 1 else if m.slew < 0 then -1 else 0)
  else 0

/-- An application may go on to its next step (R36): when is a free choice (log entry 7). -/
def State.applyTick (s : State) : State :=
  if s.fp.st = .applying ∧ s.fp.step < 15 then
    { s with fp := { s.fp with step := s.fp.step + s.draw % 2 }, free := s.free + 1 }
  else s

/-- The count and the clock advance by one mt (R54): the count stands still while the block is OFF. -/
def State.tickCount (s : State) : State :=
  let m := s.mer
  let now := m.now + 1
  if m.st = .off then { s with mer := { m with now := now } }
  else
    let m := { m with now := now }
    let d := m.adjust s.draw
    let draws := m.free && m.now % 500000 == 0
    let count := (m.count + 1 + d).toNat % 2 ^ 64
    let m := if m.free then { m with count := count, high := max m.high count }
      else { m with count := count, high := max m.high count, slew := m.slew - d, offset := m.offset - d }
    { s with mer := m, free := if draws then s.free + 1 else s.free }

/-- One mt passes. -/
def State.tick (s : State) : State := s.tickCount.applyTick

/-- The level of MER_OUT (R61): 10 MHz in phase with the count, or a pulse of 1,000 mt from each frame boundary. -/
def State.merOut (s : State) : Bool :=
  let mode := u8 (s.plan.sec 0x20) 5 / 4 % 4
  if s.mer.st ≠ .locked ∧ s.mer.st ≠ .holdover then false
  else if mode = 1 then s.mer.count % 100 < 50
  else if mode = 2 then decide (s.mer.count % s.plan.frameLen < 1000)
  else false

end Sys2Proof.Machine
end

