-- ==== Sys2Proof/Machine/Walker.lean ====
section
/-! DEFINITION. Machine/Walker.lean: host-bound writes (R326, R330), the walker profile, TLB, line cache and walks (R335 to
R344), page requests and the fault ring (R345 to R347), access counters (R351). -/

namespace Sys2Proof.Machine

/-! ### Host-bound writes -/

/-- Whether the host link carries requests: it is up, or in Recovery, where they wait (R329). -/
def State.linkUp (s : State) : Bool := s.io.link == 2 || s.io.link == 3

/-- Post a write to host memory, or discard and count it while the host is lost (R326, R330). -/
def State.hostPost (s : State) (a : Nat) (bs : List Byte) : State :=
  if s.linkUp then { s with io := s.io.send (.hostWrite a bs) } else { s with io := s.io.inc .HC_LOST_WRITES }

/-- Ask host memory for bytes. -/
def State.hostAsk (s : State) (a n : Nat) : State := { s with io := s.io.send (.hostRead a n) }

/-! ### Runs of bytes -/

/-- Add a run to rising disjoint runs, joining those that touch. -/
def addRun (o n : Nat) : List (Nat × Nat) → List (Nat × Nat)
  | [] => [(o, n)]
  | (p, m) :: rs =>
    if o + n < p then (o, n) :: (p, m) :: rs
    else if p + m < o then (p, m) :: addRun o n rs
    else addRun (min o p) (max (o + n) (p + m) - min o p) rs

/-- Bytes in the runs. -/
def runBytes (rs : List (Nat × Nat)) : Nat := (rs.map (·.2)).sum

/-- Length of the contiguous run from byte 0 (R324). -/
def runPrefix : List (Nat × Nat) → Nat
  | (0, n) :: _ => n
  | _ => 0

/-- Whether a run meets one of those listed. -/
def runMeets (o n : Nat) (rs : List (Nat × Nat)) : Bool := rs.any (fun r => decide (o < r.1 + r.2 ∧ r.1 < o + n))

/-! ### The walker profile (Tables 14-1 and 14-2) -/

/-- The walker profile in force; none: host addresses are bus addresses (R354). -/
def Plan.walker (p : Plan) : Option (List Byte) := if p.has 0x61 then some (p.sec 0x61) else none

/-- LEVELS. -/
def wpLevels (w : List Byte) : Nat := u8 w 0
/-- ENTRY_BYTES. -/
def wpEntry (w : List Byte) : Nat := u8 w 1
/-- VA_BITS. -/
def wpVaBits (w : List Byte) : Nat := u8 w 2
/-- CANONICAL. -/
def wpCanonical (w : List Byte) : Bool := bit (u8 w 3) 0
/-- AD_REQUIRE. -/
def wpAd (w : List Byte) : Bool := bit (u8 w 3) 1
/-- SHIFT of a level. -/
def wpShift (w : List Byte) (l : Nat) : Nat := u8 w (0x30 + 8 * l)
/-- WIDTH of a level. -/
def wpWidth (w : List Byte) (l : Nat) : Nat := u8 w (0x31 + 8 * l)
/-- LEAF of a level. -/
def wpLeaf (w : List Byte) (l : Nat) : Bool := u8 w (0x32 + 8 * l) == 1
/-- A named bit of an entry; a field that names no bit holds 0xFF. -/
def wpBit (w : List Byte) (o e : Nat) : Bool := u8 w o != 0xFF && bit e (u8 w o)
/-- Whether a named bit of an entry is 0; where the field names no bit nothing is tested (log entry 167). -/
def wpClear (w : List Byte) (o e : Nat) : Bool := u8 w o != 0xFF && !bit e (u8 w o)
/-- An entry's address: bits [ADDR_HI:ADDR_LO] in place (R336). -/
def wpAddr (w : List Byte) (e : Nat) : Nat := bits e (u8 w 0xB) (u8 w 0xA) * 2 ^ u8 w 0xA
/-- Whether an entry is present. -/
def wpPresent (w : List Byte) (e : Nat) : Bool := wpBit w 4 e
/-- Whether a present entry is a leaf at a level (R337). -/
def wpIsLeaf (w : List Byte) (l e : Nat) : Bool := wpLeaf w l && (l + 1 == wpLevels w || wpBit w 9 e)
/-- Whether an entry that is not present is device-resident (R337). -/
def wpResident (w : List Byte) (l e : Nat) : Bool := wpLeaf w l && (e &&& u64 w 0x18 == u64 w 0x20)
/-- Attributes that a run shares (R344): writable, and under AD_REQUIRE accessed and dirty. -/
def wpAttrs (w : List Byte) (e : Nat) : Bool × Bool × Bool :=
  (wpBit w 5 e, wpAd w && wpBit w 6 e, wpAd w && wpBit w 7 e)

/-- Whether a virtual address is out of range (R337, as written there; log entry 44). -/
def wpRange (w : List Byte) (va : Nat) : Bool :=
  decide (2 ^ wpVaBits w ≤ va) ||
  (wpCanonical w && bits va 63 (wpVaBits w) != (if bit va (wpVaBits w - 1) then 2 ^ (64 - wpVaBits w) - 1 else 0))

/-! ### Address spaces and the line cache -/

/-- Root of an address space. -/
def Xl.root (x : Xl) (a : Nat) : Nat := SMap.get (fun _ => 0) x.roots a
/-- Whether an address space is enabled (R334). -/
def Xl.on (x : Xl) (a : Nat) : Bool := SMap.get (fun _ => false) x.enabled a

/-- The line of a host address, where the cache holds it (R339). -/
def Xl.lineAt (x : Xl) (a : Nat) : Option (List Byte) := x.lines.lookup (a / 64 * 64)

/-- Put the two lines of a 128-byte span into the cache: 4,096 lines, the oldest replaced (R310; log entry 45). -/
def Xl.putSpan (x : Xl) (a : Nat) (bs : List Byte) : Xl :=
  let b := a / 128 * 128
  { x with lines :=
      ((b, bs.take 64) :: (b + 64, (bs.drop 64).take 64) ::
        x.lines.filter (fun l => l.1 != b && l.1 != b + 64)).take 4096 }

/-! ### One walk (R337, R344) -/

/-- Where a walk has come to. -/
inductive WalkEnd where
  /-- The 128-byte span at this address is needed, at this level with this table. -/
  | need (span level table : Nat)
  | fault (cause entry level : Nat)
  | found (e : TlbEntry)
deriving DecidableEq, Repr

/-- The page of an entry that ends a walk, as (resident, address); none: a RESERVED fault (R336). -/
def endPage (p : Plan) (w : List Byte) (l e : Nat) : Option (Bool × Nat) :=
  let a := wpAddr w e
  let size := 2 ^ wpShift w l
  if a % size ≠ 0 then none
  else if wpPresent w e then some (false, a)
  else if p.dpaOk a size then some (true, a) else none

/-- Whether the entries of a span from `i0` on, `n` of them, form a run (R344). -/
def runOk (p : Plan) (w : List Byte) (l : Nat) (span : List Byte) (i0 n : Nat) : Bool :=
  let eb := wpEntry w
  let es := (List.range n).map (fun k => le span ((i0 + k) * eb) eb)
  let e0 := es.headD 0
  let size := 2 ^ wpShift w l
  (wpAddr w e0 % (size * n) == 0) &&
  es.zipIdx.all (fun x =>
    let e := x.1
    (if wpPresent w e0 then wpPresent w e && wpIsLeaf w l e else !wpPresent w e && wpResident w l e) &&
    wpAddr w e == wpAddr w e0 + x.2 * size && wpAttrs w e == wpAttrs w e0 && (endPage p w l e).isSome)

/-- The largest run in a span that contains entry `i` (R344): log of its size, at most 4. -/
def runLog (p : Plan) (w : List Byte) (l : Nat) (span : List Byte) (i : Nat) : Nat :=
  (([4, 3, 2, 1].filter (fun m => decide (m ≤ wpWidth w l) && decide (2 ^ m * wpEntry w ≤ 128))).find? (fun m =>
    runOk p w l span (i / 2 ^ m * 2 ^ m) (2 ^ m))).getD 0

/-- The TLB entry of the run found (R343, R344). -/
def runEntry (p : Plan) (w : List Byte) (wk : Walk) (l e i : Nat) (span : List Byte) : TlbEntry :=
  let m := runLog p w l span i
  let size := 2 ^ wpShift w l
  let va0 := wk.va / size * size
  let back := i % 2 ^ m
  { as := wk.as, va := va0 - back * size, shift := wpShift w l, m := m, addr := wpAddr w e - back * size
    writable := wpBit w 5 e, dirty := !wpAd w || !wpClear w 7 e, resident := !wpPresent w e }

/-- Walk on from a level while the line cache holds what is read (R337). -/
def walkOn (p : Plan) (x : Xl) (w : List Byte) (wk : Walk) : Nat → Nat → Nat → WalkEnd
  | 0, l, _ => .fault 6 0 l
  | fuel + 1, l, t =>
    let i := wk.va / 2 ^ wpShift w l % 2 ^ wpWidth w l
    let ea := t + i * wpEntry w
    match x.lineAt ea with
    | none => .need (ea / 128 * 128) l t
    | some line =>
      let e := le line (ea % 64) (wpEntry w)
      let ends := fun (_ : Unit) =>
        match x.lineAt (ea / 128 * 128), x.lineAt (ea / 128 * 128 + 64) with
        | some a, some b => WalkEnd.found (runEntry p w wk l e (ea % 128 / wpEntry w) (a ++ b))
        | _, _ => .need (ea / 128 * 128) l t
      if wpPresent w e then
        if wpIsLeaf w l e then
          if wk.write && !wpBit w 5 e then .fault 2 e l
          else if wpAd w && wpClear w 6 e then .fault 3 e l
          else if wpAd w && wk.write && wpClear w 7 e then .fault 4 e l
          else if (endPage p w l e).isNone then .fault 6 e l
          else ends ()
        else if l + 1 = wpLevels w then .fault 6 e l
        else if wpAddr w e % (2 ^ wpWidth w (l + 1) * wpEntry w) ≠ 0 then .fault 6 e l
        else walkOn p x w wk fuel (l + 1) (wpAddr w e)
      else if wpResident w l e then
        if (endPage p w l e).isNone then .fault 6 e l else ends ()
      else .fault 1 e l

/-! ### The TLB (R343) -/

/-- Whether an entry translates a page for an access. -/
def TlbEntry.serves (e : TlbEntry) (as va : Nat) (write : Bool) : Bool :=
  e.as == as && decide (e.va ≤ va) && decide (va < e.va + 2 ^ (e.shift + e.m)) &&
  (!write || e.resident || (e.writable && e.dirty))

/-- Use an entry: it becomes the most recently used. -/
def Xl.touch (x : Xl) (e : TlbEntry) : Xl := { x with tlb := e :: x.tlb.erase e }

/-- Whether two entries translate a page in common. -/
def TlbEntry.meets (e f : TlbEntry) : Bool :=
  e.as == f.as && decide (e.va < f.va + 2 ^ (f.shift + f.m)) && decide (f.va < e.va + 2 ^ (e.shift + e.m))

/-- Install a run; the least recently used of 32,768 entries goes (R343). -/
def Xl.install (x : Xl) (e : TlbEntry) : Xl :=
  { x with tlb := (e :: x.tlb.filter (fun f => !e.meets f)).take 32768 }

/-! ### The fault ring (R346) -/

/-- A fault record's 32 bytes (Table 14-5). -/
def FaultRec.bytes (r : FaultRec) (phase : Bool) : List Byte :=
  bytesOf r.va 8 ++ bytesOf r.entry 8 ++ bytesOf r.count 8 ++ bytesOf r.req 2 ++ bytesOf r.as 1 ++ bytesOf r.cause 1 ++
  bytesOf r.queue 2 ++ bytesOf r.level 1 ++ bytesOf ((if phase then 1 else 0) + (if r.write then 2 else 0)) 1

/-- Bus address of the ring. -/
def Io.ringBase (io : Io) : Nat := io.val .XL_RING_LO / 4096 * 4096 + io.val .XL_RING_HI * 2 ^ 32

/-- Whether the ring is enabled. -/
def Io.ringOn (io : Io) : Bool := (io.reg .XL_RING_CTRL).getLsbD 0

/-- Whether the ring has space (R346). -/
def State.ringSpace (s : State) : Bool := (s.xl.tail + 1) % 4096 != s.io.val .XL_RING_HEAD % 4096

/-- Write a record at the tail. -/
def State.ringWrite (s : State) (r : FaultRec) : State :=
  { s.hostPost (s.io.ringBase + 32 * s.xl.tail) (r.bytes s.xl.phase) with
    xl := { s.xl with tail := (s.xl.tail + 1) % 4096, phase := if s.xl.tail = 4095 then !s.xl.phase else s.xl.phase } }

/-- Post a page-request record, or hold it in fault order (R346). -/
def State.postRecord (s : State) (r : FaultRec) : State :=
  if s.io.ringOn && s.xl.held.isEmpty && s.ringSpace then s.ringWrite r
  else
    { s with xl := { s.xl with held := s.xl.held ++ [r] },
             io := if s.io.ringOn then s.io.event .XL_EVENT 0 2 else s.io }

/-- Post held records while there is space (R346). -/
def State.postHeld (s : State) : State :=
  if !s.io.ringOn then s
  else s.xl.held.foldl (fun s r =>
    if s.ringSpace then { s.ringWrite r with xl := { (s.ringWrite r).xl with held := s.xl.held.drop 1 } } else s) s

/-- Post a HOT record, or drop and count it (R351). -/
def State.postHot (s : State) (as va : Nat) : State :=
  let s := { s with io := s.io.event .XL_EVENT 0 1 }
  if s.io.ringOn && s.xl.held.isEmpty && s.ringSpace then
    s.ringWrite ⟨va, 0, s.mer.count, 0xFFFF, as, 9, 0xFFFF, 0, false⟩
  else { s with io := s.io.inc .XL_HOT_DROPS }

/-! ### Page requests (R345) -/

/-- A fault of a unit on a page: it joins or opens a request. While 1,024 are open it waits without one. -/
def State.pageFault (s : State) (k : Nat) (u : XUnit) (page : Nat) (cause entry level : Nat) : State :=
  let halt := fun (s : State) =>
    { s with xl := { s.xl with units := s.xl.units.put k { u with st := .halted, pages := [] },
                               walks := s.xl.walks.del k } }
  let record := fun (r : Nat) (w : Bool) =>
    FaultRec.mk page (if cause ≤ 4 ∨ cause = 6 then entry else 0) s.mer.count r u.as cause u.queue
      level w
  let s := { s with io := s.io.event .XL_EVENT 0 0 }
  match s.xl.reqs.list.find? (fun r => r.2.as == u.as && r.2.page == page) with
  | some (r, q) =>
    let q' := { q with write := q.write || u.write, waiting := q.waiting ++ [k] }
    let s := halt { s with xl := { s.xl with reqs := s.xl.reqs.put r q' } }
    if u.write && !q.write then s.postRecord (record r true) else s
  | none =>
    match (List.range 1024).find? (fun r => (s.xl.reqs.at r).isNone) with
    | none => halt s
    | some r =>
      let s := halt { s with xl := { s.xl with reqs := s.xl.reqs.put r ⟨u.as, page, u.write, [k]⟩ },
                             io := s.io.inc .XL_FAULTS }
      s.postRecord (record r u.write)

/-! ### Access counters (R351) -/

/-- First counter of a window; XL_CW_FIRST reads its 16 bits. -/
def Xl.first (x : Xl) (w : Nat) : Nat :=
  ((List.range w).map (fun v => match x.windows.at v with | some y => y.count | none => 0)).sum

/-- One host-resident page is touched (R351). -/
def State.countPage (s : State) (as va : Nat) : State :=
  (List.range 16).foldl (fun s w =>
    match s.xl.windows.at w with
    | some y =>
      if y.on ∧ y.as = as ∧ y.base ≤ va ∧ va < y.base + y.count * 2 ^ 21 then
        let k := s.xl.first w + (va - y.base) / 2 ^ 21
        let c := SMap.get (fun _ => 0) s.xl.counters k
        let v := min (c % 65536 + 1) 65535
        let th := s.io.val .XL_HOT_THRESH % 65536
        let hot := decide (th ≠ 0) && decide (th ≤ v) && c / 65536 == 0
        let cs := SMap.set (fun _ => 0) s.xl.counters k (v + 65536 * (if hot then 1 else c / 65536))
        let s := { s with xl := { s.xl with counters := cs } }
        if hot then s.postHot as (va / 2 ^ 21 * 2 ^ 21) else s
      else s
    | none => s) s

/-! ### Translating a unit (R341) -/

/-- Pages that a unit touches. -/
def XUnit.pageCount (u : XUnit) : Nat := (u.va + u.len - 1) / 4096 - u.va / 4096 + 1
/-- Virtual address of its page `i`. -/
def XUnit.pageVa (u : XUnit) (i : Nat) : Nat := (u.va / 4096 + i) * 4096

/-- Count the host-resident pages of a unit that is about to make its first access (R351). -/
def State.countUnit (s : State) (u : XUnit) : State :=
  u.pages.zipIdx.foldl (fun s p => if p.1.1 then s else s.countPage u.as (u.pageVa p.2)) s

/-- Translate the pages of unit `k` that are left, until a read is needed, a page faults, or all are done (R337, R341). -/
def State.translate (s : State) (k : Nat) : Nat → State
  | 0 => s
  | fuel + 1 =>
    match s.xl.units.at k with
    | none => s
    | some u =>
      let i := u.pages.length
      if u.pageCount ≤ i then
        { s with xl := { s.xl with units := s.xl.units.put k { u with st := .ready }, walks := s.xl.walks.del k } }
      else
        let va := u.pageVa i
        let found := fun (s : State) (p : Bool × Nat) =>
          State.translate ({ s with xl := { s.xl with units := s.xl.units.put k { u with pages := u.pages ++ [p] } } }) k fuel
        match s.plan.walker with
        | none => found s (false, va)
        | some w =>
          if !s.xl.on u.as then s.pageFault k u va 7 0 0
          else if wpRange w va then s.pageFault k u va 5 0 0
          else
            match s.xl.tlb.find? (fun e => e.serves u.as va u.write) with
            | some e =>
              found { s with xl := s.xl.touch e, io := s.io.addWide .XL_HITS_LO 0 1 } (e.resident, e.addr + (va - e.va))
            | none =>
              let wk0 : Walk := ⟨k, u.as, va, u.write, 0, s.xl.root u.as⟩
              let wk := match s.xl.walks.at k with
                | some x => if x.va = va then x else wk0
                | none => wk0
              match walkOn s.plan s.xl w wk 6 wk.level wk.table with
              | .need span l t =>
                { s with
                  xl := { s.xl with walks := s.xl.walks.put k { wk with level := l, table := t },
                                    units := s.xl.units.put k { u with st := .walking } }
                  io := s.io.send (.hostRead span 128) }
              | .fault c e l => { s with io := s.io.inc .XL_WALKS }.pageFault k u va c e l
              | .found e =>
                found { s with xl := { s.xl.install e with walks := s.xl.walks.del k }, io := s.io.inc .XL_WALKS }
                  (e.resident, e.addr + (va - e.va))

/-- Translations that one unit can need: 17 pages, and the step that finds all done. -/
def transFuel : Nat := 20

/-- Add a translation unit; its id. -/
def State.newUnit (s : State) (u : XUnit) : State :=
  { s with xl := { s.xl with units := s.xl.units.put s.xl.nextUnit u, nextUnit := s.xl.nextUnit + 1 } }

/-- The pieces of a unit, page by page: offset in the unit, length, device-resident, and address (R340). -/
def XUnit.pieces (u : XUnit) : List (Nat × Nat × Bool × Nat) :=
  u.pages.zipIdx.map (fun p =>
    let base := u.pageVa p.2
    let lo := max base u.va
    let hi := min (base + 4096) (u.va + u.len)
    (lo - u.va, hi - lo, p.1.1, p.1.2 + (lo - base)))

/-- The unit at work on a page in a range (R348). -/
def XUnit.touches (u : XUnit) (as : Option Nat) (va pages : Nat) : Bool :=
  (as.isNone || as == some u.as) &&
  (pages == 0 || (decide (u.va / 4096 * 4096 < va + pages * 4096) && decide (va < u.va + u.len)))

/-- Whether an entry overlaps a range. -/
def TlbEntry.overlaps (e : TlbEntry) (as : Option Nat) (va pages : Nat) : Bool :=
  (as.isNone || as == some e.as) &&
  (pages == 0 || (decide (e.va < va + pages * 4096) && decide (va < e.va + 2 ^ (e.shift + e.m))))

/-- Issue an invalidation (R348): entries go, walks in the address space are discarded, units that have translated and
not accessed a page of the range translate again. -/
def Xl.invalidate (x : Xl) (v : Inval) : Xl :=
  let hits := fun (u : XUnit) => (v.as.isNone || v.as == some u.as)
  { x with
    tlb := x.tlb.filter (fun e => !e.overlaps v.as v.va v.pages)
    walks := x.walks.filter (fun e => match e.2 with
      | some w => !(v.as.isNone || v.as == some w.as)
      | none => false)
    units := x.units.map (fun e => (e.1, e.2.map (fun u =>
      if u.st = .walking ∧ hits u = true then { u with st := .waiting, pages := [] }
      else if (u.st = .ready ∨ u.st = .waiting) ∧ u.touches v.as v.va v.pages = true then
        { u with st := .waiting, pages := [] }
      else u)))
    invs := x.invs ++ [v] }

/-- Whether an invalidation's last wait is over: no unit accesses a page of its range (R348). -/
def Xl.invDone (x : Xl) (v : Inval) : Bool :=
  x.units.all (fun e => match e.2 with
    | some u => !(u.st == .accessing && u.touches v.as v.va v.pages)
    | none => true)

end Sys2Proof.Machine
end

