-- ==== Sys2Proof/Machine/Sched.lean ====
section
/-! DEFINITION. Machine/Sched.lean: array pairs and share groups (R388 to R391, R396), and the end of a stream's descriptor
(R377, R378) with the stop of its work in flight (R193, R228). -/

namespace Sys2Proof.Machine

/-! ### Share groups (Tables 16-4 and 16-5) -/

/-- Weight of a group's class 1 or class 2 work; 1 without the section (R388). -/
def Plan.weight (p : Plan) (g c : Nat) : Nat := if p.has 0x23 then u8 (p.sec 0x23) (0x10 + 8 * g + (c - 1)) else 1
/-- LIMIT of a group; 0: none. -/
def Plan.limit (p : Plan) (g : Nat) : Nat := if p.has 0x23 then u8 (p.sec 0x23) (0x12 + 8 * g) else 0
/-- QUANTUM_US in mt. -/
def Plan.quantum (p : Plan) : Nat := u16 (p.sec 0x23) 10 * 1000
/-- Pool slots. -/
def Plan.poolSlots (p : Plan) : Nat := if p.has 0x23 then u16 (p.sec 0x23) 8 else 0
/-- Address of a save-area slot: 0 to 63 are reserved, the pool follows (R389). -/
def Plan.saveSlot (p : Plan) (k : Nat) : Nat := u64 (p.sec 0x23) 0 + k * 2 ^ 20

/-- The queue of a group and class among the 128 (R390). -/
def drrKey (g c : Nat) : Nat := 2 * g + (c - 1)

/-- Pairs that a group's class 1 and 2 work holds. -/
def Sc.groupHeld (x : Sc) (g : Nat) : Nat :=
  (x.pairs.list.filter (fun p => p.2.group == g && p.2.cls != 0)).length

/-- Whether a context may take a free pair: class 0 always; a group below its LIMIT (R391). -/
def State.mayHold (s : State) (x : Stream) : Bool :=
  x.cls == 0 || s.plan.limit x.group == 0 || decide (s.sc.groupHeld x.group < s.plan.limit x.group)

/-- Contexts waiting for an array, in arrival order. -/
def Sc.waiters (x : Sc) (a : Nat) : List Nat := (x.waiting.filter (fun w => w.1 == a)).map (·.2)

/-- The class and group of a context. -/
def Sc.classOf (x : Sc) (ctx : Nat) : Nat × Nat :=
  match x.streams.at ctx with
  | some y => (y.cls, y.group)
  | none => (2, 0)

/-- Deficit of a queue. -/
def Sc.deficitOf (x : Sc) (k : Nat) : Int := SMap.get (fun _ => 0) x.deficit k

/-- Deficits after queue `k`, among the queues `qs` backlogged for a resource, has had `t` units of it (R390; log entry 46):
each is owed its weighted part, and `k` has had `t`. -/
def Plan.drr (p : Plan) (d : SMap Int) (qs : List Nat) (k t : Nat) : SMap Int :=
  let w := fun k => p.weight (k / 2) (k % 2 + 1)
  let sum := (qs.map w).sum
  let owe : Nat → Int := fun k => if sum = 0 then 0 else ((65536 * t * w k / sum : Nat) : Int)
  let d : SMap Int := qs.foldl (fun d k =>
    SMap.set (fun _ => 0) d k (SMap.get (fun _ => 0) d k + owe k)) d
  SMap.set (fun _ => 0) d k (SMap.get (fun _ => 0) d k - ((65536 * t : Nat) : Int))

/-- Share `t` mt of service given to queue `k` of a pair among the queues backlogged for it (R390). -/
def State.serve (s : State) (a k t : Nat) : State :=
  let qs := (k :: (s.sc.waiters a).filterMap (fun c =>
    let y := s.sc.classOf c
    if y.1 = 0 then none else some (drrKey y.2 y.1))).eraseDups
  { s with sc := { s.sc with deficit := s.plan.drr s.sc.deficit qs k t } }

/-- A queue that has emptied forfeits its deficit (R390). -/
def Sc.forfeit (x : Sc) (k : Nat) : Sc :=
  if x.waiting.any (fun w => drrKey (x.classOf w.2).2 (x.classOf w.2).1 == k && (x.classOf w.2).1 != 0) then x
  else { x with deficit := SMap.set (fun _ => 0) x.deficit k 0 }

/-- Charge engine time to a command and to its share group (R396). -/
def State.charge (s : State) (cmd group t : Nat) : State :=
  { s with
    cf := { s.cf with cmds := s.cf.cmds.upd cmd (fun c => { c with engine := c.engine + t }) }
    io := s.io.addWide .SC_GRP_ENGINE_LO group t }

/-- The context that a free pair goes to: class 0 in arrival order, then the context in the reserved slot (R392), then
the waiting queue of largest deficit whose group is below LIMIT, weight 0 last (R390, R391). -/
def State.nextHolder (s : State) (a : Nat) : Option Nat :=
  let ws := s.sc.waiters a
  match ws.find? (fun c => (s.sc.classOf c).1 == 0) with
  | some c => some c
  | none =>
    match s.sc.reserved.at a with
    | some c => some c
    | none =>
      let ok := ws.filter (fun c => match s.sc.streams.at c with | some y => s.mayHold y | none => false)
      let rank := fun c =>
        let y := s.sc.classOf c
        (s.plan.weight y.2 y.1 != 0, s.sc.deficitOf (drrKey y.2 y.1))
      ok.foldl (fun best c =>
        match best with
        | none => some c
        | some b =>
          let rb := rank b
          let rc := rank c
          if (rc.1 && !rb.1) || (rc.1 == rb.1 && decide (rb.2 < rc.2)) then some c else best) none

/-- Give a free pair to a context. -/
def State.takePair (s : State) (a ctx : Nat) : State :=
  let y := s.sc.classOf ctx
  let sc := { s.sc with
    pairs := s.sc.pairs.put a ⟨ctx, y.1, y.2, s.mer.count, none, 0⟩
    waiting := s.sc.waiting.filter (fun w => w != (a, ctx)) }
  { s with sc := if y.1 = 0 then sc else sc.forfeit (drrKey y.2 y.1) }

/-- A free pair goes to the context next in line, if any. -/
def State.grantPair (s : State) (a : Nat) : State :=
  match s.sc.pairs.at a with
  | some _ => s
  | none =>
    match s.nextHolder a with
    | some c => s.takePair a c
    | none => s

/-- A hot reset's clearing of an array's store, once the pair's work has ended (R195). -/
def State.clearDue (s : State) (a : Nat) : State :=
  if s.mx.clearing.contains a then
    { s with ram := s.ram.clearStore a, mx := { s.mx with clearing := s.mx.clearing.filter (· != a) } }
  else s

/-- Deficits for host-link DMA units after a unit of `len` bytes of queue `k` has begun, among the queues `qs` that have one
ready; a queue that has none forfeits its deficit (R390). -/
def State.dmaServe (s : State) (qs : List Nat) (k len : Nat) : State :=
  let d := s.xl.deficit.filter (fun e => qs.contains e.1)
  { s with xl := { s.xl with deficit := s.plan.drr d qs k len } }

/-- Release a pair (R391): its time is charged and the next context takes it. -/
def State.releasePair (s : State) (a : Nat) : State :=
  match s.sc.pairs.at a with
  | none => s
  | some p =>
    let t := s.mer.count - p.since
    let cmd := match s.sc.streams.at p.ctx with | some y => y.cmd | none => s.cf.nextCmd
    let s := s.charge cmd p.group t
    let s := if p.cls = 0 then s else s.serve a (drrKey p.group p.cls) t
    let pool := match p.wanted with | some (_, k) => if k < 64 then s.sc.pool else s.sc.pool.del k | none => s.sc.pool
    ({ s with sc := { s.sc with pairs := s.sc.pairs.del a, pool := pool } }.clearDue a).grantPair a

/-- Pairs that a context holds. -/
def Sc.held (x : Sc) (ctx : Nat) : List Nat := (x.pairs.list.filter (fun p => p.2.ctx == ctx)).map (·.1)

/-- Whether a pair holds live state: a live tile register, or an open selection group (R384). -/
def State.pairLive (s : State) (a : Nat) : Bool := (s.arr a).live != 0 || (s.arr a).sel.isSome

/-- A free pool slot: 64 and up (R389). -/
def State.freePool (s : State) : Option Nat := ((List.range s.plan.poolSlots).map (· + 64)).find? (fun k => (s.sc.pool.at k).isNone)

/-- Ask for the save of a pair into a slot; context `w` waits for it (R392). -/
def State.askSave (s : State) (a w slot : Nat) : State :=
  match s.sc.pairs.at a with
  | none => s
  | some p =>
    let pool := if slot < 64 then s.sc.pool else s.sc.pool.put slot p.ctx
    { s with sc := { s.sc with
        pairs := s.sc.pairs.put a { p with wanted := some (w, slot), asked := s.mer.count }, pool := pool } }

/-- A halted stream's pairs with no unit at work: one with no live state is released at once, one with live state is saved
into a pool slot when one is free (R384). -/
def State.haltPairs (s : State) (ctx : Nat) : State :=
  (s.sc.held ctx).foldl (fun (s : State) (a : Nat) =>
    match s.sc.pairs.at a, s.sc.streams.at ctx with
    | some p, some x =>
      if p.wanted.isSome || x.runs.any (fun r => r.target == a) then s
      else if s.pairLive a then
        match s.freePool with
        | some k => s.askSave a ctx k
        | none => { s with io := s.io.event .SC_EVENT 0 3 }
      else s.releasePair a
    | _, _ => s) s

/-- A context asks for a pair it does not hold: it takes a free one that nothing waits for, or waits (R391). -/
def State.wantPair (s : State) (a ctx : Nat) : State :=
  match s.sc.streams.at ctx with
  | none => s
  | some y =>
    if (s.sc.pairs.at a).isNone && !s.arrTesting a && (s.sc.waiters a).isEmpty && (s.sc.reserved.at a).isNone && s.mayHold y then
      s.takePair a ctx
    else if (s.sc.waiters a).contains ctx then s.grantPair a
    else { s with sc := { s.sc with waiting := s.sc.waiting ++ [(a, ctx)] } }.grantPair a

/-! ### Stopping a context's work in flight -/

/-- No context. -/
def noCtx : Nat := 2 ^ 18

/-- An array without the work of contexts that `p` holds of (R193, R228): what has not drained goes, what has drained is
marked cancelled, and a chain or descriptor at work ends without a unit. -/
def Arr.cancel (r : Arr) (p : Nat → Bool) : Arr :=
  let next := match r.next with | some t => if p t.ctx then none else some t | none => none
  let stop := match r.running with | some t => p t.ctx | none => false
  { r with
    inbox := r.inbox.filter (fun t => !p t.ctx)
    running := if stop then next else r.running
    next := if stop then none else next
    accSet := if stop && next.isSome then !r.accSet else r.accSet
    queue := r.queue.map (fun q => if p q.ctx then { q with cancelled := true, ctx := noCtx } else q)
    chain := r.chain.map (fun q => if p q.ctx then { q with ctx := noCtx } else q)
    edescs := r.edescs.filter (fun d => !p d.ctx)
    eact := r.eact.map (fun d => if p d.1.ctx then ({ d.1 with ctx := noCtx }, d.2) else d) }

/-- Whether cancelling the contexts that `p` holds of keeps a chain with DUPD that waits in an array from running (R240). -/
def State.dupdLost (s : State) (a : Nat) (r : Arr) (p : Nat → Bool) : Bool :=
  r.edescs.any (fun d => p d.ctx && u8 d.desc 0 == 1 && s.dupdChain a (u16 d.desc 2)) ||
  r.queue.any (fun q => p q.ctx && !q.cancelled && s.dupdChain a q.chain)

/-- The same for a context's saved pairs, whose states are discarded (R378). -/
def State.dupdDiscarded (s : State) (ctx : Nat) : Bool :=
  s.mx.arrs.any (fun e => s.dupdLost e.1 e.2 (fun c => c == ctx)) ||
  s.mx.saves.list.any (fun v => v.2.ctx == ctx &&
    (s.dupdLost v.2.arr v.2.state (fun _ => true) ||
      (match v.2.state.chain with | some q => s.dupdChain v.2.arr q.chain | none => false)))

/-- Change every array that anything has touched. -/
def Mx.mapArrs (m : Mx) (f : Arr → Arr) : Mx := m.arrs.foldl (fun m e => m.set e.1 f) m

/-- Cancel the room-calls that `p` holds of: each stops at the next instruction boundary, and what it waited for no longer
holds it (R118). -/
def Rooms.cancel (r : Rooms) (p : Work → Bool) : Rooms :=
  { r with cores := r.cores.map (fun e => (e.1, e.2.map (fun c =>
      if p c.call.work then { c with cancelled := true } else c))) }

/-- Lookups that `p` holds of go; their room-calls are cancelled (R118). -/
def State.dropLookups (s : State) (p : ListOwner → Bool) : State :=
  let gone := (s.wings.lookups.list.filter (fun l => p l.2.owner)).map (·.1)
  { s with
    wings := { s.wings with lookups := gone.foldl Tab.del s.wings.lookups }
    rooms := s.rooms.cancel (fun w => match w with | .lookup l _ => gone.contains l | .update _ _ _ => false) }

/-- Gradient lists that `p` holds of go: contributions already placed stand (R22, R246). -/
def State.dropGrads (s : State) (p : ListOwner → Bool) : State :=
  let gone := (s.upd.lists.list.filter (fun l => p l.2.owner)).map (·.1)
  { s with upd := { s.upd with lists := gone.foldl Tab.del s.upd.lists } }

/-- Translation units that `p` holds of go, with their walks and waits. -/
def Xl.dropUnits (x : Xl) (p : Owner → Bool) : Xl :=
  let gone := (x.units.list.filter (fun u => p u.2.owner)).map (·.1)
  { x with
    units := gone.foldl Tab.del x.units
    walks := gone.foldl Tab.del x.walks
    reqs := x.reqs.map (fun e => (e.1, e.2.map (fun r =>
      { r with waiting := r.waiting.filter (fun k => !gone.contains k) }))) }

/-- Whether a list or unit is a context's. -/
def ListOwner.isCtx (ctx : Nat) : ListOwner → Bool
  | .unit c _ _ => c == ctx
  | _ => false

/-- Whether a translation unit is a context's. -/
def Owner.isCtx (ctx : Nat) : Owner → Bool
  | .stream c _ _ => c == ctx
  | _ => false

/-- Units of a context in flight stop as their engines stop on cancellation, and its saved state is discarded (R378). -/
def State.stopUnits (s : State) (ctx : Nat) : State :=
  let s := (s.dropLookups (ListOwner.isCtx ctx)).dropGrads (ListOwner.isCtx ctx)
  let s := if s.dupdDiscarded ctx then s.denseProblem 10 else s
  let saves := (s.mx.saves.list.filter (fun v => v.2.ctx == ctx)).map (·.1)
  let mx := s.mx.mapArrs (fun r => r.cancel (fun c => c == ctx))
  let fs := (s.mx.fetches.list.filter (fun f => f.2.ctx == ctx)).map (·.1)
  { s with
    mx := { mx with saves := saves.foldl Tab.del mx.saves, fetches := fs.foldl Tab.del mx.fetches }
    xl := s.xl.dropUnits (Owner.isCtx ctx)
    rl := { s.rl with samples := s.rl.samples.map (fun e => (e.1, e.2.map (fun x =>
      if x.tile ∧ x.ctx = ctx then { x with ctx := noCtx } else x))) }
    sc := { s.sc with
      waiting := s.sc.waiting.filter (fun w => w.2 != ctx)
      pool := s.sc.pool.filter (fun e => e.2 != some ctx)
      reserved := s.sc.reserved.filter (fun e => e.2 != some ctx) } }

/-- The descriptor in force ends: pairs go, and the shadow takes effect from iteration 0 and unit 0, or the context
becomes IDLE (R377). -/
def State.nextDesc (s : State) (ctx : Nat) : State :=
  let s := (s.sc.held ctx).foldl State.releasePair s
  match s.sc.streams.at ctx with
  | none => s
  | some x =>
    match x.shadow with
    | some (cmd, d) =>
      let c := s.cf.cmds.at cmd
      let y := { x with
        st := .running, cmd := cmd, desc := d, shadow := none, iter := 0, unit := 0, runs := [], skipped := 0
        cls := (c.map (·.cls)).getD x.cls, group := (c.map (·.share)).getD x.group
        fullIter := 0, fullUnit := 0, moved := [], stop := none, kept := none, gkept := none, fetched := []
        remote := [], saves := [] }
      { s with sc := { s.sc with streams := s.sc.streams.put ctx y } }
    | none => { s with sc := { s.sc with streams := s.sc.streams.del ctx } }

/-- The command of a descriptor is aborted or cancelled: in force it ends, in the shadow slot it goes (R378). -/
def State.dropStream (s : State) (ctx : Nat) (p : Nat → Bool) : State :=
  match s.sc.streams.at ctx with
  | none => s
  | some x =>
    let x' := match x.shadow with
      | some (c, d) => if p c then { x with shadow := none } else { x with shadow := some (c, d) }
      | none => x
    let s := { s with sc := { s.sc with streams := s.sc.streams.put ctx x' } }
    if p x.cmd then (s.stopUnits ctx).nextDesc ctx else s

end Sys2Proof.Machine
end

