-- ==== Sys2Proof/Machine/Front.lean ====
section
/-! DEFINITION. Machine/Front.lean: the command front end's shared operations: entries and their checks (R358 to R360),
dispatch (R361, R362), completions (R369 to R371), cancellation (R372), the guilty and the privileged queue (R373, R374),
launches (R367, R368), buffers (R364, R365), and the accesses of translation units (R340, R341). -/

namespace Sys2Proof.Machine

/-! ### Command entries (Table 15-3) -/

/-- OPCODE. -/
def cOp (e : List Byte) : Nat := u8 e 0
/-- FENCE. -/
def cFence (e : List Byte) : Bool := bit (u8 e 1) 0
/-- IRQ. -/
def cIrq (e : List Byte) : Bool := bit (u8 e 1) 1
/-- CLASS. -/
def cClass (e : List Byte) : Nat := u8 e 2
/-- EXT. -/
def cExt (e : List Byte) : Nat := u8 e 3
/-- TAG. -/
def cTag (e : List Byte) : Nat := u16 e 4
/-- LEN. -/
def cLen (e : List Byte) : Nat := u16 e 6
/-- WATCHDOG_US. -/
def cWatchdog (e : List Byte) : Nat := u32 e 8
/-- COUNT. -/
def cCount (e : List Byte) : Nat := u32 e 0xC
/-- The LEN inline bytes: the extension entries follow the entry's own 96 (R360). -/
def cInline (e : List Byte) : List Byte := slice e 0x20 (cLen e)

/-- Ring-only opcodes (Table 15-4). -/
def ringOnly (op : Nat) : Bool :=
  [0x06, 0x07, 0x08, 0x0B, 0x0C, 0x10, 0x11, 0x13, 0x14, 0x15, 0x16, 0x1B, 0x1C, 0x1D].contains op

/-- Whether an entry's header fails the checks of R358, R359 and R363 for a place and a queue. -/
def cmdBad (q : Option (List Byte)) (o : Origin) (e : List Byte) : Bool :=
  let op := cOp e
  op == 0 || decide (0x1F < op) || decide (4 ≤ u8 e 1) || decide (2 < cClass e) || decide (31 < cExt e) ||
  decide (96 + 128 * cExt e < cLen e) ||
  (match q with | some d => !bit (u8 d 12) (cClass e) | none => false) ||
  (ringOnly op && (match q with | some d => !qAdmin d | none => true)) ||
  (match o with
    | .ring => false
    | .buffer _ _ => op == 7 || op == 8
    | .node _ _ => ringOnly op || cExt e != 0)

/-- The queue record with a number. -/
def Cf.queue (c : Cf) (q : Nat) : Queue := SMap.get (fun _ => Queue.reset) c.queues q

/-- Change a queue record. -/
def Cf.setQueue (c : Cf) (q : Nat) (f : Queue → Queue) : Cf :=
  { c with queues := SMap.set (fun _ => Queue.reset) c.queues q (f (c.queue q)) }

/-- Change a queue record of the state. -/
def State.setQueue (s : State) (q : Nat) (f : Queue → Queue) : State := { s with cf := s.cf.setQueue q f }

/-- Change a command's record. -/
def State.setCmd (s : State) (id : Nat) (f : Cmd → Cmd) : State := { s with cf := { s.cf with cmds := s.cf.cmds.upd id f } }

/-- Commands of a queue's ring in flight, by rising id (R361). -/
def Cf.ringCmds (c : Cf) (q : Nat) : List (Nat × Cmd) :=
  c.cmds.list.filter (fun e => e.2.queue == some q && e.2.origin == .ring)

/-- Bus or virtual address of a submission slot. -/
def Io.sqSlot (io : Io) (q slot : Nat) : Nat := io.val .SQ_BASE_LO q + io.val .SQ_BASE_HI q * 2 ^ 32 + 128 * slot
/-- Bus or virtual address of a completion slot. -/
def Io.cqSlot (io : Io) (q slot : Nat) : Nat := io.val .CQ_BASE_LO q + io.val .CQ_BASE_HI q * 2 ^ 32 + 32 * slot

/-- Set bits of Q_CAUSE; an enabled cause raises the queue's vector (Table 15-5). -/
def State.cause (s : State) (q b : Nat) : State :=
  let io := s.io.setBit .Q_CAUSE q b true
  match s.plan.queue q with
  | some d => { s with io := if (io.reg .Q_CAUSE_EN q).getLsbD b then io.raise (u16 d 4) else io }
  | none => { s with io := io }

/-! ### Device-side addresses -/

/-- Whether `n` bytes at a device address (a DPA, or an address in an array store) exist. -/
def State.devOk (s : State) (a n : Nat) : Bool :=
  if a < 2 ^ 40 then s.plan.dpaOk a n
  else decide ((a - 2 ^ 40) % 2 ^ 23 + n ≤ 2 ^ 23) && s.arrOk ((a - 2 ^ 40) / 2 ^ 23)

/-- Host bytes written to a device address (R322). -/
def State.devWrite (s : State) (a : Nat) (bs : List Byte) : State :=
  if a < 2 ^ 40 then s.sheetWrite .host a bs
  else s.storeWrite .host ((a - 2 ^ 40) / 2 ^ 23) ((a - 2 ^ 40) % 2 ^ 23) bs

/-- The place code of a device address in the error log. -/
def devPlace (a : Nat) : Nat := if a < 2 ^ 40 then dpaRoom a else 2 ^ 31 + (a - 2 ^ 40) / 2 ^ 23

/-- The first offset of `n` bytes from a device address whose block fails a mover's check (R399); none: all pass. -/
def State.devBad (s : State) (a n : Nat) : Option Nat :=
  ((blocksOf a n).find? (fun b => !(s.ram.blk b).moverOk)).map (fun b => b - a)

/-! ### Completions (R369 to R371) -/

/-- A completion's fields fixed at commit (R369). -/
def commitCpl (s : State) (q : Queue) (c : Cpl) : Cpl :=
  { c with head := q.sqHead, duration := min (s.mer.count - c.start) 0xFFFFFFFF }

/-- The 32 bytes of a completion entry (Table 15-8). -/
def Cpl.bytes (c : Cpl) (phase late : Bool) : List Byte :=
  bytesOf c.result 8 ++ bytesOf c.start 8 ++ bytesOf c.duration 4 ++ bytesOf (min (c.engine / 16) 0xFFFFFFFF) 4 ++
  bytesOf c.tag 2 ++ bytesOf c.head 2 ++ bytesOf c.status 1 ++
  bytesOf ((if phase then 1 else 0) + (if late then 2 else 0)) 1 ++ zeros 2

/-- An entry written at the completion tail: the host, or the sheet that its page resides in, takes it, and the vector
follows (R326, R327, R369). -/
def State.putCpl (s : State) (q : Nat) (d : List Byte) (dst : Bool × Nat) (c : Cpl) (late : Bool) : State :=
  let qs := s.cf.queue q
  let bs := c.bytes qs.phase late
  let s := if dst.1 then s.devWrite dst.2 bs else s.hostPost dst.2 bs
  let s := s.setQueue q (fun x => { x with
    cqTail := (x.cqTail + 1) % ringSize d, unread := x.unread + 1
    phase := if x.cqTail + 1 = ringSize d then !x.phase else x.phase })
  if c.irq || c.status != stDone then { s with io := s.io.raise (u16 d 4) } else s

/-- Ring-sourced commands in flight, uncommitted completions and unread entries together: below the ring size while the
queue may fetch (R357). -/
def State.cqLoad (s : State) (q : Nat) : Nat :=
  let x := s.cf.queue q
  (s.cf.ringCmds q).length + x.cpls.length + x.overflow.length + x.unread

/-- Move completions into the overflow area, committed, while it has room (R370); what no command made and finds it full
is dropped (R371). -/
def overflowCpls (s : State) (q : Nat) : Nat → State
  | 0 => s
  | fuel + 1 =>
    let x := s.cf.queue q
    match x.cpls with
    | [] => s
    | c :: rest =>
      if x.overflow.length < 64 then
        overflowCpls (s.setQueue q (fun x => { x with cpls := rest, overflow := x.overflow ++ [commitCpl s x c] })) q fuel
      else if c.own then s
      else
        let s := { s with io := s.io.inc .CF_Q_DROPS }
        let s := if c.tag = c.id ∧ c.irq = true then { s with io := s.io.inc .HC_LB_FLAG_DROPS } else s
        overflowCpls ((s.setQueue q (fun x => { x with cpls := rest })).cause q 5) q fuel

/-- What the completion side does next: the entry to write, and whether from the overflow area; none: nothing can be
written now. -/
def State.nextCpl (s : State) (q : Nat) : Option (Cpl × Bool) :=
  let x := s.cf.queue q
  match s.plan.queue q with
  | none => none
  | some d =>
    if x.cqStall || decide (ringSize d ≤ x.unread) then none
    else match x.overflow with
      | c :: _ => some (c, true)
      | [] =>
        match x.cpls with
        | c :: _ => if !c.own && decide (ringSize d < s.cqLoad q) then none else some (c, false)
        | [] => none

/-- Write the next entry to a translated place. -/
def State.writeNext (s : State) (q : Nat) (dst : Bool × Nat) : State :=
  match s.plan.queue q, s.nextCpl q with
  | some d, some (c, true) =>
    (s.putCpl q d dst c true).setQueue q (fun x => { x with overflow := x.overflow.drop 1 })
  | some d, some (c, false) =>
    (s.putCpl q d dst (commitCpl s (s.cf.queue q) c) false).setQueue q (fun x => { x with cpls := x.cpls.drop 1 })
  | _, _ => s

/-- Whether a translation unit of an owner exists. -/
def Xl.ownerBusy (x : Xl) (o : Owner) : Bool := x.units.list.any (fun u => u.2.owner == o)

/-- Write what can be written of a queue's completions: at once to bus addresses, else one translated entry at a time; the
rest overflows where it must (R354, R369 to R371). -/
def State.pumpCq (s : State) (q : Nat) : Nat → State
  | 0 => s
  | fuel + 1 =>
    match s.plan.queue q with
    | none => s
    | some d =>
      match s.nextCpl q with
      | none =>
        let x := s.cf.queue q
        if x.cqStall then overflowCpls s q x.cpls.length
        else match x.cpls with
          | c :: _ => if c.own then s else overflowCpls s q x.cpls.length
          | [] => s
      | some _ =>
        let va := s.io.cqSlot q (s.cf.queue q).cqTail
        if s.plan.walker.isNone then State.pumpCq (s.writeNext q (false, va)) q fuel
        else if s.xl.ownerBusy (.cq q) then s
        else s.newUnit ⟨.cq q, q, u8 d 3, va, 32, true, 0, 0, .waiting, [], [], false⟩

/-- Completions that one event can write: more than any queue holds. -/
def cqFuel : Nat := 70000

/-- A completion for a queue: discarded and counted while the queue is HOST_LOST (R330), else in completion order. -/
def State.pushCpl (s : State) (q : Nat) (c : Cpl) : State :=
  match (s.cf.queue q).st with
  | .hostLost => { s with io := s.io.inc .HC_LOST_WRITES }
  | .resetting => s
  | _ => (s.setQueue q (fun x => { x with cpls := x.cpls ++ [c] })).pumpCq q cqFuel

/-- A completion that no command of the queue made: a notification, or a launch's at its DONE_QUEUE (R319, R367). Only an
ENABLED or HALTED queue takes it; answers whether it was taken. -/
def State.notify (s : State) (q tag status result : Nat) (flag : Bool) (start engine : Nat) : Bool × State :=
  match s.plan.queue q, (s.cf.queue q).st with
  | some _, .hostLost => (true, { s with io := s.io.inc .HC_LOST_WRITES })
  | some _, .enabled | some _, .halted =>
    (true, s.pushCpl q ⟨result, start, 0, engine, tag, 0, status, flag, false, tag⟩)
  | _, _ => (false, s)

/-! ### Fetching (R356, R357, R365) -/

/-- Operations in flight in the device (R357, R376). -/
def State.inFlight (s : State) : Nat := s.cf.cmds.length + s.sc.streams.length

/-- Whether a queue's fetching is stopped. -/
def Queue.stalled (x : Queue) : Bool := x.cqStall || !x.overflow.isEmpty || x.sqFault || x.disabling

/-- Slots that may be fetched now: up to 8, to the producer index (or the latched one of a guilty queue), to the ring's
end, and within the limits of R357. -/
def State.fetchRun (s : State) (q : Nat) (d : List Byte) : Nat :=
  let x := s.cf.queue q
  let n := ringSize d
  let goal := x.guiltyTo.getD x.prod
  let left := (goal + n - x.fetchNext) % n
  let room := n - (s.cqLoad q + x.fetching)
  min (min 8 left) (min (n - x.fetchNext) (min room (65536 - s.inFlight)))

/-- The unit `k` begins its accesses, or is dropped where it has nothing to wait for; set in `access` below. -/
def State.setUnit (s : State) (k : Nat) (u : XUnit) : State :=
  { s with xl := { s.xl with units := s.xl.units.put k u } }

/-- Remove a unit. -/
def State.dropUnit (s : State) (k : Nat) : State :=
  { s with xl := { s.xl with units := s.xl.units.del k, walks := s.xl.walks.del k } }

/-- Reads of a unit's host pages; its device-resident pages are served by the corridors (R340). -/
def State.askUnit (s : State) (k : Nat) (u : XUnit) : State :=
  let s := u.pieces.foldl (fun s p => if p.2.2.1 then s else s.hostAsk p.2.2.2 p.2.1) s
  s.setUnit k { u with st := .accessing }

/-- Examine a queue: fetch the next run of entries, or go idle (R356). -/
def State.examine (s : State) (q : Nat) : State :=
  match s.plan.queue q with
  | none => s
  | some d =>
    let x := s.cf.queue q
    if x.st ≠ .enabled ∨ x.stalled = true ∨ x.fetching ≠ 0 then s
    else if !x.pending && !x.examining && x.guiltyTo.isNone then s
    else
      let n := s.fetchRun q d
      if x.fetchNext = x.guiltyTo.getD x.prod then
        s.setQueue q (fun x => { x with pending := false, examining := false })
      else if n = 0 then s.setQueue q (fun x => { x with pending := false, examining := true })
      else
        let va := s.io.sqSlot q x.fetchNext
        let s := s.setQueue q (fun x => { x with pending := false, examining := true, fetching := n })
        let u : XUnit := ⟨.sq q, q, u8 d 3, va, 128 * n, false, 0, 0, .waiting, [], [], false⟩
        let k := s.xl.nextUnit
        let s := s.newUnit u
        if s.plan.walker.isNone then
          s.askUnit k { u with pages := (List.range u.pageCount).map (fun i => (false, u.pageVa i)) }
        else s

/-- Read ahead in a buffer: the next run of at most 1 KiB, while less than that stands ready (R365). -/
def State.readBuffer (s : State) (id : Nat) : State :=
  match s.cf.buffers.at id, s.cf.cmds.at id with
  | some b, some c =>
    let total := 128 * b.count
    if total ≤ b.readOff ∨ 1024 ≤ b.bytes.length ∨ s.xl.ownerBusy (.buffer id) = true ∨ b.stopped.isSome = true then s
    else
      let n := min 1024 (total - b.readOff)
      let va := u64 c.entry 0x10 + b.readOff
      let as := match c.queue with | some q => (match s.plan.queue q with | some d => u8 d 3 | none => 0) | none => 0
      let k := s.xl.nextUnit
      let u : XUnit := ⟨.buffer id, c.queue.getD 0, as, va, n, false, 0, b.readOff, .waiting, [], [], false⟩
      let s := s.newUnit u
      if s.plan.walker.isNone then
        s.askUnit k { u with pages := (List.range u.pageCount).map (fun i => (false, u.pageVa i)) }
      else s
  | _, _ => s

/-! ### Dispatch (R361, R362) -/

/-- Watchdog period of a command, in mt; none: no watchdog. -/
def watchdogOf (q : Option (List Byte)) (e : List Byte) : Option Nat :=
  let us := if cWatchdog e ≠ 0 then cWatchdog e else (match q with | some d => u32 d 8 | none => 0)
  if us = 0 then none else some (1000 * us)

/-- Length of the buffer of a LAUNCH's parameters: PARAM_BYTES of a resident itinerary's image. -/
def State.paramOf (s : State) (i : Itin) : Nat := u16 (s.ram.read i.addr 16) 8

/-- Whether the operands of an entry fail the checks of Table 15-4 that its bytes, the plan in force and the resident
itineraries decide: such a command is not dispatched (R358), so it takes no admission (R69). The command's own meaning makes
these checks, and those that need the data it names, again. -/
def State.operandsBad (s : State) (queue : Option Nat) (e : List Byte) : Bool :=
  let n := cCount e
  let a := u64 e 0x18
  match cOp e with
  | 0x02 | 0x03 => n == 0 || !s.plan.dpaOk a n || queue.isNone
  | 0x04 => !s.plan.dpaOk (u64 e 0x10) (cLen e)
  | 0x05 =>
    (match s.cf.itins.at (u16 e 0x10) with
      | some i => u16 e 0x12 % 8 != 0 || decide (s.paramOf i < u16 e 0x12 + cLen e)
      | none => true)
  | 0x06 => decide (1024 ≤ u16 e 0x10) || (a != 0 && !s.plan.dpaOk a 64)
  | 0x07 => decide (n = 0 ∨ 65536 < n)
  | 0x08 => (match s.plan.queue (u16 e 0x10) with | some d => decide (ringSize d ≤ u16 e 0x12) | none => true)
  | 0x09 | 0x0A => !s.plan.dpaOk (u64 e 0x10) 32 || u64 e 0x10 % 8 != 0
  | 0x0B =>
    let off := u32 e 0x14
    !s.plan.inService (u8 e 0x10) || decide (u8 e 0x12 = 0 ∨ s.plan.channels (u8 e 0x10) < u8 e 0x11 + u8 e 0x12 ∨
      off % 16 ≠ 0 ∨ n % 16 ≠ 0 ∨ 65536 < off + n) || (if a = 0 then decide (cLen e < n) else !s.plan.dpaOk a n)
  | 0x0C => n != 128 || (s.plan.fab (u8 e 0x10)).isNone || (if a = 0 then decide (cLen e < 128) else !s.plan.dpaOk a 128)
  | 0x0D => (match s.plan.table (u16 e 0x10) with | some t => decide (1 < u8 e 0x12 ∨ tRows t ≤ u32 e 0x14) | none => true)
  | 0x0E => (s.plan.batch (u8 e 0x10)).isNone || u32 e 0x14 == 0
  | 0x0F => (s.plan.batch (u8 e 0x10)).isNone
  | 0x10 => decide (cLen e < 64)
  | 0x11 | 0x12 => (s.plan.table (u16 e 0x10)).isNone || (s.plan.wing (u16 e 0x12)).isNone
  | 0x13 => decide (2 < u8 e 0x12 ∨ 3 < u8 e 0x13 ∨ 16384 ≤ u16 e 0x10) || !s.plan.has 0x50
  | 0x14 => (s.fab.conns.at (u16 e 0x10)).isNone
  | 0x15 => decide (4096 ≤ u16 e 0x10) || !s.plan.has 0x50 || (n != 0 && decide (2 < u8 e 0x12 ∨ u32 e 0x14 % 65536 ≠ 0))
  | 0x16 => decide (4096 ≤ u16 e 0x10 ∨ n = 1 ∨ 256 < n ∨ cLen e < 2 * n)
  | 0x17 => decide (u8 e 0x12 = 0 ∨ 5 < u8 e 0x12 ∨ 1 < u8 e 0x13 % 16 ∨ 1 < u8 e 0x13 / 16 ∨ 3 < u8 e 0x2B)
  | 0x18 => decide (65536 < n ∨ 63 < u8 e 0x12) || (n != 0 && !s.plan.dpaOk a n) || (s.fab.conns.at (u16 e 0x10)).isNone
  | 0x1A => decide (65536 < n ∨ 63 < u8 e 0x12) || (n != 0 && !s.plan.dpaOk a n) || (s.fab.trees.at (u16 e 0x10)).isNone
  | 0x19 => cClass e == 0 || decide (65536 < n ∨ 63 < u8 e 0x12 ∨ 3 < u8 e 0x13) || (n != 0 && !s.plan.dpaOk a n)
  | 0x1B => decide (1 < u8 e 0x11) || a % 4096 != 0
  | 0x1C | 0x1D => a % 4096 != 0 || n % 4096 != 0 || n == 0 || !s.plan.dpaOk a n
  | 0x1E => decide (2 ^ 18 ≤ u32 e 0x18) || !s.plan.dpaOk (u64 e 0x10) 64
  | 0x1F => decide (1 < u8 e 0x11)
  | _ => false

/-- Dispatch a command (R361): START, watchdog, and the admission of class 0 (R69). One that fails its checks takes no
admission. -/
def State.dispatchCmd (s : State) (id : Nat) (c : Cmd) : State :=
  let d := c.queue.bind s.plan.queue
  let c := { c with start := s.mer.count, expiry := (watchdogOf d c.entry).map (fun w => s.mer.count + w) }
  if c.cls = 0 ∧ cmdBad d c.origin c.entry = false ∧ s.operandsBad c.queue c.entry = false then
    match s.admitClass0 (2 * id) with
    | (true, s) => s.setCmd id (fun _ => { c with phase := .ready })
    | (false, s) => s.setCmd id (fun _ => { c with phase := .held })
  else s.setCmd id (fun _ => { c with phase := .ready })

/-- Whether a command with FENCE at the ring place of command `id` still waits: an earlier command of its queue is in
flight (R361). -/
def Cf.fenced (c : Cf) (q id : Nat) : Bool := (c.ringCmds q).any (fun e => decide (e.1 < id))

/-- Dispatch a queue's fetched commands in ring order, until one waits for its fence (R361). -/
def dispatchList (s : State) (q : Nat) : List (Nat × Cmd) → State
  | [] => s
  | (id, c) :: rest =>
    if c.phase ≠ .fetched then dispatchList s q rest
    else if cFence c.entry && s.cf.fenced q id then s
    else dispatchList (s.dispatchCmd id c) q rest

/-- Dispatch what a queue may dispatch. -/
def State.dispatchQueue (s : State) (q : Nat) : State := dispatchList s q (s.cf.ringCmds q)

/-- A queue whose DISABLE or guilty reading is over reads DISABLED (R355, R373). -/
def State.settleQueue (s : State) (q : Nat) : State :=
  let x := s.cf.queue q
  let idle := (s.cf.ringCmds q).isEmpty
  match x.guiltyTo with
  | some g =>
    if x.fetchNext = g ∧ x.fetching = 0 then
      (s.setQueue q (fun x => { x with
        st := .disabled, guiltyTo := none, sqHead := g, pending := false, examining := false, disabling := false
        partialBytes := [] })).cause q 2
    else s
  | none =>
    if x.disabling && idle && x.st == .enabled then
      s.setQueue q (fun x => { x with st := .disabled, disabling := false, examining := false })
    else s

/-! ### Where a command stands among others -/

/-- The command that a command or launch serves directly. -/
def Cf.parent (c : Cf) (o : Origin) : Option Nat :=
  match o with
  | .ring => none
  | .buffer p _ => some p
  | .node l _ =>
    match c.launches.at l with
    | some x => (match x.source with | .cmd id => some id | _ => none)
    | none => none

/-- Whether command `id` is `anc` or serves it, directly or through others. -/
def Cf.serves (c : Cf) (anc id : Nat) : Nat → Bool
  | 0 => id == anc
  | fuel + 1 =>
    id == anc || (match c.cmds.at id with
      | some x => (match c.parent x.origin with | some p => c.serves anc p fuel | none => false)
      | none => false)

/-- The launch that a command runs in, outermost. -/
def Cf.rootLaunch (c : Cf) (id : Nat) : Nat → Option Nat
  | 0 => none
  | fuel + 1 =>
    match c.cmds.at id with
    | some x =>
      match x.origin with
      | .node l _ =>
        match c.launches.at l with
        | some y => (match y.source with | .cmd p => (c.rootLaunch p fuel).orElse (fun _ => some l) | _ => some l)
        | none => none
      | .buffer p _ => c.rootLaunch p fuel
      | .ring => none
    | none => none

/-- Nesting is at most a buffer, and ENQ_DEPTH launches with their commands. -/
def nestFuel : Nat := 40

/-- Arrays and stacks that a command and those that serve it have touched (R374). -/
def Cf.touched (c : Cf) (id : Nat) : Nat × Nat :=
  (c.cmds.list.filter (fun e => c.serves id e.1 nestFuel)).foldl (fun m e =>
    (m.1 ||| e.2.arrMask, m.2 ||| e.2.stkMask)) (0, 0)

/-! ### Cancellation (R372, R378) -/

/-- Every command that `p` holds of stops as its engines stop on cancellation, with all that serves it; the records go. -/
def State.cancelWork (s : State) (p : Nat → Bool) : State :=
  let s := s.sc.streams.list.foldl (fun s x => s.dropStream x.1 p) s
  let own : ListOwner → Bool := fun o => match o with | .cmd id => p id | _ => false
  let s := (s.dropLookups own).dropGrads own
  let isSrc : Launch → Bool := fun l => match l.source with | .cmd id => p id | _ => false
  let gone := (s.cf.cmds.list.filter (fun e => p e.1)).map (·.1)
  { s with
    cf := { s.cf with
      queues := s.cf.queues.map (fun e => (e.1, { e.2 with aborts := e.2.aborts.filter (fun a => !p a.2) }))
      cmds := gone.foldl Tab.del s.cf.cmds
      buffers := gone.foldl Tab.del s.cf.buffers
      launches := ((s.cf.launches.list.filter (fun l => isSrc l.2)).map (·.1)).foldl Tab.del s.cf.launches
      itins := s.cf.itins.map (fun e => (e.1, e.2.map (fun i =>
        { i with loading := i.loading.bind (fun c => if p c then none else some c) }))) }
    xl := { s.xl.dropUnits (fun o => match o with | .cmd id => p id | .buffer id => p id | _ => false) with
      invs := s.xl.invs.map (fun v => { v with cmd := v.cmd.bind (fun c => if p c then none else some c) }) }
    wings := { s.wings with batches := s.wings.batches.map (fun e =>
      (e.1, { e.2 with reqs := e.2.reqs.filter (fun r => !p r.cmd) })) }
    upd := { s.upd with shards := s.upd.shards.map (fun e =>
      (e.1, { e.2 with load := match e.2.load with | some l => if p l.1 then none else some l | none => none })) }
    mx := s.mx.mapArrs (fun r => { r with loads := r.loads.filter (fun l => !p l.cmd) })
    fab := { s.fab with
      conns := s.fab.conns.map (fun e => (e.1, e.2.map (fun c => { c with
        cmd := c.cmd.bind (fun i => if p i then none else some i)
        outs := c.outs.map (fun o => { o with cmd := o.cmd.bind (fun i => if p i then none else some i) }) })))
      trees := s.fab.trees.map (fun e => (e.1, e.2.map (fun t =>
        { t with cmd := t.cmd.bind (fun i => if p i then none else some i) })))
      colls := s.fab.colls.map (fun c => { c with cmd := c.cmd.bind (fun i => if p i then none else some i) }) }
    tr := { s.tr with marks := s.tr.marks.filter (fun m =>
      !(!m.fabric && (match m.cmd with | some c => p c | none => false))) }
    mer := { s.mer with held := s.mer.held.filter (fun k => !(k % 2 == 0 && p (k / 2))) } }

/-- Cancel a command and what serves it, its own record kept. -/
def State.cancelCmd (s : State) (id : Nat) : State :=
  let p := fun i => s.cf.serves id i nestFuel
  match s.cf.cmds.at id with
  | some c =>
    let s := s.cancelWork p
    { s with cf := { s.cf with cmds := s.cf.cmds.put id c } }
  | none => s

/-! ### Guilty and privileged queues (R373, R374) -/

/-- Whether a status makes a queue guilty (R373). -/
def guiltyStatus (d : List Byte) (st : Nat) : Bool :=
  st == stXlate || st == stWatchdog || (st == stCheck && !qTolerate d)

/-- The completion of a queue's own command. -/
def ownCpl (c : Cmd) (id st res : Nat) : Cpl :=
  ⟨res, c.start, 0, c.engine, cTag c.entry, 0, st, cIrq c.entry, true, id⟩

/-- A queue becomes guilty: its other commands complete CANCELLED, and what remains up to the producer index is read for
its TAGs only (R373). -/
def State.makeGuilty (s : State) (q : Nat) : State :=
  let cs := s.cf.ringCmds q
  let s := cs.foldl (fun s e => s.cancelCmd e.1) s
  let s := { s with
    cf := { s.cf with cmds := cs.foldl (fun (t : Tab Cmd) (e : Nat × Cmd) => t.del e.1) s.cf.cmds }
    io := (s.io.inc .CF_GUILTY).event .CF_EVENT 0 0 }
  let s := cs.foldl (fun s e => s.pushCpl q (ownCpl e.2 e.1 stCancelled 0)) s
  let s := s.setQueue q (fun x => { x with guiltyTo := some x.prod })
  (s.settleQueue q).examine q

/-- A capture (R374): the slot, what it holds, and the local mark to the engines touched. -/
def State.captureCmd (s : State) (q id k : Nat) (c : Cmd) (st : Nat) : State :=
  let m := s.cf.touched id
  let cap : Capture := ⟨q, c.slot, s.io.sqSlot q c.slot, st, s.mer.count, m.1, m.2, c.entry.take 128⟩
  let s := { s with
    cf := { s.cf with captures := s.cf.captures.put k cap }
    io := s.io.event .CF_EVENT 0 1
    tr := { s.tr with marks := s.tr.marks ++ [Mark.mk 0 s.mer.count 6 false none (some k) (u16 (s.plan.sec 0x50) 0) true] } }
  (s.setQueue q (fun x => { x with st := .halted, examining := false })).cause q 3

/-- Free capture slot, if any. -/
def Cf.freeCapture (c : Cf) : Option Nat := (List.range 16).find? (fun k => (c.captures.at k).isNone)

/-- A command of a queue's ring ends with a status: its completion entry, and what R373 or R374 makes of a fault. -/
def State.finishRing (s : State) (q id : Nat) (c : Cmd) (st res : Nat) : State :=
  let s0 := { s with
    cf := { s.cf with cmds := s.cf.cmds.del id }
    io := s.io.addWide .CF_COMMANDS_LO 0 1 }
  let s1 : State :=
    match s.plan.queue q with
    | none => s0
    | some d =>
      if (s.cf.queue q).st = QState.hostLost then s0.pushCpl q (ownCpl c id st res)
      else if guiltyStatus d st && (s.cf.queue q).guiltyTo.isNone then
        match qPrivileged d, s.cf.freeCapture with
        | true, some k => (s0.captureCmd q id k c st).pushCpl q (ownCpl c id stCaptured (st + 256 * k))
        | _, _ => (s0.pushCpl q (ownCpl c id st res)).makeGuilty q
      else s0.pushCpl q (ownCpl c id st res)
  ((s1.settleQueue q).dispatchQueue q).examine q

/-! ### Launches (R367, R368) -/

/-- PARAM_BYTES of an image. -/
def imParam (b : List Byte) : Nat := u16 b 8
/-- NODES. -/
def imNodes (b : List Byte) : Nat := u16 b 6
/-- DONE_QUEUE. -/
def imDone (b : List Byte) : Nat := u16 b 0xA
/-- WATCHDOG_US of an image. -/
def imWatchdog (b : List Byte) : Nat := u32 b 0xC

/-- Header of a resident itinerary's image. -/
def State.image (s : State) (i : Itin) : List Byte := s.ram.read i.addr 64
/-- Address of node `n` of an image. -/
def nodeAt (i : Itin) (b : List Byte) (n : Nat) : Nat := i.addr + 0x40 + imParam b + 144 * n

/-- LAUNCH_AREA of the plan in force. -/
def Plan.launchArea (p : Plan) : Nat := u64 (p.sec 0x60) 8
/-- ENQ_DEPTH. -/
def Plan.enqDepth (p : Plan) : Nat := u8 (p.sec 0x60) 4

/-- A free launch slot. -/
def Cf.freeSlot (c : Cf) : Option Nat :=
  let used := c.launches.list.filterMap (fun l => l.2.slot)
  (List.range 4096).find? (fun k => !used.contains k)

/-- Launch slots in use. -/
def Cf.slotsUsed (c : Cf) : Nat := (c.launches.list.filter (fun l => l.2.slot.isSome)).length

/-- Whether a launch of level 1 waits for a slot: at most 512 are free (R368). -/
def Cf.launchFull (c : Cf) : Bool := decide (4096 - c.slotsUsed ≤ 512)

/-- Launches of an itinerary that run. -/
def Cf.runningOf (c : Cf) (itin : Nat) : Nat :=
  (c.launches.list.filter (fun l => l.2.itin == itin && l.2.slot.isSome)).length

/-- The current buffer of every dense layer that has an entry (R17): twice the layer and the buffer's number. -/
def State.bufferSet (s : State) : List Nat :=
  s.upd.params.filterMap (fun e =>
    if 8192 ≤ e.1 then e.2.now.map (fun _ => 2 * (e.1 - 8192) + (SMap.get (fun _ => Layer.reset) s.upd.layers (e.1 - 8192)).current) else none)

/-- The batches whose step is a launch of an itinerary (Table 7-4). -/
def Plan.batchesOf (p : Plan) (itin : Nat) : List Nat := (p.batchList.filter (fun b => u16 b 4 == itin)).map (fun b => u8 b 0)

/-- A batch's record. -/
def State.batch (s : State) (b : Nat) : Batch := SMap.get (fun _ => Batch.reset) s.wings.batches b

/-- Change a batch's record. -/
def State.setBatch (s : State) (b : Nat) (f : Batch → Batch) : State :=
  { s with wings := { s.wings with batches := SMap.set (fun _ => Batch.reset) s.wings.batches b (f (s.batch b)) } }

/-- Whether a launch of an itinerary is a batch step that waits for the boundary after the step before it (R168). -/
def State.batchHeld (s : State) (itin : Nat) : Bool := (s.plan.batchesOf itin).any (fun b => (s.batch b).running.isSome)

/-- A launch takes a slot: PARAM is copied and patched, and its nodes wait for their predecessors (R367). -/
def State.startLaunch (s : State) (l k : Nat) : State :=
  match s.cf.launches.at l with
  | none => s
  | some x =>
    match s.cf.itins.at x.itin with
    | none => s
    | some i =>
      let b := s.image i
      let area := s.plan.launchArea + 4096 * k
      let ok := s.ram.consumerOk i.addr (64 + imParam b)
      let param := s.ram.read (i.addr + 0x40) (imParam b)
      let off := x.patch.1
      let patched := param.take off ++ (x.patch.2.take (imParam b - off)) ++ param.drop (off + x.patch.2.length)
      let s := s.sheetWrite .device area patched
      let wd := match x.source with
        | .cmd _ => none
        | _ => if imWatchdog b = 0 then none else some (s.mer.count + 1000 * imWatchdog b)
      let waits := (List.range (imNodes b)).map (fun n => u16 (s.ram.read (nodeAt i b n) 16) 0)
      let s := (s.plan.batchesOf x.itin).foldl (fun (s : State) b => s.setBatch b (fun (y : Batch) => { y with running := some l })) s
      { s with cf := { s.cf with launches := s.cf.launches.put l { x with
          slot := some k, waits := waits, left := imNodes b, start := s.mer.count, expiry := wd
          status := if ok then stDone else stCheck, buffers := s.bufferSet } } }

/-- Marks a node as dispatched among the launch's waits. -/
def nodeGone : Nat := 65536

/-- Whether a launch has nothing more to do. -/
def Launch.isOver (x : Launch) : Bool := x.running == 0 && (x.left == 0 || x.status != stDone)

/-- A launch that no command made ends: its completion at DONE_QUEUE, or a failure counted (R367). -/
def State.orphanDone (s : State) (x : Launch) : State :=
  let done := match s.cf.itins.at x.itin with | some i => imDone (s.image i) | none => 0xFFFF
  match x.source with
  | .flag _ _ _ =>
    match s.notify done x.itin x.status x.result false x.start x.engine with
    | (true, s) => s
    | (false, s) =>
      if x.status = stDone ∨ done ≠ 0xFFFF then s
      else { s with io := (s.io.inc .CF_ORPHAN_FAULTS).event .CF_EVENT 0 3 }
  | .update _ =>
    if x.status = stDone then s else { s with upd := { s.upd with denseFault := true } }
  | .cmd _ => s

/-- A launch ends: its slot is free again, and the command that made it completes next. -/
def State.endLaunch (s : State) (l : Nat) (x : Launch) : State × Option (Nat × Nat × Nat) :=
  let s1 := { s with cf := { s.cf with launches := s.cf.launches.del l } }
  match x.source with
  | .cmd id => (s1, some (id, x.status, x.result))
  | _ => (s1.orphanDone x, none)

/-- A node completes (R367): its successors wait for one less, or the launch stops. -/
def State.nodeDone (s : State) (l n : Nat) (st res : Nat) : State × Option (Nat × Nat × Nat) :=
  match s.cf.launches.at l with
  | none => (s, none)
  | some x =>
    match s.cf.itins.at x.itin with
    | none => (s, none)
    | some i =>
      let h := s.ram.read (nodeAt i (s.image i) n) 16
      let go := st == stDone || bit (u8 h 3) 1
      let succ := (List.range (u8 h 2)).map (fun k => u16 h (4 + 2 * k))
      let waits := if go then x.waits.zipIdx.map (fun w => w.1 - (succ.filter (fun t => t == w.2)).length) else x.waits
      let x : Launch := { x with
        running := x.running - 1, left := x.left - 1, waits := waits
        status := if go || x.status != stDone then x.status else st
        result := if bit (u8 h 3) 0 then res else x.result }
      let s := { s with cf := { s.cf with launches := s.cf.launches.put l x } }
      if x.isOver then s.endLaunch l x else (s, none)

/-! ### Buffers (R364) -/

/-- Dispatch the entries of a buffer that have been read, in order (R361, R364). -/
def bufferDispatch (s : State) (id : Nat) : Nat → State
  | 0 => s
  | fuel + 1 =>
    match s.cf.buffers.at id, s.cf.cmds.at id with
    | some b, some p =>
      let e := b.bytes.take 128
      let n := 1 + min (cExt e) 31
      if b.stopped.isSome ∨ b.count ≤ b.next ∨ b.bytes.length < 128 then s
      else if b.next + n ≤ b.count ∧ b.bytes.length < 128 * n then s
      else
        let past := decide (b.count < b.next + n)
        let child := s.cf.nextCmd
        if cFence e && (b.running != 0 || s.cf.fenced (p.queue.getD 0) id) then s
        else
          let entry := if past then [] else b.bytes.take (128 * n)
          let c : Cmd := { p with
            entry := entry, origin := .buffer id b.next, phase := .fetched, cls := cClass e % 4, engine := 0
            arrMask := 0, stkMask := 0, parts := 0, fail := none, landed := [], stop := none }
          let b := { b with
            bytes := if past then [] else b.bytes.drop (128 * n)
            next := if past then b.count else b.next + n, running := b.running + 1 }
          let s := { s with cf := { s.cf with
            cmds := s.cf.cmds.put child c, nextCmd := child + 1, buffers := s.cf.buffers.put id b } }
          bufferDispatch (s.dispatchCmd child c) id fuel
    | _, _ => s

/-- Run a buffer on: dispatch, read ahead, and its end (R364). -/
def State.pumpBuffer (s : State) (id : Nat) : State × Option (Nat × Nat × Nat) :=
  let s := (bufferDispatch s id 64).readBuffer id
  match s.cf.buffers.at id with
  | none => (s, none)
  | some b =>
    if b.running ≠ 0 then (s, none)
    else match b.stopped with
      | some (i, st) => (s, some (id, st, i))
      | none => if b.next = b.count then (s, some (id, stDone, b.count)) else (s, none)

/-- Run on a queue's buffers whose next entry may have waited for its fence (R361, R364). -/
def State.pumpBuffers (s : State) (q : Nat) : State :=
  ((s.cf.ringCmds q).filter (fun e => e.2.phase == .running && cOp e.2.entry == 7)).foldl (fun s e =>
    (s.pumpBuffer e.1).1) s

/-- An entry of a buffer completes (R364). -/
def State.entryDone (s : State) (id idx st : Nat) : State × Option (Nat × Nat × Nat) :=
  let cf := { s.cf with buffers := s.cf.buffers.upd id (fun b => { b with
    running := b.running - 1
    stopped := if st = stDone then b.stopped
      else match b.stopped with | some (i, t) => (if idx < i then some (idx, st) else some (i, t)) | none => some (idx, st) }) }
  { s with cf := cf }.pumpBuffer id

/-! ### The end of a command -/

/-- One command ends: what it reports to, and the command that ends with it, if any. Its engine time and the engines it
touched pass to the command it serves (R374, R396). -/
def State.finishOne (s : State) (id st res : Nat) : State × Option (Nat × Nat × Nat) :=
  match s.cf.cmds.at id with
  | none => (s, none)
  | some c =>
    let s := { s with
      xl := s.xl.dropUnits (fun o => o == .cmd id || o == .buffer id)
      cf := { s.cf with buffers := s.cf.buffers.del id } }
    let pass := fun (s : State) =>
      match s.cf.parent c.origin with
      | some p =>
        { s with cf := { s.cf with cmds := (s.cf.cmds.del id).upd p (fun x => { x with
          engine := x.engine + c.engine, arrMask := x.arrMask ||| c.arrMask, stkMask := x.stkMask ||| c.stkMask }) } }
      | none =>
        { s with cf := { s.cf with
          cmds := s.cf.cmds.del id
          launches := match c.origin with
            | .node l _ => s.cf.launches.upd l (fun x => { x with engine := x.engine + c.engine })
            | _ => s.cf.launches } }
    match c.origin with
    | .ring => (match c.queue with | some q => (s.finishRing q id c st res).pumpBuffers q | none => pass s, none)
    | .buffer p i => (pass s).entryDone p i st
    | .node l n => (pass s).nodeDone l n st res

/-- End a command, and in turn those that end with it. -/
def State.finishFuel (s : State) (id st res : Nat) : Nat → State
  | 0 => s
  | fuel + 1 =>
    match s.finishOne id st res with
    | (s, some (p, st, res)) => s.finishFuel p st res fuel
    | (s, none) => s

/-- End a command with a status and an inline result. -/
def State.finish (s : State) (id st res : Nat) : State := s.finishFuel id st res nestFuel

/-- The inline result of a command that is stopped: bytes landed (R324), the next entry of a buffer (R364), the position
of a stream (R378). -/
def State.stopResult (s : State) (id : Nat) : Nat :=
  match s.cf.cmds.at id with
  | none => 0
  | some c =>
    if cOp c.entry = 2 ∨ cOp c.entry = 3 then runPrefix c.landed
    else if cOp c.entry = 7 then (match s.cf.buffers.at id with | some b => b.next | none => 0)
    else if cOp c.entry = 0x1E then
      (match s.sc.streams.list.find? (fun x => x.2.cmd == id) with
        | some (_, x) => x.unit + x.iter * 2 ^ 32
        | none => 0)
    else 0

/-- Stop a command as on cancellation and end it (R362, R372). -/
def State.stopCmd (s : State) (id st : Nat) : State := (s.cancelCmd id).finish id st (s.stopResult id)

/-- A launch that no command made is stopped with a status (R362). -/
def State.stopLaunch (s : State) (l st : Nat) : State :=
  match s.cf.launches.at l with
  | none => s
  | some x =>
    let s := s.cancelWork (fun i => s.cf.rootLaunch i nestFuel == some l)
    (s.endLaunch l { x with status := if x.status = stDone then st else x.status }).1

/-- Note that a command has touched an array or a stack (R374). -/
def State.touch (s : State) (id arr stk : Nat) : State :=
  s.setCmd id (fun c => { c with arrMask := c.arrMask ||| arr, stkMask := c.stkMask ||| stk })

/-! ### Commands that are ready -/

/-- The command `id`, where it is ready, carries `op` and passes the header checks. -/
def State.readyCmd (s : State) (id op : Nat) : Option Cmd :=
  match s.cf.cmds.at id with
  | some c =>
    if c.phase = .ready ∧ cOp c.entry = op ∧ cmdBad (c.queue.bind s.plan.queue) c.origin c.entry = false then some c
    else none
  | none => none

/-- Mark a command as running with a number of parts. -/
def State.runCmd (s : State) (id parts : Nat) : State := s.setCmd id (fun c => { c with phase := .running, parts := parts })

/-- One part of a command has ended; the first failure is kept, and the last part ends the command. -/
def State.partDone (s : State) (id st res : Nat) : State :=
  match s.cf.cmds.at id with
  | none => s
  | some c =>
    let fail := match c.fail with | some f => some f | none => if st = stDone then none else some (st, res)
    if c.parts ≤ 1 then
      match fail with
      | some f => s.finish id f.1 f.2
      | none => s.finish id stDone res
    else s.setCmd id (fun c => { c with parts := c.parts - 1, fail := fail })

/-! ### Host transfers (R323, R324, R341) -/

/-- Length of the segment at an offset of a transfer: to the next 64 KiB boundary of its host address (R341). -/
def segLen (va left : Nat) : Nat := min left (65536 - va % 65536)

/-- The next segment of a DMA command becomes a translation unit; `parts` counts the bytes issued. -/
def State.nextSegment (s : State) (id : Nat) : State :=
  match s.cf.cmds.at id with
  | none => s
  | some c =>
    let total := cCount c.entry
    if total ≤ c.parts ∨ c.fail.isSome then s
    else
      let write := cOp c.entry == 3
      let va := u64 c.entry 0x10 + c.parts
      let n := segLen va (total - c.parts)
      let q := c.queue.getD 0xFFFF
      let as := match s.plan.queue q with | some d => u8 d 3 | none => 0
      let u : XUnit := ⟨.cmd id, q, as, va, n, write, u64 c.entry 0x18 + c.parts, c.parts, .waiting, [], [], false⟩
      let u := if cOp c.entry = 0x1C then { u with pages := (List.range u.pageCount).map (fun i => (false, u.pageVa i)) }
        else u
      (s.newUnit u).setCmd id (fun c => { c with parts := c.parts + n })

/-- A command that has failed issues no further read: its units that have not begun their accesses go (R324). -/
def State.haltDma (s : State) (id : Nat) : State :=
  match s.cf.cmds.at id with
  | none => s
  | some c =>
    if c.fail.isNone then s
    else
      let ks := (s.xl.units.list.filter (fun u => u.2.owner == .cmd id && u.2.st != .accessing)).map (·.1)
      ks.foldl (fun s k => { s with xl := { s.xl with units := s.xl.units.del k, walks := s.xl.walks.del k } }) s

/-- A DMA command ends once every byte issued has come back and nothing more is to be issued (R324). -/
def State.settleDma (s : State) (id : Nat) : State :=
  let s := s.haltDma id
  match s.cf.cmds.at id with
  | none => s
  | some c =>
    if s.xl.ownerBusy (.cmd id) then s
    else match c.fail with
      | some (st, _) => s.finish id st (if cOp c.entry = 0x1C then 0 else runPrefix c.landed)
      | none =>
        if cCount c.entry ≤ c.parts then s.finish id stDone (if cOp c.entry = 0x1C then 0 else cCount c.entry)
        else s.nextSegment id

/-- Host DMA bytes are counted for the share group (R396). -/
def State.dmaBytes (s : State) (group n : Nat) : State := { s with io := s.io.addWide .SC_GRP_DMA_LO group n }

/-- Copy `n` bytes from a device address to another, until a block fails its check (R340, R399): bytes copied, and whether
all were. -/
def State.devCopy (s : State) (src dst n : Nat) : State × Nat × Bool :=
  match s.devBad src n with
  | none => (s.devWrite dst (s.ram.read src n), n, !s.ram.goneIn dst n)
  | some o => ((s.devWrite dst (s.ram.read src o)).logCheck (src + o) (devPlace src), o, false)

/-- Send `n` bytes of a device address to the host, until a block fails its check (R399): bytes sent, and whether all
were. -/
def State.devSend (s : State) (src bus n : Nat) : State × Nat × Bool :=
  match s.devBad src n with
  | none => (s.hostPost bus (s.ram.read src n), n, true)
  | some o => (((if o = 0 then s else s.hostPost bus (s.ram.read src o))).logCheck (src + o) (devPlace src), o, false)

/-- What a piece of a unit has done: bytes, and the status that stops it. -/
def pieceOut (s : State) (u : XUnit) (p : Nat × Nat × Bool × Nat) : State × Nat × Nat :=
  let dev := u.dev + p.1
  if p.2.2.1 then
    match s.devCopy dev p.2.2.2 p.2.1 with
    | (s, n, ok) => (s, n, if ok then stDone else stCheck)
  else if !s.linkUp then ({ s with io := s.io.inc .HC_LOST_WRITES }, 0, stHostLost)
  else
    match s.devSend dev p.2.2.2 p.2.1 with
    | (s, n, ok) => (s, n, if ok then stDone else stCheck)

/-- A device-to-host unit moves its bytes in order, until one stops it: bytes moved, and the status. -/
def State.unitOut (s : State) (u : XUnit) : State × Nat × Nat :=
  u.pieces.foldl (fun r p =>
    if r.2.2 = stDone then
      match pieceOut r.1 u p with
      | (s, n, st) => (s, r.2.1 + n, st)
    else r) (s, 0, stDone)

/-- A host-to-device unit asks for its host pages and copies its device-resident ones (R340): runs landed, and the status. -/
def State.unitIn (s : State) (u : XUnit) : State × List (Nat × Nat) × Nat :=
  u.pieces.foldl (fun r p =>
    if p.2.2.1 then
      match r.1.devCopy p.2.2.2 (u.dev + p.1) p.2.1 with
      | (s, n, ok) => (s, (if n = 0 then r.2.1 else addRun p.1 n r.2.1), if ok then r.2.2 else stCheck)
    else if r.1.linkUp then (r.1.hostAsk p.2.2.2 p.2.1, r.2)
    else (r.1, r.2.1, stHostLost)) (s, [], stDone)

/-- Runs of a command's landed bytes with those of a unit. -/
def landRuns (base : Nat) (rs : List (Nat × Nat)) (acc : List (Nat × Nat)) : List (Nat × Nat) :=
  rs.foldl (fun acc r => addRun (base + r.1) r.2 acc) acc

/-- Keep a command's first failure. -/
def Cmd.failed (c : Cmd) (st : Nat) : Cmd :=
  if st = stDone then c else { c with fail := match c.fail with | some f => some f | none => some (st, 0) }

/-- The runs of a unit that nothing will return: its device-resident pages, and its host pages where it has failed. -/
def XUnit.settled (u : XUnit) (st : Nat) : List (Nat × Nat) :=
  (u.pieces.filter (fun p => p.2.2.1 || st == stHostLost)).foldl (fun rs p => addRun p.1 p.2.1 rs) []

/-- The owner of a unit takes note that `u`, whose accesses have all been made, ended with a status. -/
def State.unitOver (s : State) (k : Nat) (u : XUnit) (st : Nat) : State :=
  let s := s.dropUnit k
  match u.owner with
  | .stream ctx iter unit => s.unitStatus ctx iter unit st
  | .cmd id => (s.setCmd id (fun c => c.failed st)).settleDma id
  | _ => s

/-- Whether the accesses of a unit are held: a channel is retrained that its device side, or a page of it that a sheet holds,
lies in (R97, R98). -/
def State.unitHeld (s : State) (u : XUnit) : Bool :=
  let own : Bool := match u.owner with | .cmd _ | .stream _ _ _ => true | _ => false
  (own && decide (u.dev < 2 ^ 40) &&
    (List.range (u.len / 2 ^ 30 + 2)).any (fun i =>
      decide (u.dev / 2 ^ 30 + i ≤ (u.dev + u.len - 1) / 2 ^ 30) && s.chanHeld (u.dev / 2 ^ 30 + i))) ||
  u.pages.any (fun p => p.1 && s.chanHeld (p.2 / 2 ^ 30))

/-- A unit whose pages are translated begins its accesses (R341): submission entries and buffers are asked for, a
completion is written, a transfer starts. The next segment of a command may then be translated (R342). -/
def State.access (s : State) (k : Nat) : State :=
  match s.xl.units.at k with
  | none => s
  | some u =>
    if u.st ≠ .ready then s
    else
      let s := s.countUnit u
      match u.owner with
      | .sq _ | .buffer _ => s.askUnit k u
      | .cq q =>
        let dst := match u.pages with | (r, a) :: _ => (r, a + u.va % 4096) | [] => (false, u.va)
        ((s.dropUnit k).writeNext q dst).pumpCq q cqFuel |>.examine q
      | .cmd id =>
        if u.write then
          match s.unitOut u with
          | (s, n, st) =>
            ((s.setCmd id (fun c => { c with landed := if n = 0 then c.landed else addRun u.base n c.landed })
              ).dmaBytes ((s.cf.cmds.at id).map (·.share) |>.getD 0) n).unitOver k u st
        else
          match s.unitIn u with
          | (s, rs, st) =>
            let s := s.setCmd id (fun c => { c.failed st with landed := landRuns u.base rs c.landed })
            let done := u.settled st
            if runBytes done = u.len then s.unitOver k u st
            else (s.setUnit k { u with st := .accessing, landed := done }).nextSegment id
      | .stream ctx iter unit =>
        if u.write then
          match s.unitOut u with
          | (s, n, st) => (s.dmaBytes (s.sc.classOf ctx).2 n |>.dropUnit k).unitStatus ctx iter unit st
        else
          match s.unitIn u with
          | (s, _, st) =>
            let done := u.settled st
            if runBytes done = u.len ∨ st ≠ stDone then s.unitOver k u st
            else s.setUnit k { u with st := .accessing, landed := done }

/-- Whether execution has reached what a unit reads: only a prefetch has not (R365). -/
def State.demanded (s : State) (u : XUnit) : Bool :=
  match u.owner with
  | .buffer id =>
    (match s.cf.cmds.at id, s.cf.buffers.at id with
      | some c, some b => c.phase == .running && decide (b.bytes.length < 128)
      | _, _ => false)
  | _ => true

/-- What a unit's halt on a fault means to its owner: a stream's context is HALTED (R384), a completion goes to the
overflow area (R370). -/
def State.haltOwner (s : State) (k : Nat) (u : XUnit) : State :=
  match u.owner with
  | .stream ctx _ _ =>
    { s with
      sc := { s.sc with streams := s.sc.streams.upd ctx (fun x => { x with st := .halted }) }
      io := (s.io.inc .SC_HALTS).event .SC_EVENT 0 0 }.haltPairs ctx
  | .cq q =>
    let s := s.dropUnit k
    let s := (s.setQueue q (fun x => { x with cqStall := true })).cause q 0
    overflowCpls s q (s.cf.queue q).cpls.length
  | _ => s

/-- Translate a unit as far as it goes and act on the outcome (R341); one whose accesses are held stays ready. A prefetch that faults opens no request (R365). -/
def State.goUnit (s : State) (k : Nat) : State :=
  match s.xl.units.at k with
  | none => s
  | some u =>
    let t := s.translate k transFuel
    match t.xl.units.at k with
    | some v =>
      if v.st = .ready then (if t.unitHeld v then t else t.access k)
      else if v.st = .halted then (if s.demanded u then t.haltOwner k v else s.dropUnit k)
      else t
    | none => t

end Sys2Proof.Machine
end

