-- ==== Sys2Proof/Machine/Queues.lean ====
section
/-! DEFINITION. Machine/Queues.lean: queue pairs (DB_SQ_WRITE to ENTRY_FETCH_RETURN), the command watchdog, and the
commands that the front end and translation carry out themselves (CMD_NOP to CMD_INVALID). -/

namespace Sys2Proof.Machine

/-! ### Queue registers -/

/-- DB_SQ_WRITE (R356): the producer index is stored, PENDING set, and the queue examined. An index at or above the ring
size sets BAD_DOORBELL; an absent queue ignores the write (R353). -/
def execDbSqWrite (q : Fin 4096) (v : BitVec 32) (s : State) : Result := if s.barGone then ignored s else
  match s.plan.queue q with
  | none => ignored s
  | some d =>
    let n := v.toNat % 65536
    if ringSize d ≤ n then .next (s.cause q 6)
    else .next ((s.setQueue q (fun x => { x with prod := n, pending := true })).examine q)

/-- DB_CQ_WRITE (R369): entries are consumed up to the new head. A value that passes the tail sets BAD_DOORBELL. -/
def execDbCqWrite (q : Fin 4096) (v : BitVec 32) (s : State) : Result := if s.barShut then ignored s else
  match s.plan.queue q with
  | none => ignored s
  | some d =>
    let x := s.cf.queue q
    let n := ringSize d
    let h := v.toNat % 65536
    let used := (h + n - x.cqHead) % n
    if n ≤ h ∨ x.unread < used then .next (s.cause q 6)
    else
      .next (((s.setQueue q (fun x => { x with cqHead := h, unread := x.unread - used })).pumpCq q cqFuel).examine q)

/-- Whether a ring base is aligned to its ring's size, or to 4 KiB where the ring is smaller (R354). -/
def baseOk (base size : Nat) : Bool := base % (max size 4096) == 0

/-- Q_ENABLE (R355): a DISABLED queue is enabled where a plan is in force and both bases are aligned, else BAD_CTRL. -/
def execQEnable (q : Fin 4096) (s : State) : Result := if s.barShut then ignored s else
  match s.plan.queue q with
  | none => ignored s
  | some d =>
    let n := ringSize d
    if (s.cf.queue q).st = .disabled ∧ baseOk (s.io.sqSlot q 0) (128 * n) = true ∧ baseOk (s.io.cqSlot q 0) (32 * n) = true then
      .next ((s.setQueue q (fun x => { x with st := .enabled, disabling := false })).examine q)
    else .next (s.cause q 7)

/-- Q_DISABLE (R355): fetching stops at once, what was asked for and not returned is not fetched, and the queue reads
DISABLED once nothing of it is in flight. -/
def execQDisable (q : Fin 4096) (s : State) : Result := if s.barShut then ignored s else
  if (s.cf.queue q).st = .enabled ∧ (s.plan.queue q).isSome = true then
    let s := { s with xl := s.xl.dropUnits (fun o => o == Owner.sq q) }
    .next ((s.setQueue q (fun x => { x with
      disabling := true, fetching := 0, fetchNext := x.sqHead, partialBytes := [], sqFault := false })).settleQueue q)
  else ignored s

/-- Free a queue's captures, and the capture bank where it holds one of them (R374, R454). -/
def State.freeCaptures (s : State) (q : Nat) : State :=
  let ks := (s.cf.captures.list.filter (fun c => c.2.queue == q)).map (·.1)
  { s with
    cf := { s.cf with captures := ks.foldl Tab.del s.cf.captures }
    tr := { s.tr with
      capture := if s.tr.capture.held ∧ ks.contains s.tr.capture.id = true then TrBank.reset else s.tr.capture
      marks := s.tr.marks.filter (fun m => !(match m.cap with | some k => ks.contains k | none => false)) } }

/-- ABORTs of slots that will not be fetched any more: the slot holds no command (R372; log entry 168). -/
def State.dropAborts (s : State) (q : Nat) : State :=
  let ids := (s.cf.queue q).aborts.map (·.2)
  ids.foldl (fun (s : State) a => s.finish a stInvalid 0) (s.setQueue q (fun x => { x with aborts := [] }))

/-- A queue is emptied: its commands stop without a completion, and its completions, units and captures go (R375). -/
def State.emptyQueue (s : State) (q : Nat) (st : QState) : State :=
  let ids := (s.cf.ringCmds q).map (·.1)
  let s := (s.cancelWork (fun i => ids.any (fun r => s.cf.serves r i nestFuel))).dropAborts q
  let s := { s.freeCaptures q with xl := s.xl.dropUnits (fun o => o == Owner.sq q || o == Owner.cq q) }
  s.setQueue q (fun x => { x with
    st := st, disabling := false, pending := false, examining := false, fetching := 0, cpls := [], overflow := []
    cqStall := false, sqFault := false, slots := [], partialBytes := [], guiltyTo := none })

/-- Q_RESET (R375): the queue moves to RESETTING. -/
def execQReset (q : Fin 4096) (s : State) : Result := if s.barShut then ignored s else
  if (s.plan.queue q).isSome then .next (s.emptyQueue q .resetting) else ignored s

/-- A parked device resumes once the link is up and the driver has reset a queue; the grace period ends then too (R330,
log entry 50). -/
def State.unpark (s : State) : State :=
  if s.linkUp && s.host.driverBack then { s with host := { s.host with parked := false, graceEnd := none } } else s

/-- QUEUE_RESET_DONE (R331, R375): the queue reads DISABLED from slot 0 in the first pass. -/
def execQueueResetDone (q : Fin 4096) (s : State) : Result :=
  if (s.cf.queue q).st = .resetting then
    .next ({ s.setQueue q (fun _ => Queue.reset) with host := { s.host with driverBack := true } }.unpark)
  else ignored s

/-- CQ_ACK (R370): the overflow area's entries are written in order, each LATE, then the held completions; fetching
resumes once the area is empty. -/
def execCqAck (q : Fin 4096) (s : State) : Result := if s.barShut then ignored s else
  let x := s.cf.queue q
  if x.cqStall ∧ (s.plan.queue q).isSome = true then
    .next (((s.setQueue q (fun x => { x with cqStall := false })).pumpCq q cqFuel).examine q)
  else ignored s

/-- Q_RESUME (R374): a HALTED queue continues from the next entry; its capture is freed (log entry 47). -/
def execQResume (q : Fin 4096) (s : State) : Result := if s.barShut then ignored s else
  if (s.cf.queue q).st = .halted ∧ (s.plan.queue q).isSome = true then
    .next (((s.freeCaptures q).setQueue q (fun x => { x with st := .enabled, pending := true })).examine q)
  else ignored s

/-! ### Entries arrive (R357, R360) -/

/-- A unit's bytes: what the host returned, with device-resident pages read from their sheet (R340). -/
def State.unitBytes (s : State) (u : XUnit) (host : List Byte) : List Byte :=
  u.pieces.foldl (fun bs p =>
    if p.2.2.1 then bs.take p.1 ++ s.ram.read p.2.2.2 p.2.1 ++ bs.drop (p.1 + p.2.1) else bs)
    ((host ++ zeros u.len).take u.len)

/-- A command that has been fetched whole (R358). A buffer's first bytes are read ahead (R365). -/
def State.newCmd (s : State) (q : Nat) (d : List Byte) (slot : Nat) (e : List Byte) : State :=
  let id := s.cf.nextCmd
  let c : Cmd := ⟨some q, slot, e, .ring, .fetched, cClass e % 4, u8 d 6 % 64, s.mer.count, none, 0, 0, 0, 0, none, [], none⟩
  let bufs := if cOp e = 7 ∧ cmdBad (some d) .ring e = false then
      s.cf.buffers.put id ⟨[], 0, 0, cCount e, 0, none⟩ else s.cf.buffers
  { s with cf := { s.cf with cmds := s.cf.cmds.put id c, nextCmd := id + 1, buffers := bufs } }

/-- ABORTs whose target has been fetched: the target completes ABORTED, then the first of them DONE and the others
ALREADY_DONE; a target that is itself an ABORT makes them INVALID_COMMAND (R372). -/
def State.abortFetched (s : State) (id : Nat) (e : List Byte) : List Nat → State
  | [] => s
  | ab :: more =>
    if cOp e = 8 then (ab :: more).foldl (fun (s : State) b => s.finish b stInvalid 0) s
    else more.foldl (fun (s : State) b => s.finish b stAlready 0) ((s.finish id stAborted 0).finish ab stDone 0)

/-- One slot's 128 bytes (R360): part of an entry, or its end, with which a command is made. While a guilty queue is read
for its TAGs, each entry completes CANCELLED (R373). -/
def State.takeSlot (s : State) (q : Nat) (d : List Byte) (bs : List Byte) : State :=
  let x := s.cf.queue q
  let n := ringSize d
  let slot := x.fetchNext
  let first := x.partialBytes.isEmpty
  let at0 := if first then slot else x.partialAt
  let e := x.partialBytes ++ bs
  let ext := if n ≤ cExt e then 0 else min (cExt e) 31
  let mark := fun (m : SMap Nat) (v : Nat) => SMap.set (fun _ => 0) m slot v
  let next := (slot + 1) % n
  let lost := (x.aborts.filter (fun a => a.1 == slot)).map (·.2)
  let s := s.setQueue q (fun x => { x with
    fetchNext := next, partialAt := at0, aborts := x.aborts.filter (fun a => a.1 != slot)
    slots := mark x.slots (if first then s.cf.nextCmd + 2 else 1) })
  let s := if first then s else lost.foldl (fun s a => s.finish a stInvalid 0) s
  if e.length < 128 * (ext + 1) then
    s.setQueue q (fun x => { x with partialBytes := e, aborts := if first then x.aborts ++ lost.map (fun a => (slot, a)) else x.aborts })
  else
    let s := s.setQueue q (fun x => { x with partialBytes := [], sqHead := next })
    let abs := if first then lost else (x.aborts.filter (fun a => a.1 == at0)).map (·.2)
    let s := s.setQueue q (fun x => { x with aborts := x.aborts.filter (fun a => a.1 != at0) })
    if x.guiltyTo.isSome then
      abs.foldl (fun (s : State) a => s.finish a stAlready 0)
        (s.pushCpl q ⟨0, s.mer.count, 0, 0, cTag e, 0, stCancelled, cIrq e, true, 0⟩)
    else
      let id := s.cf.nextCmd
      let e := if n ≤ cExt e then e.take 3 ++ [0xFF#8] ++ e.drop 4 else e
      ((s.newCmd q d at0 e).readBuffer id).abortFetched id e abs

/-- Entries that cannot be read (R357, R373; log entry 48): a guilty queue's complete CANCELLED with TAG 0xFFFF, another
queue is disabled with SQ_FAULT. -/
def State.sqFail (s : State) (q n : Nat) : State :=
  let x := s.cf.queue q
  match s.plan.queue q with
  | none => s
  | some d =>
    if x.guiltyTo.isSome then
      let s := (List.range n).foldl (fun s _ =>
        s.pushCpl q ⟨0, s.mer.count, 0, 0, 0xFFFF, 0, stCancelled, false, true, 0⟩) s
      let mine := fun (a : Nat × Nat) => decide ((a.1 + ringSize d - x.fetchNext) % ringSize d < n)
      let s := s.setQueue q (fun y => { y with
        fetchNext := (y.fetchNext + n) % ringSize d, fetching := 0, partialBytes := []
        aborts := y.aborts.filter (fun a => !mine a) })
      let s := (x.aborts.filter mine).foldl (fun (s : State) a => s.finish a.2 stAlready 0) s
      (s.settleQueue q).examine q
    else
      let s := s.setQueue q (fun x => { x with fetching := 0, fetchNext := x.sqHead, partialBytes := [], disabling := true })
      (s.cause q 1).settleQueue q

/-- ENTRY_FETCH_RETURN (R357, R360, R364): the bytes that unit `k` asked for arrive, or its read ends with an error or
poison: entries of a submission ring, which are checked and dispatched in ring order, or the next part of a buffer. -/
def execEntryFetchReturn (k : Nat) (bytes : List Byte) (ok : Bool) (s : State) : Result :=
  match s.xl.units.at k with
  | none => ignored s
  | some u =>
    if u.st ≠ .accessing then ignored s
    else match u.owner with
      | .sq q =>
        match s.plan.queue q with
        | none => ignored s
        | some d =>
          if !ok then .next ((s.dropUnit k).sqFail q (u.len / 128))
          else
            let bs := s.unitBytes u bytes
            let s := (chunks bs 128 (u.len / 128)).foldl (fun s e => s.takeSlot q d e) (s.dropUnit k)
            let s := s.setQueue q (fun x => { x with fetching := 0 })
            .next (((s.dispatchQueue q).settleQueue q).examine q)
      | .buffer id =>
        let run : Bool := match s.cf.cmds.at id with | some c => c.phase == .running | none => false
        let s := s.dropUnit k
        let s := { s with cf := { s.cf with buffers := s.cf.buffers.upd id (fun b =>
          if ok then { b with bytes := b.bytes ++ s.unitBytes u bytes, readOff := u.base + u.len }
          else { b with stopped := some (b.next, stCheck) }) } }
        if run then
          match s.pumpBuffer id with
          | (s, some (i, st, r)) => .next (s.finish i st r)
          | (s, none) => .next s
        else .next (s.readBuffer id)
      | _ => ignored s

/-! ### The watchdog (R362) -/

/-- WATCHDOG_EXPIRY: a command's watchdog, or that of a launch that no command made, expires: its engines stop as on
cancellation and it completes WATCHDOG. -/
def execWatchdogExpiry (launch : Bool) (id : Nat) (s : State) : Result :=
  if launch then
    match s.cf.launches.at id with
    | some x =>
      match x.expiry with
      | some v => if s.mer.reached v then .next (s.stopLaunch id stWatchdog) else ignored s
      | none => ignored s
    | none => ignored s
  else
    match s.cf.cmds.at id with
    | some c =>
      match c.expiry with
      | some v => if s.mer.reached v ∧ c.phase ≠ .fetched then .next (s.stopCmd id stWatchdog) else ignored s
      | none => ignored s
    | none => ignored s

/-! ### Commands of the front end -/

/-- CMD_NOP (R363). -/
def execCmdNop (id : Nat) (s : State) : Result :=
  match s.readyCmd id 0x01 with
  | some _ => .next (s.finish id stDone 0)
  | none => ignored s

/-- CMD_INVALID (R358): a command that fails its header checks does nothing and completes INVALID_COMMAND. -/
def execCmdInvalid (id : Nat) (s : State) : Result :=
  match s.cf.cmds.at id with
  | some c =>
    if c.phase = .ready ∧ cmdBad (c.queue.bind s.plan.queue) c.origin c.entry = true then
      .next (s.finish id stInvalid 0)
    else ignored s
  | none => ignored s

/-- A host transfer starts, or is refused (R358): COUNT at least 1, the device side within one sheet, and a queue that
names an address space (log entry 49). Held while its stack drains or its channel is retrained (R48, R97, R98). -/
def startDma (s : State) (id : Nat) (c : Cmd) : Result :=
  let a := u64 c.entry 0x18
  if cCount c.entry = 0 ∨ s.plan.dpaOk a (cCount c.entry) = false ∨ c.queue.isNone = true then
    .next (s.finish id stInvalid 0)
  else if s.dpaHeld a (cCount c.entry) then ignored s
  else .next (((s.runCmd id 0).touch id 0 (2 ^ dpaStack a)).nextSegment id)

/-- CMD_DMA_IN (R323, R324): the transfer's first segment waits for its translation. -/
def execCmdDmaIn (id : Nat) (s : State) : Result :=
  match s.readyCmd id 0x02 with
  | some c => startDma s id c
  | none => ignored s

/-- CMD_DMA_OUT (R323, R324): as CMD_DMA_IN, towards the host. -/
def execCmdDmaOut (id : Nat) (s : State) : Result :=
  match s.readyCmd id 0x03 with
  | some c => startDma s id c
  | none => ignored s

/-- CMD_WRITE_INLINE (R322, R325): the inline bytes land before the completion. -/
def execCmdWriteInline (id : Nat) (s : State) : Result :=
  match s.readyCmd id 0x04 with
  | some c =>
    let a := u64 c.entry 0x10
    if s.plan.dpaOk a (cLen c.entry) = false then .next (s.finish id stInvalid 0)
    else if s.dpaHeld a (cLen c.entry) then ignored s
    else .next (((s.touch id 0 (2 ^ dpaStack a)).sheetWrite .host a (cInline c.entry)).finish id
      (if s.ram.goneIn a (cLen c.entry) then stCheck else stDone) 0)
  | none => ignored s

/-- Level that a launch made by a command runs at (R368). -/
def State.launchLevel (s : State) (c : Cmd) : Nat :=
  match c.origin with
  | .node l _ => (match s.cf.launches.at l with | some x => x.level + 1 | none => 1)
  | _ => 1

/-- Whether taking up a launch is held: its image or its launch slot lies in a stack that drains, or in a channel being
retrained (R48, R97, R98). -/
def State.launchHeld (s : State) (i : Itin) (k : Nat) : Bool :=
  let b := s.image i
  s.dpaHeld i.addr (64 + imParam b + 144 * imNodes b) || s.dpaHeld (s.plan.launchArea + 4096 * k) 4096

/-- A launch starts in a free slot, or waits there for its stack. -/
def State.launchIn (s : State) (l k : Nat) (i : Itin) : State := if s.launchHeld i k then s else s.startLaunch l k

/-- Whether a launch of level 1 must wait: at most 512 slots free, others waiting before it, or its itinerary being loaded
(R366, R368). -/
def State.launchWaits (s : State) (itin : Nat) : Bool :=
  s.cf.launchFull || s.batchHeld itin ||
  s.cf.launches.list.any (fun l => l.2.slot.isNone && l.2.level == 1 && !s.batchHeld l.2.itin) ||
  (match s.cf.itins.at itin with | some i => i.loading.isSome | none => false)

/-- CMD_LAUNCH (R367, R368): the itinerary starts in a free slot, or waits for one. -/
def execCmdLaunch (id : Nat) (s : State) : Result :=
  match s.readyCmd id 0x05 with
  | none => ignored s
  | some c =>
    let itin := u16 c.entry 0x10
    let off := u16 c.entry 0x12
    match s.cf.itins.at itin with
    | none => .next (s.finish id stInvalid 0)
    | some i =>
      let level := s.launchLevel c
      if off % 8 ≠ 0 ∨ imParam (s.image i) < off + cLen c.entry ∨ s.plan.launchArea = 0 ∨ 1024 ≤ itin ∨
          s.plan.enqDepth < level then .next (s.finish id stInvalid 0)
      else
        let l := s.cf.nextLaunch
        let x : Launch := ⟨itin, .cmd id, level, c.cls, c.share, (off, cInline c.entry), none, true, [], 0, 0, stDone, 0,
          s.mer.count, none, [], 0⟩
        let s1 := (s.runCmd id 1)
        let s1 := { s1 with cf := { s1.cf with launches := s1.cf.launches.put l x, nextLaunch := l + 1 } }
        if level = 1 then
          if s.launchWaits itin then
            .next (if s.cf.launchFull then { s1 with io := s1.io.inc .CF_LAUNCH_WAITS } else s1)
          else match s1.cf.freeSlot with
            | some k => .next (s1.launchIn l k i)
            | none => .next { s1 with io := s1.io.inc .CF_LAUNCH_WAITS }
        else if i.loading.isSome || s.batchHeld itin then .next s1
        else match s1.cf.freeSlot with
          | some k => .next (s1.launchIn l k i)
          | none =>
            .next ({ s with io := (s.io.inc .CF_ENQ_REFUSED).event .CF_EVENT 0 2 }.finish id stInvalid 0)

/-- Rank of a waiting launch: class 0 first, then arrival (R368). -/
def launchRank (l : Nat × Launch) : Nat × Nat := ((if l.2.cls = 0 then 0 else 1), l.1)

/-- Whether a launch comes first among those that wait for a slot. -/
def State.firstWaiting (s : State) (l : Nat) (x : Launch) : Bool :=
  (s.cf.launches.list.filter (fun e =>
    e.2.slot.isNone && e.2.level == 1 && e.2.admitted && e.1 != l && !s.batchHeld e.2.itin)).all (fun e =>
    let a := launchRank (l, x)
    let b := launchRank e
    decide (a.1 < b.1) || (a.1 == b.1 && decide (a.2 < b.2)))

/-- Whether requests of the buffer set that a dense launch will write are still running (R17). -/
def State.oldSetBusy (s : State) : Bool :=
  s.cf.launches.list.any (fun l => l.2.slot.isSome &&
    l.2.buffers.any (fun v => (SMap.get (fun _ => Layer.reset) s.upd.layers (v / 2)).current != v % 2) &&
    (match l.2.source with | .update _ => false | _ => true))

/-- A launch that cannot run ends INVALID_COMMAND, and with it a command that waits for it. -/
def State.refuseLaunch (s : State) (l : Nat) (x : Launch) : State :=
  match s.endLaunch l { x with status := stInvalid } with
  | (s, some (i, st, r)) => s.finish i st r
  | (s, none) => s

/-- LAUNCH_START (R368): a waiting launch takes a free slot; one whose itinerary has been unloaded ends, and so does a
device-side launch that finds no slot free. -/
def execLaunchStart (l : Nat) (s : State) : Result :=
  match s.cf.launches.at l with
  | none => ignored s
  | some x =>
    if x.slot.isSome ∨ x.admitted = false then ignored s
    else match s.cf.itins.at x.itin with
      | none => .next (s.refuseLaunch l x)
      | some i =>
        let dense := match x.source with | .update _ => s.oldSetBusy | _ => false
        if i.loading.isSome ∨ dense = true ∨ s.batchHeld x.itin = true then ignored s
        else if x.level = 1 ∧ (s.cf.launchFull = true ∨ s.firstWaiting l x = false) then ignored s
        else match s.cf.freeSlot with
          | some k => if s.launchHeld i k then ignored s else .next (s.startLaunch l k)
          | none =>
            if x.level = 1 then ignored s
            else .next ((s.mapIo (fun io => (io.inc .CF_ENQ_REFUSED).event .CF_EVENT 0 2)).refuseLaunch l x)

/-! ### ITIN_LOAD (R366) -/

/-- Whether a node's own fields obey Table 15-7 and R366. -/
def nodeOk (b : List Byte) (n : List Byte) : Bool :=
  let h := n
  let e := n.drop 16
  let succ := (List.range 4).map (fun k => u16 h (4 + 2 * k))
  let pOk := fun (p : Nat) =>
    p == 0 || (decide (2 ≤ bits p 12 9) && decide (bits p 12 9 + bits p 15 13 + 1 ≤ 16) &&
      decide (8 * (bits p 8 0 + bits p 15 13 + 1) ≤ imParam b))
  decide (u8 h 2 ≤ 4) && decide (u8 h 3 < 4) &&
  succ.zipIdx.all (fun x => if x.2 < u8 h 2 then decide (x.1 < imNodes b) else x.1 == 0xFFFF) &&
  pOk (u16 h 0xC) && pOk (u16 h 0xE) && !ringOnly (cOp e) && cExt e == 0

/-- Nodes that list `n` as a successor. -/
def predCount (ns : List (List Byte)) (n : Nat) : Nat :=
  (ns.map (fun h => ((List.range (u8 h 2)).filter (fun k => u16 h (4 + 2 * k) == n)).length)).sum

/-- Nodes left once every node whose predecessors have all gone is taken away, again and again (R366: no cycle). -/
def peelNodes (ns : List (Nat × List Byte)) : Nat → List (Nat × List Byte)
  | 0 => ns
  | fuel + 1 =>
    peelNodes (ns.filter (fun n => predCount (ns.map (·.2)) n.1 != 0)) fuel

/-- The first failing node of an image, or 0xFFFF_FFFF for its header; none: it passes (R366). The nodes that a cycle leaves
without a place in any order fail (log entry 169). -/
def imageBad (b : List Byte) (ns : List (List Byte)) : Option Nat :=
  if u32 b 0 ≠ 0x4E495449 ∨ u16 b 4 ≠ 1 ∨ imNodes b = 0 ∨ 4096 < imNodes b ∨ 4096 < imParam b ∨ imParam b % 8 ≠ 0 ∨
      (4096 ≤ imDone b ∧ imDone b ≠ 0xFFFF) ∨ (b.drop 16).any (fun x => x != 0#8) = true then some 0xFFFFFFFF
  else
    let second := ((ns.zipIdx.filter (fun n => bit (u8 n.1 3) 0)).drop 1).map (·.2)
    let cyclic := (peelNodes (ns.zipIdx.map (fun n => (n.2, n.1))) ns.length).map (·.1)
    ns.zipIdx.findIdx? (fun n => !nodeOk b n.1 || u16 n.1 0 != predCount ns n.2 || second.contains n.2 || cyclic.contains n.2)

/-- Whether an image cannot be read now: its stack drains, or its channel is being retrained (R48, R97, R98). -/
def State.imageHeld (s : State) (a : Nat) : Bool :=
  let b := s.ram.read a 64
  let size := 64 + imParam b + 144 * imNodes b
  a != 0 && s.plan.dpaOk a 64 && (s.dpaHeld a 64 || (s.plan.dpaOk a size && s.dpaHeld a size))

/-- Change the resident itineraries. -/
def State.setItins (s : State) (f : Tab Itin → Tab Itin) : State := { s with cf := { s.cf with itins := f s.cf.itins } }

/-- CMD_ITIN_LOAD (R366): the image is checked and made resident, or the itinerary is unloaded; it waits for running
launches of that itinerary, and later launches wait for it. -/
def execCmdItinLoad (id : Nat) (s : State) : Result :=
  match s.readyCmd id 0x06 with
  | none => ignored s
  | some c =>
    let itin := u16 c.entry 0x10
    let a := u64 c.entry 0x18
    if 1024 ≤ itin then .next (s.finish id stInvalid 0xFFFFFFFF)
    else if 0 < s.cf.runningOf itin ∨ s.imageHeld a = true then
      .next (s.setItins (fun t => t.upd itin (fun i => { i with loading := some id })))
    else
      let s := s.setItins (fun t => t.upd itin (fun i => { i with loading := none }))
      if a = 0 then .next ((s.setItins (fun t => t.del itin)).finish id stDone 0xFFFFFFFF)
      else if s.plan.dpaOk a 64 = false then .next (s.finish id stInvalid 0xFFFFFFFF)
      else
        let b := s.ram.read a 64
        let size := 64 + imParam b + 144 * imNodes b
        if s.ram.consumerOk a 64 = false then .next ((s.logCheck a (dpaRoom a)).finish id stCheck 0xFFFFFFFF)
        else if s.plan.dpaOk a size = false then .next (s.finish id stInvalid 0xFFFFFFFF)
        else if s.ram.consumerOk a size = false then .next ((s.logCheck a (dpaRoom a)).finish id stCheck 0xFFFFFFFF)
        else
          match imageBad b (chunks (s.ram.read (a + 64 + imParam b) (144 * imNodes b)) 144 (imNodes b)) with
          | some n => .next (s.finish id stInvalid n)
          | none => .next ((s.setItins (fun t => t.put itin ⟨a, imNodes b, none⟩)).finish id stDone 0xFFFFFFFF)

/-! ### BUFFER and ABORT -/

/-- CMD_BUFFER (R364): the buffer's entries are dispatched as they are read. -/
def execCmdBuffer (id : Nat) (s : State) : Result :=
  match s.readyCmd id 0x07 with
  | none => ignored s
  | some c =>
    if cCount c.entry = 0 ∨ 65536 < cCount c.entry then .next (s.finish id stInvalid 0)
    else
      match (s.runCmd id 0).pumpBuffer id with
      | (s, some (i, st, r)) => .next (s.finish i st r)
      | (s, none) => .next s

/-- Whether a slot lies between SQ_HEAD and the producer index (R372). -/
def Queue.unfetched (x : Queue) (n slot : Nat) : Bool :=
  decide ((slot + n - x.sqHead) % n < (x.prod + n - x.sqHead) % n)

/-- CMD_ABORT (R372): exactly one of ALREADY_DONE and an ABORTED target. -/
def execCmdAbort (id : Nat) (s : State) : Result :=
  match s.readyCmd id 0x08 with
  | none => ignored s
  | some c =>
    let q := u16 c.entry 0x10
    let slot := u16 c.entry 0x12
    match s.plan.queue q with
    | none => .next (s.finish id stInvalid 0)
    | some d =>
      let x := s.cf.queue q
      if ringSize d ≤ slot then .next (s.finish id stInvalid 0)
      else if x.unfetched (ringSize d) slot then
        .next ((s.runCmd id 1).setQueue q (fun x => { x with aborts := x.aborts ++ [(slot, id)] }))
      else
        let v := SMap.get (fun _ => 0) x.slots slot
        if v < 2 then .next (s.finish id stInvalid 0)
        else match s.cf.cmds.at (v - 2) with
          | some t =>
            if cOp t.entry = 8 then .next (s.finish id stInvalid 0)
            else .next ((s.stopCmd (v - 2) stAborted).finish id stDone 0)
          | none =>
            if x.cpls.any (fun k => k.own && k.id == v - 2) then
              .next ((s.setQueue q (fun x => { x with cpls := x.cpls.map (fun k =>
                if k.own ∧ k.id = v - 2 then { k with status := stAborted } else k) })).finish id stDone 0)
            else .next (s.finish id stAlready 0)

/-! ### Translation's commands -/

/-- CMD_INVALIDATE (R348): the entries go at once; INVALIDATION_DONE completes the command. -/
def execCmdInvalidate (id : Nat) (s : State) : Result :=
  match s.readyCmd id 0x1B with
  | none => ignored s
  | some c =>
    let e := c.entry
    let as := if u8 e 0x11 = 0 then some (u8 e 0x10) else none
    if 1 < u8 e 0x11 ∨ u64 e 0x18 % 4096 ≠ 0 then .next (s.finish id stInvalid 0)
    else
      let v : Inval := ⟨as, u64 e 0x18, cCount e, some id, false, false⟩
      .next { s.runCmd id 1 with xl := s.xl.invalidate v }

/-- Whether a page copy's operands obey R350. -/
def pageCopyOk (s : State) (e : List Byte) : Bool :=
  u64 e 0x18 % 4096 == 0 && cCount e % 4096 == 0 && cCount e != 0 && s.plan.dpaOk (u64 e 0x18) (cCount e)

/-- CMD_MIGRATE (R350): pages come from untranslated bus addresses and land under R322. -/
def execCmdMigrate (id : Nat) (s : State) : Result :=
  match s.readyCmd id 0x1C with
  | none => ignored s
  | some c =>
    if pageCopyOk s c.entry = false then .next (s.finish id stInvalid 0)
    else if s.dpaHeld (u64 c.entry 0x18) (cCount c.entry) then ignored s
    else .next (((s.runCmd id 0).touch id 0 (2 ^ dpaStack (u64 c.entry 0x18))).nextSegment id)

/-- CMD_RETURN (R350): every block that passes its check is written to the host; the first failing offset is the result. -/
def execCmdReturn (id : Nat) (s : State) : Result :=
  match s.readyCmd id 0x1D with
  | none => ignored s
  | some c =>
    let e := c.entry
    let a := u64 e 0x18
    let bus := u64 e 0x10
    if pageCopyOk s e = false then .next (s.finish id stInvalid 0)
    else if s.dpaHeld a (cCount e) then ignored s
    else
      let s0 := s.touch id 0 (2 ^ dpaStack a)
      let offs := (List.range (cCount e / 256)).map (fun i => 256 * i)
      let bad := offs.filter (fun o => !(s0.ram.blk (a + o)).moverOk)
      let s1 := offs.foldl (fun s o =>
        if bad.contains o then s.logCheck (a + o) (dpaRoom (a + o)) else s.hostPost (bus + o) (s.ram.read (a + o) 256)) s0
      match bad with
      | o :: _ => .next (s1.finish id stCheck o)
      | [] => .next (s1.finish id (if s.linkUp then stDone else stHostLost) 0)

/-! ### Itinerary nodes (R367) -/

/-- Patch entry words from parameter words (Table 15-7). -/
def patchEntry (param : List Byte) (p : Nat) (e : List Byte) : List Byte :=
  if p = 0 then e
  else
    let n := 8 * (bits p 15 13 + 1)
    let o := 8 * bits p 12 9
    e.take o ++ slice param (8 * bits p 8 0) n ++ e.drop (o + n)

/-- ITIN_NODE_DISPATCH: node `n` of launch `l` becomes a command once all its predecessors have completed. A node whose
bytes fail their check completes FAULT_CHECK (R366). -/
def execItinNodeDispatch (l : Nat) (n : Fin 4096) (s : State) : Result :=
  match s.cf.launches.at l with
  | none => ignored s
  | some x =>
    match x.slot, s.cf.itins.at x.itin with
    | some k, some i =>
      if x.waits[n.val]? = some 0 ∧ x.status = stDone ∧ s.chanHeld (nodeAt i (s.image i) n / 2 ^ 30) = false ∧
          s.chanHeld (s.plan.launchArea / 2 ^ 30) = false then
        let a := nodeAt i (s.image i) n
        let waits := x.waits.set n nodeGone
        let s1 := { s with cf := { s.cf with launches := s.cf.launches.put l { x with waits := waits, running := x.running + 1 } } }
        let area := s.plan.launchArea + 4096 * k
        if !s.ram.consumerOk a 144 || !s.ram.consumerOk area (imParam (s.image i)) then
          match (s1.logCheck a (dpaRoom a)).nodeDone l n stCheck 0 with
          | (s, some (p, st, r)) => .next (s.finish p st r)
          | (s, none) => .next s
        else
          let bs := s.ram.read a 144
          let param := s.ram.read area (imParam (s.image i))
          let e := patchEntry param (u16 bs 0xE) (patchEntry param (u16 bs 0xC) (bs.drop 16))
          let root := match x.source with | .cmd p => s.cf.cmds.at p | _ => none
          let q := root.bind (·.queue)
          let id := s.cf.nextCmd
          let wd := (watchdogOf (q.bind s.plan.queue) e).map (fun w => s.mer.count + w)
          let c : Cmd := ⟨q, 0, e, .node l n, .ready, max (cClass e % 4) x.cls, x.share, s.mer.count, wd, 0, 0, 0, 0, none, [], none⟩
          .next { s1 with cf := { s1.cf with cmds := s1.cf.cmds.put id c, nextCmd := id + 1 } }
      else ignored s
    | _, _ => ignored s

end Sys2Proof.Machine
end

