-- ==== Sys2Proof/Machine/Batches.lean ====
section
/-! DEFINITION. Machine/Batches.lean: running batches (R167 to R171). -/

namespace Sys2Proof.Machine

/-- The SESSION wings of a batch, ascending (R167). -/
def Plan.sessions (p : Plan) (b : Nat) : List (List Byte) :=
  (p.wingList.filter (fun w => wKind w == 2 && wOwner w % 64 == b)).mergeSort (fun x y => decide (wId x ≤ wId y))

/-- Slots of a SESSION wing. -/
def wSlots (w : List Byte) : Nat := if wParam w = 0 then 0 else wRooms w * (1048576 / wParam w)

/-- Device-physical address of slot `j` of a SESSION wing (R167). -/
def slotDpa (w : List Byte) (j : Nat) : Nat := roomDpa (wingRoom w (j % wRooms w)) (j / wRooms w * wParam w)

/-- Whether a slot is in use or marked freed (R168). -/
def Batch.taken (x : Batch) (dpa : Nat) : Bool := x.freed.contains dpa || x.members.any (fun m => m.slot == dpa)

/-- The lowest free slot of a batch, wings in ascending id (R168). -/
def Plan.freeSlot (p : Plan) (b : Nat) (x : Batch) : Option Nat :=
  (p.sessions b).findSome? (fun w => ((List.range (wSlots w)).find? (fun j => !x.taken (slotDpa w j))).map (slotDpa w))

/-- Whether a handle is a member of any batch. -/
def State.joined (s : State) (h : Nat) : Bool := s.wings.batches.any (fun e => e.2.members.any (fun m => m.handle == h))

/-- The member table (R170): the number of the step about to run, the count, the members. -/
def memberTable (x : Batch) : List Byte :=
  bytesOf (x.step + 1) 8 ++ bytesOf x.members.length 8 ++
  x.members.flatMap (fun m => bytesOf m.handle 4 ++ bytesOf (if m.fresh then 1 else 0) 4 ++ bytesOf m.slot 8)

/-- A leave takes effect (R168, R169). -/
def State.leaveBatch (s : State) (b : Nat) (r : BatchReq) : State :=
  match (s.batch b).members.find? (fun m => m.handle == r.handle) with
  | some m =>
    (s.setBatch b (fun x => { x with members := x.members.filter (fun n => n.handle != r.handle), freed := x.freed ++ [m.slot] })
      ).finish r.cmd stDone 0
  | none => s.finish r.cmd stInvalid 0

/-- A join is processed (R168, R169). -/
def State.joinBatch (s : State) (b : Nat) (e : List Byte) (r : BatchReq) : State :=
  if s.joined r.handle ∨ r.handle = 0 then s.finish r.cmd stInvalid 0
  else
    let x := s.batch b
    match (if x.members.length < u16 e 2 then s.plan.freeSlot b x else none) with
    | some dpa =>
      (s.setBatch b (fun x => { x with members := x.members ++ [⟨r.handle, true, dpa⟩] })).finish r.cmd stDone dpa
    | none =>
      let ks := ((s.plan.sessions b).map wStack).eraseDups
      let io := ks.foldl (fun (io : Io) k => io.event .WG_EVENT k 3) (s.io.inc .WG_BATCH_REFUSED 0)
      { s with io := io }.finish r.cmd stNoState 0

/-- A batch-step boundary (R168): freed slots, leaves, joins, and the member table. -/
def State.boundary (s : State) (b : Nat) (e : List Byte) : State :=
  let x := s.batch b
  let ended := x.running.isSome
  let s := s.setBatch b (fun x => { x with
    freed := [], reqs := [], running := none
    step := if ended then x.step + 1 else x.step
    members := if ended then x.members.map (fun m => { m with fresh := false }) else x.members })
  let s := (x.reqs.filter (fun r => !r.join)).foldl (fun (s : State) r => s.leaveBatch b r) s
  let s := (x.reqs.filter (fun r => r.join)).foldl (fun (s : State) r => s.joinBatch b e r) s
  s.sheetWrite .device (u64 e 8) (memberTable (s.batch b))

/-- BATCH_BOUNDARY (R168): the batch's step has retired. -/
def execBatchBoundary (b : Fin 64) (s : State) : Result :=
  match s.plan.batch b, (s.batch b).running with
  | some e, some l => if (s.cf.launches.at l).isSome then ignored s else .next (s.boundary b e)
  | _, _ => ignored s

/-- A join or a leave: at once while no step is in progress, else at the boundary after it (R169). -/
def State.askBatch (s : State) (id : Nat) (c : Cmd) (join : Bool) : State :=
  let b := u8 c.entry 0x10
  match s.plan.batch b with
  | none => s.finish id stInvalid 0
  | some e =>
    let s' := (s.runCmd id 1).setBatch b (fun x => { x with reqs := x.reqs ++ [⟨id, join, u32 c.entry 0x14⟩] })
    if (s.batch b).running.isSome then s' else s'.boundary b e

/-- CMD_JOIN. -/
def execCmdJoin (id : Nat) (s : State) : Result :=
  match s.readyCmd id 0x0E with
  | some c => .next (s.askBatch id c true)
  | none => ignored s

/-- CMD_LEAVE. -/
def execCmdLeave (id : Nat) (s : State) : Result :=
  match s.readyCmd id 0x0F with
  | some c => .next (s.askBatch id c false)
  | none => ignored s

/-- A batch is emptied (R171): pending requests complete with a status, members go without a completion. -/
def State.emptyBatch (s : State) (b st : Nat) : State :=
  let x := s.batch b
  let s := s.setBatch b (fun _ => Batch.reset)
  x.reqs.foldl (fun (s : State) r => s.finish r.cmd st 0) s

end Sys2Proof.Machine
end

