-- ==== Sys2Proof/Machine/Fabric.lean ====
section
/-! DEFINITION. Machine/Fabric.lean: ports and the Finnov link (R254 to R265), routes (R270 to R272), how a message leaves
the device (R276, R281, R282), and survey's floods (R267). -/

namespace Sys2Proof.Machine

/-! ### The grid reference and port set (R266) -/

/-- Section 0x0050 of the plan in force. -/
def Plan.grid (p : Plan) : List Byte := p.sec 0x50
/-- Whether the plan gives the device a fabric. -/
def Plan.hasGrid (p : Plan) : Bool := p.has 0x50
/-- Own grid reference. -/
def Plan.ref (p : Plan) : Nat := u16 p.grid 0
/-- FABRIC_ID. -/
def Plan.fabricId (p : Plan) : Nat := u32 p.grid 4
/-- HELLO_US in mt. -/
def Plan.helloMt (p : Plan) : Nat := u16 p.grid 8 * 1000
/-- DEAD_HELLOS. -/
def Plan.deadHellos (p : Plan) : Nat := u8 p.grid 10
/-- MAX_HOPS. -/
def Plan.maxHops (p : Plan) : Nat := u8 p.grid 11
/-- Entry of a port. -/
def Plan.portEntry (p : Plan) (k : Nat) : List Byte := slice p.grid (0x20 + 8 * k) 8
/-- ENABLE of a port entry. -/
def Plan.portOn (p : Plan) (k : Nat) : Bool := p.hasGrid && bit (u8 (p.portEntry k) 0) 0
/-- ALLOW_DEGRADE of a port entry. -/
def Plan.portDegrades (p : Plan) (k : Nat) : Bool := bit (u8 (p.portEntry k) 0) 1

/-! ### Ports -/

/-- What a port that nothing has touched reads as. -/
def portDflt : Nat → Port := fun _ => Port.reset
/-- One port. -/
def State.port (s : State) (p : Nat) : Port := SMap.get portDflt s.fab.ports p
/-- Change a port. -/
def State.setPort (s : State) (p : Nat) (f : Port → Port) : State :=
  { s with fab := { s.fab with ports := SMap.set portDflt s.fab.ports p (f (s.port p)) } }
/-- A drain of a port has been requested (R47). -/
def State.portDraining (s : State) (p : Nat) : Bool :=
  if p < 32 then bit (s.io.val .FP_DRAIN_PORTS_LO) p else bit (s.io.val .FP_DRAIN_PORTS_HI) (p - 32)
/-- UP or DEGRADED. -/
def Port.linked (x : Port) : Bool := x.st == .up || x.st == .degraded
/-- A port that routes may choose: linked, not draining, its neighbour not departed (R269). -/
def State.usable (s : State) (p : Nat) : Bool := (s.port p).linked && !s.portDraining p && !(s.port p).gone
/-- Ports with a link, ascending. -/
def State.linkedPorts (s : State) : List Nat := (List.range 64).filter (fun p => (s.port p).linked)
/-- Link cost (R270): COST, doubled while DEGRADED. -/
def State.cost (s : State) (p : Nat) : Nat :=
  u8 (s.plan.portEntry p) 4 * (if (s.port p).st = .degraded then 2 else 1)

/-! ### Flits (R257 to R260) -/

/-- The 256 bytes of a flit of a type (Table 11-1), with its CRC (R258). -/
def flitBytes (ty : Nat) (f : Flit) (l : LinkInfo) : List Byte :=
  let units := (f.body.length + 15) / 16
  let h := bytesOf (ty + 16 * f.cls + (if f.first then 64 else 0) + (if f.last then 128 else 0)) 1 ++
    bytesOf (units + 16 * f.path) 1 ++ bytesOf f.dest 2 ++ bytesOf f.src 2 ++ bytesOf (f.seq + 4096 * l.ack) 3 ++
    bytesOf (l.cls + 4 * l.credit) 1 ++ bytesOf f.kind 1 ++ bytesOf f.hops 1
  let body := (f.body ++ zeros 240).take 240
  h ++ bytesOf (crc32c (h ++ zeros 4 ++ body)).toNat 4 ++ body

/-- Bytes of a flit with the CRC field taken as zero. -/
def flitUncrc (b : List Byte) : List Byte := b.take 12 ++ zeros 4 ++ b.drop 16
/-- Whether a flit's CRC passes (R258). -/
def flitOk (b : List Byte) : Bool := (crc32c (flitUncrc b)).toNat == u32 b 12
/-- Whether a flit is stomped: its CRC is inverted (R261). -/
def flitStomped (b : List Byte) : Bool := (~~~ crc32c (flitUncrc b)).toNat == u32 b 12
/-- TYPE of a flit. -/
def flitType (b : List Byte) : Nat := u8 b 0 % 16
/-- The fields of a flit. -/
def flitOf (b : List Byte) : Flit where
  cls := u8 b 0 / 16 % 4
  first := bit (u8 b 0) 6
  last := bit (u8 b 0) 7
  path := u8 b 1 / 16 % 4
  dest := u16 b 2
  src := u16 b 4
  seq := le b 6 3 % 4096
  kind := u8 b 10
  hops := u8 b 11
  body := slice b 16 (16 * (u8 b 1 % 16))
/-- ACK and CREDIT of a flit. -/
def flitLink (b : List Byte) : LinkInfo := ⟨le b 6 3 / 4096, u8 b 9 % 4, u8 b 9 / 4⟩

/-- A flit striped over the lanes in use, in lane order (R257): 32 bytes a lane with eight, 64 with four. -/
def stripe (lanes : Nat) (b : List Byte) : List (Nat × List Byte) :=
  let ls := (List.range 8).filter (fun l => bit lanes l)
  let n := if ls.length = 0 then 0 else b.length / ls.length
  ls.zipIdx.map (fun l => (l.1, slice b (n * l.2) n))

/-- A flit leaves a port over its lanes in use. -/
def State.sendFlit (s : State) (p : Nat) (b : List Byte) : State :=
  s.mapIo (fun io => io.send (.flit p (stripe (s.port p).inUse b)))

/-- The class whose credit the next header returns: classes that have some take turns (R262). -/
def Port.nextCredit (x : Port) : Option Nat :=
  [1, 2, 3, 4].findSome? (fun i =>
    let c := (x.lastCredit + i) % 4
    if 0 < x.owed.getD c 0 then some c else none)

/-- Link fields of the next flit sent, and the port after it. -/
def Port.linkOut (x : Port) : LinkInfo × Port :=
  let ack := (x.rxSeq + 4095) % 4096
  match x.nextCredit with
  | none => (⟨ack, 0, 0⟩, x)
  | some c =>
    let n := min 63 (x.owed.getD c 0)
    (⟨ack, c, n⟩, { x with lastCredit := c, owed := x.owed.set c (x.owed.getD c 0 - n) })

/-- A flit with nothing in it. -/
def Flit.blank : Flit := ⟨0, false, false, 0, 0, 0, 0, 0, 0, []⟩

/-- Send an IDLE, NACK or CTRL flit (R259). -/
def State.sendLink (s : State) (p ty : Nat) (body : List Byte) : State :=
  let r := (s.port p).linkOut
  (s.setPort p (fun _ => r.2)).sendFlit p (flitBytes ty { Flit.blank with body := body } r.1)

/-- Count a class 0 flit on an egress port (R282): where some port has sent more than C0_PORT_FLITS in the last 1,200 mt, the
window counts, once for the device (log entry 161). -/
def State.countC0 (s : State) (p : Nat) : State :=
  let now := s.mer.now
  let ts := (s.port p).c0.filter (fun t => decide (now < t + 1200)) ++ [now]
  let s := s.setPort p (fun x => { x with c0 := ts })
  let counted := match s.fab.c0At with | some t => decide (now < t + 1200) | none => false
  if s.plan.has 0x22 = true ∧ u16 (s.plan.sec 0x22) 0 < ts.length ∧ counted = false then
    { s with
      fab := { s.fab with c0At := some now }
      io := (s.io.inc .FB_C0_OVER).event .FB_TRAFFIC_EVENT 0 4 }
  else s

/-- A class returns credit for a flit that has left a receive buffer (R262). -/
def State.owe (s : State) (src : Option Nat) (c : Nat) : State :=
  match src with
  | some p => s.setPort p (fun x => { x with owed := x.owed.set c (x.owed.getD c 0 + 1) })
  | none => s

/-- The ingress port of a flit, and what tells the flits of one message from those of another on a link (R276): messages of one
source, destination, kind and PATH follow one path in order (R272). -/
def TxItem.ident (t : TxItem) : Option Nat × Nat × Nat × Nat :=
  (t.src, t.flit.src, t.flit.dest, t.flit.kind + 256 * t.flit.path)

/-- The flit of a class that may leave next: the message being sent goes on, or the next one begins (R262, R276). -/
def Port.ofClass (x : Port) (c : Nat) : Option TxItem :=
  if x.credits.getD c 0 = 0 then none
  else
    match x.cur.getD c none with
    | none => x.waiting.find? (fun t => t.flit.cls == c)
    | some i => x.waiting.find? (fun t => t.flit.cls == c && t.ident.2 == i.2)

/-- The queue of classes 1 and 2 that a flit waits in (R390). -/
def TxItem.queue (t : TxItem) : Nat := drrKey t.group t.flit.cls

/-- The flits of classes 1 and 2 that may leave next: the message being sent in a class goes on, or the first of each share
group's begins. -/
def Port.shared (x : Port) : List TxItem :=
  [1, 2].flatMap (fun c =>
    match x.ofClass c, x.cur.getD c none with
    | none, _ => []
    | some t, some _ => [t]
    | some _, none =>
      let ws := x.waiting.filter (fun t => t.flit.cls == c)
      (ws.map (·.group)).eraseDups.filterMap (fun g => ws.find? (fun t => t.group == g)))

/-- The queue of classes 1 and 2 that is next: the one of largest deficit, weight 0 last (R390). -/
def Port.byShares (x : Port) (p : Plan) : Option TxItem :=
  let rank := fun (t : TxItem) => (p.weight t.group t.flit.cls != 0, SMap.get (fun _ => (0 : Int)) x.deficit t.queue)
  x.shared.foldl (fun best t =>
    match best with
    | none => some t
    | some b => if (rank t).1 && !(rank b).1 || (rank t).1 == (rank b).1 && decide ((rank b).2 < (rank t).2) then some t else some b) none

/-- The waiting flit that leaves next, of those with credit (R390, Table 11-2): class 3 where 31 flits have left since its
last, class 0, what else class 3 has (log entry 35), then classes 1 and 2 by shares. -/
def Port.pick (x : Port) (p : Plan) : Option TxItem :=
  match x.ofClass 3, x.ofClass 0 with
  | some t, some u => if 31 ≤ x.since3 then some t else some u
  | none, some u => some u
  | some t, none => some t
  | none, none => x.byShares p

/-- The port after a flit of classes 1 or 2 has left: its queue has had one flit, and a queue that empties forfeits its
deficit (R390). -/
def Port.shareOut (x : Port) (p : Plan) (t : TxItem) : Port :=
  if t.flit.cls = 1 ∨ t.flit.cls = 2 then
    let qs := (x.waiting.filter (fun u => u.flit.cls == 1 || u.flit.cls == 2)).map TxItem.queue
    let d := p.drr x.deficit (t.queue :: qs).eraseDups t.queue 1
    { x with deficit := if qs.contains t.queue then d else SMap.set (fun _ => 0) d t.queue 0 }
  else x

/-- Whether a port sends DATA flits: survey's before it is UP. -/
def Port.sends (x : Port) : Bool := x.linked || x.st == .survey || x.st == .miswired

/-- The command that waits for a flit to leave completes DONE (R288, R290). -/
def State.txLeft (s : State) (cmd : Option Nat) : State :=
  match cmd with
  | some id => s.finish id stDone 0
  | none => s

/-- Send what waits on a port, while it has credit and the replay buffer has room (R259, R262). -/
def pumpPort (s : State) (p : Nat) : Nat → State
  | 0 => s
  | fuel + 1 =>
    let x := s.port p
    if x.sends = false ∨ 1024 ≤ x.replay.length then s
    else
      match x.pick s.plan with
      | none => s
      | some t =>
        let f := { t.flit with seq := x.txSeq }
        let s := s.setPort p (fun x => { x with
          since3 := if f.cls = 3 then 0 else x.since3 + 1, txSeq := (x.txSeq + 1) % 4096, replay := x.replay ++ [f], waiting := x.waiting.erase t
          credits := x.credits.set f.cls (x.credits.getD f.cls 0 - 1)
          cur := x.cur.set f.cls (if f.last then none else some t.ident) })
        let r := (s.port p).linkOut
        let s := s.setPort p (fun _ => r.2.shareOut s.plan t)
        let s := (s.sendFlit p (flitBytes 1 f r.1)).mapIo (fun io => io.addWide .FB_TX_FLITS_LO p 1)
        let s := s.owe t.src f.cls
        let s := s.txLeft t.cmd
        pumpPort (if f.cls = 0 then s.countC0 p else s) p fuel

/-- Pump a port. -/
def State.pump (s : State) (p : Nat) : State := pumpPort s p (s.port p).waiting.length

/-- Put flits on a port's egress queue and send what can be sent. -/
def State.egress (s : State) (p : Nat) (ts : List TxItem) : State :=
  (s.setPort p (fun x => { x with waiting := x.waiting ++ ts })).pump p

/-! ### Tree flits (R290) -/

/-- Child ports of a tree that a flit may take now: those not pruned. -/
def Tree.open (t : Tree) : List Nat :=
  (List.range 64).filter (fun p => bit t.kids p && !(t.pruned.any (fun x => x.1 == p)))

/-- Whether a port can take a tree flit at once: credit, room in the replay buffer, no other message of its class in
between. -/
def Port.takes (x : Port) (t : TxItem) : Bool :=
  x.sends && decide (0 < x.credits.getD t.flit.cls 0) && decide (x.replay.length < 1024) &&
  !(x.waiting.any (fun w => w.flit.cls == t.flit.cls)) &&
  (match x.cur.getD t.flit.cls none with | none => true | some i => i.2 == t.ident.2)

/-- Child ports that a GRAFT restores come back at a message boundary (R292). -/
def Tree.regraft (t : Tree) : Tree :=
  if t.mid then t else { t with pruned := t.pruned.filter (fun p => !t.grafts.contains p.1), grafts := [] }

/-- Send tree flits on every child port that is not pruned, while every such port can take them (R290). -/
def pumpTree (s : State) (id : Nat) : Nat → State
  | 0 => s
  | fuel + 1 =>
    match s.fab.trees.at id with
    | none => s
    | some t =>
      let t := t.regraft
      match t.queue with
      | [] => { s with fab := { s.fab with trees := s.fab.trees.put id { t with waitSince := none } } }
      | f :: rest =>
        if t.open.all (fun p => (s.port p).takes f) then
          let t := { t with
            queue := rest, waitSince := none, mid := !f.flit.last
            flow := if f.flit.last then ((if f.flit.first then u32 f.flit.body 4 else t.flow) + 1) % 2 ^ 32
              else if f.flit.first then u32 f.flit.body 4 else t.flow }
          let s := { s with fab := { s.fab with trees := s.fab.trees.put id t } }
          let s := t.open.foldl (fun (s : State) p => s.egress p [⟨f.flit, none, f.group, none⟩]) s
          pumpTree ((s.owe f.src f.flit.cls).txLeft f.cmd) id fuel
        else
          { s with fab := { s.fab with trees := s.fab.trees.put id { t with waitSince := some (t.waitSince.getD s.mer.now) } } }

/-- Pump every tree that has flits waiting. -/
def State.pumpTrees (s : State) : State :=
  s.fab.trees.list.foldl (fun (s : State) e => if e.2.queue.isEmpty then s else pumpTree s e.1 e.2.queue.length) s

/-- Flits join a tree's queue. -/
def State.treeSend (s : State) (id : Nat) (ts : List TxItem) : State :=
  let s := { s with fab := { s.fab with trees := s.fab.trees.upd id (fun t => { t with queue := t.queue ++ ts }) } }
  match s.fab.trees.at id with
  | some t => pumpTree s id (t.queue.length + 1)
  | none => s

/-! ### Routes (R270 to R272) -/

/-- Own distance to a grid reference; 255: unreachable. -/
def State.distTo (s : State) (d : Nat) : Nat :=
  if d = s.plan.ref then 0 else SMap.get (fun _ => 255) s.fab.dist d
/-- Route choices to a destination. -/
def State.choices (s : State) (d : Nat) : List (Bool × Nat) := SMap.get (fun _ => []) s.fab.choices d

/-- The pin that covers a destination and class: its ports, and FALLBACK (R271). -/
def Plan.pin (p : Plan) (d c : Nat) : Option (List Nat × Bool) :=
  if p.has 0x51 then
    let sec := p.sec 0x51
    ((chunks (sec.drop 16) 16 (u16 sec 0)).find? (fun e =>
      decide (u16 e 0 ≤ d) && decide (d ≤ u16 e 2) && bit (u8 e 4) c)).map (fun e =>
        (([6, 7, 8, 9].map (u8 e)).filter (· != 0xFF), bit (u8 e 5) 0))
  else none

/-- The unpinned port of a flit: a usable primary by PATH, else the first usable alternate (R272). -/
def State.routeFree (s : State) (d path : Nat) : Option Nat :=
  let cs := (s.choices d).filter (fun c => s.usable c.2)
  let ps := cs.filter (fun c => !c.1)
  if 0 < ps.length then (ps[path % ps.length]?).map (·.2) else (cs.head?).map (·.2)

/-- The port that a flit for a grid reference leaves by (R272). -/
def State.route (s : State) (d c path : Nat) : Option Nat :=
  match s.plan.pin d c with
  | some (ports, fallback) =>
    let ps := ports.filter s.usable
    if 0 < ps.length then ps[path % ps.length]? else if fallback then s.routeFree d path else none
  | none => s.routeFree d path

/-- Send flits towards a grid reference, or drop and count them (R272). -/
def State.forward (s : State) (d c path : Nat) (ts : List TxItem) : State :=
  match s.route d c path with
  | some p => s.egress p ts
  | none =>
    let s := s.mapIo (fun io => io.add .FB_NO_ROUTE 0 ts.length)
    ts.foldl (fun (s : State) t => (s.owe t.src t.flit.cls).txLeft t.cmd) s

/-! ### Messages (R276) -/

/-- The 32-byte message header (Table 12-1), ahead of the payload. -/
def msgBytes (m : Msg) : List Byte :=
  bytesOf m.conn 2 ++ bytesOf m.epoch 2 ++ bytesOf m.mseq 4 ++ bytesOf m.payload.length 4 ++ bytesOf m.window 2 ++
  bytesOf m.tag 2 ++ bytesOf m.arg 8 ++ bytesOf m.digest 8 ++ m.payload

/-- The flits of a run of body bytes. -/
def flitsOf (cls path dest src kind hops : Nat) (b : List Byte) : List Flit :=
  let n := max 1 ((b.length + 239) / 240)
  (List.range n).map (fun i => ⟨cls, i == 0, i + 1 == n, path, dest, src, 0, kind, hops, slice b (240 * i) 240⟩)

/-- Flits of this device, as they wait for a port; a command may complete when the last has left. -/
def ownTx (fs : List Flit) (group : Nat := 0) (cmd : Option Nat := none) : List TxItem :=
  fs.map (fun f => ⟨f, none, group, if f.last then cmd else none⟩)

/-- Send a unicast message; answers whether it found a way. Flits that a share group sends are counted for it (R396), and a
command may complete with the last flit. -/
def State.sendTo (s : State) (group : Option Nat) (d cls path kind : Nat) (m : Msg) (cmd : Option Nat := none) : Bool × State :=
  let fs := flitsOf cls path d s.plan.ref kind s.plan.maxHops (msgBytes { m with src := s.plan.ref })
  let s := match group with
    | some g => s.mapIo (fun io => io.addWide .SC_GRP_FLITS_LO g fs.length)
    | none => s
  ((s.route d cls path).isSome, s.forward d cls path (ownTx fs (group.getD 0) cmd))

/-- Send a link-local message on a port: survey's without a message header (R267). -/
def State.sendLocal (s : State) (p kind : Nat) (b : List Byte) : State :=
  s.egress p (ownTx (flitsOf 3 0 0 s.plan.ref kind 1 b))

/-- Send a message of link-local kind with its header (R301 to R303). -/
def State.sendNear (s : State) (p kind : Nat) (m : Msg) : State :=
  s.sendLocal p kind (msgBytes { m with src := s.plan.ref })

/-- Send a flooded body of an origin on every linked port (R267). -/
def State.floodOn (s : State) (dest kind : Nat) (b : List Byte) : State :=
  s.linkedPorts.foldl (fun s p => s.egress p (ownTx (flitsOf 3 0 dest s.plan.ref kind s.plan.maxHops b))) s

/-- Forward a flooded body on every linked port but the one it came on, with its origin as SRC and one hop fewer than the flit
that brought it; without a hop left it goes no further (R267, R272; log entry 162). -/
def State.floodFrom (s : State) (p dest kind origin : Nat) (b : List Byte) : State :=
  let h := (s.port p).floodHops.getD s.plan.maxHops
  if h = 0 then s.mapIo (fun io => io.inc .FB_HOP_EXPIRED)
  else s.linkedPorts.foldl (fun s q => if q = p then s else s.egress q (ownTx (flitsOf 3 0 dest origin kind (h - 1) b))) s

/-- DEPART's body (Table 11-5), naturally aligned (R7): grid reference, sequence, EFFECTIVE, reason. -/
def departBytes (ref seq effective reason : Nat) : List Byte :=
  bytesOf ref 2 ++ zeros 2 ++ bytesOf seq 4 ++ bytesOf effective 8 ++ bytesOf reason 1

/-- MASTER's body (Table 11-5), naturally aligned (R7): grid reference, sequence, and eligible, LOCKED, HOLDOVER as bits 0 to 2. -/
def masterBytes (ref seq : Nat) (eligible locked holdover : Bool) : List Byte :=
  bytesOf ref 2 ++ zeros 2 ++ bytesOf seq 4 ++
  bytesOf ((if eligible then 1 else 0) + (if locked then 2 else 0) + (if holdover then 4 else 0)) 1

/-- The next sequence of this device's floods. -/
def State.nextSeq (s : State) : Nat × State :=
  (s.fab.ownSeq, { s with fab := { s.fab with ownSeq := (s.fab.ownSeq + 1) % 2 ^ 32 } })

/-- Whether a flooded sequence is newer than the last one held from its origin, modulo 2^32; it is then held (R267). -/
def State.newer (s : State) (origin seq : Nat) : Option State :=
  let k := origin
  let last := SMap.get (fun _ => 0) s.fab.seqs k
  let d := (seq + 2 ^ 32 - (last - 1)) % 2 ^ 32
  if origin ≠ s.plan.ref ∧ (last = 0 ∨ (0 < d ∧ d < 2 ^ 31)) then
    some { s with fab := { s.fab with seqs := SMap.set (fun _ => 0) s.fab.seqs k (seq + 1) } }
  else none

/-- Announce a departure to the fabric (R269): reason 1 Shuttered, 2 drain, 3 shutdown. -/
def State.announceDepart (s : State) (effective reason : Nat) : State :=
  if s.plan.hasGrid then
    let (q, s) := s.nextSeq
    let s := { s with fab := { s.fab with departs := s.fab.departs.filter (fun (d : Depart) => d.ref != s.plan.ref) ++
      [(⟨s.plan.ref, effective, reason⟩ : Depart)] } }
    s.floodOn 0 4 (departBytes s.plan.ref q effective reason)
  else s

/-! ### A port goes DOWN (R273, Table 11-6) -/

/-- Route entries without a port. -/
def Fabric.dropPort (f : Fabric) (p : Nat) : Fabric :=
  { f with
    choices := (f.choices.map (fun e => (e.1, e.2.filter (fun c => c.2 != p)))).filter (fun e => !e.2.isEmpty)
    heard := SMap.drop (fun k => k / 16384 == p) f.heard }

/-- A verdict reduction without a port's aggregate (R302). -/
def Verdict.dropPort (v : Verdict) (p : Nat) : Verdict := { v with kids := v.kids.filter (fun k => k.port != p) }

/-- The first MSEQ of a tree that has not been sent on. -/
def Tree.unsent (t : Tree) : Nat :=
  match t.queue with
  | f :: _ => if f.flit.first then u32 f.flit.body 4 else t.flow
  | [] => t.flow

/-- A tree entry whose branch on a port is pruned (R291, R293): the first MSEQ not sent on it is kept. -/
def Tree.prune (t : Tree) (p : Nat) : Tree :=
  if bit t.kids p && !(t.pruned.any (fun x => x.1 == p)) then
    { t with pruned := t.pruned ++ [(p, t.unsent)], grafts := t.grafts.erase p } else t

/-- Prune a tree's branch on a port and count it (R291); a message cut short on the port is over. -/
def State.pruneTree (s : State) (id p : Nat) : State :=
  match s.fab.trees.at id with
  | none => s
  | some t =>
    if bit t.kids p && !(t.pruned.any (fun x => x.1 == p)) then
      let s := { s with
        fab := { s.fab with trees := s.fab.trees.put id (t.prune p) }
        io := s.io.inc .FB_PRUNES }
      let s := s.setPort p (fun x => { x with cur := x.cur.map (fun o =>
        match o with | some i => (if i.2.2.1 = 16384 + id then none else some i) | none => none) })
      match s.fab.trees.at id with
      | some t => pumpTree s id (t.queue.length + 1)
      | none => s
    else s

/-- Kinds that go to the neighbour only: survey's and the verdict tree's (Tables 11-5 and 12-2). -/
def linkKind (k : Nat) : Bool := decide (k < 0x10) || (decide (0x20 ≤ k) && decide (k ≤ 0x22))

/-- A port leaves service into a state: it goes out of every route, its flits are re-injected in SEQ order through the
routes now in force, and its trees' branches are pruned (R273, R274, R293). Link-local flits and those of trees go, and
what FB_CTRL has asked of it stays (R256). -/
def State.portLost (s : State) (p : Nat) (st : PortState) : State :=
  let x := s.port p
  let back := (x.replay.map (fun f => (⟨f, none, 0, none⟩ : TxItem))) ++ x.waiting
  let s := s.setPort p (fun x => { Port.reset with
    st := st, cause := x.cause, disabled := x.disabled, since := s.mer.now, failed := x.failed, symErr := x.symErr })
  let s := { s with fab := { s.fab.dropPort p with
    commit := s.fab.commit.dropPort p, flip := s.fab.flip.dropPort p } }
  let s := (s.fab.trees.list.map (·.1)).foldl (fun s id => s.pruneTree id p) s
  let s := (List.range 64).foldl (fun (s : State) q =>
    if (s.port q).cur.any (fun o => match o with | some i => i.1 == some p | none => false) then
      s.setPort q (fun x => { x with cur := x.cur.map (fun o =>
        match o with | some i => (if i.1 = some p then none else some i) | none => none) })
    else s) s
  back.foldl (fun s t =>
    if t.flit.dest < 16384 ∧ linkKind t.flit.kind = false then
      s.forward t.flit.dest t.flit.cls t.flit.path [t]
    else (s.owe t.src t.flit.cls).txLeft t.cmd) s

/-- A port goes DOWN (R273). -/
def State.portDown (s : State) (p : Nat) : State :=
  (s.portLost p .down).mapIo (fun io => io.event .FB_EVENT p 1)

/-! ### Lasers and training (R256) -/

/-- PORT_DISABLE (R256): FB_CTRL.DISABLE turns the laser off and makes the port DARK until ENABLE. -/
def execPortDisable (p : Fin 64) (s : State) : Result := if s.barShut then ignored s else
  .next (((if (s.port p).st = .dark then s else s.portLost p .dark)).setPort p (fun x =>
    { x with disabled := true, cause := 0, failed := 0 }))

/-- Training of a port begins. -/
def State.trainPort (s : State) (p : Nat) : State :=
  s.setPort p (fun x => { Port.reset with st := .training, disabled := x.disabled, since := s.mer.now, symErr := x.symErr })

/-- Training of a port that the plan enables and software has not disabled begins (R256). -/
def State.lightPort (s : State) (p : Nat) : State :=
  if s.plan.portOn p && !(s.port p).disabled then s.trainPort p else s

/-- PORT_ENABLE (R256): FB_CTRL.ENABLE turns the laser of a DARK or DOWN port on and starts its training. A port whose
entry the plan does not enable stays DARK. -/
def execPortEnable (p : Fin 64) (s : State) : Result := if s.barShut then ignored s else
  let x := s.port p
  let s := s.setPort p (fun x => { x with disabled := false })
  .next (if (x.st = .dark ∨ x.st = .down) ∧ s.plan.portOn p = true then s.trainPort p else s)

/-- FEC_LOCK (R256): FEC lock on all eight lanes within 5,000,000 mt takes a training port to SURVEY. -/
def execFecLock (p : Fin 64) (s : State) : Result :=
  let x := s.port p
  if x.st = .training ∧ x.since ≤ s.mer.now ∧ s.mer.now - x.since ≤ 5000000 then
    .next (s.setPort p (fun x => { x with
      st := .survey, inUse := 255, failed := 0, helloAt := s.mer.now - s.plan.helloMt, heard := s.mer.now }))
  else ignored s

/-- TRAINING_RETRY (R256): a port that has not locked tries again every 100,000,000 mt. -/
def execTrainingRetry (p : Fin 64) (s : State) : Result :=
  let x := s.port p
  if x.st = .training ∧ x.since + 100000000 ≤ s.mer.now then .next (s.setPort p (fun x => { x with since := s.mer.now }))
  else ignored s

/-- REQUALIFY (R265): a DEGRADED port returns to eight lanes in a maintenance slot. -/
def execRequalify (p : Fin 64) (s : State) : Result := if s.barShut then ignored s else
  if (s.port p).st = .degraded ∧ s.inMaintenance = true then
    .next ((s.setPort p (fun x => { x with st := .up, inUse := 255, failed := 0 })).pump p)
  else ignored s

/-! ### Lanes (R264) -/

/-- The healthy half of the lanes: 0 to 3 if they are whole, otherwise 4 to 7. -/
def healthyHalf (failed : Nat) : Option Nat :=
  if failed % 16 = 0 then some 0x0F else if failed / 16 % 16 = 0 then some 0xF0 else none

/-- Resend the unacknowledged flits of a port in order, each header with its own ACK and CREDIT (R259, R260, R262). -/
def State.resend (s : State) (p : Nat) : State :=
  (s.port p).replay.foldl (fun (s : State) f =>
    let l := (s.port p).linkOut
    (s.setPort p (fun _ => l.2)).sendFlit p (flitBytes 1 f l.1)) s

/-- Lanes of a port have failed: the end that detects it says so with CTRL DEGRADE on the lanes it had, both ends move to the
healthy half, confirm with CTRL and resend from the last ACK, or the port is DOWN (R264; log entry 163). -/
def State.degrade (s : State) (p failed : Nat) (tell : Bool) : State :=
  let x := s.port p
  match healthyHalf failed with
  | some half =>
    if s.plan.portDegrades p = true ∧ x.linked = true ∧ (x.inUse = 255 ∨ x.inUse = half) then
      let s := if tell then s.sendLink p 3 [1#8, BitVec.ofNat 8 failed] else s
      let s := s.setPort p (fun x => { x with st := .degraded, inUse := half, failed := failed })
      let s := s.sendLink p 3 [2#8, BitVec.ofNat 8 half]
      let s := if x.st = .degraded then s else s.mapIo (fun io => io.event .FB_EVENT p 2)
      s.resend p
    else if (failed &&& x.inUse) = 0 then s.setPort p (fun x => { x with failed := failed })
    else (s.setPort p (fun x => { x with failed := failed })).portDown p
  | none => (s.setPort p (fun x => { x with failed := failed })).portDown p

/-- LANE_FAIL (R264, R273): lane `lane` of a port fails. -/
def execLaneFail (p : Fin 64) (lane : Fin 8) (s : State) : Result :=
  let x := s.port p
  if x.sends = false then ignored s
  else .next (s.degrade p (x.failed ||| 2 ^ lane.val) true)

/-! ### Receiving (R258 to R262) -/

/-- ACK and CREDIT of a flit whose CRC has passed are taken (R258, R259, R262). -/
def State.takeLink (s : State) (p : Nat) (l : LinkInfo) : State :=
  let x := s.port p
  let n := match x.replay with
    | [] => 0
    | f :: _ => (l.ack + 1 + 4096 - f.seq) % 4096
  let n := if n ≤ x.replay.length then n else 0
  let limit := [512, 640, 768, 128].getD l.cls 0
  (s.setPort p (fun x => { x with
    replay := x.replay.drop n
    resent := if 0 < n then 0 else x.resent
    credits := x.credits.set l.cls (min limit (x.credits.getD l.cls 0 + l.credit)) })).pump p|>.pumpTrees

/-- A kind whose messages are forwarded; the others are discarded at the first device that would forward them (R277). -/
def kindKnown (k : Nat) : Bool :=
  (decide (0x10 ≤ k) && decide (k ≤ 0x1E)) || (decide (0x20 ≤ k) && decide (k ≤ 0x23))

/-- Whether a flit goes on to another device, by its DEST and kind (R267, R272, R278). Survey's floods end here, and go on from
their own row (log entry 162). -/
def State.passes (s : State) (f : Flit) : Bool :=
  match f.dest / 16384 with
  | 0 => f.dest != s.plan.ref && !(f.dest == 0 && (f.kind == 4 || f.kind == 5 || (linkKind f.kind && f.hops == 1)))
  | 1 => true
  | _ => false

/-- The ports that a flit from a port is forwarded on (R272, R290). -/
def State.passPorts (s : State) (p : Nat) (f : Flit) : List Nat :=
  if !s.passes f || !kindKnown f.kind then []
  else if f.dest < 16384 then (if f.hops = 0 then [] else (s.route f.dest f.cls f.path).toList)
  else match s.fab.trees.at (f.dest % 4096) with
    | some t => t.open.filter (fun q => q != p)
    | none => []

/-- A NACK names the last good SEQ (R260). -/
def State.nack (s : State) (p : Nat) : State :=
  ((s.setPort p (fun x => { x with nacked := some s.mer.now })).sendLink p 2 []).mapIo (fun io => io.inc .FB_NACK_TX p)

/-- A flit whose CRC fails: it is discarded and one NACK sent; a stomped flit goes in silence (R260, R261). One that was
being forwarded cut-through ends at the egress port with its CRC inverted. -/
def State.badFlit (s : State) (p : Nat) (b : List Byte) : State :=
  if flitStomped b then s.mapIo (fun io => io.inc .FB_STOMPED p)
  else
    let s := s.mapIo (fun io => io.inc .FB_CRC_ERRORS p)
    let f := flitOf b
    let s :=
      if flitType b = 1 ∧ f.seq = (s.port p).rxSeq then
        let g := flitBytes 1 { f with hops := f.hops - 1, seq := 0 } ⟨0, 0, 0⟩
        let bad := g.take 12 ++ bytesOf (~~~ crc32c (flitUncrc g)).toNat 4 ++ g.drop 16
        (s.passPorts p f).foldl (fun (s : State) q => (s.sendFlit q bad).mapIo (fun io => io.inc .FB_STOMPED q)) s
      else s
    if (s.port p).nacked.isSome then s else s.nack p

/-- An accepted DATA flit: forwarded, replicated, or kept for its message's own row (R267, R272, R277, R278, R290). A message of
a Reserved kind that would be forwarded is counted here, one that ends here by its own row. -/
def State.acceptFlit (s : State) (p : Nat) (f : Flit) : State :=
  let out : TxItem := ⟨{ f with hops := f.hops - 1 }, some p, 0, none⟩
  let gone := s.owe (some p) f.cls
  if 49152 ≤ f.dest then gone.mapIo (fun io => io.inc .FB_NO_ROUTE)
  else if !s.passes f then gone.setPort p (fun x => { x with floodHops := if f.kind < 0x10 ∨ f.kind = 0x23 then some f.hops else x.floodHops })
  else if !kindKnown f.kind then gone.mapIo (fun io => if f.first then io.inc .FB_BAD_KIND else io)
  else if 16384 ≤ f.dest then
    match s.fab.trees.at (f.dest % 4096) with
    | some t =>
      if f.kind = 0x1A then s.treeSend (f.dest % 4096) [out]
      else (t.open.foldl (fun s q => if q = p then s else s.egress q [⟨{ f with hops := f.hops - 1 }, none, 0, none⟩]) s).owe (some p) f.cls
    | none => gone
  else if f.hops = 0 then gone.mapIo (fun io => io.inc .FB_HOP_EXPIRED)
  else s.forward f.dest f.cls f.path [out]

/-- RX_DATA_FLIT (R258 to R262, R272): the 256 bytes of a DATA flit arrive. With the expected SEQ and a good CRC it is
accepted and acknowledged; otherwise it is discarded, and one NACK sent. A MISWIRED port takes HELLO only (R268). -/
def execRxDataFlit (p : Fin 64) (b : List Byte) (s : State) : Result :=
  let x := s.port p
  if x.sends = false ∨ b.length ≠ 256 then ignored s
  else if flitOk b = false then .next (s.badFlit p b)
  else if flitType b ≠ 1 then ignored s
  else
    let f := flitOf b
    let s := s.takeLink p (flitLink b)
    if f.seq = (s.port p).rxSeq then
      let s := (s.setPort p (fun x => { x with rxSeq := (x.rxSeq + 1) % 4096, nacked := none })).mapIo
        (fun io => io.addWide .FB_RX_FLITS_LO p 1)
      .next ((if x.st = .miswired ∧ f.kind ≠ 1 then s.owe (some p.val) f.cls else s.acceptFlit p f).sendLink p 0 [])
    else .next (if (s.port p).nacked.isSome then s else s.nack p)

/-- RX_IDLE (R259): ACK and CREDIT of an IDLE flit are taken. -/
def execRxIdle (p : Fin 64) (b : List Byte) (s : State) : Result :=
  if (s.port p).sends = false ∨ b.length ≠ 256 then ignored s
  else if flitOk b = false then .next (s.badFlit p b)
  else if flitType b ≠ 0 then ignored s
  else .next (s.takeLink p (flitLink b))

/-- RX_NACK (R260): the sender resends from the next SEQ; a SEQ resent 8 times without acknowledgement takes the port
DOWN. -/
def execRxNack (p : Fin 64) (b : List Byte) (s : State) : Result :=
  if (s.port p).sends = false ∨ b.length ≠ 256 then ignored s
  else if flitOk b = false then .next (s.badFlit p b)
  else if flitType b ≠ 2 then ignored s
  else
    let s := (s.takeLink p (flitLink b)).mapIo (fun io => io.inc .FB_NACK_RX p)
    let x := s.port p
    if x.replay.isEmpty then .next s
    else if 8 ≤ x.resent then .next ((s.mapIo (fun io => io.event .FB_EVENT p 7)).portDown p)
    else .next ((s.setPort p (fun x => { x with resent := x.resent + 1 })).resend p)

/-- RX_CTRL (R264): the neighbour's DEGRADE, with the lanes it has lost, moves both ends to the healthy half. -/
def execRxCtrl (p : Fin 64) (b : List Byte) (s : State) : Result :=
  if (s.port p).sends = false ∨ b.length ≠ 256 then ignored s
  else if flitOk b = false then .next (s.badFlit p b)
  else if flitType b ≠ 3 then ignored s
  else
    let s := s.takeLink p (flitLink b)
    if u8 b 16 = 1 then .next (s.degrade p ((s.port p).failed ||| u8 b 17) false) else .next s

/-- NACK_REPEAT (R260): a NACK without progress is repeated after 2,000 mt. -/
def execNackRepeat (p : Fin 64) (s : State) : Result :=
  match (s.port p).nacked with
  | some t => if (s.port p).sends = true ∧ t + 2000 ≤ s.mer.now then .next (s.nack p) else ignored s
  | none => ignored s

/-! ### Survey (R267 to R270) -/

/-- Whether a DEPART of this device is announced and not yet over. -/
def State.departing (s : State) : Bool := s.fab.departs.any (fun d => d.ref == s.plan.ref)

/-- The meridian state code (Table 3-1). -/
def merCode : MerState → Nat
  | .off => 0 | .free => 1 | .acquiring => 2 | .locked => 3 | .holdover => 4

/-- MASTER_ELIGIBLE of the plan in force (Table 3-2). -/
def Plan.eligible (p : Plan) : Bool := bit (u8 (p.sec 0x20) 5) 0

/-- The device id fused into the part. -/
def State.deviceId (s : State) : Nat := s.se.fuses.device

/-- HELLO's body (Table 11-5), naturally aligned (R7; log entry 164): device id, grid reference, FABRIC_ID, own port, lanes in use,
then meridian state in bits 0 to 2, MASTER_ELIGIBLE 3, DEPARTING 4. -/
def State.helloBytes (s : State) (p : Nat) : List Byte :=
  bytesOf s.deviceId 8 ++ bytesOf s.plan.ref 2 ++ zeros 2 ++ bytesOf s.plan.fabricId 4 ++ bytesOf p 1 ++
  bytesOf (s.port p).inUse 1 ++ bytesOf (merCode s.mer.st + (if s.plan.eligible then 8 else 0) + (if s.departing then 16 else 0)) 1

/-- HELLO_SEND (R267): every HELLO_US a HELLO leaves each port in SURVEY, UP or DEGRADED; a MISWIRED port exchanges HELLO
only (R268). -/
def execHelloSend (p : Fin 64) (s : State) : Result :=
  let x := s.port p
  if x.sends = true ∧ x.helloAt + s.plan.helloMt ≤ s.mer.now then
    .next ((s.setPort p (fun x => { x with helloAt := s.mer.now })).sendLocal p 1 (s.helloBytes p))
  else ignored s

/-- The cause that keeps a port from going UP (R268): 1 WRONG_NEIGHBOUR, 2 FOREIGN, 3 DUPLICATE, 4 LOOPBACK; 0 none. -/
def State.miswire (s : State) (p : Nat) (h : Hello) : Nat :=
  let e := s.plan.portEntry p
  if h.fabric ≠ s.plan.fabricId then 2
  else if h.device = s.deviceId then 4
  else if h.grid = s.plan.ref then 3
  else if (u16 e 2 ≠ 0xFFFF ∧ u16 e 2 ≠ h.grid) ∨ (u8 e 1 ≠ 0xFF ∧ u8 e 1 ≠ h.port) then 1
  else 0

/-- RX_HELLO (R268): the first HELLO of a port in SURVEY takes it UP or makes it MISWIRED; later ones keep it alive. -/
def execRxHello (p : Fin 64) (h : Hello) (s : State) : Result :=
  let x := s.port p
  if x.sends = false then ignored s
  else
    let s := s.setPort p (fun x => { x with heard := s.mer.now, nbrState := h.merState, nbrEligible := h.eligible })
    if x.st = .survey then
      let c := s.miswire p h
      let s := s.setPort p (fun x => { x with nbr := some (h.grid, h.port) })
      if c = 0 then
        let s := s.setPort p (fun x => { x with st := .up, credits := [512, 640, 768, 128] })
        let s := { s with fab := { s.fab with heard := SMap.set (fun _ => 255) s.fab.heard (16384 * p + h.grid) 0 } }
        .next ((s.mapIo (fun io => io.event .FB_EVENT p 0)).pump p)
      else
        .next ((s.setPort p (fun x => { x with st := .miswired, cause := c })).mapIo (fun io =>
          io.event .FB_EVENT p (match c with | 1 => 3 | 2 => 6 | 3 => 4 | _ => 5)))
    else .next s

/-- HELLO_MISS (R268, R273): DEAD_HELLOS missed HELLOs in a row take a port DOWN. -/
def execHelloMiss (p : Fin 64) (s : State) : Result :=
  let x := s.port p
  if x.sends = true ∧ x.heard + s.plan.deadHellos * s.plan.helloMt ≤ s.mer.now ∧ 0 < s.plan.helloMt then
    .next (s.portDown p)
  else ignored s

/-- Every destination that has been heard of. -/
def Fabric.dests (f : Fabric) : List Nat := (f.heard.map (fun e => e.1 % 16384)).eraseDups

/-- Distances to a destination by each usable port whose neighbour reaches it: (port, link cost plus the neighbour's distance,
that distance). -/
def State.offers (s : State) (d : Nat) : List (Nat × Nat × Nat) :=
  (((List.range 64).filter s.usable).map (fun p =>
    let h := SMap.get (fun _ => 255) s.fab.heard (16384 * p + d)
    (p, s.cost p + h, h))).filter (fun o => decide (o.2.2 < 255))

/-- Insert into a list sorted by a key. -/
def insertBy {α : Type} (key : α → Nat × Nat) (a : α) : List α → List α
  | [] => [a]
  | b :: bs =>
    if (key a).1 < (key b).1 ∨ ((key a).1 = (key b).1 ∧ (key a).2 ≤ (key b).2) then a :: b :: bs
    else b :: insertBy key a bs

/-- Least distance to a destination and its route choices: at most four primaries, then alternates (R270). -/
def State.bestRoute (s : State) (d : Nat) : Nat × List (Bool × Nat) :=
  let os := s.offers d
  let best := os.foldl (fun m o => min m o.2.1) 255
  let first := fun (o : Nat × Nat × Nat) => o.2.1 == best && decide (best < 255)
  let ps := (os.filter first).take 4
  let rest := os.filter (fun o => !first o && decide (o.2.2 < best))
  let alts := (rest.foldl (fun l o => insertBy (fun (o : Nat × Nat × Nat) => (o.2.1, o.1)) o l) []).take (4 - ps.length)
  (best, ps.map (fun o => (false, o.1)) ++ alts.map (fun o => (true, o.1)))

/-- The distance that a port is told for a destination: 255 on every port that gives the own least distance (R270). -/
def State.advertised (s : State) (p d : Nat) : Nat :=
  if d ≠ s.plan.ref ∧ (s.offers d).any (fun o => o.1 == p && o.2.1 == s.distTo d) = true then 255 else s.distTo d

/-- ROUTE flits on a port for destinations: at most 58 entries of 4 bytes each (Table 11-5). -/
def State.sendRoutes (s : State) (p : Nat) (ds : List Nat) : State :=
  let es := ds.map (fun d => bytesOf d 2 ++ bytesOf (s.advertised p d) 1 ++ [0#8])
  (List.range ((es.length + 57) / 58)).foldl (fun s i => s.sendLocal p 3 ((es.drop (58 * i)).take 58).flatten) s

/-- RX_ROUTE (R267, R270): the distances that the neighbour advertises, as destination and distance. -/
def execRxRoute (p : Fin 64) (es : List (Nat × Nat)) (s : State) : Result :=
  if (s.port p).linked = false then ignored s
  else .next { s with fab := { s.fab with heard := (es.take 58).foldl (fun m e =>
    SMap.set (fun _ => 255) m (16384 * p + e.1 % 16384) (e.2 % 256)) s.fab.heard } }

/-- ROUTE_REFRESH (R267): the full list is advertised on every linked port every 1,000 frames. -/
def execRouteRefresh (s : State) : Result :=
  let f := s.plan.frameLen
  if s.plan.hasGrid = true ∧ 0 < f ∧ s.mer.count / f % 1000 = 0 then
    .next (s.linkedPorts.foldl (fun s p => s.sendRoutes p (s.plan.ref :: s.fab.dests.filter (· != s.plan.ref))) s)
  else ignored s

/-- Whether this device is LOCKED on its own inputs (R59). -/
def Mer.ownLock (m : Mer) : Bool := (m.st == .locked && m.use == 1) || (m.use == 2 && m.localLocked)

/-- Whether it is in HOLDOVER on its own account, its source lost, and not because its master is (R59 and its example). -/
def Mer.ownHold (m : Mer) : Bool := m.st == .holdover && m.lost

/-- What this device says of its mastership. -/
def State.ownMaster (s : State) : MasterInfo := ⟨s.plan.ref, s.plan.eligible, s.mer.ownLock, s.mer.ownHold⟩

/-- The least of some grid references. -/
def leastRef (rs : List Nat) : Option Nat := rs.foldl (fun m r => match m with | some x => some (min x r) | none => some r) none

/-- The time master that survey shows (R59): the lowest eligible device LOCKED on its own inputs, else the lowest eligible one
in HOLDOVER, among this one and those that a route reaches. -/
def State.elected (s : State) : Option Nat :=
  let ms := s.ownMaster :: s.fab.masters.filter (fun (m : MasterInfo) => m.ref != s.plan.ref && (s.route m.ref 3 0).isSome)
  let locked := (ms.filter (fun (m : MasterInfo) => m.eligible && m.locked)).map (·.ref)
  let held := (ms.filter (fun (m : MasterInfo) => m.eligible && m.holdover)).map (·.ref)
  (leastRef locked).orElse (fun _ => leastRef held)

/-- Survey reports the master anew: a change takes effect at the first frame boundary after this (R59). -/
def State.electMaster (s : State) : State :=
  if s.plan.hasGrid = false then s
  else
    let e := s.elected
    let now := if s.mer.masterValid then some s.mer.master else none
    let m := s.mer
    if e = now then { s with mer := { m with nextMaster := none } }
    else
      let next := (e.isSome, e == some s.plan.ref, e.getD 0)
      if m.nextMaster = some next then s
      else
        let from' := if s.plan.frameLen = 0 then m.count else nextFrame s.plan.frameLen (m.count + 1)
        { s with mer := { m with nextMaster := some next, nextFrom := from' } }

/-- ROUTE_RECOMPUTE (R270, R273, R275): keeper cores compute every route anew and advertise the distances that changed. -/
def execRouteRecompute (s : State) : Result :=
  if s.plan.hasGrid = false then ignored s
  else
    let ds := (s.fab.dests ++ s.fab.dist.map (·.1)).eraseDups.filter (· != s.plan.ref)
    let old := s.fab
    let new := ds.map (fun d => (d, s.bestRoute d))
    let changed := (new.filter (fun e => SMap.get (fun _ => 255) old.dist e.1 != e.2.1)).map (·.1)
    let moved := new.any (fun e => SMap.get (fun _ => []) old.choices e.1 != e.2.2)
    let lost := new.any (fun e => e.2.1 == 255 && SMap.get (fun _ => 255) old.dist e.1 != 255)
    let s := { s with fab := { s.fab with
      dist := new.foldl (fun m (e : Nat × Nat × List (Bool × Nat)) => SMap.set (fun _ => 255) m e.1 e.2.1) s.fab.dist
      choices := new.foldl (fun m (e : Nat × Nat × List (Bool × Nat)) => SMap.set (fun _ => []) m e.1 e.2.2) s.fab.choices } }
    let s := s.mapIo (fun io => io.inc .FB_ROUTE_EPOCH)
    let s := if moved || !changed.isEmpty then s.mapIo (fun io => io.event .FB_EVENT_GLOBAL 0 0) else s
    let s := if lost then s.mapIo (fun io => io.event .FB_EVENT_GLOBAL 0 1) else s
    .next (if changed.isEmpty then s else s.linkedPorts.foldl (fun s p => s.sendRoutes p changed) s).electMaster

/-- RX_DEPART (R267, R269): a departure is noted and flooded on. -/
def execRxDepart (p : Fin 64) (origin seq effective reason : Nat) (s : State) : Result :=
  if (s.port p).linked = false then ignored s
  else
    match s.newer (origin % 16384) (seq % 2 ^ 32) with
    | none => ignored s
    | some s =>
      let s := { s with fab := { s.fab with departs := s.fab.departs.filter (fun (d : Depart) => d.ref != origin % 16384) ++
        [(⟨origin % 16384, effective, reason⟩ : Depart)] } }
      let s := s.mapIo (fun io => io.event .FB_EVENT_GLOBAL 0 2)
      .next (s.floodFrom p 0 4 (origin % 16384) (departBytes (origin % 16384) (seq % 2 ^ 32) effective reason))

/-- DEPART_EFFECTIVE (R269): at its EFFECTIVE instant the links of a departing device leave the routes. -/
def execDepartEffective (ref : Fin 16384) (s : State) : Result :=
  match s.fab.departs.find? (fun d => d.ref == ref.val) with
  | some d =>
    if d.ref ≠ s.plan.ref ∧ s.mer.reached d.effective = true then
      let ps := (List.range 64).filter (fun p => (s.port p).linked && (s.port p).nbr.map (·.1) == some ref.val)
      let s := ps.foldl (fun s p =>
        let s := s.setPort p (fun x => { x with gone := true })
        { s with fab := s.fab.dropPort p }) s
      .next { s with fab := { s.fab with
        departs := s.fab.departs.filter (fun (e : Depart) => e.ref != ref.val)
        masters := s.fab.masters.filter (fun (m : MasterInfo) => m.ref != ref.val) } }.electMaster
    else ignored s
  | none => ignored s

/-- What this device says of its mastership: eligible, LOCKED, HOLDOVER. -/
def State.masterSays (s : State) : Bool × Bool × Bool := (s.plan.eligible, s.mer.ownLock, s.mer.ownHold)

/-- MASTER_SEND (R267): the master sends MASTER once a frame, and every device on a change of its eligibility or state: LOCKED
and HOLDOVER say so of its own inputs (R59). -/
def execMasterSend (s : State) : Result :=
  let fr := s.mer.count / s.plan.frameLen + 1
  if s.plan.hasGrid = true ∧ s.mer.st ≠ .off ∧ 0 < s.plan.frameLen ∧
      (s.mer.said ≠ some s.masterSays ∨ (s.mer.masterValid = true ∧ s.mer.masterSelf = true ∧ s.mer.saidFrame ≠ fr)) then
    let s := { s with mer := { s.mer with saidFrame := fr, said := some s.masterSays } }
    let (q, s) := s.nextSeq
    .next (s.floodOn 0 5 (masterBytes s.plan.ref q s.plan.eligible s.mer.ownLock s.mer.ownHold))
  else ignored s

/-- RX_BAD_KIND (R267, R277): a message of a Reserved kind that ends at this device is discarded and counted. -/
def execRxBadKind (p : Fin 64) (kind : Fin 256) (s : State) : Result :=
  if (s.port p).linked = true ∧ ((0x06 ≤ kind.val ∧ kind.val < 0x10) ∨ kind.val = 0 ∨
      (0x10 ≤ kind.val ∧ kindKnown kind.val = false)) then
    .next (s.mapIo (fun io => io.inc .FB_BAD_KIND))
  else ignored s

end Sys2Proof.Machine
end

