-- ==== Sys2Proof/Machine/Meridian.lean ====
section
/-! DEFINITION. Machine/Meridian.lean: the meridian count's sources, states and steps, its slots, and the messages that carry
time and mastership (chapter 3; R267). -/

namespace Sys2Proof.Machine

/-! ### The meridian section (Table 3-2) -/

/-- SOURCE. -/
def Plan.merSource (p : Plan) : Nat := u8 (p.sec 0x20) 4
/-- Whether the falling edge of MER_PULSE is selected. -/
def Plan.pulseFalls (p : Plan) : Bool := bit (u8 (p.sec 0x20) 5) 1
/-- LOCK_WINDOW_MT. -/
def Plan.lockWindow (p : Plan) : Nat := u16 (p.sec 0x20) 6
/-- LOCK_FRAMES. -/
def Plan.lockFrames (p : Plan) : Nat := u16 (p.sec 0x20) 8
/-- FABRIC_TOLERANCE_MT. -/
def Plan.fabricTol (p : Plan) : Nat := u16 (p.sec 0x20) 10
/-- HOLDOVER_ALARM_MS in mt. -/
def Plan.holdAlarm (p : Plan) : Nat := u32 (p.sec 0x20) 0xC * 1000000
/-- PRESET. -/
def Plan.preset (p : Plan) : Nat := u64 (p.sec 0x20) 0x10
/-- CABLE_DELAY_MT. -/
def Plan.cableDelay (p : Plan) : Nat := u32 (p.sec 0x20) 0x18

/-- Whether another device is the master in force. -/
def Mer.follows (m : Mer) : Bool := m.masterValid && !m.masterSelf

/-- Whether the local inputs are the source (Table 3-2, R59). -/
def State.useLocal (s : State) : Bool :=
  s.plan.merSource == 0 || (s.plan.merSource == 2 && s.plan.hasGrid && !s.mer.follows)

/-- Whether the fabric is the source. -/
def State.useFabric (s : State) : Bool := s.plan.merSource != 0 && s.plan.hasGrid && s.mer.follows

/-- A signed error as MER_PHASE_ERR and MER_LOCAL_OFFSET hold it (R487). -/
def sat32 (e : Int) : Nat := (BitVec.ofInt 32 (max (-(2 ^ 31)) (min (2 ^ 31 - 1) e))).toNat

/-- The own frame boundary nearest to a count. -/
def nearestFrame (f : Nat) (c : Int) : Int := if f = 0 then c else (c + (f : Int) / 2).ediv f * f

/-- Change the meridian block. -/
def State.setMer (s : State) (f : Mer → Mer) : State := { s with mer := f s.mer }

/-- A LOCKED device enters HOLDOVER (Table 3-1). -/
def State.toHoldover (s : State) : State :=
  { s with
    mer := { s.mer with st := .holdover, holdSince := s.mer.now, alarmed := false, good := 0, rejected := 0 }
    io := s.io.event .MER_EVENT 0 1 }.electMaster

/-- The source in use is lost (Table 3-1, R57): LOCKED becomes HOLDOVER, ACQUIRING counts its frames again, and no step onto
the source is needed or asked for any more. MER_STATUS.USE keeps the source last used: the spec does not say what it reads
meanwhile (log entry 145). -/
def State.loseSource (s : State) : State :=
  let s := s.setMer (fun m => { m with stepNeeded := false, stepAsked := false, good := 0, rejected := 0 })
  let m := s.mer
  if m.st = .locked then (s.setMer (fun m => { m with lost := true, spaced := true })).toHoldover
  else if m.st = .acquiring then
    { s with
      mer := { m with lost := true, spaced := true }
      io := if m.lost then s.io else s.io.event .MER_EVENT 0 1 }
  else if m.st = .holdover then (s.setMer (fun m => { m with lost := true })).electMaster
  else s

/-- The master followed is not LOCKED (R58, R59): a LOCKED follower reports HOLDOVER, and so does one in ACQUIRING where the
master is in HOLDOVER; its count goes on following the master. -/
def State.followHold (s : State) (holdover : Bool) : State :=
  if s.mer.st = .locked ∨ (s.mer.st = .acquiring ∧ holdover = true) then s.toHoldover else s

/-- The device locks (Table 3-1). -/
def State.lock (s : State) : State :=
  ({ s with
    mer := { s.mer with st := .locked, everLocked := true, spaced := false, lost := false, alarmed := false }
    io := s.io.event .MER_EVENT 0 0 }).electMaster

/-- One more frame within tolerance, or none; enough of them in a row in ACQUIRING or HOLDOVER make a lock. A frame whose pulse
or time stamp never came ends the row, and a second one in a frame counts no further frame (log entry 146). The one that
regains a lost source is itself the first counted (log entry 147). -/
def State.countFrame (s : State) (within mayLock : Bool) : State :=
  let m := s.mer
  let gap := 2 * (m.now - m.goodAt)
  let good := if within = false then 0
    else if m.good = 0 ∨ 3 * s.plan.frameLen < gap then 1
    else if gap < s.plan.frameLen then m.good
    else m.good + 1
  let s := s.setMer (fun m => { m with good := good, goodAt := if good = m.good then m.goodAt else m.now })
  if mayLock && decide (s.plan.lockFrames ≤ good) && (s.mer.st == .acquiring || s.mer.st == .holdover) then s.lock else s

/-- Whether a pulse obeys the spacing rule of FREE (R56): its distance from the edge before, in cycles of MER_REF of 100 mt
each; which count the edges of MER_REF fall on is the model's choice (log entry 148). -/
def State.spacingOk (s : State) : Bool :=
  s.mer.refPresent &&
  (match s.mer.lastPulse with
    | some p =>
      let d := 100 * (s.mer.now / 100 - p / 100)
      let w := 8 * s.plan.lockWindow
      decide (s.plan.frameLen ≤ d + w) && decide (d ≤ s.plan.frameLen + w)
    | none => false)

/-! ### The local inputs (R55 to R57) -/

/-- The first accepted pulse aligns the count (R55): PRESET belongs to the boundary, CABLE_DELAY_MT before the edge. What the
step passes comes due (R64). -/
def State.alignLocal (s : State) : State :=
  s.setMer (fun m => { m.stepTo (s.plan.preset + s.plan.cableDelay) with
    st := .acquiring, use := 1, lost := false, good := 0, rejected := 0, slew := 0, error := 0 })

/-- Source time minus own count at a pulse (R57, R487). -/
def State.pulseErr (s : State) : Int :=
  let c : Int := (s.mer.count : Int) - (s.plan.cableDelay : Int)
  nearestFrame s.plan.frameLen c - c

/-- A pulse in a state that has aligned: accepted or rejected, measured, and counted towards lock (R56, R57). A rejected one
ends the row of frames within tolerance. No step is needed with local inputs. -/
def State.takePulse (s : State) (spaced : Bool) : State :=
  let e := s.pulseErr
  let free := s.mer.st == .holdover || s.mer.spaced
  let ok := if free then spaced else decide (e.natAbs ≤ 8 * s.plan.lockWindow)
  let within := decide (e.natAbs ≤ s.plan.lockWindow)
  if ok then
    ({ s with
      mer := { s.mer with
        rejected := 0, lost := false, use := 1, slew := e, error := 0, stepNeeded := false, stepAsked := false
        spaced := s.mer.spaced && !(within && s.mer.st == MerState.locked) }
      io := s.io.putN .MER_PHASE_ERR 0 (sat32 e) }).countFrame within true
  else s.setMer (fun m => { m with rejected := m.rejected + 1, good := 0 })

/-- A pulse while the fabric is followed (R59): how far the own reference lies from fabric time, once it is locked. When that
is, the spec does not say: the model takes LOCK_FRAMES pulses in a row that pass the spacing rule of FREE, counted from zero
once the device follows (log entry 149). With SOURCE 1 the local inputs are not used. -/
def State.watchPulse (s : State) (spaced : Bool) : State :=
  if s.plan.merSource ≠ 2 then s
  else
    let good := if spaced then s.mer.localGood + 1 else 0
    let locked := decide (s.plan.lockFrames ≤ good)
    { s with
      mer := { s.mer with localGood := good, localLocked := locked }
      io := s.io.putN .MER_LOCAL_OFFSET 0 (if locked then sat32 s.pulseErr else 0) }.electMaster

/-- The own reference is no longer known beside fabric time (R59). -/
def State.dropLocal (s : State) : State :=
  { s with
    mer := { s.mer with localGood := 0, localLocked := false }
    io := s.io.putN .MER_LOCAL_OFFSET 0 0 }

/-- PULSE_EDGE (R55 to R57): an edge of MER_PULSE. Only the selected edge counts, and none does in OFF. -/
def execPulseEdge (falling : Bool) (s : State) : Result :=
  if s.mer.st = .off ∨ falling ≠ s.plan.pulseFalls then ignored s
  else
    let spaced := s.spacingOk
    let s := s.setMer (fun m => { m with lastPulse := some m.now })
    if s.useFabric then .next (s.watchPulse spaced)
    else if s.useLocal then
      (if s.mer.st = .free then .next (if spaced then s.alignLocal else s) else .next (s.takePulse spaced))
    else .next s

/-- REF_LOST (R56): MER_REF shows no edge for 1,000 mt (`noEdges`), or three consecutive pulses have been rejected. -/
def execRefLost (noEdges : Bool) (s : State) : Result :=
  if noEdges = false ∧ (s.mer.st = .off ∨ s.mer.rejected < 3) then ignored s
  else
    let s := if noEdges then s.setMer (fun m => { m with refPresent := false }) else s
    if s.mer.st = .off then .next s
    else if s.useFabric then .next s.dropLocal.electMaster
    else .next s.loseSource

/-- MER_REF_EDGES_DETECTED (R56): edges return, and REF_PRESENT reads 1. -/
def execMerRefEdgesDetected (s : State) : Result := .next (s.setMer (fun m => { m with refPresent := true }))

/-- HOLDOVER_ALARM (R62): time in HOLDOVER reaches HOLDOVER_ALARM_MS; 0 disables. -/
def execHoldoverAlarm (s : State) : Result :=
  let m := s.mer
  if m.st = .holdover ∧ m.alarmed = false ∧ s.plan.holdAlarm ≠ 0 ∧ m.holdSince + s.plan.holdAlarm ≤ m.now then
    .next { s with mer := { m with alarmed := true }, io := s.io.event .MER_EVENT 0 4 }
  else ignored s

/-! ### Mastership (R59) -/

/-- MASTER_CHANGE (R59): the master that survey reported takes effect at the frame boundary. A device that becomes master
with a locked reference of its own slews onto it; one that loses the source it used is in HOLDOVER or acquires anew. -/
def execMasterChange (s : State) : Result :=
  match s.mer.nextMaster with
  | none => ignored s
  | some (v, self, ref) =>
    if s.mer.reached s.mer.nextFrom then
      let followed := s.mer.follows
      let info := s.fab.masters.find? (fun (m : MasterInfo) => m.ref == ref)
      let hold := match info with | some i => !i.locked | none => false
      let s := { s with
        mer := { s.mer with nextMaster := none, masterValid := v, masterSelf := self, master := ref, masterHold := hold && !self }
        io := s.io.event .MER_EVENT 0 2 }
      if s.useFabric then
        .next (if s.mer.masterHold then s.followHold (match info with | some i => i.holdover | none => false) else s)
      else if followed && s.useLocal && s.mer.localLocked then
        let off := (s.io.reg .MER_LOCAL_OFFSET).toInt
        .next (s.setMer (fun m => { m with
          use := 1, slew := off, lost := false, spaced := true, good := 0, error := 0, stepNeeded := false, stepAsked := false })).dropLocal
      else if followed then .next (s.setMer (fun m => { m with error := 0 })).dropLocal.loseSource
      else .next s
    else ignored s

/-- RX_MASTER (R59, R267): what a device says of its mastership is noted and flooded on. -/
def execRxMaster (p : Fin 64) (origin : Fin 16384) (seq : BitVec 32) (eligible locked holdover : Bool) (s : State) : Result :=
  if (s.port p).linked = false then ignored s
  else
    match s.newer origin seq.toNat with
    | none => ignored s
    | some s =>
      let s := { s with fab := { s.fab with
        masters := s.fab.masters.filter (fun (m : MasterInfo) => m.ref != origin.val) ++ [(⟨origin, eligible, locked, holdover⟩ : MasterInfo)] } }
      let s := s.floodFrom p 0 5 origin (masterBytes origin seq.toNat eligible locked holdover)
      let s :=
        if s.useFabric && s.mer.master == origin.val then
          let s := s.setMer (fun m => { m with masterHold := !locked })
          if s.mer.masterHold then s.followHold holdover else s
        else s
      .next s.electMaster

/-! ### Time over the fabric (R57, R58) -/

/-- TIME_SEND (R58): once per frame TIME leaves every linked port, with the own count and the own error to the master, which
is 0 for the device that runs on its own inputs. -/
def execTimeSend (s : State) : Result :=
  let fr := s.mer.count / s.plan.frameLen + 1
  if s.plan.hasGrid = true ∧ s.mer.st ≠ .off ∧ s.mer.timeFrame ≠ fr then
    let s := s.setMer (fun m => { m with timeFrame := fr })
    .next (s.linkedPorts.foldl (fun (s : State) (p : Nat) =>
      s.sendLocal p 2 (bytesOf s.mer.count 8 ++ bytesOf (if s.useFabric then s.mer.error else 0) 4)) s)
  else ignored s

/-- A step onto the source is asked for at its next frame boundary (R57, R64). -/
def State.askStep (s : State) : State :=
  let at' := s.mer.count + s.mer.offset
  let f := s.plan.frameLen
  s.setMer (fun m => { m with
    stepAsked := true
    stepAt := if f = 0 then at' else ((nextFrame f (at'.toNat + 1) : Nat) : Int) })

/-- Time from the source in use over the fabric (R57, R58). -/
def State.takeTime (s : State) : State :=
  let m := s.mer
  let off := m.offset
  let far := decide (s.plan.frameLen < off.natAbs)
  if m.st = .free then s.askStep
  else if far && m.everLocked then
    let s := if m.st = .locked then s.toHoldover else s
    { s with
      mer := { s.mer with stepNeeded := true, lost := true, good := 0 }
      io := if m.stepNeeded then s.io else s.io.event .MER_EVENT 0 3 }
  else if far then s.askStep
  else
    let within := decide (off.natAbs ≤ s.plan.fabricTol) && decide (m.error ≤ s.plan.fabricTol)
    let s := s.setMer (fun m => { m with lost := false, slew := off, stepNeeded := false })
    if m.st = .locked ∧ (within = false ∨ m.masterHold = true) then s.toHoldover
    else s.countFrame within (!m.masterHold)

/-- RX_TIME (R58): a TIME message: the neighbour's count when it was sent, its error to the master, and the round trip
measured on the link, half of which is the link's delay. Only the neighbour on the route to the master is followed. A hop adds
at most 4 mt of error; the model's estimate adds exactly 4 to what the neighbour reports (log entry 150). -/
def execRxTime (p : Fin 64) (far err rtt : Nat) (s : State) : Result :=
  if (s.port p).linked = false then ignored s
  else
    let s := s.mapIo (fun io => io.putN .FB_LINK_DELAY p (rtt / 2))
    if s.mer.st = .off ∨ s.useFabric = false ∨ s.route s.mer.master 3 0 ≠ some p.val then .next s
    else
    let off : Int := ((far + rtt / 2 : Nat) : Int) - (s.mer.count : Int)
    .next ({ s with
      mer := { s.mer with
        use := if s.mer.st = MerState.free then s.mer.use else 2
        port := p, hops := s.distTo s.mer.master, error := err + 4, offset := off }
      io := if s.mer.st = MerState.free then s.io else s.io.putN .MER_PHASE_ERR 0 (sat32 off) }).takeTime

/-- MER_CTRL_STEP (R64): with STEP_NEEDED set, bit 0 asks for a step at the source's next frame boundary. -/
def execMerCtrlStep (v : BitVec 32) (s : State) : Result := if s.barShut then ignored s else
  if v.getLsbD 0 = true ∧ s.mer.stepNeeded = true then .next s.askStep else ignored s

/-- COUNT_STEP (R57, R64): the count is stepped onto the source at its frame boundary; a device that had not aligned is
ACQUIRING. What the step passes comes due; going back, nothing fires again until the count exceeds its highest value. -/
def execCountStep (s : State) : Result :=
  let m := s.mer
  let src := (m.count : Int) + m.offset
  if m.stepAsked = true ∧ m.st ≠ .off ∧ m.stepAt ≤ src then
    .next (s.setMer (fun m => { m.stepTo (src.toNat % 2 ^ 64) with
      st := if m.st = MerState.free then MerState.acquiring else m.st
      use := 2, stepAsked := false, stepNeeded := false, offset := 0, slew := 0, lost := false
      good := if m.st = MerState.free ∨ m.st = MerState.acquiring then 0 else m.good }))
  else ignored s

/-! ### Slots (R68, R69) -/

/-- SLOT_BOUNDARY (R68, R69): the next slot begins once the count reaches it and no event before it is due. -/
def execSlotBoundary (s : State) : Result :=
  match s.dueSlot with
  | some (fr, i, c) => .next (s.enterSlot fr i c)
  | none => ignored s

end Sys2Proof.Machine
end

