-- ==== Sys2Proof/Machine/Dupd.lean ====
section
/-! DEFINITION. Machine/Dupd.lean: update-parameter entries (Table 10-1), layer buffers (R250), replica digests of buffers
(R416, R417) and the factored update of a dense weight tile (R251 to R253). -/

namespace Sys2Proof.Machine

/-! ### Parameter entries (Table 10-1) -/

/-- Key of a table's entry. -/
def tableKey (id : Nat) : Nat := 4096 + id
/-- Key of a layer's entry. -/
def layerKey (id : Nat) : Nat := 8192 + id

/-- What an id with no entry holds. -/
def paramDflt : Nat → Param := fun _ => ⟨none, none⟩
/-- What a layer that no entry has made holds. -/
def layerDflt : Nat → Layer := fun _ => Layer.reset

/-- The entry in force of a key. -/
def State.entryNow (s : State) (k : Nat) : Option (List Byte) := (SMap.get paramDflt s.upd.params k).now
/-- One dense layer. -/
def State.layer (s : State) (id : Nat) : Layer := SMap.get layerDflt s.upd.layers id
/-- Change one dense layer. -/
def State.setLayer (s : State) (id : Nat) (f : Layer → Layer) : State :=
  { s with upd := { s.upd with layers := SMap.set layerDflt s.upd.layers id (f (s.layer id)) } }
/-- Layers with an entry in force, ascending, with the entry. -/
def State.layerEntries (s : State) : List (Nat × List Byte) :=
  s.upd.params.filterMap (fun e =>
    if 8192 ≤ e.1 then e.2.now.map (fun p => (e.1 - 8192, p)) else none)

/-- FROZEN of an entry. -/
def eFrozen (e : List Byte) : Bool := bit (u8 e 1) 0
/-- WFMT of a layer's entry. -/
def eFmt (e : List Byte) : Nat := u8 e 0x24
/-- N of a layer's entry. -/
def eN (e : List Byte) : Nat := u16 e 0x28
/-- K of a layer's entry. -/
def eK (e : List Byte) : Nat := u16 e 0x2A
/-- Base of buffer `b` of a layer. -/
def eBuf (e : List Byte) (b : Nat) : Nat := u64 e (0x30 + 8 * b)

/-- WSTRIDE (R250): the blocks of a stored row of K elements. -/
def wStride (fmt k : Nat) : Nat := (k + blockElems fmt - 1) / blockElems fmt * 256
/-- Offset of a buffer's stats header from its base (R250). -/
def headerOff (e : List Byte) : Nat := eN e * wStride (eFmt e) (eK e)
/-- `n` rounded up to 256. -/
def up256 (n : Nat) : Nat := (n + 255) / 256 * 256
/-- Offset of c[0] from the stats header (R250). -/
def cOff (n : Nat) : Nat := 256 + up256 (4 * n)

/-! ### Digests (R416, R417) -/

/-- The prime p of R416. -/
def digestP : Nat := 2 ^ 127 - 1

/-- x^n mod p, by the bits of n. -/
def powMod (x : Nat) : Nat → Nat → Nat
  | 0, _ => 1
  | f + 1, n =>
    let h := powMod x f (n / 2)
    if n % 2 = 1 then h * h % digestP * x % digestP else h * h % digestP

/-- K of R416 from the reliability section. -/
def Plan.digestKey (p : Plan) : Nat :=
  let k := le (p.sec 0x70) 0x10 16 % digestP
  if k < 2 then 2 else k

/-- Whether a layer's digest covers the byte at an offset from the buffer base (R416). -/
def covered (e : List Byte) (o : Nat) : Bool :=
  let fmt := eFmt e
  let k := eK e
  let h := headerOff e
  if o < h then
    let c := o % wStride fmt k
    let b := c / 256
    let x := c % 256
    match fmt with
    | 5 => if x < 240 then decide (b * 240 + x < k) else decide (b * 15 + (x - 240) < k / 16)
    | 6 => if x < 224 then decide (b * 448 + 2 * x < k)
           else decide (x < 252) && decide (b * 28 + (x - 224) < k / 16)
    | f => decide ((b * 256 + x) / (fmtBits f / 8) < k)
  else
    let s := o - h
    decide (s < 12) || (decide (256 ≤ s) && decide (s < 256 + 4 * eN e)) ||
    (decide (cOff (eN e) ≤ s) && decide (s < cOff (eN e) + 4 * k))

/-- The terms of the covered bytes of a string that stands at an offset from the buffer base (R416; log entry 43). -/
def digestOf (key : Nat) (e : List Byte) (o : Nat) (bs : List Byte) : Nat :=
  bs.zipIdx.foldl (fun d b =>
    let p := o + b.2
    if covered e p then (d + b.1.toNat * 256 ^ (p % 4) * powMod key 40 (p / 4 + 1)) % digestP else d) 0

/-- Bytes of a layer's buffer from its base to the end of c. -/
def bufferBytes (e : List Byte) : Nat := headerOff e + cOff (eN e) + 4 * eK e

/-- The digest of a buffer read whole (R417). -/
def State.readDigest (s : State) (e : List Byte) (b : Nat) : Nat :=
  digestOf s.plan.digestKey e 0 (s.ram.read (eBuf e b) (bufferBytes e))

/-- A buffer's digest. -/
def State.digest (s : State) (id b : Nat) : Nat := SMap.get (fun _ => 0) s.rl.digests (2 * id + b)
/-- Store a buffer's digest. -/
def State.putDigest (s : State) (id b d : Nat) : State :=
  { s with rl := { s.rl with digests := SMap.set (fun _ => 0) s.rl.digests (2 * id + b) d } }

/-- Add the terms of a write into a buffer (R417). -/
def State.addDigest (s : State) (id : Nat) (e : List Byte) (b a : Nat) (bs : List Byte) : State :=
  s.putDigest id b ((s.digest id b + digestOf s.plan.digestKey e (a - eBuf e b) bs) % digestP)

/-- Rewrite the STEP word of a layer's current buffer, its digest following (R240, R242, R417). -/
def State.writeStep (s : State) (id : Nat) (e : List Byte) (t : Nat) : State :=
  let b := (s.layer id).current
  let o := headerOff e
  let old := digestOf s.plan.digestKey e o (s.ram.read (eBuf e b + o) 4)
  let new := digestOf s.plan.digestKey e o (bytesOf t 4)
  (s.putDigest id b ((s.digest id b + digestP - old + new) % digestP)).sheetWrite .device (eBuf e b + o) (bytesOf t 4)

/-- Step of a layer: the STEP word of its current buffer (R241). -/
def State.layerStep (s : State) (id : Nat) : Nat :=
  match s.entryNow (layerKey id) with
  | some e => u32 (s.ram.read (eBuf e (s.layer id).current + headerOff e) 4) 0
  | none => 0

/-! ### DUPD -/

/-- The dense update block of a DUPD stage (R251). -/
def dupdAt (g : Stage) (arg : Nat) : Nat := g.imm.toNat + (if bit g.aux 0 then arg * 64 else 0)

/-- The parameters of a DUPD tile: dense update block, dense parameter block and the operands it reads (R252). -/
structure Dupd where
  blk : List Byte
  p : List Byte
  rows : List Word
  cols : List Word
  cacc : List Word
  tsu : Word
deriving DecidableEq, Repr

/-- An FP32 field. -/
def f32At (bs : List Byte) (o : Nat) : Word := BitVec.ofNat 32 (u32 bs o)

/-- Gradient (i, j) of a tile (Table 10-5). -/
def dupdGrad (s : State) (a : Nat) (b : List Byte) (i j : Nat) : Word :=
  let base := u32 b 0x10 + i * u32 b 0x14
  if u8 b 0x18 = 0 then f32At (s.ram.read (storeAddr a (base + 4 * j)) 4) 0
  else vf (Fp.bf16.decode (u16 (s.ram.read (storeAddr a (base + 2 * j)) 2) 0))

/-- Weight (N0 + i, K0 + j) of the current buffer's copy in the store, decoded exactly (R252). -/
def dupdWeight (s : State) (a fmt : Nat) (b : List Byte) (i j : Nat) : Word :=
  let e := u16 b 6 + j
  let o := u32 b 8 + i * u32 b 0xC + e / blockElems fmt * 256
  vf (blockElem fmt (s.ram.read (storeAddr a o) 256) (e % blockElems fmt))

/-- One element of DUPD: g, u and x (R252). -/
def dupdElem (p : List Byte) (r c g w : Word) : Word × Word :=
  let cmean := f32At p 0x20
  let nk := if (fv cmean).isZero then one32 else f32div c cmean
  let u := f32div g (f32max (f32sqrt (f32mul r nk)) (f32At p 0xC))
  let x := f32sub w (f32mul (f32At p 0) (f32add (f32mul (f32At p 0x14) u) (f32mul (f32At p 0x10) w)))
  (u, f32min (f32max x (fp32max ^^^ 0x80000000#32)) fp32max)

/-- A decayed statistic, capped (R231, R252). -/
def dupdStat (p : List Byte) (old sum : Word) (div : Nat) : Word :=
  let b := f32At p 4
  let mean := f32div sum (vf (.fin false div 0))
  f32min (f32add (f32mul b old) (f32mul (f32sub one32 b) (f32add mean (f32At p 8)))) fp32max

/-- Write statistics to sheets, block by block; a partial block must pass its check (R215, R227). -/
def sheetMerge (s : State) (a : Nat) (bs : List Byte) : State × Option Nat :=
  writeAll (fun s pc =>
    if !s.plan.dpaOk pc.1 pc.2.length then (s, some stInvalid)
    else if s.ram.gone pc.1 = true ∨ pc.2.length ≠ 256 ∧ (s.ram.blk pc.1).moverOk = false then (s, some stCheck)
    else (s.sheetWrite .device pc.1 pc.2, none)) s (splitBlocks a bs)

/-- A write into a layer's alternate buffer with its digest (R417). -/
def denseWrite (id : Nat) (e : List Byte) (s : State) (a : Nat) (bs : List Byte) : State × Option Nat :=
  match sheetMerge s a bs with
  | (s', none) => (s'.addDigest id e (1 - (s.layer id).current) a bs, none)
  | r => r

/-- The tile end of DUPD (R252): statistics written at SDEST, then the header. -/
def dupdEnd (s : State) (a id : Nat) (e : List Byte) (d : Dupd) (m n : Nat) : State × Option Nat :=
  let b := d.blk
  let f := u16 b 2
  let sd := u64 b 0x30
  let k := u16 d.p 0x1C
  let pn := u32 d.p 0x2C
  let n0 := u16 b 4
  let k0 := u16 b 6
  let arr := s.arr a
  let rs := (List.range m).map (fun i => dupdStat d.p (d.rows.getD i 0#32) (arr.racc.getD i 0#32) k)
  let cs := (List.range n).map (fun j => dupdStat d.p (d.cols.getD j 0#32) (d.cacc.getD j 0#32) pn)
  let acc := wordsBytes d.cacc ++ bytesOf d.tsu.toNat 4
  match storeMerge s (u16 b 0x28) (u32 b 0x2C) acc with
  | (s, some st) => (s, some st)
  | (s, none) =>
    match (if bit f 1 then denseWrite id e s (sd + 256 + 4 * n0) (wordsBytes rs) else (s, none)) with
    | (s, some st) => (s, some st)
    | (s, none) =>
      match (if bit f 3 then denseWrite id e s (sd + cOff (eN e) + 4 * k0) (wordsBytes cs) else (s, none)) with
      | (s, some st) => (s, some st)
      | (s, none) =>
        let c0 := if k0 = 0 then 0#32 else arr.csum
        let u0 := if k0 = 0 then 0#32 else arr.usum
        let c1 := if bit f 3 then cs.foldl f32add c0 else c0
        let u1 := if bit f 3 then f32add u0 d.tsu else u0
        let s := if bit f 3 then s.setArr a (fun r => { r with csum := c1, usum := u1 }) else s
        if bit f 4 then
          let hdr := bytesOf (u32 d.p 0x18) 4 ++ bytesOf (f32min u1 fp32max).toNat 4 ++
            bytesOf (f32div c1 (vf (.fin false k 0))).toNat 4 ++ zeros 244
          match denseWrite id e s sd hdr with
          | (s, none) => (s.setLayer id (fun l => { l with written := true }), none)
          | r => r
        else (s, none)

/-- Whether every store block under a byte range passes its check. -/
def storeOk (s : State) (a o n : Nat) : Bool :=
  decide (o + n ≤ 2 ^ 23) && s.ram.moverOk (storeAddr a o) n

/-- The blocks that a DUPD tile reads pass their checks (R227). -/
def dupdReadsOk (s : State) (a fmt m n : Nat) (b : List Byte) : Bool :=
  let e0 := u16 b 6
  storeOk s a (u32 b 0x1C) (4 * m) && storeOk s a (u32 b 0x20) (4 * n) &&
  storeOk s (u16 b 0x28) (u32 b 0x2C) 516 && storeOk s (u8 b 0x19) (u32 b 0x24) 48 &&
  (List.range m).all (fun i =>
    storeOk s a (u32 b 0x10 + i * u32 b 0x14) (n * (if u8 b 0x18 = 0 then 4 else 2)) &&
    storeOk s a (u32 b 8 + i * u32 b 0xC + e0 / blockElems fmt * 256)
      (((e0 + n - 1) / blockElems fmt - e0 / blockElems fmt + 1) * 256))

/-- The gradients of a tile. -/
def dupdGrads (s : State) (a : Nat) (b : List Byte) (m n : Nat) : Cells :=
  (List.range m).map (fun i => (List.range n).map (fun j => dupdGrad s a b i j))

/-- u and x of every element of a tile whose gradients are `gs` (R252). -/
def dupdUx (s : State) (a fmt : Nat) (b p : List Byte) (gs : Cells) (n : Nat) : List (List (Word × Word)) :=
  let rows := s.ram.words (storeAddr a (u32 b 0x1C)) gs.length
  let cols := s.ram.words (storeAddr a (u32 b 0x20)) n
  gs.zipIdx.map (fun row => row.1.zipIdx.map (fun c =>
    dupdElem p (rows.getD row.2 0#32) (cols.getD c.2 0#32) c.1 (dupdWeight s a fmt b row.2 c.2)))

/-- The work of a DUPD tile whose operands read well: the gradient's statistics, the new rows, and what the tile ends (R252). -/
def dupdWork (s : State) (a id : Nat) (e b p : List Byte) (m n : Nat) : State × Sum Nat Cells :=
  let fmt := eFmt e
  let f := u16 b 2
  let rows := s.ram.words (storeAddr a (u32 b 0x1C)) m
  let cols := s.ram.words (storeAddr a (u32 b 0x20)) n
  let old := s.ram.words (storeAddr (u16 b 0x28) (u32 b 0x2C)) 129
  let gs := dupdGrads s a b m n
  let ux := dupdUx s a fmt b p gs n
  let cacc0 := if bit f 2 then List.replicate 128 0#32 else old.take 128
  let tsu0 := if bit f 2 then 0#32 else old.getD 128 0#32
  let cacc := gs.foldl (fun acc row => acc.zipIdx.map (fun c =>
    match row[c.2]? with | some v => f32mac c.1 v v | none => c.1)) cacc0
  let tsu := ux.foldl (fun t row => f32add t (rowSumSq (row.map (·.1)))) tsu0
  let racc0 := if bit f 0 then List.replicate 128 0#32 else (s.arr a).racc
  let racc := racc0.zipIdx.map (fun c =>
    match gs[c.2]? with | some row => f32add c.1 (rowSumSq row) | none => c.1)
  let s1 := s.setArr a (fun r => { r with racc := racc })
  let s2 := if gs.any (fun row => row.any (fun v => !f32fin v)) then s1.denseProblem 8 else s1
  let lim := f32At p 0x24
  let s3 := if gs.any (fun row => row.any (fun v => f32fin v && f32lt lim (f32abs v))) then s2.denseProblem 9 else s2
  match dupdEnd s3 a id e ⟨b, p, rows, cols, cacc, tsu⟩ m n with
  | (s', none) => (s', .inr (ux.map (fun row => row.map (·.2))))
  | (s', some st) => (s'.denseProblem 10, .inl st)

/-- The new weights alone of a DUPD tile's first `m` rows, where it may run (R228, R252). -/
def dupdTile (s : State) (a arg m n : Nat) (c : List Byte) : Option Cells :=
  match (chainStages c).find? (fun g => g.op == 0x50) with
  | none => none
  | some g =>
    let b := s.ram.read (storeAddr a (dupdAt g arg)) 64
    match s.entryNow (layerKey (u16 b 0 % 4096)) with
    | none => none
    | some e =>
      let p := s.ram.read (storeAddr (u8 b 0x19) (u32 b 0x24)) 48
      if u32 p 0x28 % 4 = 0 ∧ dupdReadsOk s a (eFmt e) m n b = true ∧ writeFmt (chainStages c) = eFmt e then
        some ((dupdUx s a (eFmt e) b p (dupdGrads s a b m n) n).map (fun row => row.map (·.2)))
      else none

/-- DUPD over a tile of M × N (R252, R253): the new weights and the state after the statistics, or the status it stops
with. A chain whose WRITE has not the layer's WFMT is not one with DUPD (R251). -/
def dupd (s : State) (a arg m n : Nat) (g : Stage) (wfmt : Nat) : State × Sum Nat Cells :=
  let b := s.ram.read (storeAddr a (dupdAt g arg)) 64
  let id := u16 b 0 % 4096
  match s.entryNow (layerKey id) with
  | none => (s, .inl stInvalid)
  | some e =>
    let p := s.ram.read (storeAddr (u8 b 0x19) (u32 b 0x24)) 48
    let fmt := eFmt e
    if bit (u32 p 0x28) 0 then ({ s with io := s.io.inc .UP_FROZEN }, .inl stFrozen)
    else if bit (u32 p 0x28) 1 then ({ s with io := s.io.inc .UP_REJECTED }, .inl stRejected)
    else if wfmt ≠ fmt then (s.denseProblem 10, .inl stInvalid)
    else if !dupdReadsOk s a fmt m n b then (s.denseProblem 10, .inl stCheck)
    else dupdWork s a id e b p m n

end Sys2Proof.Machine
end

