-- ==== Sys2Proof/Machine/Conns.lean ====
section
/-! DEFINITION. Machine/Conns.lean: partner connections as their senders use them (R283 to R287), and admission to a class
(R281). -/

namespace Sys2Proof.Machine

/-- RTO_US in mt (Table 12-3). -/
def Plan.rto (p : Plan) : Nat := if p.has 0x22 then u16 (p.sec 0x22) 12 * 1000 else 10000
/-- CONN_TIMEOUT_US in mt. -/
def Plan.connTimeout (p : Plan) : Nat := if p.has 0x22 then u16 (p.sec 0x22) 14 * 1000 else 2000000

/-- One of the 16 statuses of Table 1-8 (R21); a reserved code is INVALID_COMMAND (Table 6-9). -/
def endStatus (v : Nat) : Nat := if v ≤ 0x0F then v else stInvalid

/-- A message with nothing in it. -/
def Msg.blank : Msg := ⟨0, 0, 0xFFFF, 0, 0, 0xFFFF, 0, 0, 0, []⟩

/-- Change a partner entry. -/
def State.setConn (s : State) (k : Nat) (f : Conn → Conn) : State :=
  { s with fab := { s.fab with conns := s.fab.conns.upd k f } }

/-- The lowest-numbered OPEN entry to a device in a class (R287). -/
def State.connFor (s : State) (ref cls : Nat) : Option Nat :=
  (s.fab.conns.list.find? (fun e => e.2.remote == ref && e.2.cls == cls && e.2.st == .opened)).map (·.1)

/-- Send the next message on a connection (R284) in a class; `src` is where a retransmission reads its payload again, in
memory. A broken connection sends nothing (R286). -/
def State.connSendIn (s : State) (k cls kind : Nat) (m : Msg) (src cmd group : Option Nat) : State :=
  match s.fab.conns.at k with
  | none => s
  | some c =>
    if c.st = .broken then s
    else
      let m := { m with cls := cls, conn := c.partner, epoch := c.epoch, mseq := c.txNext }
      let s := s.setConn k (fun c => { c with
        txNext := (c.txNext + 1) % 2 ^ 32, outs := c.outs ++ [⟨kind, m, src, cmd, s.mer.now, s.mer.now⟩] })
      (s.sendTo group c.remote cls c.path kind m).2

/-- Send the next message on a connection in its class. -/
def State.connSend (s : State) (k kind : Nat) (m : Msg) (src cmd group : Option Nat) : State :=
  match s.fab.conns.at k with
  | none => s
  | some c => s.connSendIn k c.cls kind m src cmd group

/-- Acknowledge what a connection has accepted in order (R284): a status in ARG [7:0], RESEND in [8]. -/
def State.connAck (s : State) (k arg : Nat) : State :=
  match s.fab.conns.at k with
  | none => s
  | some c =>
    (s.sendTo none c.remote c.cls c.path 0x13 { Msg.blank with
      cls := c.cls, conn := c.partner, epoch := c.epoch, mseq := (c.rxNext + 2 ^ 32 - 1) % 2 ^ 32, arg := arg }).2

/-- The class that work sends in (R281): class 0 only where it was admitted in class 0. Work in flight of class 0 has been
admitted at its dispatch (R69). -/
def State.sendClass (s : State) (cls : Nat) (admitted : Bool) : Nat × State :=
  if cls = 0 ∧ admitted = false then (1, s.mapIo (fun io => io.inc .FB_C0_DEMOTED)) else (cls, s)

end Sys2Proof.Machine
end

