-- ==== Sys2Proof/Machine/Wings.lean ====
section
/-! DEFINITION. Machine/Wings.lean: lookup lists (R153 to R165): their checks, splitting into room-calls and sublists, the
combination of partials and the outputs; and row flags (R152). -/

namespace Sys2Proof.Machine

/-! ### Owners (R150) -/

/-- Where a shard of a table is served: local wings in the order tried, or a remote owner; none: the map cannot be read, or
names what is not there. -/
inductive Shardplace where
  | here (wing : List Byte)
  | far (ref wing : Nat)
  | unread
  | bad
deriving DecidableEq, Repr

/-- The owner of a shard (R150, R165). -/
def State.ownerOf (s : State) (t : List Byte) (k : Nat) : Shardplace :=
  let ws := s.plan.shardWings (tId t) k
  if tOwnerMap t = 0 then
    match ws with
    | w :: _ => .here w
    | [] => .bad
  else
    let a := tOwnerMap t + 4 * k
    if s.ram.consumerOk a 4 = false then .unread
    else
      let e := u32 (s.ram.read a 4) 0
      if s.plan.hasGrid = false ∨ e / 65536 = s.plan.ref then
        match ws.find? (fun w => wId w == e % 1024 && wStack w == e / 4096 % 16) with
        | some w => .here w
        | none => .bad
      else .far (e / 65536) (e % 1024)

/-! ### The list in memory (R153, Table 7-7) -/

/-- Header fields of a list. -/
structure ListHead where
  table : Nat
  mode : Nat
  flags : Nat
  k : Nat
  destKind : Nat
  destArray : Nat
  bags : Nat
  entries : Nat
  dest : Nat
  stride : Nat
deriving DecidableEq, Repr

/-- The header of a lookup list (Table 7-7). -/
def listHead (b : List Byte) : ListHead :=
  ⟨u16 b 0, u8 b 2, u8 b 3, u8 b 4, u8 b 5, u16 b 6, u32 b 8, u32 b 0xC, u64 b 0x10, u32 b 0x18⟩

/-- Offset of the first entry of a list of B bags. -/
def entriesAt (bags : Nat) : Nat := (32 + 4 * bags + 7) / 8 * 8

/-- Bytes of a whole list. -/
def listLen (h : ListHead) : Nat := entriesAt h.bags + 8 * h.entries

/-- The bag ends of a list. -/
def bagEnds (b : List Byte) (n : Nat) : List Nat := (List.range n).map (fun i => u32 b (32 + 4 * i))

/-- Whether bag ends rise to E, with at most 4,096 entries to a bag (R153). -/
def endsOk : Nat → List Nat → Nat → Bool
  | last, [], e => last == e
  | last, x :: xs, e => decide (last ≤ x) && decide (x ≤ last + 4096) && endsOk x xs e

/-- The entries of each bag, in order: list index, global row and weight. -/
def bagEntries (b : List Byte) (o : Nat) : Nat → List Nat → List (List (Nat × Nat × Word))
  | _, [] => []
  | last, x :: xs =>
    (List.range (x - last)).map (fun i =>
      let e := last + i
      (e, u32 b (o + 8 * e), BitVec.ofNat 32 (u32 b (o + 8 * e + 4)))) :: bagEntries b o x xs

/-- Whether what stands between the bag ends and the entries is zero (R153). -/
def paddingOk (b : List Byte) (n : Nat) : Bool := (slice b (32 + 4 * n) (entriesAt n - (32 + 4 * n))).all (· == 0#8)

/-- Bytes of one vector of a lookup's output. -/
def vecBytes (flags d : Nat) : Nat := if bit flags 1 then 2 * d else 4 * d

/-- Vectors of one output: K under FIRSTK. -/
def outVecs (mode k : Nat) : Nat := if mode = 4 then k else 1

/-- Outputs of a list: one per bag, or per entry under RAW. -/
def outCount (h : ListHead) : Nat := if h.mode = 5 then h.entries else h.bags

/-- Whether a header obeys Table 7-7 and its outputs lie within the destination (R155). -/
def State.headOk (s : State) (h : ListHead) (b : List Byte) (t : List Byte) : Bool :=
  let size := outVecs h.mode h.k * vecBytes h.flags (tDim t)
  let n := outCount h
  let span := if n = 0 then 0 else (n - 1) * h.stride + size
  decide (h.table < 4096) && decide (h.mode ≤ 5) && decide (h.flags < 8) &&
  (if h.mode = 4 then decide (1 ≤ h.k ∧ h.k ≤ 16) else h.k == 0) && decide (h.destKind ≤ 1) &&
  (if h.destKind = 1 then decide (h.destArray < 64) else h.destArray == 0) &&
  decide (1 ≤ h.bags ∧ h.bags ≤ 16384) && (h.mode != 5 || h.bags == 1) && decide (h.entries ≤ 262144) &&
  h.dest % 16 == 0 && h.stride % 16 == 0 && decide (size ≤ h.stride) && u32 b 0x1C == 0 && u8 b 1 / 16 == 0 &&
  (if h.destKind = 1 then s.arrOk h.destArray && decide (h.dest + span ≤ 2 ^ 23)
   else s.plan.dpaOk h.dest (max span 1))

/-! ### Splitting (R157, R162) -/

/-- Slices of a row of d elements: first element and number (R157). -/
def slicesOf (d : Nat) : List (Nat × Nat) := (List.range ((d + 255) / 256)).map (fun q => (256 * q, min 256 (d - 256 * q)))

/-- A list in runs of at most `n`. -/
def runsOf {α : Type} (n : Nat) (xs : List α) : Nat → List (List α)
  | 0 => []
  | f + 1 => if xs.isEmpty then [] else xs.take n :: runsOf n (xs.drop n) f

/-- The distinct values of a function over a list, ascending. -/
def keysOf {α : Type} (f : α → Nat) (xs : List α) : List Nat :=
  xs.foldl (fun ks x => SMap.set (fun _ => 0) ks (f x) 1) ([] : SMap Nat) |>.map (·.1)

/-- The weight that a payload carries for an entry (R157). -/
def payWeight (mode : Nat) (w : Word) : Word := if mode = 1 then w else one32

/-- Parts of one bag's entries at a local wing: by room ascending, by slice, in runs of 128, or one per entry under FIRSTK
and RAW (R157). -/
def localParts (t w : List Byte) (mode bag shard : Nat) (es : List (Nat × Nat × Word)) : List Part :=
  let n := wRooms w
  let l := tRecLen t
  let loc := fun (e : Nat × Nat × Word) => e.2.1 / tShards t
  (keysOf (fun e => loc e % n) es).flatMap (fun r =>
    let mine := (es.filter (fun e => loc e % n == r)).map (fun e => (e.1, loc e / n * l, payWeight mode e.2.2))
    (List.range (slicesOf (tDim t)).length).flatMap (fun q =>
      (runsOf (if mode = 4 ∨ mode = 5 then 1 else 128) mine mine.length).map (fun run =>
        (⟨bag, shard, some (wId w), 0, r, q, run, .waiting, [], []⟩ : Part))))

/-- Parts of one bag's entries at a remote owner: one for the bag, or for each entry under FIRSTK and RAW. The wing id of the
owner stands in `w`, its grid reference in `conn`. -/
def remoteParts (mode bag shard ref wing : Nat) (es : List (Nat × Nat × Word)) : List Part :=
  (runsOf (if mode = 4 ∨ mode = 5 then 1 else 4096) es es.length).map (fun run =>
    ⟨bag, shard, none, ref, wing, 0, run, .waiting, [], []⟩)

/-- Parts that nothing can serve. -/
def deadPart (bag shard st : Nat) (es : List (Nat × Nat × Word)) : List Part :=
  es.map (fun e => (⟨bag, shard, none, 0, 0, 0, [e], .damaged st, [], []⟩ : Part))

/-- Entries of a bag that are read from rooms: in range, and the first K under FIRSTK (R154, R156). -/
def readEntries (rows mode k : Nat) (es : List (Nat × Nat × Word)) : List (Nat × Nat × Word) :=
  (if mode = 4 then es.take k else es).filter (fun e => decide (e.2.1 < rows))

/-- All parts of a list, by bag, shard ascending, room ascending, slice; none: an entry of the owner map names what is not
there (R150). -/
def State.splitList (s : State) (t : List Byte) (mode k : Nat) (bags : List (List (Nat × Nat × Word))) : Option (List Part) :=
  (bags.zipIdx.foldl (fun acc p =>
    let es := readEntries (tRows t) mode k p.1
    (keysOf (fun (e : Nat × Nat × Word) => e.2.1 % tShards t) es).foldl (fun acc sh =>
      let mine := es.filter (fun e => e.2.1 % tShards t == sh)
      match acc, s.ownerOf t sh with
      | none, _ => none
      | some ps, .here w => some (ps ++ localParts t w mode p.2 sh mine)
      | some ps, .far ref w => some (ps ++ remoteParts mode p.2 sh ref w mine)
      | some ps, .unread => some (ps ++ deadPart p.2 sh stCheck mine)
      | some _, .bad => none) acc) (some []))

/-! ### Combining (R154, R159) -/

/-- One step of a combination: an addition, or the maximum. -/
def combine (mode : Nat) (a b : List Word) : List Word :=
  List.zipWith (fun x y => if mode = 3 then f32max x y else f32add x y) a b

/-- Partials in order: the first as it is, each later one added or maxed into it (R159). -/
def combineAll (mode : Nat) : List (List Word) → Option (List Word)
  | [] => none
  | x :: xs => some (xs.foldl (combine mode) x)

/-- The vector of a shard's parts, whole: room by room for each slice; a remote part brings a whole vector (R159). -/
def shardVec (mode d : Nat) (ps : List Part) : List Word :=
  match ps.find? (fun p => p.wing.isNone) with
  | some _ => (combineAll mode (ps.map (·.words))).getD (List.replicate d 0#32)
  | none =>
    (List.range (slicesOf d).length).flatMap (fun q =>
      let mine := ps.filter (fun p => p.slice == q)
      let rooms := (keysOf (fun (p : Part) => p.w) mine).map (fun r =>
        (combineAll mode ((mine.filter (fun p => p.w == r)).map (·.words))).getD [])
      (combineAll mode rooms).getD [])

/-- The pooled vector of parts of one bag: shard partials in ascending k (R159). -/
def pooled (mode d : Nat) (ps : List Part) : List Word :=
  (combineAll mode ((keysOf (fun (p : Part) => p.shard) ps).map (fun k =>
    shardVec mode d (ps.filter (fun p => p.shard == k))))).getD (List.replicate d 0#32)

/-- The status that damages one of the parts, FAULT_CHECK first (R163). -/
def damageOf (ps : List Part) : Option Nat :=
  let ds := ps.filterMap (fun p => match p.st with | .damaged st => some st | _ => none)
  if ds.contains stCheck then some stCheck else ds.head?

/-- Whether one remote owner reads every entry of a bag, and so answers it finally (R160). -/
def Lookup.farFinal (x : Lookup) (bag : Nat) : Bool :=
  let ps := x.parts.filter (fun p => p.bag == bag)
  match ps.head? with
  | some p => ps.all (fun q => q.wing.isNone && q.shard == p.shard)
  | none => false

/-- Whether MEAN's division is made here: at the landing that gives the bag's final output (R160). -/
def Lookup.divides (x : Lookup) (bag : Nat) : Bool :=
  match x.owner with
  | .remote _ _ => x.finals.getD bag false
  | _ => !x.farFinal bag

/-- Output vectors of one bag with the status that damages each: pooled, first K, or raw (R154, R163). -/
def bagVecs (l : Lookup) (d bag : Nat) (es : List (Nat × Nat × Word × Bool)) : List (List Word × Option Nat) :=
  let ps := l.parts.filter (fun p => p.bag == bag)
  let zero := List.replicate d 0#32
  let one := fun (e : Nat × Nat × Word × Bool) =>
    let mine := ps.filter (fun p => p.entries.any (fun x => x.1 == e.1))
    (if e.2.2.2 then pooled 0 d mine else zero, damageOf mine)
  if l.mode = 5 then es.map one
  else if l.mode = 4 then
    let vs := (es.take l.k).map one
    let dmg := damageOf ps
    vs.map (fun v => (v.1, dmg)) ++ List.replicate (l.k - vs.length) (zero, dmg)
  else
    let read := (es.filter (fun e => e.2.2.2)).length
    let v := pooled l.mode d ps
    [(if l.mode = 2 ∧ 0 < read ∧ l.divides bag = true then v.map (fun x => f32div x (vf (intVal (read : Int)))) else v, damageOf ps)]

/-- The bytes of an output vector of d elements: canonical NaN in every element, or +0 under DAMAGE_ZERO, where it is damaged
(R154, R163). -/
def vecOut (flags d : Nat) (v : List Word × Option Nat) : List Byte :=
  let x := match v.2 with
    | none => v.1
    | some _ => List.replicate d (if bit flags 2 then 0#32 else nan32)
  x.flatMap (encodeElem (if bit flags 1 then 1 else 0) .rne)

/-! ### Remote sublists (R160, R162, R163; their layout is the model's, log entry 160) -/

/-- The element format in which an owner answers a bag: the output format where it gives the final output or unpooled rows,
FP32 otherwise (R160). -/
def Lookup.farFmt (x : Lookup) (final : Bool) : Nat := if (final || x.mode == 4 || x.mode == 5) && bit x.flags 1 then 1 else 0

/-- The entries of a bag that a shard's sublist carries. -/
def Lookup.farEntries (x : Lookup) (shard bag : Nat) : List (Nat × Nat × Word) :=
  (x.parts.filter (fun p => p.wing.isNone && p.shard == shard && p.bag == bag)).flatMap (·.entries)

/-- The sublist of a remote shard (R162): table, wing, mode, K, flags, slice policy (0: slices of at most 256 elements), the
bags as the list has them, each with whether it is final there, and the entries with their global rows. -/
def sublistBytes (x : Lookup) (shard wing : Nat) : List Byte :=
  let bags := (List.range x.bags.length).map (x.farEntries shard)
  let ends := bags.foldl (fun (a : List Nat) es => a ++ [a.getLastD 0 + es.length]) []
  bytesOf x.table 2 ++ bytesOf wing 2 ++ bytesOf x.mode 1 ++ bytesOf x.k 1 ++ bytesOf x.flags 1 ++ zeros 1 ++
  bytesOf x.bags.length 4 ++ bytesOf (ends.getLastD 0) 4 ++
  ends.zipIdx.flatMap (fun (e : Nat × Nat) => bytesOf (e.1 + (if x.farFinal e.2 then 2 ^ 31 else 0)) 4) ++
  bags.flatMap (fun es => es.flatMap (fun e => bytesOf e.2.1 4 ++ bytesOf e.2.2.toNat 4))

/-- What an owner answers a sublist that it has served: DONE; then each vector, bags in order, with its own status before its
elements. -/
def answerBytes (x : Lookup) (d : Nat) : List Byte :=
  bytesOf stDone 4 ++ x.bags.zipIdx.flatMap (fun b =>
    (bagVecs x d b.2 b.1).flatMap (fun v => bytesOf (v.2.getD stDone) 4 ++
      ((v.1 ++ List.replicate d 0#32).take d).flatMap (encodeElem (x.farFmt (x.finals.getD b.2 false)) .rne)))

/-- Where each vector of an answer lies: bag, its number within the bag, byte offset, element format. -/
def Lookup.answerAt (x : Lookup) (d shard : Nat) : List (Nat × Nat × Nat × Nat) :=
  ((List.range x.bags.length).foldl (fun (a : List (Nat × Nat × Nat × Nat) × Nat) bag =>
    let n := if x.mode = 5 then (x.farEntries shard bag).length else if x.mode = 4 then x.k else 1
    let f := x.farFmt (x.farFinal bag)
    let size := 4 + (if f = 1 then 2 * d else 4 * d)
    (a.1 ++ (List.range n).map (fun j => (bag, j, a.2 + j * size, f)), a.2 + n * size)) ([], 4)).1

/-- The answer to a sublist reaches the parts of its shard: each takes its vector, or its damage. -/
def Lookup.takeAnswer (x : Lookup) (d shard : Nat) (b : List Byte) : Lookup :=
  let at' := x.answerAt d shard
  let far := fun (p : Part) => p.wing.isNone && p.shard == shard && p.st == .running
  { x with parts := x.parts.zipIdx.map (fun (q : Part × Nat) =>
      let p := q.1
      if far p then
        let j := ((x.parts.take q.2).filter (fun r => far r && r.bag == p.bag)).length
        match at'.find? (fun v => v.1 == p.bag && v.2.1 == j) with
        | some v =>
          let st := u32 b v.2.2.1
          if st = stDone then { p with st := .done, words := (List.range d).map (fun e => vf (plainElem v.2.2.2 b (v.2.2.1 + 4) e)) }
          else { p with st := .damaged (endStatus st) }
        | none => { p with st := .damaged stInvalid }
      else p) }

/-! ### Lists in service -/

/-- Change a list. -/
def State.setList (s : State) (l : Nat) (f : Lookup → Lookup) : State :=
  { s with wings := { s.wings with lookups := s.wings.lookups.upd l f } }

/-- Change part `i` of a list. -/
def State.setPart (s : State) (l i : Nat) (f : Part → Part) : State :=
  s.setList l (fun x => { x with parts := x.parts.modify i f })

/-- A list tells its owner its status; the owner of a sublist takes an answer. -/
def State.listOver (s : State) (x : Lookup) (st : Nat) (answer : List Byte) : State :=
  match x.owner with
  | .cmd id => s.finish id st 0
  | .unit c i u => s.unitStatus c i u st
  | .remote conn ref =>
    s.connSend conn 0x16 { Msg.blank with tag := x.table, arg := ref, payload := answer } none none none

/-- Write the outputs of a list (R154), each at its place. -/
def State.writeOutputs (s : State) (x : Lookup) (outs : List (List Byte)) : State :=
  outs.zipIdx.foldl (fun s o =>
    let a := x.dest + o.2 * x.stride
    if x.destKind = 1 then s.storeWrite .device x.destArray a o.1 else s.sheetWrite .device a o.1) s

/-- Whether an output of a list reaches a failed channel (R100). -/
def State.outputsGone (s : State) (x : Lookup) (outs : List (List Byte)) : Bool :=
  x.destKind != 1 && outs.zipIdx.any (fun o => s.ram.goneIn (x.dest + o.2 * x.stride) o.1.length)

/-- Outputs of a list, grouped as they are written, and the status of each. -/
def listOuts (x : Lookup) (d : Nat) : List (List Byte × Option Nat) :=
  x.bags.zipIdx.flatMap (fun b =>
    let vs := bagVecs x d b.2 b.1
    if x.mode = 5 then vs.map (fun v => (vecOut x.flags d v, v.2))
    else [(vs.flatMap (vecOut x.flags d), (vs.head?.bind (·.2)))])

/-- Whether nothing of a list is still to come. -/
def Lookup.over (x : Lookup) : Bool :=
  x.parts.all (fun p => match p.st with
    | .waiting => x.fail.isSome
    | .running => false
    | _ => true)

/-- A list ends once all its parts have: a program mismatch leaves its outputs undefined (R158); damaged bags are written
as NaN or +0 (R163); the rest is written as computed. -/
def State.settleList (s : State) (l : Nat) : State :=
  match s.wings.lookups.at l with
  | none => s
  | some x =>
    if x.over = false then s
    else
      let d := ((s.plan.table x.table).map tDim).getD 16
      let s := { s with wings := { s.wings with lookups := s.wings.lookups.del l } }
      let outs := listOuts x d
      match x.fail with
      | some st =>
        match x.owner with
        | .remote _ _ => s.listOver x st (bytesOf st 4)
        | _ =>
          let size := outVecs x.mode x.k * vecBytes x.flags d
          let s := outs.zipIdx.foldl (fun s o =>
            (s.writeOutputs { x with dest := x.dest + o.2 * x.stride } [freeBytes s.free size]).drew size) s
          s.listOver x st []
      | none =>
        let bad := outs.filterMap (·.2)
        let st := if bad.contains stCheck then stCheck else bad.headD stDone
        match x.owner with
        | .remote _ _ => s.listOver x stDone (answerBytes x d)
        | _ =>
          let st := if s.outputsGone x (outs.map (·.1)) then stCheck else st
          let s := s.writeOutputs x (outs.map (·.1))
          let s := if bad.isEmpty then s else s.mapIo (fun io => io.add .WG_DAMAGED x.stack bad.length)
          let s := if bad.contains stUnreach then s.mapIo (fun io => io.event .WG_EVENT x.stack 2) else s
          s.listOver x st []

/-- Whether the room that a part would use in a wing never becomes usable for it: its channel has failed, or it has
returned CHECK or CHANNEL for it (R165). -/
def State.spent (s : State) (p : Part) (w : List Byte) : Bool :=
  let r := wingRoom w p.w
  s.roomChan r == .failed || p.failedAt.contains r

/-- Damage the waiting parts of a list that no room can serve any more (R163, R165). -/
def State.sweepList (s : State) (l : Nat) : State :=
  (s.setList l (fun x => { x with parts := x.parts.map (fun p =>
    match p.st, p.wing.bind s.plan.wing with
    | .waiting, some w =>
      if s.spent p w && (match s.plan.twin w with | some v => s.spent p v | none => true) then
        { p with st := .damaged stCheck }
      else p
    | _, _ => p) })).settleList l

/-- A room-call of a part has ended (R158, R163, R165): status, exception code, and what it sent. -/
def State.partEnded (s : State) (l i room st : Nat) (exc : Option Nat) (sends : List (Nat × List Byte)) : State :=
  match s.wings.lookups.at l with
  | none => s
  | some x =>
    match x.parts[i]? with
    | none => s
    | some p =>
      let stk := room / 65536
      let t := (s.plan.table x.table).getD []
      let k := ((slicesOf (tDim t)).getD p.slice (0, 0)).2
      let eb := if tPartial t = 1 then 2 else 4
      if exc = some 7 ∨ exc = some 8 then
        let s := if exc = some 7 then s.mapIo (fun io => (io.inc .WG_CHECK_FAILS stk).event .WG_EVENT stk 0) else s
        let s := s.setPart l i (fun p => { p with st := .waiting, failedAt := p.failedAt ++ [room] })
        s.sweepList l
      else if exc.isSome then
        ((s.setPart l i (fun p => { p with st := .damaged st })).setList l (fun x => { x with fail := some (x.fail.getD st) })).settleList l
      else
        match st, sends with
        | 0, [(0, b)] =>
          if b.length = k * eb then
            let ws := (List.range k).map (fun j => vf (plainElem (tPartial t) b 0 j))
            let s := s.mapIo (fun io => io.addWide .WG_ROWS_LO stk p.entries.length)
            (s.setPart l i (fun p => { p with st := .done, words := ws })).settleList l
          else
            (((s.setPart l i (fun p => { p with st := .damaged stInvalid })).setList l (fun x =>
              { x with fail := some (x.fail.getD stInvalid) })).mapIo (fun io => io.event .WG_EVENT stk 4)).settleList l
        | _, _ =>
          (((s.setPart l i (fun p => { p with st := .damaged stInvalid })).setList l (fun x =>
            { x with fail := some (x.fail.getD stInvalid) })).mapIo (fun io => io.event .WG_EVENT stk 4)).settleList l

/-- Send the sublists of a new list, one for each remote shard, on the lowest-numbered OPEN connection to its owner (R162,
R287). -/
def State.sendParts (s : State) (l : Nat) : State :=
  match s.wings.lookups.at l with
  | none => s
  | some x =>
    let far := x.parts.filter (fun p => p.wing.isNone && p.st == .waiting)
    (keysOf (fun (p : Part) => p.shard) far).foldl (fun (s : State) shard =>
      match far.find? (fun p => p.shard == shard) with
      | none => s
      | some p =>
        let mark := fun (st : PartState) (s : State) => s.setList l (fun x => { x with parts := x.parts.map (fun q =>
          if q.wing.isNone && q.shard == shard && q.st == .waiting then { q with st := st } else q) })
        match s.connFor p.conn x.cls with
        | some k =>
          (mark .running (s.mapIo (fun io => io.inc .WG_REMOTE_OUT x.stack))).connSend k 0x15
            { Msg.blank with tag := x.table, arg := l * 2 ^ 20 + shard, payload := sublistBytes x shard p.w } none none none
        | none => (mark (.damaged stUnreach) s).mapIo (fun io => io.inc .FB_NO_PARTNER)) s

/-- Landings that serve a list: the steering one, and those of its local parts. -/
def State.countLists (s : State) (x : Lookup) : State :=
  let ks := (x.stack :: x.parts.filterMap (fun p => (p.wing.bind s.plan.wing).map wStack)).eraseDups
  ks.foldl (fun s k => s.mapIo (fun io => io.inc .WG_LISTS k)) s

/-- What becomes of a list: it waits for a stack that is held, ends at once with a status, or is served. -/
inductive ListStart where
  | wait
  | over (st : Nat)
  | go (x : Lookup) (oor : Nat)
deriving DecidableEq, Repr

/-- Read and check a list (R150, R153 to R156): its header and whole text with their BCVs (R400). -/
def State.readList (s : State) (owner : ListOwner) (a cls : Nat) : ListStart :=
  if s.plan.dpaOk a 32 = false ∨ a % 8 ≠ 0 then .over stInvalid
  else if s.dpaHeld a 32 = true then .wait
  else if s.ram.consumerOk a 32 = false then .over stCheck
  else
    let h := listHead (s.ram.read a 32)
    match s.plan.table h.table with
    | none => .over stInvalid
    | some t =>
      if s.headOk h (s.ram.read a 32) t = false ∨ s.plan.dpaOk a (listLen h) = false then .over stInvalid
      else if s.dpaHeld a (listLen h) = true then .wait
      else if s.ram.consumerOk a (listLen h) = false then .over stCheck
      else
        let b := s.ram.read a (listLen h)
        let ends := bagEnds b h.bags
        if endsOk 0 ends h.entries = false ∨ paddingOk b h.bags = false then .over stInvalid
        else
          let bags := bagEntries b (entriesAt h.bags) 0 ends
          let oor := ((bags.map (fun es => (es.filter (fun e => decide (tRows t ≤ e.2.1))).length))).sum
          if 0 < oor ∧ bit h.flags 0 = false then .over stInvalid
          else if tOwnerMap t ≠ 0 ∧ s.dpaHeld (tOwnerMap t) (4 * tShards t) = true then .wait
          else
            match s.splitList t h.mode h.k bags with
            | none => .over stInvalid
            | some ps =>
              .go ⟨owner, h.table, h.mode, h.flags, h.k, h.destKind, h.destArray, h.dest, h.stride, cls,
                bags.map (fun es => es.map (fun e => (e.1, e.2.1, e.2.2, decide (e.2.1 < tRows t)))), [], ps, tSteer t, none⟩ oor

/-- A list is taken up: its sublists go out, its room-calls wait for ROOM_CALL. -/
def State.beginList (s : State) (x : Lookup) (oor : Nat) : State :=
  let l := s.wings.nextList
  let s := { s with wings := { s.wings with lookups := s.wings.lookups.put l x, nextList := l + 1 } }
  let s := (s.countLists x).mapIo (fun io => if oor = 0 then io else io.add .WG_OOR x.stack oor)
  (s.sendParts l).sweepList l

/-- CMD_LOOKUP (R153 to R157): the steering landing checks the list and splits it. -/
def execCmdLookup (id : Nat) (s : State) : Result :=
  match s.readyCmd id 9 with
  | none => ignored s
  | some c =>
    let a := u64 c.entry 0x10
    match s.readList (.cmd id) a c.cls with
    | .wait => ignored s
    | .over st => .next ((if st = stCheck then s.logCheck a (dpaRoom a) else s).finish id st 0)
    | .go x oor =>
      let stk := (x.parts.filterMap (fun p => (p.wing.bind s.plan.wing).map wStack)).foldl (fun m k => m ||| 2 ^ k) (2 ^ x.stack)
      let arr := if x.destKind = 1 then 2 ^ x.destArray else 0
      .next (((s.runCmd id 1).touch id arr stk).beginList x oor)

/-- The connection's accepted-message state moves on, and the message is acknowledged (R284). -/
def State.accepted (s : State) (k arg : Nat) : State :=
  (s.setConn k (fun c => { c with rxNext := (c.rxNext + 1) % 2 ^ 32, lastAck := arg })).connAck k arg

/-- A message that is not the next one expected is answered as the last accepted was (R284). -/
def State.ackAgain (s : State) (k : Nat) : State :=
  match s.fab.conns.at k with
  | some c => s.connAck k c.lastAck
  | none => s

/-- The connection that a message arrives on, where it is the next one expected; a discarded one is answered with the last
accepted (R283, R284). -/
def State.connTakes (s : State) (m : Msg) : Option (Nat × Bool) :=
  match s.fab.conns.at m.conn with
  | some c =>
    if c.epoch = m.epoch ∧ c.remote = m.src ∧ (c.st = .opened ∨ c.st = .closing) then some (m.conn, c.rxNext == m.mseq) else none
  | none => none

/-- RX_SUBLIST (R162): the owner serves a sublist at the wing's landing under the connection's class, or refuses one whose
wing does not hold the shard of every entry. -/
def execRxSublist (p : Fin 64) (m : Msg) (s : State) : Result :=
  if (s.port p).linked = false ∨ s.host.parked = true then ignored s
  else
    match s.connTakes m with
    | none => ignored s
    | some (k, false) => .next (s.ackAgain k)
    | some (k, true) =>
      let s := s.accepted k 0
      let b := m.payload
      let mode := u8 b 4
      let words := (List.range (u32 b 8)).map (fun i => u32 b (16 + 4 * i))
      let ends := words.map (· % 2 ^ 31)
      let bags := bagEntries b (16 + 4 * u32 b 8) 0 ends
      let refuse := .next (s.connSend k 0x16 { Msg.blank with tag := m.tag, arg := m.arg, payload := bytesOf stInvalid 4 } none none none)
      match s.plan.table (u16 b 0), s.plan.wing (u16 b 2) with
      | some t, some w =>
        if wKind w = 1 ∧ wOwner w % 4096 = tId t ∧ mode ≤ 5 ∧ u8 b 7 = 0 ∧ endsOk 0 ends (u32 b 12) = true ∧
            bags.all (fun es => es.all (fun e => e.2.1 % tShards t == wParam w && decide (e.2.1 < tRows t))) = true then
          let ps := bags.zipIdx.flatMap (fun g =>
            localParts t w mode g.2 (wParam w) (if mode = 4 then g.1.take (u8 b 5) else g.1))
          let x : Lookup := ⟨.remote k m.arg, tId t, mode, u8 b 6, u8 b 5, 0, 0, 0, 0, m.cls,
            bags.map (fun es => es.map (fun e => (e.1, e.2.1, e.2.2, true))), words.map (fun e => bit e 31), ps, wStack w, none⟩
          .next ((s.mapIo (fun io => io.inc .WG_REMOTE_IN (wStack w))).beginList x 0)
        else refuse
      | _, _ => refuse

/-- RX_PARTIAL (R162, R163): a remote owner's answer is taken for the parts of its shard; a refusal is the whole list's. -/
def execRxPartial (p : Fin 64) (m : Msg) (s : State) : Result :=
  if (s.port p).linked = false then ignored s
  else
    match s.connTakes m with
    | none => ignored s
    | some (k, false) => .next (s.ackAgain k)
    | some (k, true) =>
      let s := s.accepted k 0
      let l := m.arg / 2 ^ 20
      let shard := m.arg % 2 ^ 20
      let st := endStatus (u32 m.payload 0)
      let d := match s.wings.lookups.at l with | some x => ((s.plan.table x.table).map tDim).getD 16 | none => 16
      .next ((s.setList l (fun x =>
        if st = stDone then x.takeAnswer d shard m.payload
        else { x with
          fail := some (x.fail.getD st)
          parts := x.parts.map (fun q =>
            if q.wing.isNone && q.shard == shard && q.st == .running then { q with st := .damaged st } else q) })).settleList l)

/-- The parts that wait on a connection which has broken are unreachable (R163, R286). -/
def State.breakParts (s : State) (ref cls : Nat) : State :=
  (s.wings.lookups.list.filter (fun e => e.2.cls == cls)).foldl (fun (s : State) e =>
    (s.setList e.1 (fun x => { x with parts := x.parts.map (fun p =>
      if p.wing.isNone && p.conn == ref && p.st == .running then { p with st := .damaged stUnreach } else p) })).settleList e.1) s

/-! ### Row flags (R152) -/

/-- CMD_ROW_FLAG (R152): a row's FROZEN flag is rewritten with the record, in one record burst with a new check. Both twins
take it where both hold the row. -/
def execCmdRowFlag (id : Nat) (s : State) : Result :=
  match s.readyCmd id 13 with
  | none => ignored s
  | some c =>
    let row := u32 c.entry 0x14
    match s.plan.table (u16 c.entry 0x10) with
    | none => .next (s.finish id stInvalid 0)
    | some t =>
      let ws := s.plan.shardWings (tId t) (row % tShards t)
      if u8 c.entry 0x12 > 1 ∨ tRows t ≤ row ∨ ws = [] then .next (s.finish id stInvalid 0)
      else
        let loc := row / tShards t
        let place := fun (w : List Byte) => (wingRoom w (loc % wRooms w), loc / wRooms w * tRecLen t)
        if ws.any (fun w => s.stackHeld (wStack w) || s.roomChan (place w).1 == .planned || s.roomChan (place w).1 == .unplanned) then
          ignored s
        else
          let one := fun (acc : State × Nat) (w : List Byte) =>
            let s := acc.1
            let r := (place w).1
            let o := (place w).2
            let a := fun i => roomDpa r (o + 64 * i)
            let n := tRecLen t / 64
            let bytes := (List.range n).flatMap (fun i => s.ram.read (a i) 64)
            let ecc := (List.range n).all (fun i => s.ram.eccOk (a i) 64)
            if s.roomChan r = .failed then (s, stCheck)
            else if ecc = false ∨ rowCheckOk bytes = false then
              (({ s with io := if ecc then s.io.inc .RL_BCV_FAILS else s.io.inc .RL_UNCORR }).logError (if ecc then 3 else 1) stCheck r, stCheck)
            else
              let f := (u8 bytes 10 / 2) * 2 + u8 c.entry 0x12
              let new := withCheck (bytes.take 10 ++ [BitVec.ofNat 8 f] ++ bytes.drop 11)
              ((List.range n).foldl (fun s i => s.sheetWrite .row (a i) (slice new (64 * i) 64)) s, acc.2)
          let r := ws.foldl one (s, stDone)
          .next ((r.1.touch id 0 (ws.foldl (fun m w => m ||| 2 ^ wStack w) 0)).finish id r.2 0)

end Sys2Proof.Machine
end

