-- ==== Sys2Proof/Machine/Update.lean ====
section
/-! DEFINITION. Machine/Update.lean: online update (chapter 10): gradient lists and combiners, the epoch close, the two
verdicts and their tree (R301 to R304), what a commit, a skip and a flip do, and shard statistics. -/

namespace Sys2Proof.Machine

/-! ### Shards, combiners and entries -/

/-- What a shard that nothing has made holds. -/
def shardDflt : Nat → Shard := fun _ => Shard.reset
/-- What a landing's combiner that nothing has reached holds. -/
def combDflt : Nat → Combiner := fun _ => Combiner.reset
/-- The shard of a wing. -/
def State.shard (s : State) (w : Nat) : Shard := SMap.get shardDflt s.upd.shards w
/-- Change a shard. -/
def State.setShard (s : State) (w : Nat) (f : Shard → Shard) : State :=
  { s with upd := { s.upd with shards := SMap.set shardDflt s.upd.shards w (f (s.shard w)) } }
/-- The combiner of a stack's landing. -/
def State.comb (s : State) (k : Nat) : Combiner := SMap.get combDflt s.upd.combiners k
/-- Change a combiner. -/
def State.setComb (s : State) (k : Nat) (f : Combiner → Combiner) : State :=
  { s with upd := { s.upd with combiners := SMap.set combDflt s.upd.combiners k (f (s.comb k)) } }
/-- Change the update block. -/
def State.setUpd (s : State) (f : Update → Update) : State := { s with upd := f s.upd }

/-- TABLE wings of the plan in force. -/
def Plan.tableWings (p : Plan) : List (List Byte) := p.wingList.filter (fun w => wKind w == 1)

/-- EFFECTIVE_STEP of an entry. -/
def eFrom (e : List Byte) : Nat := u32 e 4
/-- Whether a pending entry governs a step. -/
def entryDue (e : List Byte) (t : Nat) : Bool := eFrom e == 0 || decide (eFrom e ≤ t)
/-- The entry that governs step `t` of a key (R235). -/
def State.entryFor (s : State) (k t : Nat) : Option (List Byte) :=
  let p := SMap.get paramDflt s.upd.params k
  match p.next with
  | some e => if entryDue e t then some e else p.now
  | none => p.now

/-- Whether a table is frozen: by its entry in force or its floor-plan entry (R235). -/
def State.tableFrozen (s : State) (t : List Byte) : Bool :=
  tFrozen t || (match s.entryNow (tableKey (tId t)) with | some e => eFrozen e | none => false)

/-- UP_STEP. -/
def State.upStep (s : State) : Nat := s.io.val .UP_STEP

/-- A shard becomes stale (R241). -/
def State.staleShard (s : State) (w : Nat) : State :=
  if (s.shard w).stale then s
  else (s.setShard w (fun x => { x with stale := true })).mapIo (fun io => io.event .UP_EVENT 0 3)

/-- A layer becomes stale. -/
def State.staleLayer (s : State) (id : Nat) : State :=
  if (s.layer id).stale then s
  else (s.setLayer id (fun x => { x with stale := true })).mapIo (fun io => io.event .UP_EVENT 0 3)

/-- Every shard and layer of the device becomes stale (R239, R304). -/
def State.staleAll (s : State) : State :=
  let s := s.plan.tableWings.foldl (fun s w => s.staleShard (wId w)) s
  (s.layerEntries.map (·.1)).foldl State.staleLayer s

/-! ### The step's instants (R237) -/

/-- The EPOCH_CLOSE and FLIP instants. -/
def Plan.closeInstant (p : Plan) : Option Instant := p.instants.find? (fun i => i.kind == 1)
/-- The FLIP instant. -/
def Plan.flipInstant (p : Plan) : Option Instant := p.instants.find? (fun i => i.kind == 2)
/-- E of R237. -/
def Plan.epochE (p : Plan) : Nat := match p.closeInstant with | some i => i.period * p.frameLen | none => 0
/-- F of R237: the distance from EPOCH_CLOSE forward to the next FLIP; E where there is none (log entry 52). -/
def Plan.epochF (p : Plan) : Nat :=
  match p.closeInstant, p.flipInstant with
  | some c, some f =>
    let e := c.period * p.frameLen
    let d := (f.phase * p.frameLen + f.offset + e - (c.phase * p.frameLen + c.offset)) % e
    if d = 0 then e else d
  | _, _ => p.epochE

/-! ### Gradient lists (R243 to R246) -/

/-- The first status that applies to a list that is over (R246). -/
def GradList.status (g : GradList) : Nat :=
  if g.invalid then stInvalid else if g.frozen then stFrozen else if g.rejected then stRejected
  else if g.skipped then stSkipped else if g.unreach then stUnreach else stDone

/-- Place of a status in the order of R246. -/
def gradRank (st : Nat) : Nat :=
  if st = stInvalid then 0 else if st = stFrozen then 1 else if st = stRejected then 2 else if st = stSkipped then 3 else 4

/-- A GRADIENT unit's final status is kept for its stream, the first in the order of R246 (R381). -/
def State.keepGrad (s : State) (ctx iter unit st : Nat) : State :=
  { s with sc := { s.sc with streams := s.sc.streams.upd ctx (fun x =>
    if st = stDone then x
    else match x.gkept with
      | some k => if gradRank st < gradRank k.1 then { x with gkept := some (st, iter, unit) } else x
      | none => { x with gkept := some (st, iter, unit) }) } }

/-- A list completes once every contribution is placed and the step of each is decided (R246); a stream's unit retires once
every contribution is accepted or refused (Table 16-3). -/
def State.settleGrad (s : State) (l : Nat) : State :=
  match s.upd.lists.at l with
  | none => s
  | some g =>
    let s := match g.owner with
      | .unit c i u => if g.todo.isEmpty && g.remote == 0 then s.unitStatus c i u stDone else s
      | _ => s
    if g.todo.isEmpty && g.remote == 0 && !g.openEpoch && !g.closedEpoch then
      let s := s.setUpd (fun u => { u with lists := u.lists.del l })
      match g.owner with
      | .cmd id => s.finish id g.status 0
      | .unit c i u => s.keepGrad c i u g.status
      | .remote _ _ => s
    else s

/-- Change a list. -/
def State.setGrad (s : State) (l : Nat) (f : GradList → GradList) : State :=
  s.setUpd (fun u => { u with lists := u.lists.upd l f })

/-- Elements in a bank. -/
def bankElems (rs : List AccRow) : Nat := (rs.map (fun r => r.acc.length)).sum

/-- Put a row among rows in ascending table and row (R245). -/
def putRow (a : AccRow) : List AccRow → List AccRow
  | [] => [a]
  | b :: bs =>
    if a.table < b.table ∨ (a.table = b.table ∧ a.row < b.row) then a :: b :: bs
    else if a.table = b.table ∧ a.row = b.row then a :: bs
    else b :: putRow a bs

/-- A contribution reaches a landing (R241, R244): refused as stale, combined, or dropped. Answers whether it was refused. -/
def State.contribute (s : State) (t w : List Byte) (row : Nat) (weight : Word) (v : List Word) : Bool × State :=
  let k := wStack w
  if (s.shard (wId w)).stale then (true, s.mapIo (fun io => io.inc .UP_REJECTED))
  else
    let c := s.comb k
    match c.acc.find? (fun r => r.table == tId t && r.row == row) with
    | some r =>
      let acc := List.zipWith (fun x a => f32fma weight x a) v r.acc
      (false, (s.setComb k (fun c => { c with acc := putRow { r with acc := acc } c.acc })).mapIo
        (fun io => io.addWide .UP_CONTRIB_LO k 1))
    | none =>
      if 262144 ≤ c.acc.length ∨ 4194304 < bankElems c.acc + v.length then
        (false, (s.setComb k (fun c => { c with overOpen := true })).mapIo (fun io =>
          (io.inc .UP_DROPPED k).event .UP_EVENT 0 4))
      else
        (false, (s.setComb k (fun c => { c with acc := putRow ⟨tId t, row, wId w, v.map (f32mul weight)⟩ c.acc })).mapIo
          (fun io => io.addWide .UP_CONTRIB_LO k 1))

/-- Whether contributions to a wing's landing are held: a drain or a clear of its stack (R48, R466); a stale shard refuses
them all the same (R241). -/
def State.landingHeld (s : State) (w : List Byte) : Bool := s.stackHeld (wStack w) && !(s.shard (wId w)).stale

/-- GRADIENT_CONTRIBUTION (R243, R244): contribution `i` of list `l` reaches its landing, or leaves for its remote owner on
a connection of class 2. A landing whose stack is drained holds it. -/
def execGradientContribution (l i : Nat) (s : State) : Result :=
  match s.upd.lists.at l with
  | none => ignored s
  | some g =>
    match g.todo[i]?, s.plan.table g.table with
    | some (_, shard, row, weight, v), some t =>
      let s0 := s
      let s := s.setGrad l (fun g => { g with todo := g.todo.eraseIdx i })
      match s.ownerOf t shard with
      | .here w =>
        let (refused, s) := s.contribute t w row weight v
        if s0.landingHeld w then ignored s0
        else .next ((s.setGrad l (fun g =>
          if refused then { g with rejected := true } else { g with openEpoch := true })).settleGrad l)
      | .far ref wing =>
        match s.connFor ref 2 with
        | some k =>
          let b := bytesOf (tId t) 2 ++ bytesOf wing 2 ++ bytesOf row 4 ++ bytesOf weight.toNat 4 ++ wordsBytes v
          let s := s.setGrad l (fun g => { g with remote := g.remote + 1 })
          .next (s.connSend k 0x17 { Msg.blank with tag := tId t, arg := l, payload := b } none none none)
        | none =>
          .next ((s.setGrad l (fun g => { g with unreach := true })).mapIo (fun io => io.inc .FB_NO_PARTNER) |>.settleGrad l)
      | .unread => .next ((s.setGrad l (fun g => { g with unreach := true })).settleGrad l)
      | .bad => .next ((s.setGrad l (fun g => { g with invalid := true })).settleGrad l)
    | _, _ => ignored s

/-- Header checks of a gradient list (Table 10-4). -/
def gradHeadOk (s : State) (h : List Byte) (d : Nat) : Bool :=
  let vec := if bit (u8 h 3) 0 then 2 * d else 4 * d
  let n := if u8 h 2 = 0 then u32 h 4 else u32 h 8
  let span := if n = 0 then 0 else (n - 1) * u32 h 0x14 + vec
  u8 h 1 / 16 == 0 && decide (u8 h 2 ≤ 1) && decide (u8 h 3 ≤ 1) && decide (1 ≤ u32 h 4 ∧ u32 h 4 ≤ 16384) &&
  decide (u32 h 8 ≤ 262144) && s.arrOk (u16 h 0xC) && u16 h 0xE == 0 && u32 h 0x10 % 16 == 0 && u32 h 0x14 % 16 == 0 &&
  decide (u32 h 0x10 + span ≤ 2 ^ 23) && u64 h 0x18 == 0

/-- What becomes of a gradient list: it waits, ends with a status, or its contributions go out. -/
inductive GradStart where
  | wait
  | over (st : Nat)
  | go (g : GradList)
deriving DecidableEq, Repr

/-- Read and check a gradient list (R235, R242, R243). -/
def State.readGrad (s : State) (owner : ListOwner) (a : Nat) : GradStart :=
  if s.plan.dpaOk a 32 = false ∨ a % 8 ≠ 0 then .over stInvalid
  else if s.dpaHeld a 32 = true then .wait
  else if s.ram.consumerOk a 32 = false then .over stCheck
  else
    let h := s.ram.read a 32
    let bags := u32 h 4
    let n := u32 h 8
    let len := entriesAt bags + 8 * n
    match s.plan.table (u16 h 0 % 4096) with
    | none => .over stInvalid
    | some t =>
      let d := tDim t
      if gradHeadOk s h d = false ∨ s.plan.dpaOk a len = false ∨ (s.entryNow (tableKey (tId t))).isNone = true then .over stInvalid
      else if s.dpaHeld a len = true then .wait
      else if s.tableFrozen t then .over stFrozen
      else if s.ram.consumerOk a len = false then .over stCheck
      else
        let b := s.ram.read a len
        let ends := bagEnds b bags
        if endsOk 0 ends n = false ∨ paddingOk b bags = false then .over stInvalid
        else
          let es := (bagEntries b (entriesAt bags) 0 ends).zipIdx.flatMap (fun p => p.1.map (fun e => (p.2, e)))
          if es.any (fun e => decide (tRows t ≤ e.2.2.1)) then .over stInvalid
          else
            let arr := u16 h 0xC
            let at' := fun (e : Nat × Nat × Nat × Word) => u32 h 0x10 + (if u8 h 2 = 0 then e.1 else e.2.1) * u32 h 0x14
            let eb := if bit (u8 h 3) 0 then 2 else 4
            if es.any (fun e => !s.ram.consumerOk (storeAddr arr (at' e)) (eb * d)) then .over stCheck
            else
              let vec := fun e =>
                let r := s.ram.read (storeAddr arr (at' e)) (eb * d)
                (List.range d).map (fun j => vf (plainElem (if eb = 2 then 1 else 0) r 0 j))
              .go ⟨owner, tId t, 2, es.map (fun e => (e.1, e.2.2.1 % tShards t, e.2.2.1, e.2.2.2, vec e)), 0, false, false, false,
                false, false, false, false⟩

/-- A gradient list is taken up. -/
def State.beginGrad (s : State) (g : GradList) : State :=
  let l := s.upd.nextList
  (s.setUpd (fun u => { u with lists := u.lists.put l g, nextList := l + 1 })).settleGrad l

/-- CMD_GRADIENT (R243): the steering landing checks the list; its contributions then go to their landings. -/
def execCmdGradient (id : Nat) (s : State) : Result :=
  match s.readyCmd id 10 with
  | none => ignored s
  | some c =>
    let a := u64 c.entry 0x10
    match s.readGrad (.cmd id) a with
    | .wait => ignored s
    | .over st =>
      let s := if st = stCheck then s.logCheck a (dpaRoom a) else if st = stFrozen then s.mapIo (fun io => io.inc .UP_FROZEN) else s
      .next (s.finish id st 0)
    | .go g => .next ((s.runCmd id 1).beginGrad g)

/-- RX_GRADLIST (R162, R243): a remote contribution is accepted, refused as stale, or refused as not the wing's; the ACK
carries the status. -/
def execRxGradlist (p : Fin 64) (m : Msg) (s : State) : Result :=
  let s0 := s
  if (s.port p).linked = false ∨ s.host.parked = true then ignored s
  else
    match s.connTakes m with
    | none => ignored s
    | some (k, false) => .next (s.ackAgain k)
    | some (k, true) =>
      let b := m.payload
      let row := u32 b 4
      match s.plan.table (u16 b 0), s.plan.wing (u16 b 2) with
      | some t, some w =>
        let d := tDim t
        if wKind w = 1 ∧ wOwner w % 4096 = tId t ∧ row % tShards t = wParam w ∧ row < tRows t ∧ b.length = 12 + 4 * d then
          let v := (List.range d).map (fun j => BitVec.ofNat 32 (u32 b (12 + 4 * j)))
          if s.landingHeld w then ignored s0
          else
          let (refused, s) := s.contribute t w row (BitVec.ofNat 32 (u32 b 8)) v
          .next (s.accepted k (if refused then stRejected else stDone))
        else .next (s.accepted k stInvalid)
      | _, _ => .next (s.accepted k stInvalid)

/-- A remote owner has answered one contribution of a list (R243, R246). -/
def State.gradAnswer (s : State) (l st : Nat) : State :=
  (s.setGrad l (fun g =>
    let g := { g with remote := g.remote - 1 }
    if st = stDone then { g with openEpoch := true }
    else if st = stRejected then { g with rejected := true }
    else if st = stUnreach then { g with unreach := true }
    else { g with invalid := true })).settleGrad l

/-! ### Skips and commits (R238, R239, R241) -/

/-- Launch slots and PARAM: the itinerary UP_CTRL.DENSE_ITIN is launched in class 2 with t patched into its first word; it
waits for R17 at LAUNCH_START (R248). -/
def State.launchDense (s : State) (t : Nat) : State :=
  let ctl := s.io.reg .UP_CTRL
  if ctl.getLsbD 31 = false ∨ s.plan.launchArea = 0 then s
  else
    let l := s.cf.nextLaunch
    let x : Launch := ⟨ctl.toNat % 1024, .update t, 1, 2, 0, (0, bytesOf t 8), none, true, [], 0, 0, stDone, 0, s.mer.count, none, [], 0⟩
    { s with cf := { s.cf with launches := s.cf.launches.put l x, nextLaunch := l + 1 } }

/-- The lists of the closed epoch learn that its step is decided. -/
def State.decideLists (s : State) (skipped : Bool) : State :=
  (s.upd.lists.list.map (·.1)).foldl (fun s l =>
    match s.upd.lists.at l with
    | some g =>
      if g.closedEpoch then
        (s.setGrad l (fun g => { g with closedEpoch := false, skipped := g.skipped || skipped })).settleGrad l
      else s
    | none => s) s

/-- Every stack's landing. -/
def stackIds : List Nat := List.range 16

/-- Call number of the digest ALL_GATHER of a step (R418). -/
def State.digestCall (s : State) (t : Nat) : Nat := 0xF0000000 + t / u16 (s.plan.sec 0x70) 8 % 2 ^ 28

/-- A commit verdict abandons the comparisons that have not completed and counts them, and rejoin copies under way are late
(R418, R420). What still arrives for an abandoned call is discarded. -/
def State.lateDigests (s : State) : State :=
  let gone := (s.rl.comparing.filter (·.issued)).map (fun d => (d.group, s.digestCall d.step))
  let n := s.rl.comparing.length
  { s with
    rl := { s.rl with comparing := [], rejoin := s.rl.rejoin.map (fun r => if r.issued then { r with late := true } else r) }
    fab := { s.fab with
      colls := s.fab.colls.filter (fun c => !(c.device && gone.contains (c.group, c.call)))
      dead := s.fab.dead ++ gone }
    io := if n = 0 then s.io else s.io.add .RL_DIGEST_LATE 0 n }

/-- The comparisons of a committed step's flip instant (R418): one for each group of this device that has layers with an
entry in force, groups ascending. Copies that were late may be repeated (R420). -/
def State.dueDigests (s : State) (t : Nat) : State :=
  let rejoin := s.rl.rejoin.map (fun r => { r with waits := false })
  let iv := u16 (s.plan.sec 0x70) 8
  let gs := ((s.layerEntries.map (fun p => u16 p.2 0x26)).eraseDups.filter (fun g =>
    ((s.fab.groups.at g).getD []).contains s.plan.ref)).mergeSort
  let due := if s.plan.has 0x70 && iv != 0 && t % iv == 0 then gs.map (fun g => (⟨t, g, false⟩ : Digest)) else []
  { s with rl := { s.rl with comparing := s.rl.comparing ++ due, rejoin := rejoin } }

/-! ### Checkpoint cuts (R421, R422) -/

/-- Address of a byte of a half of a room's dirty-row map. -/
def dirtyAddr (room half i : Nat) : Nat := roomDpa room (0xFF000 + half * 0x800 + i)

/-- Whether a slot of a room is marked in a half. -/
def slotDirty (m : Ram) (room half j : Nat) : Bool := bit (m.byte (dirtyAddr room half (j / 8))).toNat (j % 8)

/-- Whether block `b` of a room holds a byte of a marked slot, with records of `l` bytes. -/
def blockDirty (m : Ram) (room half l b : Nat) : Bool :=
  (List.range 256).any (fun i => slotDirty m room half ((256 * b + i) / l))

/-- A number's bits from a list, the first lowest. -/
def packBits (bs : List Bool) : Nat := bs.foldr (fun b n => (if b then 1 else 0) + 2 * n) 0

/-- The summary of a wing's frozen half: header, then a bitmap of 4,096 blocks for each channel (R422). -/
def ckptSummary (m : Ram) (w t : List Byte) (half step : Nat) : List Byte :=
  bytesOf (wId w) 2 ++ bytesOf (wChans w) 1 ++ zeros 1 ++ bytesOf step 4 ++ zeros 8 ++
  (List.range (wChans w)).flatMap (fun c =>
    bytesOf (packBits ((List.range 4096).map (fun b =>
      (List.range 1024).any (fun i => blockDirty m (wingRoom w (1024 * c + i)) half (tRecLen t) b)))) 512)

/-- Whether an address lies in a half of a wing's dirty-row maps. -/
def inHalf (p : Plan) (wing half a : Nat) : Bool :=
  decide (a < 2 ^ 40) && (match p.wingOf (dpaRoom a) with | some w => wId w == wing | none => false) &&
  decide (0xFF000 + half * 0x800 ≤ dpaOffset a ∧ dpaOffset a < 0xFF800 + half * 0x800)

/-- A half of a wing's dirty-row maps reads zero (R199, R422). -/
def State.clearHalf (s : State) (wing half : Nat) : State :=
  let s := s.forgetLines (inHalf s.plan wing half)
  { s with ram := { s.ram with bytes := SMap.drop (inHalf s.plan wing half) s.ram.bytes } }

/-- The cut asked for is made before any row of a committed step is dispatched (R422). A list or destination outside the
sheets in service, or one that fails its check, counts as a bad wing. -/
def State.cutCkpt (s : State) (t : Nat) : State :=
  match s.rl.ckpt with
  | none => s
  | some c =>
    let ids := (List.range c.count).map (fun i => u16 (s.ram.read (c.list + 2 * i) 2) 0)
    let ws := ids.filterMap (fun i => (s.plan.wing i).bind (fun w =>
      if wKind w = 1 then (s.plan.table (wOwner w % 4096)).map (fun x => (w, x)) else none))
    let total := (ws.map (fun w => 16 + 512 * wChans w.1)).sum
    let s := { s with rl := { s.rl with ckpt := none } }
    if c.count = 0 ∨ 1024 < c.count ∨ s.plan.dpaOk c.list (2 * c.count) = false ∨ s.ram.consumerOk c.list (2 * c.count) = false ∨
        ws.length ≠ c.count ∨ s.plan.dpaOk c.dest total = false then
      { s with io := s.io.putN .RL_CKPT_STATUS 0 (2 ^ 29) }
    else
      let r := ws.foldl (fun (r : State × Nat) w =>
        let s := r.1
        let id := wId w.1
        let h := SMap.get (fun _ => 0) s.rl.half id
        let b := ckptSummary s.ram w.1 w.2 h t
        let s := s.clearHalf id (1 - h)
        let s := { s with
          rl := { s.rl with half := SMap.set (fun _ => 0) s.rl.half id (1 - h) } }
        (s.sheetWrite .device r.2 b, r.2 + b.length)) (s, c.dest)
      { r.1 with io := ((r.1.io.putN .RL_CKPT_STATUS 0 (2 ^ 30)).putN .RL_CKPT_STEP 0 t).event .RL_EVENT 0 5 }

/-- Step t is skipped: the closed banks are discarded and the epoch's lists complete (R238). -/
def State.skipStep (s : State) : State :=
  let s := s.lateDigests
  let s := stackIds.foldl (fun s k =>
    if (s.comb k).go then s else s.setComb k (fun c => { c with drain := [], overClosed := false })) s
  let s := s.mapIo (fun io => (io.inc .UP_SKIPS).event .UP_EVENT 0 0)
  (s.setUpd (fun u => { u with phase := .collecting, lastSkipped := true, commitSent := true })).decideLists true

/-- Pending entries that govern step t take effect (R235). -/
def Update.takeEntries (u : Update) (t : Nat) : Update :=
  { u with params := u.params.map (fun e => (e.1,
      match e.2.next with
      | some n => if entryDue n t then ⟨some n, none⟩ else e.2
      | none => e.2)) }

/-- A decayed column statistic (R231), each operation rounded. -/
def colStat (b eps c sum : Word) (m : Nat) : Word :=
  let mean := f32div sum (vf (intVal m))
  f32min (f32add (f32mul b c) (f32mul (f32sub one32 b) (f32add mean eps))) fp32max

/-- q of the next step (R233). -/
def clipOf (su : Word) (n : Nat) (theta : Word) : Word :=
  let rho := f32sqrt (f32div su (vf (intVal n)))
  if (fv rho).isZero then one32 else f32min one32 (f32div theta rho)

/-- A shard's last row has returned: its sums are rounded and c, cmean and the next q formed (R231, R233, R245); its
parameter block is due (R247). A step that updated no row leaves them as they are. -/
def State.settleShard (s : State) (w : List Byte) : State :=
  let id := wId w
  let x := s.shard id
  let waits := (s.comb (wStack w)).drain.any (fun r => r.wing == id)
  if x.busy = false ∨ waits ∨ x.running.isEmpty = false then s
  else
    let s := s.setShard id (fun x => { x with busy := false })
    match s.plan.table (wOwner w % 4096), s.entryNow (tableKey (wOwner w % 4096)) with
    | some t, some e =>
      let primary := match s.ownerOf t (wParam w) with | .here p => wId p == id | _ => true
      if primary then
        let s :=
          if x.m = 0 then s
          else
            let b := beta2 x.step (f32At e 0xC)
            let c := x.c.zipIdx.map (fun p => colStat b (f32At e 0x10) p.1 (vf (x.cols.getD p.2 (.fin false 0 0))) x.m)
            let cmean := f32min (f32div (c.foldl f32add 0#32) (vf (intVal (tDim t)))) fp32max
            let q := clipOf (f32min (vf x.su) fp32max) (x.m * tDim t) (f32At e 0x1C)
            let up := fun (y : Shard) => { y with c := c, cmean := cmean, q := q, fresh := false }
            let s := s.setShard id up
            match s.plan.twin w with
            | some v => if (s.shard (wId v)).stale then s else s.setShard (wId v) up
            | none => s
        s.setUpd (fun u => { u with blocks := u.blocks.filter (· != id) ++ [id] })
      else s
    | _, _ => s

/-- The 48-byte dense parameter block of a layer for step t (R248): Table 6-7 with NORM 0, then CMEAN, ABSURD, FLAGS, N. -/
def densePblock (e hdr : List Byte) (t : Nat) (stale fresh : Bool) : List Byte :=
  let su := f32At hdr 4
  bytesOf (u32 e 8) 4 ++ bytesOf (beta2 t (f32At e 0xC)).toNat 4 ++ bytesOf (u32 e 0x10) 4 ++ bytesOf (u32 e 0x14) 4 ++
  bytesOf (u32 e 0x18) 4 ++ bytesOf (if fresh then one32 else clipOf su (eN e * eK e) (f32At e 0x1C)).toNat 4 ++ bytesOf t 4 ++ bytesOf (eK e) 2 ++ zeros 2 ++
  bytesOf (u32 hdr 8) 4 ++ bytesOf (u32 e 0x20) 4 ++ bytesOf ((if eFrozen e then 1 else 0) + (if stale then 2 else 0)) 4 ++
  bytesOf (eN e) 4

/-- A layer meets a committed step t (R241, R248): it takes part and its parameter block is written, or it is stale. -/
def State.commitLayer (s : State) (t id : Nat) (e : List Byte) : State :=
  let s := if s.layerStep id + 1 = t then s else s.staleLayer id
  let x := s.layer id
  let hdr := s.ram.read (eBuf e x.current + headerOff e) 12
  let s := s.storeWrite .device (u8 e 0x25) (u32 e 0x2C) (densePblock e hdr t x.stale x.fresh)
  if x.stale then s else s.setLayer id (fun x => { x with updated := true, written := false })

/-- Step t is committed (Table 10-2, R241, R245, R248). A shard whose stack is draining takes no part, and is stale from the
step it misses (R49, R241; log entry 159). -/
def State.commitStep (s : State) (t : Nat) : State :=
  let s := s.lateDigests.cutCkpt t
  let s := s.mapIo (fun io => (io.putN .UP_STEP 0 t).inc .UP_COMMITS)
  let s := s.setUpd (fun u => (u.takeEntries t))
  let s := s.setUpd (fun u => { u with phase := .applying, lastSkipped := false, deciding := t, flipSent := false, flipVerdict := none })
  let s := stackIds.foldl (fun s k => s.setComb k (fun c => { c with go := true, after := s.wings.nextList })) s
  let s := s.plan.tableWings.foldl (fun s w =>
    let id := wId w
    let x := s.shard id
    if x.stale then s.setComb (wStack w) (fun c => { c with drain := c.drain.filter (fun r => r.wing != id) })
    else if x.step + 1 = t ∧ s.draining (wStack w) = false ∧ (s.comb (wStack w)).scanned = true then
      s.setShard id (fun x => { x with step := t, busy := true, m := 0, su := .fin false 0 0, cols := x.c.map (fun _ => .fin false 0 0) })
    else (s.staleShard id).setComb (wStack w) (fun c => { c with drain := c.drain.filter (fun r => r.wing != id) })) s
  let s := s.plan.tableWings.foldl State.settleShard s
  let s := s.layerEntries.foldl (fun s p => s.commitLayer t p.1 p.2) s
  (s.launchDense t).decideLists false

/-! ### The verdict tree (R301 to R304) -/

/-- The verdict reduction of the commit or of the flip. -/
def Fabric.verdict (f : Fabric) (flip : Bool) : Verdict := if flip then f.flip else f.commit
/-- Change a verdict reduction. -/
def State.setVerdict (s : State) (flip : Bool) (g : Verdict → Verdict) : State :=
  { s with fab := if flip then { s.fab with flip := g s.fab.flip } else { s.fab with commit := g s.fab.commit } }

/-- Whether a neighbour's departure takes effect at or before the count (R236, R269). -/
def State.nbrDeparted (s : State) (x : Port) : Bool :=
  s.fab.departs.any (fun d => x.nbr.map (·.1) == some d.ref && decide (d.effective ≤ s.mer.count))

/-- Child ports: neighbours whose last VTREE, received within two frames, names this device as parent (R301). -/
def State.childPorts (s : State) : List Nat :=
  (List.range 64).filter (fun p =>
    let x := s.port p
    x.linked && x.child && !x.gone && !s.nbrDeparted x && decide (s.mer.count ≤ x.childAt + 2 * s.plan.frameLen))

/-- A departure of this device that takes effect at or before a count (R301). -/
def State.departsBy (s : State) (c : Nat) : Bool := s.fab.departs.any (fun d => d.ref == s.plan.ref && decide (d.effective ≤ c))

/-- Subtree count (R301). -/
def State.subtree (s : State) : Nat :=
  (s.childPorts.map (fun p => (s.port p).childCount)).sum +
  (if s.plan.closeInstant.isSome && !s.departsBy s.mer.count then 1 else 0)

/-- The parent: the port towards the master by PATH 0 (R301). -/
def State.parentPort (s : State) : Option Nat :=
  if s.mer.masterValid && !s.mer.masterSelf then s.route s.mer.master 3 0 else none

/-- The aggregate of a reduction: bit, step and devices counted (R302). -/
def Verdict.aggregate (v : Verdict) : Bool × Nat × Nat :=
  v.kids.foldl (fun a k => (a.1 || k.raised, max a.2.1 k.step, a.2.2 + k.count))
    (match v.own with | some o => (o.1, o.2, 1) | none => (false, 0, 0))

/-- What a verdict carries, naturally aligned (R7; log entry 164): which verdict, its bit, step and count. -/
def verdictBytes (flip raised : Bool) (t n : Nat) : List Byte :=
  bytesOf (if flip then 1 else 0) 1 ++ bytesOf (if raised then 1 else 0) 1 ++ zeros 2 ++ bytesOf t 4 ++ bytesOf n 2

/-- Send a verdict to the children (R303). -/
def State.verdictDown (s : State) (flip raised : Bool) (t n : Nat) : State :=
  s.childPorts.foldl (fun s p => s.sendNear p 0x22 { Msg.blank with cls := 3, arg := s.upd.close, payload := verdictBytes flip raised t n }) s

/-- FB_VERDICT and FB_VERDICT_STEP. -/
def State.reportVerdict (s : State) (flip raised : Bool) (t n : Nat) : State :=
  s.mapIo (fun io => (io.putN .FB_VERDICT 0 (2 ^ 31 + (if flip then 2 ^ 30 else 0) + (if raised then 2 ^ 29 else 0) + n % 32768)).putN
    .FB_VERDICT_STEP 0 t)

/-- Open a reduction, the commit's at T and the flip's at the commit: the root is the master in force, or a device without a fabric (R301, R304). -/
def State.openVerdict (s : State) (flip : Bool) (c : Nat) : State :=
  let alone := !s.plan.hasGrid
  s.setVerdict flip (fun _ =>
    ⟨some c, none, [], alone || (s.mer.masterValid && s.mer.masterSelf), if alone then 1 else s.subtree, false⟩)

/-- The device acts on a verdict in time (R236, R238 to R240): the commit decides the step, the flip waits for its instant. -/
def State.actOn (s : State) (flip raised : Bool) (t : Nat) : State :=
  if flip then
    if s.upd.phase = .applying ∨ s.upd.phase = .awaitFlip then s.setUpd (fun u => { u with flipVerdict := some raised }) else s
  else if (s.upd.phase = .scanning ∨ s.upd.phase = .await) ∧ s.mer.count ≤ s.upd.close + s.plan.epochF / 2 then
    (if raised then s.skipStep else (s.commitStep t).openVerdict true s.upd.close)
  else s

/-- The root decides (R303); a count still short is a raised bit. -/
def State.decideRoot (s : State) (flip : Bool) : State :=
  let v := s.fab.verdict flip
  let (raised, t, n) := v.aggregate
  let raised := raised || decide (n < v.need)
  let s := s.setVerdict flip (fun v => { v with decided := true })
  ((s.verdictDown flip raised t n).reportVerdict flip raised t n).actOn flip raised t

/-- A reduction's aggregate has changed: the root decides once its count is complete, another device sends VERDICT_UP once
it has its own contribution (R302, R303). -/
def State.pushVerdict (s : State) (flip : Bool) : State :=
  let v := s.fab.verdict flip
  if v.own.isNone ∨ v.decided then s
  else
    let (raised, t, n) := v.aggregate
    if v.root then (if v.need ≤ n then s.decideRoot flip else s)
    else
      match s.parentPort with
      | some p => s.sendNear p 0x21 { Msg.blank with cls := 3, arg := s.upd.close, payload := verdictBytes flip raised t n }
      | none => s

/-- The device contributes to a reduction. -/
def State.contributeBit (s : State) (flip raised : Bool) : State :=
  let t := if flip then s.upd.deciding else s.upStep + 1
  (s.setVerdict flip (fun v => { v with own := some (raised, t) })).pushVerdict flip

/-- RX_VTREE (R301): a neighbour names its parent and its subtree count. -/
def execRxVtree (p : Fin 64) (child : Bool) (count : Fin 32768) (s : State) : Result :=
  if (s.port p).linked = false then ignored s
  else
    let s := s.setPort p (fun x => { x with child := child, childCount := count, childAt := s.mer.count })
    let s := if child then s else
      { s with fab := { s.fab with commit := s.fab.commit.dropPort p, flip := s.fab.flip.dropPort p } }
    .next s

/-- VTREE_SEND (R301): once per frame VTREE leaves every linked port; an open aggregate goes to the parent again. -/
def execVtreeSend (s : State) : Result :=
  if s.plan.hasGrid = false then ignored s
  else
    let parent := s.parentPort
    let n := s.subtree
    let s := s.linkedPorts.foldl (fun s p =>
      s.sendNear p 0x20 { Msg.blank with cls := 3, payload := bytesOf (if parent = some p then 1 else 0) 1 ++ zeros 1 ++ bytesOf n 2 }) s
    let s := if s.fab.commit.close.isSome && !s.fab.commit.root then s.pushVerdict false else s
    .next (if s.fab.flip.close.isSome && !s.fab.flip.root then s.pushVerdict true else s)

/-- RX_VERDICT_UP (R302): a child's aggregate replaces its previous one; the root decides when its count is complete. -/
def execRxVerdictUp (p : Fin 64) (flip raised : Bool) (step count : Nat) (s : State) : Result :=
  let v := s.fab.verdict flip
  if (s.port p).linked = false ∨ s.childPorts.contains p.val = false ∨ v.close.isNone = true ∨ v.decided = true then ignored s
  else
    let s := s.setVerdict flip (fun v =>
      { v with kids := v.kids.filter (fun (k : Aggregate) => k.port != p) ++ [(⟨p, raised, step, count⟩ : Aggregate)] })
    .next (s.pushVerdict flip)

/-- RX_VERDICT_DOWN (R303): a verdict is forwarded to the children, reported, and acted on where it is in time. -/
def execRxVerdictDown (p : Fin 64) (flip raised : Bool) (step count : Nat) (s : State) : Result :=
  let v := s.fab.verdict flip
  if (s.port p).linked = false ∨ v.close.isNone = true ∨ v.decided = true then ignored s
  else
    let s := s.setVerdict flip (fun v => { v with decided := true })
    .next (((s.verdictDown flip raised step count).reportVerdict flip raised step count).actOn flip raised step)

/-- VERDICT_ROOT_DEADLINE (R303): at T + 3F/8, or T + F − F/16 for the flip, the root decides. -/
def execVerdictRootDeadline (flip : Bool) (s : State) : Result :=
  let v := s.fab.verdict flip
  let f := s.plan.epochF
  let at' := s.upd.close + (if flip then f - f / 16 else 3 * f / 8)
  if v.close.isSome = true ∧ v.root = true ∧ v.decided = false ∧ s.mer.reached at' = true then .next (s.decideRoot flip)
  else ignored s

/-! ### The close and the scan (R237, R238, R244, R245) -/

/-- A landing swaps its banks (R244): where the draining bank still holds rows, the swap fails and the closing bank goes. -/
def State.swapBank (s : State) (k : Nat) : State :=
  let c := s.comb k
  let s := s.mapIo (fun io => io.putN .UP_CMB_PEAK k (max (io.val .UP_CMB_PEAK k) c.acc.length))
  if c.drain.isEmpty then
    s.setComb k (fun c => { c with
      drain := c.acc, acc := [], go := false, overClosed := c.overOpen, overOpen := false
      nonfinite := false, absurd := false, scanned := false })
  else
    (s.setComb k (fun c => { c with
      acc := [], overClosed := true, overOpen := false, nonfinite := false, absurd := false, scanned := false })).mapIo
      (fun io => io.event .UP_EVENT 0 4)

/-- EPOCH_CLOSE (R68, R237, R304): the epoch closes at its instant: banks swap and the scan begins. A device that can have
no verdict skips at once. -/
def execEpochClose (s : State) : Result :=
  match s.plan.instantOf 1 with
  | none => ignored s
  | some k =>
    match s.dueInstant k with
    | none => ignored s
    | some (_, c) =>
      let s := s.fired k c
      let s := s.mapIo (fun io => (io.putN .UP_CAUSE 0 0).putWide .UP_CLOSE_LO 0 (BitVec.ofNat 64 c))
      let s := s.setUpd (fun u => { u with
        phase := .scanning, close := c, commitSent := false, flipSent := false, flipVerdict := none
        denseNonfinite := false, denseAbsurd := false, denseDamaged := false, denseFault := false
        lists := u.lists.map (fun e => (e.1, e.2.map (fun g => { g with closedEpoch := g.closedEpoch || g.openEpoch, openEpoch := false }))) })
      let s := stackIds.foldl State.swapBank s
      let s := if stackIds.any (fun k => (s.comb k).overClosed && !s.draining k) then s.mapIo (fun io => io.setBit .UP_CAUSE 0 2 true) else s
      let s := (s.openVerdict false c).setVerdict true (fun _ => Verdict.reset)
      if s.plan.hasGrid && !s.mer.masterValid then
        let none' := !s.plan.eligible && !s.fab.masters.any (fun m => m.eligible)
        let s := (s.setVerdict false (fun _ => Verdict.reset)).mapIo (fun io => io.setBit .UP_CAUSE 0 4 true)
        let s := s.skipStep
        .next (if none' then s else s.staleAll)
      else .next s

/-- Whether a row's record is frozen (R242). -/
def State.rowFrozen (s : State) (w t : List Byte) (row : Nat) : Bool :=
  let l := row / tShards t
  let room := wingRoom w (l % wRooms w)
  bit (u8 (s.ram.read (roomDpa room (l / wRooms w * tRecLen t)) 16) 10) 0

/-- The scan's tests of one row (R238, R242): whether it stays, is not finite, is absurd. A frozen row that fails is
dropped and raises nothing. -/
def State.scanRow (s : State) (r : AccRow) : Bool × Bool × Bool :=
  match s.plan.wing r.wing, s.plan.table r.table with
  | some w, some t =>
    let lim := match s.entryFor (tableKey r.table) (s.upStep + 1) with | some e => f32At e 0x20 | none => fp32max
    let bad := r.acc.any (fun v => !f32fin v)
    let big := r.acc.any (fun v => f32fin v && f32lt lim (f32abs v))
    if (bad || big) && s.rowFrozen w t r.row then (false, false, false) else (true, bad, big)
  | _, _ => (true, false, false)

/-- Whether every landing of a stack in service has scanned its closed bank; one that drains takes no part (R49). -/
def State.scansDone (s : State) : Bool :=
  stackIds.all (fun k => !s.plan.inService k || s.draining k || (s.comb k).scanned)

/-- The commit problem bit (R238): neither a draining stack (R49) nor a stale shard (R241) raises it. -/
def State.problemBit (s : State) : Bool :=
  stackIds.any (fun k =>
    let c := s.comb k
    !s.draining k && (c.overClosed || ((c.nonfinite || c.absurd) && c.drain.any (fun r =>
      !(s.shard r.wing).stale && ((s.scanRow r).2.1 || (s.scanRow r).2.2)))))

/-- The device contributes its problem bit and proposed step once its scan is over; later than T + F/4 it contributes a raised
bit with cause LATE_SCAN (R237, R238). -/
def State.contributeScan (s : State) : State :=
  let late := decide (s.upd.close + s.plan.epochF / 4 < s.mer.count)
  let s := s.setUpd (fun u => { u with phase := .await, commitSent := true })
  if late then (s.mapIo (fun io => io.setBit .UP_CAUSE 0 3 true)).contributeBit false true
  else s.contributeBit false s.problemBit

/-- SCAN_COMPLETE (R238, R245): a landing has scanned its closed bank; after the last one the device contributes its
problem bit and proposed step. -/
def execScanComplete (st : Fin 16) (s : State) : Result :=
  if s.upd.phase ≠ .scanning ∨ (s.comb st).scanned = true ∨ s.plan.inService st = false then ignored s
  else
    let old := (s.comb st).drain
    let rs := (old.filter (fun r => !(s.shard r.wing).stale)).map (fun r => (r, s.scanRow r))
    let bad := !(s.comb st).go && rs.any (fun r => r.2.2.1)
    let big := !(s.comb st).go && rs.any (fun r => r.2.2.2)
    let dropped := rs.filter (fun r => !r.2.1)
    let s := s.setComb st (fun c => { c with
      scanned := true, nonfinite := bad, absurd := big
      drain := if c.go then c.drain else (rs.filter (fun r => r.2.1)).map (·.1) })
    let s := s.mapIo (fun io =>
      let io := if bad && !s.draining st then io.setBit .UP_CAUSE 0 0 true else io
      let io := if big && !s.draining st then io.setBit .UP_CAUSE 0 1 true else io
      if dropped.isEmpty then io else io.add .UP_FROZEN 0 dropped.length)
    .next (if s.scansDone then s.contributeScan else s)

/-- SCAN_DEADLINE (R237): at T + F/4 a device whose scan is incomplete contributes a raised bit. -/
def execScanDeadline (s : State) : Result :=
  if s.upd.phase = .scanning ∧ s.mer.reached (s.upd.close + s.plan.epochF / 4) = true then
    let s := s.mapIo (fun io => io.setBit .UP_CAUSE 0 3 true)
    .next ((s.setUpd (fun u => { u with phase := .await, commitSent := true })).contributeBit false true)
  else ignored s

/-- VERDICT_DEADLINE (R239): a device without the commit verdict at T + F/2 skips step t locally and is stale. -/
def execVerdictDeadline (s : State) : Result :=
  if (s.upd.phase = .scanning ∨ s.upd.phase = .await) ∧ s.mer.reached (s.upd.close + s.plan.epochF / 2) = true then
    let s := (s.setVerdict false (fun v => { v with decided := true })).mapIo (fun io => io.event .UP_EVENT 0 2)
    .next s.skipStep.staleAll
  else ignored s

/-! ### Rows (R245, R247) -/

/-- The update call of a row has ended (R245): outcome, su and row of its UPSTAT, or a fault that excludes it. -/
def State.rowEnded (s : State) (wing row : Nat) (primary : Bool) (room st : Nat) (exc : Option Nat)
    (sends : List (Nat × List Byte)) : State :=
  let k := room / 65536
  let x := s.shard wing
  let g := ((x.running.find? (fun r => r.1 == row)).map (fun r => r.2.1)).getD []
  let s := s.setShard wing (fun x => { x with running := x.running.filter (fun r => r.1 != row) })
  let ok := match exc, st, sends with
    | none, 0, [(2, b)] => if b.length = 16 ∧ u32 b 0 < 256 ∧ u32 b 8 = row then some (u8 b 0, f32At b 4) else none
    | _, _, _ => none
  let s := match ok with
    | some (0, su) =>
      if primary then s.setShard wing (fun x => { x with
        m := x.m + 1, su := x.su.add (fv su)
        cols := x.cols.zipIdx.map (fun (c : Val × Nat) => c.1.add ((fv (g.getD c.2 0#32)).mul (fv (g.getD c.2 0#32)))) })
      else s
    | some (7, _) => if primary then s.mapIo (fun io => io.inc .UP_FROZEN) else s
    | some _ => s
    | none =>
      let s := s.mapIo (fun io => io.inc .UP_ROW_FAULTS k)
      if exc = some 7 ∨ exc = some 8 then s else s.mapIo (fun io => io.event .UP_EVENT 0 5)
  match s.plan.wing wing with
  | some w => s.settleShard w
  | none => s

/-- The step of a parameter block that is due (R247): the shard's next, or where it has begun one whose rows still wait for
the block, that one. -/
def State.blockStep (s : State) (wing : Nat) : Nat := let x := s.shard wing; if x.busy then x.step else x.step + 1

/-- A shard's parameter block for a step (R247, Table 6-7), n after it. -/
def State.paramBlock (s : State) (w t e : List Byte) (step : Nat) : List Byte :=
  let x := s.shard (wId w)
  let n := x.c.map (fun c => if (fv x.cmean).isZero then one32 else f32div c x.cmean)
  bytesOf (u32 e 8) 4 ++ bytesOf (beta2 step (f32At e 0xC)).toNat 4 ++ bytesOf (u32 e 0x10) 4 ++ bytesOf (u32 e 0x14) 4 ++
  bytesOf (u32 e 0x18) 4 ++ bytesOf (if x.fresh then one32 else x.q).toNat 4 ++ bytesOf step 4 ++
  bytesOf (tDim t) 2 ++ bytesOf 0xC020 2 ++ wordsBytes n

/-- The channels of a wing: 64 × stack + logical channel. -/
def wingChans (w : List Byte) : List Nat := (List.range (wChans w)).map (fun i => 64 * wStack w + wFirst w + i)

/-- Whether a room-call runs in a channel. -/
def Rooms.busyChan (r : Rooms) (c : Nat) : Bool := r.cores.list.any (fun e => e.1 / 1024 == c)

/-- Room-calls to some channels are stopped for a write of their program store (R115). -/
def State.lockStores (s : State) (o : StoreWriter) (chans : List Nat) : State :=
  { s with rooms := { s.rooms with locked := (s.rooms.locked ++ chans.map (fun c => (c, o))).eraseDups } }

/-- What was stopped for a writer goes on. -/
def State.unlockStores (s : State) (o : StoreWriter) : State :=
  { s with rooms := { s.rooms with locked := s.rooms.locked.filter (fun l => l.2 != o) } }

/-- Whether room-calls to a channel are stopped (R115): what stopped them still waits to write its store. -/
def State.chanLocked (s : State) (ch : Nat) : Bool :=
  s.rooms.locked.any (fun l => l.1 == ch && (match l.2 with
    | .load id => (s.readyCmd id 11).isSome
    | .block w => s.upd.blocks.contains w))

/-- Whether rows of a shard's step are still to be sent or to return. A block that is due at a commit is written before the
first row is sent (R247). -/
def State.rowsOut (s : State) (w : List Byte) : Bool := !(s.shard (wId w)).running.isEmpty

/-- PARAM_BLOCK_WRITE (R115, R235, R247): after the last row of a step has returned at the wing and its twin, and before the
first of the next, the landing stops room-calls to their channels, and once none runs writes the block of the shard's next
step into each. -/
def execParamBlockWrite (wing : Fin 1024) (s : State) : Result :=
  if s.upd.blocks.contains wing.val = false then ignored s
  else
    match s.plan.wing wing with
    | none => ignored s
    | some w =>
      let step := s.blockStep wing
      match s.plan.table (wOwner w % 4096), s.entryFor (tableKey (wOwner w % 4096)) step with
      | some t, some e =>
        let chans := wingChans w ++ (match s.plan.twin w with | some v => wingChans v | none => [])
        if s.rowsOut w || (match s.plan.twin w with | some v => s.rowsOut v | none => false) then ignored s
        else if chans.any s.rooms.busyChan then .next (s.lockStores (.block wing) chans)
        else
          let b := s.paramBlock w t e step
          let s := s.unlockStores (.block wing)
          .next { s with
            ram := chans.foldl (fun m c => m.poke (progAddr (c / 64) (c % 64) 0xC000) b) s.ram
            upd := { s.upd with blocks := s.upd.blocks.filter (· != wing.val) } }
      | _, _ => .next ((s.unlockStores (.block wing)).setUpd (fun u => { u with blocks := u.blocks.filter (· != wing.val) }))

/-! ### Dense writes and the flip (R240, R248) -/

/-- Layers of the step whose alternate header is still to be written. -/
def State.denseMissing (s : State) : Bool :=
  s.layerEntries.any (fun p => let x := s.layer p.1; x.updated && !x.stale && !eFrozen p.2 && !x.written)

/-- The dense problem bit (R240). -/
def State.denseBit (s : State) : Bool :=
  s.upd.denseNonfinite || s.upd.denseAbsurd || s.upd.denseDamaged || s.upd.denseFault

/-- The device contributes to the flip verdict. -/
def State.contributeFlip (s : State) (raised : Bool) : State :=
  let s := if s.fab.flip.close.isSome then s else s.openVerdict true s.upd.close
  (s.setUpd (fun u => { u with phase := .awaitFlip, flipSent := true })).contributeBit true raised

/-- DENSE_WRITES_COMPLETE (R237, R240): every layer of the step that must be written is; the device contributes, after T + F − F/8 a raised bit. -/
def execDenseWritesComplete (s : State) : Result :=
  if s.upd.phase = .applying ∧ s.denseMissing = false then
    if s.upd.close + s.plan.epochF - s.plan.epochF / 8 < s.mer.count then .next ((s.denseProblem 10).contributeFlip true)
    else .next (s.contributeFlip s.denseBit)
  else ignored s

/-- DENSE_DEADLINE (R237): at T + F − F/8 a device with incomplete dense writes contributes a raised bit. -/
def execDenseDeadline (s : State) : Result :=
  let f := s.plan.epochF
  if s.upd.phase = .applying ∧ s.mer.reached (s.upd.close + f - f / 8) = true then
    if s.denseMissing then .next ((s.denseProblem 10).contributeFlip true)
    else .next (s.contributeFlip s.denseBit)
  else ignored s

/-- One layer at a clear flip: it changes buffers, or where it is frozen its STEP word becomes t (R240, R242). -/
def State.flipLayer (s : State) (t : Nat) (p : Nat × List Byte) : State :=
  let x := s.layer p.1
  if x.stale ∨ x.updated = false then s
  else if eFrozen p.2 then (s.writeStep p.1 p.2 t).setLayer p.1 (fun x => { x with updated := false })
  else s.setLayer p.1 (fun x => { x with current := 1 - x.current, updated := false, written := false, fresh := false })

/-- FLIP (R68, R240): at the flip instant of a committed step every updated layer flips at a clear verdict; at a raised one
none does and its step becomes t; without a verdict the layers updated are stale. -/
def execFlip (s : State) : Result :=
  match s.plan.instantOf 2 with
  | none => ignored s
  | some k =>
    match s.dueInstant k with
    | none => ignored s
    | some (_, c) =>
      let s := s.fired k c
      if s.upd.phase ≠ .applying ∧ s.upd.phase ≠ .awaitFlip then .next s
      else
        let t := s.upd.deciding
        let s := s.dueDigests t
        let v := s.upd.flipVerdict
        let s := s.setUpd (fun u => { u with phase := .collecting, lastFlipSkipped := v != some false })
        let s := s.setVerdict true (fun v => { v with decided := true })
        match v with
        | some false => .next (s.layerEntries.foldl (fun s p => s.flipLayer t p) s)
        | some true =>
          let s := s.layerEntries.foldl (fun s p =>
            let x := s.layer p.1
            if x.updated && !x.stale then
              (s.writeStep p.1 p.2 t).setLayer p.1 (fun x => { x with updated := false, written := false })
            else s) s
          .next (s.mapIo (fun io => (io.inc .UP_FLIP_SKIPS).event .UP_EVENT 0 1))
        | none =>
          let s := s.layerEntries.foldl (fun s p =>
            if (s.layer p.1).updated then (s.staleLayer p.1).setLayer p.1 (fun x => { x with updated := false }) else s) s
          .next (s.mapIo (fun io => io.event .UP_EVENT 0 2))

/-! ### Commands of the update block -/

/-- A finite FP32 field that is at least 0. -/
def f32nonneg (w : Word) : Bool := f32fin w && !f32lt w 0#32

/-- Whether an update-parameter entry obeys Table 10-1. -/
def entryOk (e : List Byte) : Bool :=
  let layer := u8 e 0 == 2
  let eps2 := f32At e 0x14
  let absurd := f32At e 0x20
  (u8 e 0 == 1 || layer) && decide (u8 e 1 ≤ 1) && decide (u16 e 2 < 4096) &&
  f32nonneg (f32At e 8) && f32fin (f32At e 0xC) && !f32lt (f32At e 0xC) 0x3F000000#32 && !f32lt one32 (f32At e 0xC) &&
  f32nonneg (f32At e 0x10) && f32posNormal eps2 && f32nonneg (f32At e 0x18) &&
  f32nonneg (f32At e 0x1C) && !(fv (f32At e 0x1C)).isZero && f32nonneg absurd && !(fv absurd).isZero &&
  !((fv eps2).mul (pow2 60)).lt (fv absurd) &&
  (if layer then
    decide (1 ≤ u8 e 0x24 ∧ u8 e 0x24 ≤ 6) && decide (u8 e 0x25 < 64) && decide (u16 e 0x26 < 4096) &&
    decide (1 ≤ eN e ∧ eN e ≤ 16384) && decide (16 ≤ eK e ∧ eK e ≤ 16384) && eK e % 16 == 0 &&
    u32 e 0x2C % 16 == 0 && decide (u32 e 0x2C + 48 ≤ 2 ^ 23)
   else (List.range 28).all (fun i => u8 e (0x24 + i) == 0))

/-- CMD_UPDATE_PARAM (R235): the entry becomes the pending one of its id. A shard between steps is due its block anew; one
whose rows are out is due it when they have returned (R247). -/
def execCmdUpdateParam (id : Nat) (s : State) : Result :=
  match s.readyCmd id 16 with
  | none => ignored s
  | some c =>
    let e := (cInline c.entry).take 64
    if e.length ≠ 64 ∨ entryOk e = false then .next (s.finish id stInvalid 0)
    else
      let k := (if u8 e 0 = 1 then tableKey else layerKey) (u16 e 2)
      let p := SMap.get paramDflt s.upd.params k
      let ws := if u8 e 0 = 1 then
        (s.plan.tableWings.filter (fun w => wOwner w % 4096 == u16 e 2 && !(s.shard (wId w)).busy)).map wId else []
      let s := s.setUpd (fun u => { u with
        params := SMap.set paramDflt u.params k ⟨p.now, some e⟩
        blocks := u.blocks ++ ws.filter (fun w => !u.blocks.contains w) })
      .next (s.finish id stDone 0)

/-- The wing and table that a STATE_LOAD or STATE_READ names. -/
def stateTarget (s : State) (e : List Byte) : Option (List Byte × List Byte) :=
  match s.plan.wing (u16 e 0x12), s.plan.table (u16 e 0x10) with
  | some w, some t => if wKind w = 1 ∧ wOwner w % 4096 = tId t then some (w, t) else none
  | _, _ => none

/-- CMD_STATE_LOAD (R241): the record of a stale shard is read; it takes effect between steps. -/
def execCmdStateLoad (id : Nat) (s : State) : Result :=
  match s.readyCmd id 17 with
  | none => ignored s
  | some c =>
    let a := u64 c.entry 0x18
    match stateTarget s c.entry with
    | none => .next (s.finish id stInvalid 0)
    | some (w, t) =>
      let n := 32 + 4 * tDim t
      if s.plan.dpaOk a n = false ∨ (s.shard (wId w)).stale = false ∨ (s.shard (wId w)).load.isSome = true then
        .next (s.finish id stInvalid 0)
      else if s.dpaHeld a n then ignored s
      else if s.ram.consumerOk a n = false then .next ((s.logCheck a (dpaRoom a)).finish id stCheck 0)
      else
        let r := s.ram.read a n
        if u16 r 0 ≠ tId t ∨ u16 r 2 ≠ wId w then .next (s.finish id stInvalid 0)
        else .next ((s.runCmd id 1).setShard (wId w) (fun x => { x with load := some (id, r) }))

/-- STATE_LOAD_EFFECT (R241): between steps a loaded record takes effect; STALE clears where its STEP equals UP_STEP. -/
def execStateLoadEffect (wing : Fin 1024) (s : State) : Result :=
  let x := s.shard wing
  match x.load with
  | none => ignored s
  | some (id, r) =>
    if s.upd.phase ≠ .collecting ∧ s.upd.phase ≠ .off ∨ x.running.isEmpty = false then ignored s
    else if u32 r 4 = s.upStep then
      let n := (r.length - 32) / 4
      let s := s.setShard wing (fun x => { x with
        load := none, stale := false, step := u32 r 4, q := f32At r 8, cmean := f32At r 0xC, fresh := false
        c := (List.range n).map (fun j => f32At r (0x20 + 4 * j)) })
      .next ((s.setUpd (fun u => { u with blocks := u.blocks.filter (· != wing.val) ++ [wing.val] })).finish id stDone 0)
    else .next ((s.setShard wing (fun x => { x with load := none })).finish id stRejected 0)

/-- The record of a shard (Table 10-3). -/
def Shard.record (x : Shard) (table wing : Nat) : List Byte :=
  bytesOf table 2 ++ bytesOf wing 2 ++ bytesOf x.step 4 ++ bytesOf (if x.fresh then one32 else x.q).toNat 4 ++
  bytesOf x.cmean.toNat 4 ++ zeros 16 ++ wordsBytes x.c

/-- CMD_STATE_READ (R241): the shard's record is written at the destination. -/
def execCmdStateRead (id : Nat) (s : State) : Result :=
  match s.readyCmd id 18 with
  | none => ignored s
  | some c =>
    let a := u64 c.entry 0x18
    match stateTarget s c.entry with
    | none => .next (s.finish id stInvalid 0)
    | some (w, t) =>
      if s.plan.dpaOk a (32 + 4 * tDim t) = false then .next (s.finish id stInvalid 0)
      else if s.dpaHeld a (32 + 4 * tDim t) then ignored s
      else .next ((s.sheetWrite .device a ((s.shard (wId w)).record (tId t) (wId w))).finish id
        (if s.ram.goneIn a (32 + 4 * tDim t) then stCheck else stDone) 0)

end Sys2Proof.Machine
end

