-- ==== Sys2Proof/Machine/Colls.lean ====
section
/-! DEFINITION. Machine/Colls.lean: collective groups and calls (R294 to R300). -/

namespace Sys2Proof.Machine

/-! ### Calls (R295) -/

/-- The command of an entry ends. -/
def State.connCmd (s : State) (cmd : Option Nat) (st res : Nat) : State :=
  match cmd with
  | some id => s.finish id st res
  | none => s

/-- The record of a collective call. -/
def Fabric.coll (f : Fabric) (g n : Nat) : Option Coll := f.colls.find? (fun c => c.group == g && c.call == n)

/-- Change a collective call. -/
def State.setColl (s : State) (g n : Nat) (f : Coll → Coll) : State :=
  { s with fab := { s.fab with colls := s.fab.colls.map (fun c => if c.group = g ∧ c.call = n then f c else c) } }

/-- Members of a group, ascending: a rank is a place in this list (R294). -/
def State.groupOf (s : State) (g : Nat) : List Nat := (s.fab.groups.at g).getD []

/-- A call is over: a command's call completes it; a device's call keeps its status for the block that issued it. -/
def State.collOver (s : State) (c : Coll) (st res : Nat) : State :=
  if c.device then s.setColl c.group c.call (fun c => { c with overWith := some st })
  else
    let s := { s with fab := { s.fab with colls := s.fab.colls.filter (fun d => !(d.group == c.group && d.call == c.call)) } }
    s.connCmd c.cmd st res

/-- The 16 bytes ahead of the data of a COLL message: operation, formats, RESULT, ABANDON and bit, E, byte offset. -/
def collHead (c : Coll) (result abandon bit : Bool) (off : Nat) : List Byte :=
  bytesOf c.op 1 ++ bytesOf c.fmts 1 ++
  bytesOf ((if result then 1 else 0) + (if abandon then 2 else 0) + (if bit then 4 else 0)) 1 ++ zeros 1 ++ bytesOf c.e 4 ++ bytesOf off 8

/-- The prime of R298. -/
def collPrime : Nat := 2 ^ 64 - 59

/-- The contribution digest of R298. -/
def collDigest (group call : Nat) (bs : List Byte) : Nat :=
  let k := (mix (BitVec.ofNat 64 (group * 2 ^ 32 ||| call))).toNat % collPrime
  let k := if k < 2 then 2 else k
  (List.range ((bs.length + 3) / 4)).foldl (fun h i => (h * k + le bs (4 * i) 4) % collPrime) 0

/-- Class in which a call's messages travel: the group OR's in class 3 (R300). -/
def Coll.sendCls (c : Coll) : Nat := if c.op = 5 then 3 else c.cls

/-- Send one COLL message of a call to a member, where a connection is open. -/
def State.collMsg (s : State) (c : Coll) (ref : Nat) (head data : List Byte) (src : Option Nat) : State :=
  match s.connFor ref c.cls with
  | some k =>
    let share := match c.cmd.bind s.cf.cmds.at with | some x => some x.share | none => none
    s.connSendIn k c.sendCls 0x18 { Msg.blank with
      tag := c.group, arg := c.call, digest := collDigest c.group c.call data, payload := head ++ data } src none share
  | none => s

/-- The all-reduce of a layer's gradient has come out damaged or unreachable (R240, R299). -/
def State.gradDamaged (s : State) (c : Coll) : State :=
  if c.op = 2 ∧ (s.layerEntries.any (fun p => u16 p.2 0x26 == c.group)) = true then s.denseProblem 11 else s

/-- A call that this member cannot complete: ABANDON on every connection of the group that it still has (R295). -/
def State.collFail (s : State) (c : Coll) (st : Nat) : State :=
  let s := if c.started then
      (s.groupOf c.group).foldl (fun (s : State) r =>
        if r = s.plan.ref then s else s.collMsg c r (collHead c false true false 0) [] none) s
    else s
  let s := { s with fab := { s.fab with dead := s.fab.dead ++ [(c.group, c.call)] } }
  (if st = stUnreach then s.gradDamaged c else s).collOver c st 0

/-- A connection of a class to a device has gone: calls that have started with it as a member are unreachable (R295). -/
def State.collBreak (s : State) (ref cls : Nat) : State :=
  (s.fab.colls.filter (fun c => c.started && c.overWith.isNone && c.cls == cls && (s.groupOf c.group).contains ref)).foldl
    (fun (s : State) c => s.collFail c stUnreach) s

/-! ### Chunks (R296, R297) -/

/-- Bytes of an element of a format: 0 FP32, 1 BF16. -/
def collSize (f : Nat) : Nat := if f = 1 then 2 else 4
/-- Source format. -/
def Coll.fin (c : Coll) : Nat := c.fmts % 16
/-- Result format. -/
def Coll.fout (c : Coll) : Nat := c.fmts / 16

/-- Chunk r of E elements among G members: first element and number (R296). -/
def collSpan (f e g r : Nat) : Nat × Nat :=
  let b := if f = 1 then 128 else 64
  let n := (e + g - 1) / g
  let c := b * ((n + b - 1) / b)
  let lo := min (r * c) e
  (lo, min ((r + 1) * c) e - lo)

/-- Own rank in a call's group. -/
def State.collRank (s : State) (c : Coll) : Nat := (s.groupOf c.group).idxOf s.plan.ref

/-- Address in memory of a call's source. -/
def Coll.srcAddr (c : Coll) : Nat := if c.kinds.testBit 0 then storeAddr c.srcArr c.src else c.src

/-- Bytes that a call writes, from byte `off` of its destination (Table 17-1). -/
def State.collWrite (s : State) (c : Coll) (off : Nat) (bs : List Byte) : State :=
  if bs.isEmpty then s
  else if bit c.kinds 1 then s.storeWrite .device c.dstArr (c.dst + off) bs else s.sheetWrite .device (c.dst + off) bs

/-- Bytes that a chunk has in all: a contribution to this member, a result, or a whole source. -/
def State.chunkLen (s : State) (c : Coll) (rank : Nat) (result : Bool) : Nat :=
  let g := (s.groupOf c.group).length
  if c.op = 5 then 1
  else if c.op = 3 ∨ c.op = 4 then c.e * collSize c.fin
  else if result then (collSpan c.fin c.e g rank).2 * collSize c.fout
  else (collSpan c.fin c.e g (s.collRank c)).2 * collSize c.fin

/-- Bytes of the pieces of a chunk, by offset. -/
def Chunk.bytes (k : Chunk) : List Byte := (k.pieces.mergeSort (fun a b => decide (a.1 ≤ b.1))).flatMap (·.2)

/-- Whether a chunk of a rank has arrived whole; an empty one always has. -/
def State.chunkIn (s : State) (c : Coll) (rank : Nat) (result : Bool) : Bool :=
  let n := s.chunkLen c rank result
  n == 0 || c.chunks.any (fun k => k.rank == rank && k.result == result && decide (n ≤ (k.pieces.map (fun p => p.2.length)).sum))

/-- What has arrived of a chunk. -/
def Coll.chunkOf (c : Coll) (rank : Nat) (result : Bool) : Chunk :=
  (c.chunks.find? (fun k => k.rank == rank && k.result == result)).getD ⟨rank, result, [], false, []⟩

/-- Change what has arrived of a chunk. -/
def Coll.setChunk (c : Coll) (rank : Nat) (result : Bool) (f : Chunk → Chunk) : Coll :=
  { c with chunks := c.chunks.filter (fun k => !(k.rank == rank && k.result == result)) ++ [f (c.chunkOf rank result)] }

/-- A chunk's elements as FP32. -/
def collVals (f : Nat) (bs : List Byte) : List Word :=
  (List.range (bs.length / collSize f)).map (fun i => vf (plainElem f bs 0 i))

/-- FP32 values as elements of a format, rounded once under RNE. -/
def collBytes (f : Nat) (ws : List Word) : List Byte := ws.flatMap (encodeElem f .rne)

/-- The sum of contributions in ascending rank order (R297). -/
def collSum (f : Nat) : List (List Byte) → List Word
  | [] => []
  | b :: bs => bs.foldl (fun acc b => List.zipWith f32add acc (collVals f b)) (collVals f b)

/-- A chunk's bytes as the destination takes them: moved unchanged, converted where the formats differ, or NaN throughout
where it is damaged (R296, R299). -/
def collOut (fin fout n : Nat) (k : Chunk) : List Byte :=
  if k.damaged then collBytes fout (List.replicate n nan32)
  else if fin = fout then k.bytes
  else collBytes fout (collVals fin k.bytes)

/-- Most data bytes of one COLL message: the 16-byte head goes with them. -/
def collPiece : Nat := 65280

/-- Send a chunk to a member in pieces; `src` is where its bytes stand in memory. -/
def State.sendChunk (s : State) (c : Coll) (ref : Nat) (result bit : Bool) (bs : List Byte) (src : Option Nat) : State :=
  (List.range ((bs.length + collPiece - 1) / collPiece)).foldl (fun (s : State) i =>
    let off := collPiece * i
    s.collMsg c ref (collHead c result false bit off) (slice bs off collPiece) (src.map (· + off))) s

/-! ### Running a call -/

/-- Every member but this one, with its rank. -/
def State.others (s : State) (g : Nat) : List (Nat × Nat) := (s.groupOf g).zipIdx.filter (fun m => m.1 != s.plan.ref)

/-- Write a completed call's results and end it: FAULT_CHECK where a damaged chunk was written (R299), or the
destination is in a failed channel (R100). -/
def State.collEnd (s : State) (c : Coll) : State :=
  let g := (s.groupOf c.group).length
  let me := s.collRank c
  let z := collSize c.fout
  let len := if c.op = 3 then g * c.e * z else if c.op = 1 then (collSpan c.fin c.e g me).2 * z else c.e * z
  let lost := !bit c.kinds 1 && s.ram.goneIn c.dst len
  let st := fun (ks : List Chunk) => if ks.any (·.damaged) || lost then stCheck else stDone
  if c.op = 5 then s.collOver c stDone (if (c.chunkOf 0 true).bytes = [1#8] then 1 else 0)
  else if c.op = 1 then
    let k := c.chunkOf me true
    (s.collWrite c 0 (collOut c.fout c.fout (collSpan c.fin c.e g me).2 k)).collOver c (st [k]) 0
  else if c.op = 2 then
    let ks := (List.range g).map (fun r => c.chunkOf r true)
    let s := if ks.any (·.damaged) then s.gradDamaged c else s
    (ks.foldl (fun (s : State) k =>
      let sp := collSpan c.fin c.e g k.rank
      s.collWrite c (sp.1 * z) (collOut c.fout c.fout sp.2 k)) s).collOver c (st ks) 0
  else if c.op = 3 then
    let ks := (List.range g).map (fun r => c.chunkOf r false)
    (ks.foldl (fun (s : State) k => s.collWrite c (k.rank * c.e * z) (collOut c.fin c.fout c.e k)) s).collOver c (st ks) 0
  else
    let k := c.chunkOf c.root false
    (s.collWrite c 0 (collOut c.fin c.fout c.e k)).collOver c (st [k]) 0

/-- Rank 0 of an OR joins the bits of every rank and answers all of them (R296). -/
def State.collJoin (s : State) (c : Coll) (gr n : Nat) : State :=
  let b : Bool := c.chunks.any (fun k => k.bytes == [1#8])
  let s1 := (s.setColl gr n (fun c =>
    c.setChunk 0 true (fun k => { k with pieces := [(0, [if b then 1#8 else 0#8])] }))).setColl gr n
    (fun c => { c with reduced := true })
  (s.others gr).foldl (fun (s : State) m => s.sendChunk c m.1 true b [if b then 1#8 else 0#8] none) s1

/-- The sum of the own chunk of a reducing call, and whether a damaged chunk spoiled it (R297, R300). -/
def State.collOut (s : State) (c : Coll) (gr : Nat) : List Byte × Bool :=
  let ks := (List.range (s.groupOf gr).length).map (fun r => c.chunkOf r false)
  let bad := (s.chunkLen c (s.collRank c) false != 0) && ks.any (·.damaged)
  let m := (collSpan c.fin c.e (s.groupOf gr).length (s.collRank c)).2
  (if bad then collBytes c.fout (List.replicate m nan32)
    else if m = 0 then [] else collBytes c.fout (collSum c.fin (ks.map (·.bytes))), bad)

/-- A rank reduces its own chunk; an all-reduce sends it to the others (R296). -/
def State.collReduce (s : State) (c : Coll) (gr n : Nat) : State :=
  let w := s.collOut c gr
  let s1 := s.setColl gr n (fun d =>
    { d.setChunk (s.collRank c) true (fun k => { k with pieces := [(0, w.1)], damaged := w.2 }) with reduced := true })
  if c.op = 2 then (s.others gr).foldl (fun (s : State) x => s.sendChunk c x.1 true w.2 w.1 none) s1 else s1

/-- The call ends once `p` holds of what is entered of it. -/
def State.collEndIf (s : State) (gr n : Nat) (p : State → Coll → Bool) : State :=
  match s.fab.coll gr n with
  | some c => if p s c then s.collEnd c else s
  | none => s

/-- Move a call on as far as what has arrived allows (R296, R297, R300). -/
def State.collStep (s : State) (gr n : Nat) : State :=
  match s.fab.coll gr n with
  | none => s
  | some c =>
    let me := s.collRank c
    let all := List.range (s.groupOf gr).length
    if c.overWith.isSome ∨ c.started = false then s
    else if c.op = 5 then
      (if me = 0 ∧ c.reduced = false ∧ all.all (fun r => s.chunkIn c r false) = true then s.collJoin c gr n
        else s).collEndIf gr n (fun t d => t.chunkIn d 0 true)
    else if c.op = 1 ∨ c.op = 2 then
      (if c.reduced = false ∧ all.all (fun r => s.chunkIn c r false) = true then s.collReduce c gr n else s).collEndIf gr n
        (fun t d => d.reduced && (d.op == 1 || all.all (fun r => t.chunkIn d r true)))
    else if c.op = 3 then (if all.all (fun r => s.chunkIn c r false) then s.collEnd c else s)
    else if s.chunkIn c c.root false then s.collEnd c else s

/-- The own contribution to a call, taken from its source (R296). -/
def State.collMine (s : State) (c : Coll) (gr : Nat) : List Byte :=
  if c.op = 5 then [if c.bit then 1#8 else 0#8]
  else if c.op = 1 ∨ c.op = 2 then
    s.ram.read (c.srcAddr + (collSpan c.fin c.e (s.groupOf gr).length (s.collRank c)).1 * collSize c.fin)
      ((collSpan c.fin c.e (s.groupOf gr).length (s.collRank c)).2 * collSize c.fin)
  else s.ram.read c.srcAddr (c.e * collSize c.fin)

/-- The chunks a starting call sends to the other ranks (R296); `s` is the state its data is read in. -/
def State.collSends (s : State) (c : Coll) (gr : Nat) (u : State) : State :=
  if c.op = 5 then
    (if s.collRank c = 0 then u
      else u.sendChunk c ((s.groupOf gr).headD 0) false c.bit [if c.bit then 1#8 else 0#8] none)
  else if c.op = 1 ∨ c.op = 2 then
    (s.others gr).foldl (fun (u : State) m =>
      u.sendChunk c m.1 false false
        (s.ram.read (c.srcAddr + (collSpan c.fin c.e (s.groupOf gr).length m.2).1 * collSize c.fin)
          ((collSpan c.fin c.e (s.groupOf gr).length m.2).2 * collSize c.fin))
        (some (c.srcAddr + (collSpan c.fin c.e (s.groupOf gr).length m.2).1 * collSize c.fin))) u
  else if c.op != 4 || c.root == s.collRank c then
    (s.others gr).foldl (fun (u : State) m =>
      u.sendChunk c m.1 false false (s.ram.read c.srcAddr (c.e * collSize c.fin)) (some c.srcAddr)) u
  else u

/-- A call in which every connection is open and the source can be read: its own chunk is in, the others' are sent. -/
def State.collBegin (s : State) (c : Coll) (gr n : Nat) : State :=
  (s.collSends c gr (if c.op = 4 ∧ c.root ≠ s.collRank c then s
    else s.setColl gr n (fun d => d.setChunk (s.collRank c) false (fun k => { k with pieces := [(0, s.collMine c gr)] })))).collStep
      gr n

/-- Start a call (R295, R296): every connection must be open; the own contribution is taken, the others' chunks sent. -/
def State.collStart (s : State) (gr n : Nat) : State :=
  match s.fab.coll gr n with
  | none => s
  | some c0 =>
    let s := s.setColl gr n (fun c => { c with started := true })
    let c := { c0 with started := true }
    if (s.others gr).any (fun m => (s.connFor m.1 c.cls).isNone) then
      (s.mapIo (fun io => io.inc .FB_NO_PARTNER)).collFail c stUnreach
    else if (c.op != 5 && (c.op != 4 || c.root == s.collRank c)) && !s.ram.moverOk c.srcAddr (c.e * collSize c.fin) then
      (s.logCheck c.srcAddr (devPlace c.srcAddr)).collFail c stCheck
    else s.collBegin c gr n

/-- Start the calls of a group that may run: at most 8 are outstanding, in issue order (R295). -/
def collPump (s : State) (gr : Nat) : Nat → State
  | 0 => s
  | fuel + 1 =>
    let cs := s.fab.colls.filter (fun c => c.group == gr && c.overWith.isNone)
    if 8 ≤ (cs.filter (·.started)).length then s
    else
      match cs.find? (fun c => !c.started) with
      | some c => collPump (s.collStart gr c.call) gr fuel
      | none => s

/-- Start what may run in every group. -/
def State.pumpAll (s : State) : State :=
  ((s.fab.colls.map (·.group)).eraseDups).foldl (fun (s : State) g => collPump s g (s.fab.colls.length + 1)) s

/-- A call is entered and started, or waits for one of the 8 (R295). A call that takes the number of one that ended early
is a call of its own. -/
def State.collIssue (s : State) (c : Coll) : State :=
  let n := (s.fab.colls.filter (fun d => d.group == c.group && d.started && d.overWith.isNone)).length
  let s := { s with fab := { s.fab with
    colls := s.fab.colls ++ [c], dead := s.fab.dead.filter (fun d => d != (c.group, c.call)) } }
  let s := if 8 ≤ n then s.mapIo (fun io => io.inc .FB_COLL_WAITS) else s
  collPump s c.group (s.fab.colls.length + 1)

/-! ### Commands and messages -/

/-- Whether grid references ascend strictly. -/
def rising : List Nat → Bool
  | a :: b :: r => decide (a < b) && rising (b :: r)
  | _ => true

/-- CMD_GROUP (R294): a group is defined, or deleted; calls of the old group cannot complete. -/
def execCmdGroup (id : Nat) (s : State) : Result :=
  match s.readyCmd id 0x16 with
  | none => ignored s
  | some c =>
    let g := u16 c.entry 0x10
    let n := cCount c.entry
    let ms := (List.range n).map (fun i => u16 (cInline c.entry) (2 * i))
    if 4096 ≤ g ∨ n = 1 ∨ 256 < n ∨ cLen c.entry < 2 * n ∨ ms.any (fun m => decide (16384 ≤ m)) = true ∨ rising ms = false then
      .next (s.finish id stInvalid 0)
    else
      let s := (s.fab.colls.filter (fun c => c.group == g && c.overWith.isNone)).foldl (fun (s : State) c => s.collFail c stUnreach) s
      .next ({ s with fab := { s.fab with groups := if n = 0 then s.fab.groups.del g else s.fab.groups.put g ms } }.finish id stDone 0)

/-- Whether a device memory range of a call exists: in an array store, or in a sheet. -/
def State.collRange (s : State) (store : Bool) (arr a n : Nat) : Bool :=
  if store then s.arrOk arr && decide (a + n ≤ 2 ^ 23) else n == 0 || s.plan.dpaOk a n

/-- Bytes that a call writes at its destination. -/
def collDstLen (op e g z f : Nat) : Nat :=
  if op = 5 then 0 else if op = 3 then g * e * z else if op = 1 then (collSpan f e g 0).2 * z else e * z

/-- CMD_COLLECTIVE (R295). -/
def execCmdCollective (id : Nat) (s : State) : Result :=
  match s.readyCmd id 0x17 with
  | none => ignored s
  | some c =>
    let b := c.entry
    let gr := u16 b 0x10
    let op := u8 b 0x12
    let fmts := u8 b 0x13
    let n := u32 b 0x14
    let e := cCount b
    let kinds := u8 b 0x2B
    let ms := s.groupOf gr
    let root := ms.idxOf (u16 b 0x28)
    let x : Coll := ⟨gr, n, op, fmts, e, u64 b 0x18, u64 b 0x20, root, bit (u8 b 0x2A) 0, kinds, u8 b 0x2C, u8 b 0x2D, c.cls, some id,
      false, false, [], false, none⟩
    if ms.contains s.plan.ref = false ∨ op = 0 ∨ 5 < op ∨ 1 < fmts % 16 ∨ 1 < fmts / 16 ∨ 0xF0000000 ≤ n ∨ 3 < kinds ∨
        (op = 4 ∧ ms.length ≤ root) ∨ (s.fab.coll gr n).isSome = true then .next (s.finish id stInvalid 0)
    else if op ≠ 5 ∧ (s.collRange (bit kinds 0) x.srcArr x.src (e * collSize (fmts % 16)) = false ∨
        s.collRange (bit kinds 1) x.dstArr x.dst (collDstLen op e ms.length (collSize (fmts / 16)) (fmts % 16)) = false) then
      .next (s.finish id stInvalid 0)
    else if op ≠ 5 ∧ 0 < e ∧ ((bit kinds 0 = false ∧ s.dpaHeld x.src (e * collSize (fmts % 16)) = true) ∨
        (bit kinds 1 = false ∧ s.dpaHeld x.dst (collDstLen op e ms.length (collSize (fmts / 16)) (fmts % 16)) = true)) then ignored s
    else .next ((s.runCmd id 1).collIssue x)

/-- RX_COLL (R295 to R300): a piece of a chunk, or ABANDON, for a call that has started here; until then it is not accepted.
A digest that does not match is answered with RESEND once; the second time the chunk is damaged. -/
def execRxColl (p : Fin 64) (m : Msg) (s : State) : Result :=
  if (s.port p).linked = false then ignored s
  else
    match s.connTakes m with
    | none => ignored s
    | some (k, false) => .next (s.ackAgain k)
    | some (k, true) =>
      let gr := m.tag % 4096
      let n := m.arg % 2 ^ 32
      match s.fab.coll gr n with
      | none => if s.fab.dead.contains (gr, n) then .next (s.accepted k 0) else ignored s
      | some c =>
        if c.started = false then ignored s
        else
          let ms := s.groupOf gr
          let r := ms.idxOf m.src
          let h := m.payload.take 16
          let data := m.payload.drop 16
          let off := u64 h 8
          let result := bit (u8 h 2) 0
          if ms.length ≤ r ∨ c.overWith.isSome = true then .next (s.accepted k 0)
          else if bit (u8 h 2) 1 then .next (((s.accepted k 0).collFail c stUnreach).pumpAll)
          else if u8 h 0 ≠ c.op ∨ u8 h 1 ≠ c.fmts ∨ u32 h 4 ≠ c.e then .next (((s.accepted k 0).collFail c stInvalid).pumpAll)
          else
            let put := fun (s : State) (dmg : Bool) => s.setColl gr n (fun c => c.setChunk r result (fun x =>
              { x with pieces := x.pieces.filter (fun q => q.1 != off) ++ [(off, data)], damaged := x.damaged || dmg }))
            let dmg := result && c.op == 2 && bit (u8 h 2) 2
            if collDigest gr n data = m.digest then
              .next ((((put s dmg).accepted k 0).collStep gr n).pumpAll)
            else if (c.chunkOf r result).retried.contains off = false then
              let s := s.setColl gr n (fun c => c.setChunk r result (fun x => { x with retried := x.retried ++ [off] }))
              .next (s.accepted k 256)
            else
              let s := s.mapIo (fun io => (io.inc .FB_DIGEST_FAILS).event .FB_TRAFFIC_EVENT 0 1)
              .next ((((put s true).accepted k 0).collStep gr n).pumpAll)

end Sys2Proof.Machine
end

