-- ==== Sys2Proof/Machine/RoomCore.lean ====
section
/-! DEFINITION. Machine/RoomCore.lean: room-calls (R116 to R118, R408), how a room core issues an instruction (R119), ends
a call (R138) and reaches its DRAM (R124 to R126, R139). -/

namespace Sys2Proof.Machine

/-! ### Instruction words (Table 6-4) -/

/-- OP of a word. -/
def iOp (w : Nat) : Nat := w / 2 ^ 26 % 64
/-- Bits [25:22]. -/
def iD (w : Nat) : Nat := w / 2 ^ 22 % 16
/-- Bits [21:18]. -/
def iA (w : Nat) : Nat := w / 2 ^ 18 % 16
/-- Bits [17:14]. -/
def iB (w : Nat) : Nat := w / 2 ^ 14 % 16
/-- Bits [13:0]. -/
def iF (w : Nat) : Nat := w % 2 ^ 14
/-- The signed 18-bit immediate or offset. -/
def iImm (w : Nat) : Int := (BitVec.ofNat 18 w).toInt
/-- The signed 22-bit immediate. -/
def iImm22 (w : Nat) : Int := (BitVec.ofNat 22 w).toInt
/-- vd, va, vb and lt of format V. -/
def iVd (w : Nat) : Nat := w / 2 ^ 23 % 8
/-- va. -/
def iVa (w : Nat) : Nat := w / 2 ^ 20 % 8
/-- vb. -/
def iVb (w : Nat) : Nat := w / 2 ^ 17 % 8
/-- lt. -/
def iLt (w : Nat) : Nat := w / 2 ^ 14 % 8

/-- Whether a field has no bit outside a mask. -/
def within' (f mask : Nat) : Bool := (f ||| mask) == mask

/-- Whether a word is an instruction that Table 6-5 assigns with every Reserved bit and field 0 (R119). -/
def wordOk (w : Nat) : Bool :=
  let f := iF w
  let i18 := w % 2 ^ 18
  match iOp w with
  | 0x01 => w % 2 ^ 26 == 0
  | 0x02 | 0x03 | 0x04 | 0x05 | 0x06 | 0x0A => f == 0
  | 0x07 | 0x08 | 0x09 => within' f 0x201F
  | 0x0B => within' f 1
  | 0x0C | 0x0D | 0x0E | 0x0F | 0x10 | 0x11 | 0x12 => true
  | 0x13 => iD w == 0
  | 0x14 => iA w == 0
  | 0x15 | 0x16 | 0x19 => true
  | 0x17 | 0x18 | 0x1A => decide (iD w < 8)
  | 0x1B => decide (f ≤ 10) && ((f != 4 && f != 5) || iB w == 0)
  | 0x1C | 0x1D | 0x1E | 0x1F => f == 0
  | 0x20 => within' f 0x1F
  | 0x21 | 0x22 => within' f 7
  | 0x23 => within' f 0x2003
  | 0x24 | 0x25 => within' f 7
  | 0x26 => within' f 0x3800
  | 0x27 => within' f 0x3FE0
  | 0x28 => f == 0
  | 0x29 => within' f 0x3801
  | 0x2A => within' f 0x3800 && decide (1 ≤ iB w ∧ iB w ≤ 14)
  | 0x2B => within' f 0xF
  | 0x2C => f == 0
  | 0x2D => f == 0 && iD w == 0
  | 0x2E => within' f 0x3000 && f != 0x3000 && iA w == 0
  | 0x2F => within' i18 0x13F && i18 % 256 != 0
  | 0x30 => within' i18 0x3F
  | 0x31 => f == 0
  | 0x32 => decide (i18 ≤ 8)
  | 0x33 => i18 == 0
  | 0x34 => within' i18 0xFF
  | _ => false

/-! ### Registers and scratch (R113, R114) -/

/-- A general register; g0 reads as 0. -/
def Core.reg (c : Core) (i : Nat) : Word := if i = 0 then 0#32 else (c.g.toList.getD i 0#32)
/-- A general register as a number. -/
def Core.num (c : Core) (i : Nat) : Nat := (c.reg i).toNat
/-- Write a general register; writes to g0 are discarded. -/
def Core.setReg (c : Core) (i : Nat) (v : Word) : Core :=
  if i = 0 then c else { c with g := c.g.setIfInBounds i v }
/-- A vector register. -/
def Core.vec (c : Core) (i : Nat) : BitVec 128 := c.v.toList.getD i 0#128
/-- Write a vector register. -/
def Core.setVec (c : Core) (i : Nat) (x : BitVec 128) : Core := { c with v := c.v.setIfInBounds i x }

/-- `n` bytes of scratch. -/
def Core.peek (c : Core) (a n : Nat) : List Byte := Mem.read c.scratch a n
/-- Write bytes to scratch. -/
def Core.poke (c : Core) (a : Nat) (bs : List Byte) : Core := { c with scratch := Mem.write c.scratch a bs }
/-- One scratch word. -/
def Core.word (c : Core) (a : Nat) : Word := BitVec.ofNat 32 (u32 (c.peek a 4) 0)

/-- 16-byte lines of a range of scratch. -/
def scratchLines (a n : Nat) : List Nat := if n = 0 then [] else (List.range ((a + n - 1) / 16 - a / 16 + 1)).map (· + a / 16)

/-- Whether a range's line belongs to an operation's scratch range. -/
def meetsLine (scratch len l : Nat) : Bool := decide (scratch / 16 ≤ l) && decide (l ≤ (scratch + len - 1) / 16) && decide (0 < len)

/-- An access to scratch notes the lines that race with an outstanding operation (R126): every line of an RFETCH, and written
lines of an RPUT or SEND. A line read under an RFETCH already holds either its old or its new content: a free choice. -/
def Core.race (c : Core) (fr a n : Nat) (write : Bool) : Core :=
  let ls := scratchLines a n
  let add := fun (scratch len : Nat) (r : List Nat) => (r ++ ls.filter (meetsLine scratch len)).eraseDups
  let slots : Tab SlotOp := c.slots.map (fun e => (e.1, e.2.map (fun o =>
    if o.put && !write then o else { o with raced := add o.scratch o.data.length o.raced })))
  let sends := c.sends.map (fun o => if write then { o with raced := add o.scratch o.data.length o.raced } else o)
  let scratch := c.slots.list.foldl (fun m e =>
    if e.2.put || write then m
    else (ls.filter (meetsLine e.2.scratch e.2.data.length)).foldl (fun m l =>
      if Config.freeValue (fr + l) % 2 = 1 then Mem.write m (16 * l) (slice e.2.data (16 * l - e.2.scratch) 16) else m) m) c.scratch
  { c with slots := slots, sends := sends, scratch := scratch }

/-- Whether anything is outstanding that a scratch access could race with. -/
def Core.racy (c : Core) : Bool := !c.slots.isEmpty || !c.sends.isEmpty

/-! ### Cores in the state -/

/-- Store a core. -/
def State.setCore (s : State) (r : Nat) (c : Core) : State := { s with rooms := { s.rooms with cores := s.rooms.cores.put r c } }

/-- rc since entry: by the instructions' costs, and at least by the time that has passed (400 MHz). -/
def State.rcOf (s : State) (c : Core) : Nat := max c.rc ((s.mer.now - c.entered) * 2 / 5)

/-- What RM_CALL_LIMIT counts of it: time held under R98 is left out (R117). -/
def State.limitRc (s : State) (c : Core) : Nat := s.rcOf c - c.paused

/-- The call limit of a stack in rc (Table 6-16). -/
def State.callLimit (s : State) (st : Nat) : Nat := max 256 (min 4800 (s.io.val .RM_CALL_LIMIT st % 8192))

/-- The instruction word at a word index of a room's program store. -/
def State.progWord (s : State) (r pc : Nat) : Nat :=
  le (s.ram.read (progAddr (r / 65536) (r / 1024 % 64) (4 * pc)) 4) 0 4

/-- The core of a room where it may issue now, with the word it issues: running, not cancelled, below its limit (R117). -/
def State.issues (s : State) (r : Nat) : Option (Core × Nat) :=
  match s.rooms.cores.at r with
  | some c =>
    if c.wait = .run ∧ c.cancelled = false ∧ s.limitRc c < s.callLimit (r / 65536) ∧ c.pc < 12288 then some (c, s.progWord r c.pc)
    else none
  | none => none

/-! ### The end of a call (R138, R142, R408) -/

/-- Enter an exception in a stack's fault log (R142). -/
def State.faultLog (s : State) (r : Nat) (c : Core) (code : Nat) : State :=
  let st := r / 65536
  let log := SMap.get (fun _ => []) s.rooms.flog st
  let s := s.mapIo (fun io => (io.inc .RM_FAULTS st).event .RM_EVENT st 0)
  if log.length < 16 then
    let log := log ++ [⟨r, code, c.call.cls, c.call.update, c.pc, c.call.entry, c.call.tag⟩]
    { s with rooms := { s.rooms with flog := SMap.set (fun _ => []) s.rooms.flog st log } }
  else s.mapIo (fun io => io.event .RM_EVENT st 1)

/-- What a call served learns its end. -/
def State.report (s : State) (wk : Work) (room st : Nat) (exc : Option Nat) (sends : List (Nat × List Byte)) : State :=
  match wk with
  | .lookup l i => s.partEnded l i room st exc sends
  | .update w row primary => s.rowEnded w row primary room st exc sends

/-- What an outstanding SEND carries: each line touched meanwhile is old or new, a free choice (R126). -/
def Core.carried (c : Core) (fr scratch : Nat) (data : List Byte) (raced : List Nat) : List Byte :=
  raced.foldl (fun d l =>
    if Config.freeValue (fr + l) % 2 = 1 then
      let lo := max scratch (16 * l)
      let hi := min (scratch + data.length) (16 * l + 16)
      d.take (lo - scratch) ++ c.peek lo (hi - lo) ++ d.drop (hi - scratch)
    else d) data

/-- A call ends in its room (R138): SENDs issued before complete; a sampled one waits for its comparison (R408). -/
def State.endCall (s : State) (r : Nat) (c : Core) (st : Nat) (exc : Option Nat) : State :=
  let sends := c.sent ++ c.sends.map (fun o => (o.kind, c.carried s.free o.scratch o.data o.raced))
  let s := s.drew 128
  let s := s.mapIo (fun io => io.inc .RM_CALLS (r / 65536))
  let s := match exc with | some code => s.faultLog r c code | none => s
  let s := { s with rooms := { s.rooms with cores := s.rooms.cores.del r } }
  match c.sample with
  | some k =>
    { s with rl := { s.rl with samples := s.rl.samples.upd k (fun x =>
      { x with ended := some (st, exc), writes := c.held, sends := sends }) } }
  | none => s.report c.call.work c.home st exc sends

/-! ### DRAM (R124 to R126) -/

/-- Bytes of a room's DRAM. -/
def State.roomRead (s : State) (room o n : Nat) : List Byte :=
  (List.range (n / 64)).flatMap (fun i => s.ram.read (roomDpa room (o + 64 * i)) 64)

/-- The bytes with a call's own held writes over them (R124, R408). -/
def overlay (held : List (Bool × Nat × List Byte)) (o : Nat) (bs : List Byte) : List Byte :=
  held.foldl (fun bs h =>
    if h.2.1 < o + bs.length ∧ o < h.2.1 + h.2.2.length then
      let lo := max o h.2.1
      let hi := min (o + bs.length) (h.2.1 + h.2.2.length)
      bs.take (lo - o) ++ slice h.2.2 (lo - h.2.1) (hi - lo) ++ bs.drop (hi - o)
    else bs) bs

/-- What a call reads of its DRAM. -/
def State.dram (s : State) (c : Core) (o n : Nat) : List Byte := overlay c.held o (s.roomRead c.home o n)

/-- The last write a call holds that reaches `n` bytes from `o`. -/
def Core.heldAt (c : Core) (o n : Nat) : Option (Bool × Nat × List Byte) :=
  c.held.reverse.find? (fun h => decide (h.2.1 < o + n) && decide (o < h.2.1 + h.2.2.length))

/-- Whether what a call reads of its DRAM holds no uncorrectable error (R402). -/
def State.dramEcc (s : State) (c : Core) (o n : Nat) : Bool :=
  (List.range (n / 64)).all (fun i => (c.heldAt (o + 64 * i) 64).isSome || s.ram.eccOk (roomDpa c.home (o + 64 * i)) 64)

/-- Whether the tensor blocks that a call reads pass their checks (R124, R400). -/
def State.dramBcv (s : State) (c : Core) (o n : Nat) : Bool :=
  (List.range (n / 256)).all (fun i =>
    match c.heldAt (o + 256 * i) 256 with
    | some h => h.1
    | none => s.ram.consumerOk (roomDpa c.home (o + 256 * i)) 256)

/-- The writer of a room core's data: RPUT with f[2] generates BCVs, every other write leaves ROWCHK 1 (Table 17-1). -/
def coreWriter (bcv : Bool) : Writer := if bcv then .device else .row

/-- Write bytes to a room's DRAM, block by block. -/
def State.roomWrite (s : State) (w : Writer) (room o : Nat) (bs : List Byte) : State :=
  (splitBlocks o bs).foldl (fun s p => s.sheetWrite w (roomDpa room p.1) p.2) s

/-- Bytes held. -/
def heldBytes (h : List (Bool × Nat × List Byte)) : Nat := (h.map (fun w => w.2.2.length)).sum

/-- A sample is void (R408): what is held is released and the origin's results stand. -/
def State.voidSample (s : State) (r : Nat) (c : Core) : State :=
  match c.sample with
  | none => s.setCore r c
  | some k =>
    let s := c.held.foldl (fun s h => s.roomWrite (coreWriter h.1) c.home h.2.1 h.2.2) s
    let s := { s with rl := { s.rl with samples := s.rl.samples.del k }, io := s.io.inc .RL_SHADOW_VOID }
    s.setCore r { c with sample := none, held := [] }

/-- A call writes its DRAM: at once, or into what its sample holds (R408). The core is stored. -/
def State.dramWrite (s : State) (r : Nat) (c : Core) (bcv : Bool) (o : Nat) (bs : List Byte) : State :=
  match c.sample with
  | none => (s.roomWrite (coreWriter bcv) c.home o bs).setCore r c
  | some _ =>
    let c := { c with held := c.held ++ [(bcv, o, bs)] }
    if 4160 < heldBytes c.held then s.voidSample r c else s.setCore r c

/-- Extra rc of an access: 12 where the DRAM row of its first byte is not open, 8 on the borrowed path (R139, R408). -/
def State.rowCost (s : State) (r : Nat) (c : Core) (o : Nat) : Nat :=
  (if SMap.get (fun _ => 0) s.rooms.openRow (8 * c.home + o / 131072) = o / 1024 % 128 + 1 then 0 else 12) +
  (if r = c.home then 0 else 8)

/-- An access opens the rows it reaches (R139). -/
def State.opened (s : State) (room o n : Nat) : State :=
  { s with rooms := { s.rooms with openRow := (List.range (n / 64)).foldl (fun m i => openRows m (roomDpa room (o + 64 * i)) 64) s.rooms.openRow } }

/-! ### Issuing an instruction -/

/-- What an instruction does: the core goes on after a cost, or from another word, it stalls, it takes an exception with a
call status, or it has changed the whole state. -/
inductive RoomEff where
  | next (c : Core) (cost : Nat)
  | go (c : Core) (pc cost : Nat)
  | stall
  | fault (code st : Nat)
  | whole (s : State)
deriving DecidableEq, Repr

/-- The status that an exception code gives a call (Table 6-9). -/
def codeStatus (code : Nat) : Nat := if code = 7 ∨ code = 8 then stCheck else if code = 9 then stWatchdog else stInvalid

/-- Run an instruction of an opcode whose word satisfies `p`; nothing happens where the room's core does not issue one. -/
def State.runRoom (s : State) (r op : Nat) (p : Nat → Bool) (f : Core → Nat → RoomEff) : Result :=
  match s.issues r with
  | none => ignored s
  | some (c, w) =>
    if iOp w = op ∧ wordOk w = true ∧ p w = true then
      match f c w with
      | .next c cost => .next ((s.drew (if c.racy then 128 else 0)).setCore r { c with pc := c.pc + 1, rc := c.rc + cost })
      | .go c pc cost => .next (s.setCore r { c with pc := pc, rc := c.rc + cost })
      | .stall => ignored s
      | .fault code st => .next (s.endCall r c st (some code))
      | .whole s => .next s
    else ignored s

/-- Any word. -/
def anyWord : Nat → Bool := fun _ => true

/-- An exception by its code alone. -/
def roomFault (code : Nat) : RoomEff := .fault code (codeStatus code)

/-- A jump to a computed word index (R119): PC_RANGE outside the code area, with nothing changed. -/
def jump (c' : Core) (target : Int) (cost : Nat) : RoomEff :=
  if target < 0 ∨ 12287 < target then roomFault 2 else .go c' target.toNat cost

/-! ### Waiting (R124, R137) -/

/-- Slots whose failure is known, among those of a mask. -/
def Core.failedIn (c : Core) (mask : Nat) : Bool := c.slots.list.any (fun e => e.2.known && e.2.fail && bit mask e.1)

/-- Whether nothing is outstanding. -/
def Core.idle (c : Core) : Bool := c.slots.list.isEmpty && c.recv.isNone && c.sends.isEmpty

/-- Whether the events of a mask are set: any, or all. -/
def Core.ready (c : Core) (mask : Nat) (all : Bool) : Bool :=
  if all then c.events &&& mask == mask else (c.events &&& mask) != 0

/-- The rc at which the awaited events were set: the last of all, or the first of any. -/
def Core.readyAt (c : Core) (mask : Nat) (all : Bool) : Nat :=
  let ts := ((List.range 8).filter (fun i => bit mask i && bit c.events i)).map (fun i => c.evAt.getD i 0)
  if all then ts.foldl max 0 else ts.foldl min (ts.headD 0)

/-- The rc at which the last operation completed. -/
def Core.lastAt (c : Core) : Nat := c.evAt.foldl max 0

/-- A wait of a core is over at an rc: the failure of a slot in its mask is taken, at the call limit LIMIT is, and otherwise
the core goes on (R117, R124). -/
def State.waitOver (s : State) (r : Nat) (c : Core) (mask : Nat) (done : Bool) (at' : Nat) (go : State) : State :=
  if s.callLimit (r / 65536) ≤ s.limitRc c ∨ (done = true ∧ s.callLimit (r / 65536) + c.paused ≤ at') then
    s.endCall r c stWatchdog (some 9)
  else if c.failedIn mask then s.endCall r c stCheck (some 7)
  else if done then go
  else s.setCore r c

/-- A waiting core looks again: a wait that is over lets the next instruction issue in the rc after (R137); one whose end
lies at the call limit or beyond takes LIMIT (R117). A cancelled core stops where it is (R118). The core is stored. -/
def State.wake (s : State) (r : Nat) (c : Core) : State :=
  if c.cancelled then s.setCore r c
  else
    match c.wait with
    | .run => s.setCore r c
    | .events mask all =>
      let t := c.readyAt mask all
      s.waitOver r c mask (c.ready mask all) t (s.setCore r { c with wait := .run, pc := c.pc + 1, rc := max c.rc t + 1 })
    | .fence =>
      s.waitOver r c 15 c.idle c.lastAt (s.setCore r { c with wait := .run, pc := c.pc + 1, rc := max c.rc c.lastAt + 1 })
    | .endOf st =>
      s.waitOver r c 15 c.idle c.lastAt (s.endCall r { c with rc := max c.rc c.lastAt + 2 } st none)

/-- An event is set. -/
def Core.setEvent (c : Core) (i : Nat) : Core := { c with events := c.events ||| 2 ^ i }
/-- An asynchronous instruction clears its event and fixes when it will be set (R137). -/
def Core.clearEvent (c : Core) (i at' : Nat) : Core :=
  { c with events := c.events &&& (255 - 2 ^ i), evAt := c.evAt.set i at' }

/-! ### Sending a room-call (R109, R115, R116, R157, R165, R245, R408) -/

/-- Rooms that shadow or arbitrate a sampled call. -/
def Rl.shadows (x : Rl) : List Nat :=
  x.samples.list.flatMap (fun e => if e.2.tile then [] else e.2.shadow :: e.2.arbiter.toList)

/-- Whether a room's core can take a call: idle, and in no comparison. -/
def State.roomIdle (s : State) (r : Nat) : Bool := (s.rooms.cores.at r).isNone && !s.rl.shadows.contains r

/-- The next room upward of a room in its channel that is not quarantined and not among some (R410, R413). -/
def State.roomUp (s : State) (r : Nat) (but : List Nat) : Option Nat :=
  ((List.range 1023).map (fun i => r / 1024 * 1024 + (r + i + 1) % 1024)).find? (fun x =>
    !s.rl.rooms.contains x && !but.contains x)

/-- ACTIVE_LIMIT_K × 1,024 of a stack (Table 5-3). -/
def Plan.activeLimit (p : Plan) (st : Nat) : Nat := u8 (stackEntry (p.sec 0x30) st) 9 * 1024

/-- Room cores of a stack that are active (R109). -/
def State.active (s : State) (st : Nat) : Nat :=
  (s.rooms.cores.list.filter (fun e => e.1 / 65536 == st)).length + (s.rl.shadows.filter (fun r => r / 65536 == st)).length

/-- Whether a room's channel takes calls now: not held, not failed, its store not being written, its stack not clearing
(R97, R98, R100, R115, R466). -/
def State.roomOpen (s : State) (r : Nat) : Bool :=
  s.roomChan r == .ready && !s.chanLocked (r / 1024) && !(s.stack (r / 65536)).clearing

/-- Whether a room is unusable for a lookup for one of the causes of R165: held under R98, in a failed channel, in a stack
whose drain is requested, or having returned CHECK or CHANNEL for the call. -/
def State.barred (s : State) (r : Nat) (failed : List Nat) : Bool :=
  s.roomChan r == .unplanned || s.roomChan r == .failed || s.draining (r / 65536) || failed.contains r

/-- The room that runs the calls of a room: itself, or where it is quarantined the next room upward that is not (R413). -/
def State.runsIn (s : State) (home : Nat) : Option Nat :=
  if s.rl.rooms.contains home then s.roomUp home [home] else some home

/-- Where a lookup's call of room index `i` of a wing runs (R48, R165, R166, R413): the room whose DRAM it reaches, the room
that runs it, whether it was redirected to the twin, and the other twin's room under READ 1. Under READ 1 a twin that is
barred or stale leaves the call to the other alone. A room that is merely closed for a while is waited for. -/
def State.placeCall (s : State) (w : List Byte) (i : Nat) (failed : List Nat) : Option (Nat × Nat × Bool × Option Nat) :=
  let a := wingRoom w i
  let one := fun (home : Nat) (red : Bool) (pair : Option Nat) =>
    if s.roomOpen home && !s.barred home failed then (s.runsIn home).map (fun x => (home, x, red, pair)) else none
  match s.plan.twin w with
  | none => one a false none
  | some v =>
    let b := wingRoom v i
    let useA := !s.barred a failed
    let useB := !s.barred b failed
    let staleA := (s.shard (wId w)).stale
    let staleB := (s.shard (wId v)).stale
    if wRead w = 1 ∧ useA = true ∧ useB = true then
      if staleB then one a false none
      else if staleA then one b true none
      else if s.roomOpen b && s.roomIdle b then one a false (some b)
      else none
    else if useA && !(s.rl.rooms.contains a && useB) then one a false none
    else if useB then one b true none
    else one a false none

/-- Where a row's update runs (R166, R245, R413, R414): never redirected, on the borrowed path where its room is
quarantined, and under READ 1 together with the twin unless one of them is stale or failed. -/
def State.placeRow (s : State) (w : List Byte) (i : Nat) (both : Bool) : Option (Nat × Nat × Option Nat) :=
  let a := wingRoom w i
  let one := fun (pair : Option Nat) => if s.roomOpen a then (s.runsIn a).map (fun x => (a, x, pair)) else none
  match s.plan.twin w with
  | none => one none
  | some v =>
    let b := wingRoom v i
    if both = true ∧ wRead w = 1 ∧ (s.shard (wId v)).stale = false ∧ s.roomChan b ≠ .failed then
      (if s.roomOpen b && s.roomIdle b then one (some b) else none)
    else one none

/-- A room-call is sent: the core starts in its room with the state of R116. -/
def State.startCore (s : State) (home run : Nat) (pair : Option Nat) (call : Call) (table : Nat) : State :=
  let k := u8 (s.plan.sec 0x70) 1
  let sampled := pair.isSome || (s.plan.has 0x70 && k != 0 && s.draw % 2 ^ k == 0)
  let s := s.drew 1
  let shadow := match pair with | some b => some b | none => if sampled then s.roomUp home [home, run] else none
  let id := s.rl.nextSample
  let s := match shadow with
    | some b =>
      { s with
        rl := { s.rl with
          samples := s.rl.samples.put id ⟨false, pair.isSome, home, b, none, 0, 0, 0, some call.work, none, [], [], 0#64, 0#64⟩
          nextSample := id + 1 }
        io := s.io.inc .RL_SHADOW_CALLS }
    | none => if sampled then s.mapIo (fun io => io.inc .RL_SHADOW_VOID) else s
  let g : Vector Word 16 := ⟨(([0#32] ++ call.args ++ List.replicate 6 0#32).take 7 ++ [BitVec.ofNat 32 call.payload.length] ++ List.replicate 8 0#32).toArray, by
    simp only [List.size_toArray, List.length_append, List.length_take, List.length_cons, List.length_nil, List.length_replicate]; omega⟩
  s.setCore run {
    g := g, v := Vector.replicate 8 0#128, pc := call.entry, events := 0, key := genKey 0 table 0, row := 0, ctr := 0
    ppos := 0, scratch := [], call := call, slots := [], recv := none, sends := [], sent := [], rc := 0
    entered := s.mer.now, evAt := List.replicate 8 0, sendAt := [], paused := 0, wait := .run, home := home, ident := home
    sample := shadow.map (fun _ => id), held := [], cancelled := false }

/-- Whether a stack and a channel have room for one more call (R109, R130). -/
def State.roomFor (s : State) (r : Nat) (update : Bool) : Bool :=
  s.roomIdle r && decide (s.active (r / 65536) < s.plan.activeLimit (r / 65536)) &&
  (!update || decide ((s.rooms.cores.list.filter (fun e => e.1 / 1024 == r / 1024 && e.2.call.update)).length < 16))

/-- The header and payload of a lookup part's call (Table 7-8). -/
def partCall (t : List Byte) (x : Lookup) (l i : Nat) (p : Part) : Call where
  entry := tLookup t
  cls := x.cls
  update := false
  tag := i % 65536
  args := [BitVec.ofNat 32 p.entries.length,
    BitVec.ofNat 32 (let q := (slicesOf (tDim t)).getD p.slice (0, 1); q.1 + (q.2 - 1) * 2 ^ 10 + tDim t * 2 ^ 18),
    if x.mode = 3 then 2#32 else 0#32, BitVec.ofNat 32 p.bag, 0#32, 0#32]
  payload := p.entries.flatMap (fun e => bytesOf e.2.1 4 ++ bytesOf e.2.2.toNat 4) ++ (if p.entries.length % 2 = 1 then zeros 8 else [])
  work := .lookup l i

/-- The header and payload of a row update's call (R245). -/
def rowCall (t : List Byte) (slot row step wing : Nat) (primary : Bool) (g : List Word) : Call where
  entry := tUpdate t
  cls := 2
  update := true
  tag := row % 65536
  args := [BitVec.ofNat 32 (slot * tRecLen t), BitVec.ofNat 32 row, 0xC000#32, BitVec.ofNat 32 step, 0#32, 0#32]
  payload := wordsBytes g
  work := .update wing row primary

/-- A lookup part that waits and where its call could start now: its list, table and part, the room whose DRAM it reaches,
the room that runs it, whether it is redirected, and the other twin's room. -/
def State.partPlace (s : State) (l i : Nat) : Option (Lookup × List Byte × Part × Nat × Nat × Bool × Option Nat) :=
  match s.wings.lookups.at l with
  | none => none
  | some x =>
    match x.parts[i]?, s.plan.table x.table with
    | some p, some t =>
      match p.st, p.wing.bind s.plan.wing with
      | .waiting, some w =>
        if x.fail.isSome then none
        else
          match s.placeCall w p.w p.failedAt with
          | some (home, run, red, pair) => if s.roomFor run false then some (x, t, p, home, run, red, pair) else none
          | none => none
      | _, _ => none
    | _, _ => none

/-- A row of a step in progress that waits and where its call could start now: at the primary the first row of the shard
that drains, at the twin a row whose call the primary has sent (R245). Answers wing, table, slot, row and gradients, and the
rooms as for a part. Rows of a commit go on while their stack drains (R49). -/
def State.rowPlace (s : State) (wing row : Nat) (primary : Bool) :
    Option (List Byte × List Byte × Nat × AccRow × Nat × Nat × Option Nat) :=
  match s.plan.wing wing with
  | none => none
  | some w =>
    match s.plan.table (wOwner w % 4096) with
    | none => none
    | some t =>
      let x := s.shard wing
      let loc := row / tShards t
      let a := if primary then
          (if (s.comb (wStack w)).go && x.busy && !s.upd.blocks.contains wing then
            ((s.comb (wStack w)).drain.find? (fun r => r.wing == wing)).filter (fun r => r.row == row)
          else none)
        else (x.running.find? (fun r => r.1 == row && !r.2.2)).map (fun r => ⟨tId t, row, wing, r.2.1⟩)
      match a, s.placeRow w (loc % wRooms w) primary with
      | some a, some (home, run, pair) => if s.roomFor run true then some (w, t, loc / wRooms w, a, home, run, pair) else none
      | _, _ => none

/-- Whether a lookup part that could start at a stack's landing goes before a call of class `cls` that arrived after the
first `key.2` parts of list `key.1` (R109): class 0 first, then in order of arrival within the class. -/
def State.partsBefore (s : State) (st cls : Nat) (key : Nat × Nat) : Bool :=
  s.wings.lookups.list.any (fun e =>
    (e.2.cls == cls || (e.2.cls == 0 && cls != 0)) && (e.2.cls != cls || decide (e.1 ≤ key.1)) &&
    (List.range e.2.parts.length).any (fun i =>
      (e.2.cls != cls || decide (e.1 < key.1) || decide (i < key.2)) &&
      (match s.partPlace e.1 i with | some p => p.2.2.2.2.1 / 65536 == st | none => false)))

/-- Whether an update row that could start at a stack's landing goes before a part of class 2 of list `l` (R109). -/
def State.rowsBefore (s : State) (st l : Nat) : Bool :=
  s.plan.tableWings.any (fun w =>
    wStack w == st && decide ((s.comb st).after ≤ l) &&
    (((s.comb st).drain.find? (fun r => r.wing == wId w)).any (fun r => (s.rowPlace (wId w) r.row true).isSome) ||
     (s.shard (wId w)).running.any (fun r => !r.2.2 && (s.rowPlace (wId w) r.1 false).isSome)))

/-- A lookup part's call is sent. -/
def State.callPart (s : State) (l i : Nat) : Option State :=
  match s.partPlace l i with
  | none => none
  | some (x, t, p, home, run, red, pair) =>
    if s.partsBefore (run / 65536) x.cls (l, i) || (x.cls == 2 && s.rowsBefore (run / 65536) l) then none
    else
      let s := s.setPart l i (fun p => { p with st := .running })
      let s := if red then
        match p.wing.bind s.plan.wing with
        | some w => s.mapIo (fun io => (io.inc .WG_TWIN_READS (wStack w)).event .WG_EVENT (wStack w) 1)
        | none => s
        else s
      some (s.startCore home run pair (partCall t x l i p) (tId t))

/-- A row's update call is sent: the first row of a shard at the primary, and the same call at the twin (R245). -/
def State.callRow (s : State) (wing row : Nat) (primary : Bool) : Option State :=
  match s.rowPlace wing row primary with
  | none => none
  | some (w, t, slot, a, home, run, pair) =>
    if s.partsBefore (run / 65536) 2 ((s.comb (wStack w)).after, 0) then none
    else
      let step := (s.shard wing).step
      let s :=
        if primary then
          let s := s.setComb (wStack w) (fun c => { c with drain := c.drain.erase a })
          let s := s.setShard wing (fun x => { x with running := x.running ++ [(row, a.acc, true)] })
          match s.plan.twin w, pair with
          | some v, none => s.setShard (wId v) (fun y => if y.stale then y else { y with running := y.running ++ [(row, a.acc, false)] })
          | _, _ => s
        else
          s.setShard wing (fun x => { x with running := x.running.map (fun q => if q.1 = row then (q.1, q.2.1, true) else q) })
      some (s.startCore home run pair (rowCall t slot row step wing primary a.acc) (tId t))

/-- ROOM_CALL (R109, R116): a landing sends the call that some work is waiting for, once its room is idle and nothing holds
it. -/
def execRoomCall (wk : Work) (s : State) : Result :=
  match (match wk with | .lookup l i => s.callPart l i | .update w row primary => s.callRow w row primary) with
  | some s => .next s
  | none => ignored s

/-- CALL_CANCEL (R118): a cancelled call stops at the instruction boundary; DRAM writes that it issued complete, and its
SENDs are discarded. -/
def execCallCancel (r : Fin 1048576) (s : State) : Result :=
  match s.rooms.cores.at r with
  | some c =>
    if c.cancelled then
      let s := c.held.foldl (fun s h => s.roomWrite (coreWriter h.1) c.home h.2.1 h.2.2) s
      let s := { s with
        rooms := { s.rooms with cores := s.rooms.cores.del r }
        rl := { s.rl with samples := match c.sample with | some k => s.rl.samples.del k | none => s.rl.samples } }
      .next (s.mapIo (fun io => io.inc .RM_CALLS (r.val / 65536)))
    else ignored s
  | none => ignored s

/-- LIMIT (R117): a call still running at RM_CALL_LIMIT takes the exception at the instruction boundary, or in its wait. -/
def execLimit (r : Fin 1048576) (s : State) : Result :=
  match s.rooms.cores.at r with
  | some c =>
    if s.callLimit (r.val / 65536) ≤ s.limitRc c ∧ c.cancelled = false then .next (s.endCall r c stWatchdog (some 9)) else ignored s
  | none => ignored s

/-- RM_FLOG_CLEAR (R142): every entry of the stack's fault log goes. -/
def execRmFlogClear (st : Fin 16) (v : BitVec 32) (s : State) : Result := if s.barShut then ignored s else
  if v.getLsbD 0 then .next { s with rooms := { s.rooms with flog := SMap.set (fun _ => []) s.rooms.flog st [] } } else ignored s

/-- DIRECT_READ (R140): the landing reads 64 bytes of a room through its access unit; the room core is not used, and the
DRAM row stays open (R139). The bytes pass the checks of a read: an uncorrectable word is reported (R402, R404). A retraining
channel and a draining stack hold it (R48, R97, R98); a write of the program store does not (R115). -/
def execDirectRead (r : Fin 1048576) (o : Fin 16384) (s : State) : Result :=
  let a := roomDpa r (64 * o)
  if s.plan.inService (r.val / 65536) = true ∧ s.roomChan r ≠ .failed ∧ s.dpaHeld a 64 = false then
    .next ((if s.ram.eccOk a 64 then s else s.logCheck a r).opened r (64 * o) 64)
  else ignored s

/-- CMD_PROGRAM_LOAD (R115): the landing stops room-calls to the channels, waits for those that run, and writes their stores
from the sheet or the inline bytes. -/
def execCmdProgramLoad (id : Nat) (s : State) : Result :=
  match s.readyCmd id 11 with
  | none => ignored s
  | some c =>
    let e := c.entry
    let st := u8 e 0x10
    let first := u8 e 0x11
    let n := u8 e 0x12
    let off := u32 e 0x14
    let a := u64 e 0x18
    let len := cCount e
    if s.plan.inService st = false ∨ n = 0 ∨ s.plan.channels st < first + n ∨ off % 16 ≠ 0 ∨ len % 16 ≠ 0 ∨ 65536 < off + len ∨
        (a = 0 ∧ cLen e < len) ∨ (a ≠ 0 ∧ s.plan.dpaOk a len = false) then .next ((s.unlockStores (.load id)).finish id stInvalid 0)
    else if (a ≠ 0 ∧ s.dpaHeld a len = true) ∨ s.stackHeld st = true then ignored s
    else if a ≠ 0 ∧ s.ram.moverOk a len = false then
      .next (((s.unlockStores (.load id)).logCheck a (dpaRoom a)).finish id stCheck 0)
    else
      let chans := (List.range n).map (fun i => 64 * st + first + i)
      if chans.any s.rooms.busyChan then
        .next (s.lockStores (.load id) chans)
      else
        let b := if a = 0 then (cInline e).take len else s.ram.read a len
        let s := s.unlockStores (.load id)
        let s := { s with
          ram := chans.foldl (fun m ch => m.poke (progAddr (ch / 64) (ch % 64) off) b) s.ram
          rooms := { s.rooms with
            loads := chans.foldl (fun m ch => SMap.set (fun _ => 0) m ch (min 65535 (SMap.get (fun _ => 0) m ch + 1))) s.rooms.loads } }
        .next ((s.touch id 0 (2 ^ st)).finish id stDone 0)

end Sys2Proof.Machine
end

