-- ==== Sys2Proof/Machine/Tiles.lean ====
section
/-! DEFINITION. Machine/Tiles.lean: what one tile computes (R175 to R188), as a function of its descriptor and of the
blocks its feeders read. -/

namespace Sys2Proof.Machine

/-- One operand of a tile (R182): `cnt` is M or N. -/
structure Opnd where
  fmt : Nat
  across : Bool
  sparse : Bool
  mask : Bool
  cnt : Nat
  col0 : Nat
  base : Nat
  stride : Nat
  maskBase : Nat
deriving DecidableEq, Repr

/-- M of a descriptor. -/
def tileM (d : List Byte) : Nat := u16 d 4
/-- N of a descriptor. -/
def tileN (d : List Byte) : Nat := u16 d 6
/-- K of a descriptor. -/
def tileK (d : List Byte) : Nat := u32 d 8
/-- TAG of a descriptor. -/
def tileTag (d : List Byte) : Nat := u32 d 0x30
/-- CHAIN of a descriptor. -/
def tileChain (d : List Byte) : Nat := u16 d 0x34

/-- Operand A of a descriptor (Table 8-4). -/
def tileA (d : List Byte) : Opnd :=
  ⟨u8 d 1, bit (u8 d 3) 0, false, bit (u8 d 3) 3, tileM d, u16 d 0xC, u32 d 0x10, u32 d 0x14, u32 d 0x28⟩
/-- Operand W of a descriptor. -/
def tileW (d : List Byte) : Opnd :=
  ⟨u8 d 2, bit (u8 d 3) 1, bit (u8 d 3) 2, bit (u8 d 3) 4, tileN d, u16 d 0xE, u32 d 0x18, u32 d 0x1C, u32 d 0x2C⟩

/-- p = TA × TW, rounded once (R179). -/
def tileScale (d : List Byte) : Word := f32mul (BitVec.ofNat 32 (u32 d 0x20)) (BitVec.ofNat 32 (u32 d 0x24))

/-- Elements in one block of an operand. -/
def Opnd.epb (o : Opnd) : Nat := if o.sparse then sparseElems o.fmt else blockElems o.fmt

/-- Stored rows of an operand (R182). -/
def Opnd.rows (o : Opnd) (k : Nat) : Nat := if o.across then k else o.cnt

/-- Elements that the tile reads from a stored row, from its first (R182). -/
def Opnd.span (o : Opnd) (k : Nat) : Nat := if o.across then o.col0 + o.cnt else k

/-- Whether an operand breaks Table 8-4, R182 or R187, or reaches beyond 8 MiB (R181). -/
def Opnd.bad (o : Opnd) (k : Nat) : Bool :=
  let blocks := (o.span k + o.epb - 1) / o.epb
  decide (o.fmt = 0 ∨ 6 < o.fmt) || (if o.across then o.col0 % 16 != 0 else o.col0 != 0) ||
  o.base % 256 != 0 || o.stride % 256 != 0 || decide (o.stride < 256) || decide (o.stride < 256 * blocks) ||
  decide (2 ^ 23 < o.base + (o.rows k - 1) * o.stride + 256 * blocks) ||
  (if o.mask then o.maskBase % 16 != 0 || decide (2 ^ 23 < o.maskBase + 2 * ((k + 7) / 8)) else o.maskBase != 0)

/-- Whether an array rejects a descriptor (R181). Read along, a sparse W is permitted with no 16-bit A (Table 8-6, log entry
40). -/
def tileBad (d : List Byte) : Bool :=
  let a := tileA d
  let w := tileW d
  let k := tileK d
  d.length != 64 || u8 d 0 != 1 || decide (32 ≤ u8 d 3) || decide (tileM d = 0 ∨ 128 < tileM d) ||
  decide (tileN d = 0 ∨ 128 < tileN d) || decide (k < 16 ∨ 16384 < k) || k % 16 != 0 ||
  a.bad k || w.bad k || (w.sparse && (decide (w.fmt ≤ 2) || (decide (a.fmt ≤ 2) && !w.across))) ||
  !f32posNormal (BitVec.ofNat 32 (u32 d 0x20)) || !f32posNormal (BitVec.ofNat 32 (u32 d 0x24)) ||
  !f32posNormal (tileScale d) || (slice d 0x36 10).any (fun b => b != 0#8)

/-- Store offset of the block that holds an operand's element (i, k) (R182). -/
def Opnd.blockAt (o : Opnd) (i k : Nat) : Nat :=
  let r := if o.across then k else i
  let e := if o.across then o.col0 + i else k
  o.base + r * o.stride + e / o.epb * 256

/-- Operand element (i, k) with its block scale (R182). `blk` answers the 256 bytes of the block at a store offset. -/
def Opnd.elem (o : Opnd) (blk : Nat → List Byte) (i k : Nat) : Val :=
  let e := (if o.across then o.col0 + i else k) % o.epb
  let b := blk (o.blockAt i k)
  if o.sparse then sparseElem o.fmt b e else blockElem o.fmt b e

/-- Whether the occupancy byte over element (i, k) has more than four bits set (R186). -/
def Opnd.overfull (o : Opnd) (blk : Nat → List Byte) (i k : Nat) : Bool :=
  o.sparse &&
    decide (4 < popBelow (occupancy o.fmt (blk (o.blockAt i k)) ((if o.across then o.col0 + i else k) % o.epb)) 8)

/-- The mask bit over index i and k-step k (R187); an operand without a mask counts as all ones. -/
def Opnd.on (o : Opnd) (blk : Nat → List Byte) (i k : Nat) : Bool :=
  !o.mask ||
    (let a := o.maskBase + 2 * (k / 8)
     bit (u16 (blk (a / 256 * 256)) (a % 256)) (i / 8))

/-- Whether every valid mask bit of k-block q is 0 (R188). -/
def Opnd.blank (o : Opnd) (blk : Nat → List Byte) (q : Nat) : Bool :=
  (List.range ((o.cnt + 7) / 8)).all (fun i => !o.on blk (8 * i) (8 * q))

/-- Whether k-block q is skipped (R188). -/
def tileSkip (d : List Byte) (blk : Nat → List Byte) (q : Nat) : Bool :=
  (tileA d).blank blk q || (tileW d).blank blk q

/-- k-blocks of a tile. -/
def tileBlocks (d : List Byte) : Nat := tileK d / 8

/-- k-blocks skipped (R188). -/
def tileSkipped (d : List Byte) (blk : Nat → List Byte) : Nat :=
  ((List.range (tileBlocks d)).filter (tileSkip d blk)).length

/-- ac per group of 16 k-steps (Table 8-6). -/
def tileRate (d : List Byte) : Nat :=
  let a := (tileA d).fmt
  let w := tileW d
  let half := w.sparse && !w.across
  if a ≤ 2 ∨ w.fmt ≤ 2 then 32
  else if a = 6 ∧ w.fmt = 6 then (if half then 4 else 8)
  else if half then 8 else 16

/-- ac that a tile feeds k-steps (R184, R188). -/
def tileFeed (d : List Byte) (blk : Nat → List Byte) : Nat :=
  (tileBlocks d - tileSkipped d blk) * tileRate d / 2

/-- Store offsets of the blocks whose elements an operand reads in group g (R187: masked blocks are not read). -/
def Opnd.reads (o : Opnd) (blk : Nat → List Byte) (skip : Nat → Bool) (g : Nat) : List Nat :=
  ((List.range 16).map (fun t => 16 * g + t)).flatMap (fun k =>
    if skip (k / 8) then []
    else ((List.range o.cnt).filter (fun i => o.on blk i k)).map (fun i => o.blockAt i k)) ++
  (if o.mask then [(o.maskBase + 4 * g) / 256 * 256] else [])

/-- Why a tile stops at a group: a failed check (R192) or an overfull occupancy byte (R186). -/
inductive TileStop where
  | check (block : Nat)
  | sparse
deriving DecidableEq, Repr

/-- What stops group g, if anything. `ok` answers whether the block at a store offset passes its check. -/
def groupStop (d : List Byte) (blk : Nat → List Byte) (ok : Nat → Bool) (g : Nat) : Option TileStop :=
  let skip := tileSkip d blk
  let bs := (tileA d).reads blk skip g ++ (tileW d).reads blk skip g
  match bs.find? (fun b => !ok b) with
  | some b => some (.check b)
  | none =>
    let w := tileW d
    if w.sparse && ((List.range 16).any (fun t =>
        let k := 16 * g + t
        !skip (k / 8) && (List.range w.cnt).any (fun j => w.on blk j k && w.overfull blk j k)))
    then some .sparse else none

/-- What stops a tile, at its first such group. -/
def tileStop (d : List Byte) (blk : Nat → List Byte) (ok : Nat → Bool) : Option TileStop :=
  (List.range (tileK d / 16)).findSome? (groupStop d blk ok)

/-- The exact sum of group g's products in cell (i, j) (R177, R178, R188). -/
def groupSum (d : List Byte) (blk : Nat → List Byte) (i j g : Nat) : Val :=
  let a := tileA d
  let w := tileW d
  ((List.range 16).map (fun t => 16 * g + t)).foldl (fun s k =>
    if tileSkip d blk (k / 8) || !a.on blk i k || !w.on blk j k then s
    else s.add ((a.elem blk i k).mul (w.elem blk j k))) (.fin false 0 0)

/-- The accumulator of cell (i, j) after every group (R177). -/
def cellAcc (d : List Byte) (blk : Nat → List Byte) (i j : Nat) : Word :=
  (List.range (tileK d / 16)).foldl (fun acc g =>
    let s := groupSum d blk i j g
    if s.isZero then acc else f32add acc (vf s)) 0#32

/-- C[i][j] (R175, R179), its NaN the canonical one with sign + (R178). -/
def tileCell (d : List Byte) (blk : Nat → List Byte) (i j : Nat) : Word :=
  let c := f32mul (cellAcc d blk i j) (tileScale d)
  if f32nan c then nan32 else c

/-- The 128 × 128 result, row by row (R179). -/
def tileVals (d : List Byte) (blk : Nat → List Byte) : List Word :=
  (List.range 128).flatMap (fun i => (List.range 128).map (fun j =>
    if i < tileM d ∧ j < tileN d then tileCell d blk i j else 0#32))

end Sys2Proof.Machine
end

