-- ==== Sys2Proof/Machine/Arrays.lean ====
section
/-! DEFINITION. Machine/Arrays.lean: matrix arrays, their vector engines and the attic: TILE_ACCEPT to
ENGINE_DESCRIPTOR_DONE. -/

namespace Sys2Proof.Machine

/-! ### Shared -/

/-- The place code of a logical array in the error log (Table 17-7). -/
def arrPlace (a : Nat) : Nat := 2 ^ 31 + a

/-- Usable arrays after `from`, cyclically, other than those listed (R410). -/
def State.usableAfter (s : State) (start : Nat) (not : List Nat) : Option Nat :=
  ((List.range 64).map (fun k => (start + 1 + k) % 64)).find? (fun b =>
    s.arrOk b && !s.arrTesting b && !not.contains b)

/-- Whether a chain entry's tiles are always shadowed (R415). -/
def Plan.critical (p : Plan) (e : Nat) : Bool :=
  p.has 0x70 && bit (u8 (p.sec 0x70) (0x20 + e % 256 / 8)) (e % 8)

/-- Whether the choice of R406 falls on a tile: one in 2^TILE_SAMPLE_LOG2, by a value that nothing predicts (log entry
7), or always for a critical chain. -/
def State.samples (s : State) (t : List Byte) : Bool :=
  let k := u8 (s.plan.sec 0x70) 0
  s.plan.critical (tileChain t) || (s.plan.has 0x70 && k != 0 && s.draw % 2 ^ k == 0)

/-- Sample a tile that an array accepts (R406, R410, R415). -/
def State.sampleTile (s : State) (a : Nat) (t : Tile) : State :=
  if !s.samples t.desc then s.drew 1
  else
    let crit := s.plan.critical (tileChain t.desc)
    let prev := SMap.get (fun k => k) s.rl.lastShadow a
    match s.usableAfter prev [a] with
    | some b =>
      { s.drew 1 with
        rl := { s.rl with
          samples := s.rl.samples.put s.rl.nextSample ⟨true, false, a, b, none, t.ctx, t.iter, t.unit, none, none, [], [], 0#64, 0#64⟩
          nextSample := s.rl.nextSample + 1
          lastShadow := if crit then s.rl.lastShadow else SMap.set (fun k => k) s.rl.lastShadow a b }
        io := s.io.inc .RL_SHADOW_TILES }
    | none =>
      let s := { s.drew 1 with io := s.io.inc .RL_SHADOW_VOID }
      if crit then s.logError 9 stDone (arrPlace a) else s

/-- The open selection group is discarded (R220, R228). -/
def State.abandon (s : State) (a : Nat) : State :=
  match (s.arr a).sel with
  | some _ =>
    { s.setArr a (fun r => { r with sel := none }) with
      io := (s.io.inc .VE_SEL_ABANDONED a).event .VE_EVENT a 1 }
  | none => s

/-- VE_LAST_FAULT (Table 9-8). -/
def veFault (a st chain : Nat) (io : Io) : Io := io.putN .VE_LAST_FAULT a (st * 2 ^ 24 + chain % 256)

/-- A failed check of a vector engine (R227). -/
def State.veCheck (s : State) (a chain : Nat) : State :=
  ({ s with io := veFault a stCheck chain ((s.io.inc .VE_CHECKS a).event .VE_EVENT a 0) }).logError 2 stCheck
    (arrPlace a)

/-- The status with which a tile's or descriptor's engine stops, with its records (R205, R227). -/
def State.veStop (s : State) (a chain st : Nat) : State :=
  if st = stCheck then s.veCheck a chain else { s with io := veFault a st chain s.io }

/-! ### Tiles -/

/-- TILE_ACCEPT (R181, R191, R406): the array checks the descriptor at the front of its port. -/
def acceptTile (s : State) (a : Nat) (t : Tile) (rest : List Tile) : State :=
  let r := s.arr a
  if (s.plan.fab a).isNone then
    (s.setArr a (fun r => { r with inbox := rest })).unitStatus t.ctx t.iter t.unit stInvalid
  else if tileBad t.desc then
    let s1 := s.setArr a (fun r => { r with inbox := rest })
    ({ s1 with io := (s1.io.event .MX_EVENT a 1).putN .MX_LAST_FAULT a (stInvalid * 2 ^ 24 + tileTag t.desc % 65536) }
      ).unitStatus t.ctx t.iter t.unit stInvalid
  else
    let t := { t with seq := r.seq + 1 }
    (s.setArr a (fun r =>
      if r.running.isNone then
        { r with inbox := rest, seq := r.seq + 1, running := some t, raced := [], accSet := !r.accSet }
      else { r with inbox := rest, seq := r.seq + 1, next := some t, racedNext := [] })).sampleTile a t

/-- TILE_ACCEPT: an array checks a delivered descriptor and accepts it as running or next tile, or rejects it. Nothing
happens where no descriptor waits, the array holds a next tile already, or it is quarantined (R191, R201). -/
def execTileAccept (a : Fin 64) (s : State) : Result :=
  let r := s.arr a
  match r.inbox with
  | t :: rest => if r.next.isNone && !r.quarantined then .next (acceptTile s a t rest) else ignored s
  | [] => ignored s

/-- What the block at a store offset held when the running tile was accepted, where a write has reached it since and the
feeders read it wholly old: which of the two they read is a free value (R197). -/
def racedOld (s : State) (a o : Nat) : Option (List Byte × Bool) :=
  match (s.arr a).raced.find? (fun e => e.1 == o / 256) with
  | some e => if Config.freeValue (s.free + o / 256) % 2 = 1 then some e.2 else none
  | none => none

/-- The bytes of that block. -/
def tileBlk (s : State) (a o : Nat) : List Byte :=
  match racedOld s a o with
  | some e => e.1
  | none => s.ram.read (storeAddr a o) 256

/-- Whether that block passes a consumer's check (R400), old or new as its bytes are. -/
def storeBlkOk (s : State) (a o : Nat) : Bool :=
  match racedOld s a o with
  | some e => e.2
  | none => (s.ram.blk (storeAddr a o)).consumerOk

/-- Whether an operand vector of 512 bytes passes its check and lies in the store (R213). -/
def opvOk (s : State) (a o : Nat) : Bool :=
  decide (o + 512 ≤ 2 ^ 23) && s.ram.consumerOk (storeAddr a o) 512

/-- The four operand vectors of an entry, read when the tile's first row enters the queue, and whether one failed its
check (R213). -/
def readOpvs (s : State) (a : Nat) (c : List Byte) (arg : Nat) : List (List Word) × Bool :=
  let qs := (chainStages c).flatMap stageOpvs
  ((List.range 4).map (fun q =>
      match chOpv c arg q with
      | some o => if qs.contains q then s.ram.words (storeAddr a o) 128 else []
      | none => []),
   qs.any (fun q => match chOpv c arg q with | some o => !opvOk s a o | none => false))

/-- The tile after the running one starts (R191). -/
def Arr.advance (r : Arr) : Arr :=
  { r with running := r.next, next := none, raced := r.racedNext, racedNext := [],
           accSet := if r.next.isSome then !r.accSet else r.accSet }

/-- The array cycles that a unit has been frozen or waited, by cause, when a piece of its work ends: free values, since the
model counts no cycles (R190, R204, R213). -/
def State.stalled (s : State) (a : Nat) (rs : List Reg) : State :=
  rs.foldl (fun (s : State) (r : Reg) => { s with io := s.io.add r a s.draw, free := s.free + 1 }) s

/-- The stall counters of a tile's feeders and drain (R190). -/
def tileStalls : List Reg := [.MX_STALL_A, .MX_STALL_W, .MX_STALL_STORE, .MX_STALL_DRAIN]

/-- A tile's active rows and columns. -/
def QTile.cells (q : QTile) : Cells :=
  (List.range q.m).map (fun i => (q.vals.drop (128 * i)).take q.n)

/-- Bytes of one block that elements [e0, e0 + n) and their scales take (R416, R417). -/
def pieceSpans (fmt e0 n : Nat) : List (Nat × Nat) :=
  match fmt with
  | 5 => [(e0, n), (240 + e0 / 16, n / 16)]
  | 6 => [(e0 / 2, n / 2), (224 + e0 / 16, n / 16)]
  | f => [(e0 * (fmtBits f / 8), n * (fmtBits f / 8))]

/-! ### Tile signatures (R406, R407) -/

/-- The term of one value at row `i`, column `j` in a tile's signature S (R406). -/
def sigTerm (i j v : Nat) : DWord := mix (BitVec.ofNat 64 ((i * 256 + j) * 2 ^ 32 + v))

/-- S over the drained tile: the sum of its active elements' terms, modulo 2^64 (R406). -/
def tileSig (x : Cells) : DWord :=
  x.zipIdx.foldl (fun (acc : DWord) row =>
    row.1.zipIdx.foldl (fun (acc : DWord) v => acc + sigTerm row.2 v.2 v.1.toNat) acc) 0#64

/-- Add to the signature of the sampled tile of a unit, where it is sampled. -/
def State.addSig (s : State) (q : QTile) (v : DWord) : State :=
  { s with rl := { s.rl with samples := s.rl.samples.map (fun e => (e.1, e.2.map (fun x =>
      if x.tile ∧ x.ctx = q.ctx ∧ x.iter = q.iter ∧ x.unit = q.unit then { x with sig := x.sig + v } else x))) } }

/-- Whether the shadow pair runs a tile's chain too (R407). -/
def chainShadowed (c : List Byte) : Bool :=
  !chQAccum c && (chainStages c).all (fun g =>
    g.src != 2 && g.op != 0x61 && g.op != 0x42 && g.op != 0x43 && g.op != 0x50)

/-- A tile that finishes: its result enters the tile queue (R179). -/
def finishTile (s : State) (a : Nat) (t : Tile) : State :=
  let d := t.desc
  let blk := tileBlk s a
  let opv := readOpvs s a (s.chainEntry a (tileChain d)) (tileChain d / 256 % 256)
  let q : QTile := ⟨tileM d, tileN d, tileTag d, tileChain d, tileVals d blk, opv.1, opv.2, false,
    t.ctx, t.iter, t.unit, t.seq, false⟩
  let s := (((s.setArr a (fun r => { r.advance with queue := r.queue ++ [q] })).drew 32768).stalled a tileStalls).addSig q
    (tileSig q.cells)
  { s with
    io := ((s.io.inc .MX_TILES a).addWide .MX_FEED_LO a (tileFeed d blk)).add .MX_SKIPPED a (tileSkipped d blk) }

/-- A tile that stops on a failed check (R192) or an overfull occupancy byte (R186). -/
def stopTile (s : State) (a : Nat) (t : Tile) (w : TileStop) : State :=
  let s1 := ((s.setArr a Arr.advance).drew 32768).stalled a tileStalls
  let tag := tileTag t.desc % 65536
  match w with
  | .check o =>
    let io := ((s1.io.inc .MX_STORE_CHECKS a).event .MX_EVENT a 0).putN .MX_LAST_FAULT a (stCheck * 2 ^ 24 + tag)
    let s2 := { s1 with io := io }
    let b := s2.ram.blk (storeAddr a o)
    (s2.logBlk (if b.consumerOk then ⟨false, true, 0⟩ else b) (arrPlace a)).unitStatus t.ctx t.iter t.unit stCheck
  | .sparse =>
    ({ s1 with io := (s1.io.event .MX_EVENT a 2).putN .MX_LAST_FAULT a (stInvalid * 2 ^ 24 + tag) }
      ).unitStatus t.ctx t.iter t.unit stInvalid

/-- Slots of the tile queue in use: a chain holds its tile's slot until it completes (R204). -/
def Arr.slots (r : Arr) : Nat :=
  r.queue.length + (match r.chain with | some q => if q.run then 0 else 1 | none => 0)

/-- TILE_FINISH: a tile's rows drain into the tile queue, or it stops on a check or sparse error. Not while the queue is
full or a chain-load waits (R189, R204, R209). -/
def execTileFinish (a : Fin 64) (s : State) : Result :=
  let r := s.arr a
  match r.running with
  | some t =>
    if r.slots < 4 ∧ r.loads = [] then
      match tileStop t.desc (tileBlk s a) (storeBlkOk s a) with
      | none => .next (finishTile s a t)
      | some w => .next (stopTile s a t w)
    else ignored s
  | none => ignored s

/-! ### The attic (R198 to R200, R387) -/

/-- Lines of 4 KiB that a fetch of `len` bytes from `src` needs. -/
def fetchLines (src len : Nat) : List Nat :=
  (List.range ((src % 4096 + len + 4095) / 4096)).map (fun i => (src / 4096 + i) * 4096)

/-- Deliver one resident line to one fetch: the attic's copy of its blocks goes with their check values, failing ones too
(R198, R399). -/
def deliverLine (s : State) (k : Nat) (f : Fetch) (line : Nat) : State :=
  let lo := max line f.src
  let n := min (line + 4096) (f.src + f.len) - lo
  let ls := s.mx.attic.filter (fun l => l.line == line)
  let bs := ((ls.flatMap AtticLine.blks).drop ((lo - line) / 256)).take (n / 256)
  let ok := bs.all Blk.moverOk
  let s := match bs.find? (fun b => !b.moverOk) with
    | some b => if s.ram.gone lo then s else s.logBlk b (dpaRoom lo)
    | none => s
  let s := s.storePut f.arr (f.dst + (lo - f.src)) (slice (ls.flatMap AtticLine.bytes) (lo - line) n) bs
  let f : Fetch := { f with left := f.left.filter (fun l => l != line), bad := f.bad || !ok }
  if f.left = [] then
    { s with mx := { s.mx with fetches := s.mx.fetches.del k } }.unitStatus f.ctx f.iter f.unit
      (if f.bad then stCheck else stDone)
  else { s with mx := { s.mx with fetches := s.mx.fetches.put k f } }

/-- Deliver a resident line to every fetch that waits for it: one attic read (R198, R387). -/
def State.deliver (s : State) (line : Nat) : State :=
  let fs := s.mx.fetches.list.filter (fun f => f.2.left.contains line)
  fs.foldl (fun s f => deliverLine s f.1 f.2 line) s

/-- Whether a line lies in a pinned range (R200, Table 8-3). -/
def Plan.pinned (p : Plan) (line : Nat) : Bool :=
  let sec := p.sec 0x40
  p.has 0x40 && (chunks (sec.drop 0x110) 16 (u16 sec 0)).any (fun e => decide (u64 e 0 ≤ line ∧ line < u64 e 0 + u32 e 8))

/-- The lines with room for one more: the least recently used that is neither pinned nor being filled goes; none where
every line is (R198, R200). -/
def Plan.atticRoom (p : Plan) (ls : List AtticLine) : Option (List AtticLine) :=
  if ls.length < 32768 then some ls
  else match ls.reverse.find? (fun l => !l.filling && !p.pinned l.line) with
    | some v => some (ls.filter (fun l => l.line != v.line))
    | none => none

/-- The fill of an absent line begins, where there is room for it; without room the line waits. -/
def Plan.startFill (p : Plan) (ls : List AtticLine) (line : Nat) : List AtticLine :=
  if ls.any (fun l => l.line == line) then ls
  else match p.atticRoom ls with
    | some ls => ⟨line, true, false, [], []⟩ :: ls
    | none => ls

/-- The fills of lines that fetches wait for begin, oldest fetch first (R198). -/
def State.startFills (s : State) : State :=
  { s with mx := { s.mx with
      attic := (s.mx.fetches.list.flatMap (·.2.left)).foldl s.plan.startFill s.mx.attic } }

/-- A fetch begins (R198, R387): resident lines are delivered at once and become the most recently used, the others are
filled. `first` is false where an identical FETCH between the same two FULL barriers has had the attic read counted. -/
def State.beginFetch (s : State) (f : Fetch) (first : Bool) : State :=
  let k := s.mx.nextFetch
  let s := { s with mx := { s.mx with fetches := s.mx.fetches.put k f, nextFetch := k + 1 } }
  f.left.foldl (fun (s : State) (line : Nat) =>
    match s.mx.attic.find? (fun l => l.line == line) with
    | some l =>
      if l.filling then s
      else
        let s := { s with
          mx := { s.mx with attic := l :: s.mx.attic.filter (fun x => x.line != line) }
          io := if first then s.io.addWide .MX_ATTIC_HITS_LO 0 1 else s.io }
        match s.mx.fetches.at k with
        | some g => deliverLine s k g line
        | none => s
    | none => { s with mx := { s.mx with attic := s.plan.startFill s.mx.attic line } }) s

/-- ATTIC_FILL_DONE: a fill completes and is delivered to the waiting stores; one that a write reached is discarded and
reissued (R198, R199); a retraining of the line's channel holds it (R97, R98). `line` is the fill's address in units of 4 KiB. -/
def execAtticFillDone (line : Nat) (s : State) : Result :=
  let a := line * 4096
  match s.mx.attic.find? (fun l => l.line == a) with
  | some l =>
    if !l.filling || s.chanHeld (line / 262144) then ignored s
    else if l.spoiled then
      .next { s with mx := { s.mx with attic := s.mx.attic.map (fun x => if x.line = a then { x with spoiled := false } else x) } }
    else
      .next (({ s with
        mx := { s.mx with
          attic := ⟨a, false, false, s.ram.read a 4096, (List.range 16).map (fun i => s.ram.blk (a + 256 * i))⟩ ::
            s.mx.attic.filter (fun x => x.line != a) }
        io := s.io.inc .MX_ATTIC_MISSES }).deliver a).startFills
  | none => ignored s

/-! ### Chains -/

/-- What stops a chain before it starts (R205, R220, R227); none: it starts. -/
def chainStop (s : State) (a : Nat) (q : QTile) : Option Nat :=
  let c := s.chainEntry a q.chain
  let arg := q.chain / 256 % 256
  if chStages c = 0 then some stInvalid
  else if q.opvBad then some stCheck
  else if chQAccum c ∧ (List.range 2).any (fun b => match chQDest c arg b with
      | some o => !opvOk s a o | none => false) then some stCheck
  else none

/-- The Q buffers at the start of a chain (R217). -/
def startQ (s : State) (a : Nat) (c : List Byte) (arg b : Nat) : List Word :=
  match chQDest c arg b with
  | some o => if chQAccum c then s.ram.words (storeAddr a o) 128 else List.replicate 128 0#32
  | none => List.replicate 128 0#32

/-- What an operand vector that no chain has read holds (R203). -/
def opsDflt : Nat → List Word := fun _ => List.replicate 128 0#32

/-- The chain of a tile or of a RUN begins: buffers set, and SEL_FIRST opens a group (R217, R220). -/
def beginChain (s : State) (a : Nat) (q : QTile) : State :=
  let c := s.chainEntry a q.chain
  let arg := q.chain / 256 % 256
  let s1 := (if chSelFirst c then s.abandon a else s).stalled a [.VE_STALL_OPERAND]
  s1.setArr a (fun r => { r with
    chain := some q, ops := ((chainStages c).flatMap stageOpvs).foldl (fun m k => SMap.set opsDflt m k (q.opv.getD k [])) r.ops
    q0 := startQ s a c arg 0, q1 := startQ s a c arg 1
    sel := if chSelFirst c then some (Sel.open c) else r.sel })

/-- CHAIN_START: the engine begins the chain at the front of the tile queue, or the tile ends without one (R205, R219,
R227, R228). -/
def startTile (s : State) (a : Nat) (q : QTile) (rest : List QTile) : State :=
  let s1 := s.setArr a (fun r => { r with queue := rest })
  if q.cancelled then (s1.abandon a).unitStatus q.ctx q.iter q.unit stCancelled
  else match chainStop s a q with
    | some st => (s1.veStop a q.chain st).unitStatus q.ctx q.iter q.unit st
    | none => beginChain s1 a q

/-- Whether an engine descriptor delivered before a tile was accepted still waits or works (R223). -/
def Arr.descBefore (r : Arr) (seq : Nat) : Bool :=
  r.eact.isSome || (match r.edescs with | d :: _ => decide (d.after < seq) | [] => false)

/-- CHAIN_START: the vector engine begins a finished tile's chain. Nothing happens while a chain or an earlier descriptor
runs, or with an empty queue. -/
def execChainStart (a : Fin 64) (s : State) : Result :=
  let r := s.arr a
  match r.queue with
  | q :: rest => if r.chain.isNone && !r.descBefore q.seq then .next (startTile s a q rest) else ignored s
  | [] => ignored s

/-- What a finished chain's WRITE adds to the signature of its sampled tile: every byte written, at the row and column of its
element; a byte of two elements counts at the first, a scale at the first element of its group (R407; log entry 172). -/
def chainSig (s : State) (c : List Byte) (arg m n : Nat) (g : Stage) : DWord :=
  let fmt := g.aux % 8
  let p : Place := if chDestKind c = 1 then .store (chDestArray c) else .sheet
  let w := if fmtBlock fmt then (n + 15) / 16 * 16 else n
  (List.range m).foldl (fun (acc : DWord) i =>
    (rowPieces fmt (chDcol c arg) (List.replicate w 0#32)).foldl (fun (acc : DWord) pc =>
      (pieceSpans fmt pc.2.1 pc.2.2.2.length).zipIdx.foldl (fun (acc : DWord) sp =>
        let o := p.addr (chDest c + i * chStride c + pc.1 * 256 + sp.1.1)
        (s.ram.read o sp.1.2).zipIdx.foldl (fun (acc : DWord) b =>
          let j := pc.2.2.1 + (if sp.2 = 0 then b.2 * 8 / fmtBits fmt else 16 * b.2)
          acc + sigTerm i j b.1.toNat) acc) acc) acc) 0#64

/-- Add a dense tile's weights to its buffer's digest (R417). -/
def digestRows (s : State) (id : Nat) (e : List Byte) (c : List Byte) (arg fmt m n : Nat) : State :=
  let w := if fmtBlock fmt then (n + 15) / 16 * 16 else n
  (List.range m).foldl (fun s i =>
    let base := chDest c + i * chStride c
    (rowPieces fmt (chDcol c arg) (List.replicate w 0#32)).foldl (fun s p =>
      (pieceSpans fmt p.2.1 p.2.2.2.length).foldl (fun s sp =>
        let o := base + p.1 * 256 + sp.1
        s.addDigest id e (1 - (s.layer id).current) o (s.ram.read o sp.2)) s) s) s

/-- The DUPD stage at the front of a chain (R251 to R253), else the stages as they stand. -/
def runStages (s : State) (a : Nat) (q : QTile) (c : List Byte) : State × Run :=
  let r := s.arr a
  let gs := chainStages c
  let run0 : Run := ⟨q.cells, q.opv, r.q0, r.q1, r.tregs, r.live, 0, r.sel, 0, 0, none⟩
  match gs.find? (fun g => g.op == 0x50) with
  | some g =>
    match dupd s a (q.chain / 256 % 256) q.m q.n g (writeFmt gs) with
    | (s', .inr x) => (s', { run0 with x := x })
    | (s', .inl st) => (s', { run0 with stop := some st })
  | none => (s, gs.foldl (Run.stage q.tag q.n) run0)

/-- Write the Q buffers that are in use (R217). -/
def writeQs (s : State) (a : Nat) (c : List Byte) (arg : Nat) (r : Run) : State × Option Nat :=
  let used := ((chainStages c).filter (fun g => decide (0x30 ≤ g.op ∧ g.op ≤ 0x33))).map (fun g => bit g.aux 1)
  writeAll (fun s b =>
    match chQDest c arg b.1 with
    | some o => if used.contains (b.1 == 1) then storeMerge s a o (wordsBytes b.2) else (s, none)
    | none => (s, none)) s [(0, r.q0), (1, r.q1)]

/-- The rows that a chain writes, and what a dense tile adds to its buffer's digest (R215, R417). -/
def chainRows (s : State) (a : Nat) (q : QTile) (c : List Byte) (r : Run) : State × Option Nat :=
  match (chainStages c).find? (fun g => g.op == 0x60) with
  | some g =>
    match writeRows s c (q.chain / 256 % 256) (s.io.val .UP_STEP) q.tag g r.x with
    | (s', none) =>
      match (chainStages c).find? (fun g => g.op == 0x50) with
      | some d =>
        let id := u16 (s.ram.read (storeAddr a (dupdAt d (q.chain / 256 % 256))) 64) 0 % 4096
        match s.entryNow (layerKey id) with
        | some e => (digestRows s' id e c (q.chain / 256 % 256) (g.aux % 8) q.m q.n, none)
        | none => (s', none)
      | none => (s', none)
    | w => w
  | none => (s, none)

/-- Everything a chain writes outside the engine: rows, Q buffers, selection output (R215, R217, R220). -/
def chainWrites (s : State) (a : Nat) (q : QTile) (c : List Byte) (r : Run) : State × Option Nat :=
  match chainRows s a q c r with
  | (s, some st) => (s, some st)
  | (s, none) =>
    match writeQs s a c (q.chain / 256 % 256) r with
    | (s, some st) => (s, some st)
    | (s, none) =>
      match r.sel with
      | some k => if chSelLast c then storeMerge s a (chSelDest c) k.output else (s, none)
      | none => (s, none)

/-- The signature of a sampled tile takes in what its chain has written (R407). -/
def State.signChain (s : State) (q : QTile) (c : List Byte) : State :=
  match (chainStages c).find? (fun g => g.op == 0x60) with
  | some g => if chainShadowed c then s.addSig q (chainSig s c (q.chain / 256 % 256) q.m q.n g) else s
  | none => s

/-- A chain has ended with a status: a RUN reports to its descriptor, a tile to its unit. -/
def chainEnded (s : State) (a : Nat) (q : QTile) (st : Nat) : State :=
  if q.run then
    s.setArr a (fun r => { r with chain := none, eact := r.eact.map (fun d => (d.1, some st)) })
  else
    ({ s.setArr a (fun r => { r with chain := none }) with io := s.io.inc .VE_CHAINS a }).unitStatus q.ctx q.iter q.unit st

/-- CHAIN_COMPLETE (R208 to R222): the stages, the registers and the writes of one chain. -/
def completeChain (s : State) (a : Nat) (q : QTile) : State :=
  let c := s.chainEntry a q.chain
  match runStages s a q c with
  | (s1, r) =>
    let s1 := if (s.arr a).slots < 4 then s1 else s1.stalled a [.VE_QUEUE_FULL]
    let io := (s1.io.add .VE_NAN_SCORES a r.nans).addWide .VE_BUSY_LO a ((q.m + 1) / 2 * chainCost c)
    let io := if r.dropped = 0 then io else (io.add .VE_ROUTE_DROPPED a r.dropped).event .VE_EVENT a 2
    let s2 := { s1 with io := io }
    match r.stop with
    | some st => chainEnded (s2.veStop a q.chain st) a q st
    | none =>
      let s3 := s2.setArr a (fun x => { x with
        q0 := r.q0, q1 := r.q1, tregs := r.tregs, live := r.live &&& (255 - r.dead), sel := r.sel })
      match chainWrites s3 a q c r with
      | (s4, none) =>
        let s4 := s4.signChain q c
        chainEnded (if chSelLast c then s4.setArr a (fun x => { x with sel := none }) else s4) a q stDone
      | (s4, some st) =>
        let s5 := if (chainStages c).any (fun g => g.op == 0x50) then s4.denseProblem 10 else s4
        chainEnded (s5.veStop a q.chain st) a q st

/-- A quarantine stops the running chain at a vector boundary (R228): the rows of the vectors before it, how many a free value
says, are written, and nothing that the end of the chain would write. -/
def State.cutChain (s : State) (a : Nat) : State :=
  match (s.arr a).chain with
  | none => s
  | some q =>
    let c := s.chainEntry a q.chain
    let q' := { q with m := min q.m (2 * (s.draw % ((q.m + 1) / 2 + 1))) }
    let r := if (chainStages c).any (fun g => g.op == 0x50)
      then { (runStages s a { q' with m := 0 } c).2 with x := (dupdTile s a (q.chain / 256 % 256) q'.m q'.n c).getD [] }
      else (runStages s a q' c).2
    match r.stop with
    | some _ => s.drew 1
    | none => ((chainRows s a q' c r).1).drew 1

/-- CHAIN_COMPLETE: a chain's last vector completes. Nothing happens where no chain runs. -/
def execChainComplete (a : Fin 64) (s : State) : Result :=
  match (s.arr a).chain with
  | some q => .next (completeChain s a q)
  | none => ignored s

/-- CMD_CHAIN_LOAD (R209): a chain entry is checked and accepted for application; a source in a sheet is read as an
interpreter reads it (R400). -/
def execCmdChainLoad (id : Nat) (s : State) : Result :=
  match s.readyCmd id 0x0C with
  | none => ignored s
  | some c =>
    let a := u8 c.entry 0x10
    let src := u64 c.entry 0x18
    let bs := if src = 0 then (cInline c.entry).take 128 else s.ram.read src 128
    if cCount c.entry ≠ 128 ∨ (s.plan.fab a).isNone = true ∨ (src = 0 ∧ cLen c.entry < 128) ∨
        (src ≠ 0 ∧ s.plan.dpaOk src 128 = false) then .next (s.finish id stInvalid 0)
    else if src ≠ 0 ∧ s.dpaHeld src 128 = true ∨ s.arrDraining a = true then ignored s
    else if src ≠ 0 ∧ s.ram.consumerOk src 128 = false then
      .next ((s.logCheck src (dpaRoom src)).finish id stCheck 0)
    else if chainOk bs = false then .next (s.finish id stInvalid 0)
    else
      .next (((s.runCmd id 1).touch id (2 ^ a) 0).setArr a (fun r =>
        { r with loads := r.loads ++ [⟨u8 c.entry 0x11, bs, id⟩] }))

/-- CHAIN_LOAD_APPLY: an accepted chain-load is applied once the queue is empty and no chain runs, and its command
completes (R209). -/
def execChainLoadApply (a : Fin 64) (s : State) : Result :=
  let r := s.arr a
  match r.loads with
  | l :: rest =>
    if r.queue = [] ∧ r.chain = none then
      .next ({ s.setArr a (fun r => { r with loads := rest }) with
        ram := s.ram.poke (chainAddr a l.entry 0) l.bytes }.finish l.cmd stDone 0)
    else ignored s
  | [] => ignored s

/-! ### Engine descriptors (R223 to R225) -/

/-- Whether the descriptor at the front of the engine's port may run: no chain or descriptor at work, and every tile
accepted before it has completed its chain (R223). -/
def Arr.descReady (r : Arr) (d : EDesc) : Bool :=
  r.chain.isNone && r.eact.isNone &&
  !(r.queue.any (fun q => decide (q.seq ≤ d.after))) &&
  !((match r.running with | some t => [t] | none => []) ++ (match r.next with | some t => [t] | none => [])).any
    (fun t => decide (t.seq ≤ d.after))

/-- The front descriptor, where it has the given OP, its array is enabled (R172) and it may run. -/
def State.frontDesc (s : State) (a op : Nat) : Option (EDesc × List EDesc) :=
  match (s.arr a).edescs with
  | d :: rest =>
    if u8 d.desc 0 = op ∧ (s.arr a).descReady d = true ∧ (s.plan.fab a).isSome = true then some (d, rest) else none
  | [] => none

/-- Take the front descriptor to work; `st` is its status where it has finished already. -/
def takeDesc (s : State) (a : Nat) (d : EDesc) (rest : List EDesc) (st : Option Nat) : State :=
  s.setArr a (fun r => { r with edescs := rest, eact := some (d, st) })

/-- A descriptor ends with a status, faults recorded (R223, R227). -/
def endDesc (s : State) (a : Nat) (d : EDesc) (rest : List EDesc) (st : Nat) : State :=
  let s1 := takeDesc s a d rest (some st)
  if st = stDone then s1 else s1.veStop a 0 st

/-- RUN (R223): the tile register as a finished tile. -/
def runDesc (s : State) (a : Nat) (d : EDesc) (rest : List EDesc) : State :=
  let b := d.desc
  let m := u16 b 4
  let n := u16 b 6
  if 8 ≤ u8 b 1 ∨ m = 0 ∨ 128 < m ∨ n = 0 ∨ 128 < n ∨ (b.drop 12).any (fun x => x != 0#8) then
    endDesc s a d rest stInvalid
  else
    let chain := u16 b 2
    let opv := readOpvs s a (s.chainEntry a chain) (chain / 256)
    let q : QTile := ⟨m, n, u32 b 8, chain,
      (List.range 16384).map (fun k => tregAt (s.arr a).tregs (u8 b 1) (k / 128) (k % 128)),
      opv.1, opv.2, false, d.ctx, d.iter, d.unit, 0, true⟩
    match chainStop s a q with
    | some st => endDesc s a d rest st
    | none => beginChain (takeDesc s a d rest none) a q

/-- ENGINE_RUN: a RUN descriptor runs a chain over a tile register. -/
def execEngineRun (a : Fin 64) (s : State) : Result :=
  match s.frontDesc a 1 with
  | some d => .next (runDesc s a d.1 d.2)
  | none => ignored s

/-- An 8-byte list entry: id and gate or score. -/
def listEntry (s : State) (a o : Nat) : Nat × Word :=
  let b := s.ram.read (storeAddr a o) 8
  (u32 b 0, f32At b 4)

/-- A place of a GATHER (Table 9-5). -/
def gatherPlace (kind arr : Nat) : Place := if kind = 1 then .store arr else .sheet

/-- Whether a GATHER descriptor obeys Table 9-5 and stays within its stores and sheets. -/
def gatherOk (s : State) (b : List Byte) (n : Nat) : Bool :=
  let sk := u8 b 1
  let dk := u8 b 2
  let row := u32 b 0x2C
  let src := gatherPlace sk (u16 b 4)
  let dst := gatherPlace dk (u16 b 6)
  let k := min n (u16 b 0x3C)
  (sk == 1 || sk == 2) && (dk == 1 || dk == 2) && decide (u8 b 3 < 2) && (sk == 1 || u16 b 4 == 0) &&
  (dk == 1 || u16 b 6 == 0) && u32 b 0x18 % 256 == 0 && u32 b 0x28 % 256 == 0 && row % 256 == 0 &&
  decide (0 < row) && decide (row ≤ u32 b 0x18) && decide (row ≤ u32 b 0x28) && u64 b 0x10 % 256 == 0 &&
  u64 b 0x20 % 256 == 0 && decide (1 ≤ u16 b 0x3C ∧ u16 b 0x3C ≤ 16384) && u16 b 0x3E == 0 &&
  decide (u32 b 8 + 4 ≤ 2 ^ 23) && decide (u32 b 0xC + 8 * k ≤ 2 ^ 23) &&
  (sk == 2 || (s.plan.fab (u16 b 4)).isSome) && (dk == 2 || (s.plan.fab (u16 b 6)).isSome) &&
  (u32 b 0x1C == 0 || src.ok s (u64 b 0x10) ((u32 b 0x1C - 1) * u32 b 0x18 + row)) &&
  (k == 0 || dst.ok s (u64 b 0x20) ((k - 1) * u32 b 0x28 + row)) &&
  (u32 b 0x34 == 0xFFFFFFFF || decide (u32 b 0x34 + 4 ≤ 2 ^ 23)) &&
  (!bit (u8 b 3) 0 || decide (u32 b 0x38 + 4 * k ≤ 2 ^ 23))

/-- Copy one row of whole blocks, each checked and carried with its check value (R224, R227). -/
def copyRow (src dst : Place) (s : State) (from' to' row : Nat) : State × Option Nat :=
  writeAll (fun s i =>
    let f := src.addr (from' + 256 * i)
    if !(s.ram.blk f).consumerOk || s.ram.gone (dst.addr (to' + 256 * i)) then (s, some stCheck)
    else match dst with
      | .store a => (s.storeCarry f a (to' + 256 * i) 256, none)
      | .sheet => (s.sheetCarry f (to' + 256 * i) 256, none)) s (List.range (row / 256))

/-- What a GATHER writes after its rows: the count, the gates; and its end (R224). -/
def gatherDone (s : State) (a : Nat) (d : EDesc) (rest : List EDesc) (n k : Nat) (es : List (Nat × Word)) : State :=
  let b := d.desc
  match (if u32 b 0x34 = 0xFFFFFFFF then (s, none) else storeMerge s a (u32 b 0x34) (bytesOf k 4)) with
  | (s2, some st) => endDesc s2 a d rest st
  | (s2, none) =>
    match (if bit (u8 b 3) 0 then storeMerge s2 a (u32 b 0x38) (wordsBytes (es.map (·.2))) else (s2, none)) with
    | (s3, some st) => endDesc s3 a d rest st
    | (s3, none) =>
      endDesc (if n ≤ k then s3 else { s3 with io := (s3.io.add .VE_ROUTE_DROPPED a (n - k)).event .VE_EVENT a 2 }) a d rest
        stDone

/-- GATHER (R224): compact the listed rows. -/
def gatherDesc (s : State) (a : Nat) (d : EDesc) (rest : List EDesc) : State :=
  let b := d.desc
  let n := u32 (s.ram.read (storeAddr a (u32 b 8)) 4) 0
  let k := min n (u16 b 0x3C)
  if !gatherOk s b n then endDesc s a d rest stInvalid
  else if !s.ram.consumerOk (storeAddr a (u32 b 8)) 4 || !s.ram.consumerOk (storeAddr a (u32 b 0xC)) (8 * k) then
    endDesc s a d rest stCheck
  else
    let es := (List.range k).map (fun m => listEntry s a (u32 b 0xC + 8 * m))
    let rows := es.map (fun e => (e.1 + 2 ^ 32 - u32 b 0x30) % 2 ^ 32)
    if rows.any (fun r => decide (u32 b 0x1C ≤ r)) then endDesc s a d rest stInvalid
    else
      let src := gatherPlace (u8 b 1) (u16 b 4)
      let dst := gatherPlace (u8 b 2) (u16 b 6)
      match writeAll (fun s r => copyRow src dst s (u64 b 0x10 + r.1 * u32 b 0x18) (u64 b 0x20 + r.2 * u32 b 0x28)
          (u32 b 0x2C)) s rows.zipIdx with
      | (s1, some st) => endDesc s1 a d rest st
      | (s1, none) => gatherDone s1 a d rest n k es

/-- ENGINE_GATHER: a GATHER descriptor checks its list and compacts the listed rows. -/
def execEngineGather (a : Fin 64) (s : State) : Result :=
  match s.frontDesc a 2 with
  | some d => .next (gatherDesc s a d.1 d.2)
  | none => ignored s

/-- The entries of a TOPK output; a status where it reaches beyond its store (R223), or a block of it fails its check. -/
def topkEntries (s : State) (arr o : Nat) : Sum Nat (List (Nat × Word)) :=
  if !s.ram.consumerOk (storeAddr arr o) 16 then .inl stCheck
  else
    let n := min (u32 (s.ram.read (storeAddr arr o) 4) 0) 2048
    if 2 ^ 23 < o + 16 + 8 * n then .inl stInvalid
    else if !s.ram.consumerOk (storeAddr arr (o + 16)) (8 * n) then .inl stCheck
    else .inr ((List.range n).map (fun m => listEntry s arr (o + 16 + 8 * m)))

/-- The entries of several TOPK outputs in order, or the first status that stops the reading. -/
def topkUnion (s : State) (es : List (List Byte)) : Sum Nat (List (Nat × Word)) :=
  es.foldl (fun acc e =>
    match acc, topkEntries s (u8 e 4) (u32 e 0) with
    | .inl st, _ => .inl st
    | .inr _, .inl st => .inl st
    | .inr xs, .inr ys => .inr (xs ++ ys)) (.inr [])

/-- MERGE (R223): the TOPK output over the union of several. -/
def mergeDesc (s : State) (a : Nat) (d : EDesc) (rest : List EDesc) : State :=
  let b := d.desc
  let srcs := u8 b 1
  let tab := u32 b 4
  if srcs = 0 ∨ 16 < srcs ∨ u16 b 2 = 0 ∨ 1024 < u16 b 2 ∨ 2 ^ 23 < tab + 8 * srcs ∨
      2 ^ 23 < u32 b 8 + 16 + 8 * u16 b 2 ∨ (b.drop 16).any (fun x => x != 0#8) then endDesc s a d rest stInvalid
  else if !s.ram.consumerOk (storeAddr a tab) (8 * srcs) then endDesc s a d rest stCheck
  else
    let es := (List.range srcs).map (fun i => s.ram.read (storeAddr a (tab + 8 * i)) 8)
    if es.any (fun e => (s.plan.fab (u8 e 4)).isNone || decide (2 ^ 23 < u32 e 0 + 16)) then
      endDesc s a d rest stInvalid
    else
      match topkUnion s es with
      | .inl st => endDesc s a d rest st
      | .inr xs =>
        let k0 : Sel := ⟨false, u16 b 2, 0, [], [], 0, 0, 0⟩
        let k := xs.foldl (fun k e => k.offer (f32At b 0xC) e.1 e.2) k0
        match storeMerge s a (u32 b 8) k.output with
        | (s1, none) => endDesc s1 a d rest stDone
        | (s1, some st) => endDesc s1 a d rest st

/-- ENGINE_MERGE: a MERGE descriptor merges several TOPK outputs into one. -/
def execEngineMerge (a : Fin 64) (s : State) : Result :=
  match s.frontDesc a 3 with
  | some d => .next (mergeDesc s a d.1 d.2)
  | none => ignored s

/-- One bucket entry of a SCATTER into row i of the register: T[i][j] := fma(g, row[j], T[i][j]) for j < D (R225). -/
def scatterRow (t : List Word) (i dd : Nat) (g : Word) (row : List Word) : List Word :=
  (List.range 16384).map (fun k =>
    if k / 128 = i ∧ k % 128 < dd then f32fma g (row.getD (k % 128) 0#32) (t.getD k 0#32) else t.getD k 0#32)

/-- One source of a SCATTER: its entries in order, until a block fails its check (R225, R227). -/
def scatterSource (s : State) (a : Nat) (b e : List Byte) (acc : List Word × Option Nat) : List Word × Option Nat :=
  let bf := bit (u8 b 3) 1
  let w := if bf then 2 else 4
  let dd := u32 b 0x10
  let n := min (u32 (s.ram.read (storeAddr a (u32 e 0)) 4) 0) 2048
  if acc.2.isSome then acc
  else if s.ram.consumerOk (storeAddr a (u32 e 0)) 4 ∧ 2 ^ 23 < u32 e 4 + 8 * n then (acc.1, some stInvalid)
  else if !s.ram.consumerOk (storeAddr a (u32 e 0)) 4 || !s.ram.consumerOk (storeAddr a (u32 e 4)) (8 * n) then
    (acc.1, some stCheck)
  else
    (List.range n).foldl (fun acc m =>
      if acc.2.isSome then acc
      else
        let en := listEntry s a (u32 e 4 + 8 * m)
        let i := (en.1 + 2 ^ 32 - u32 b 0xC) % 2 ^ 32
        let o := storeAddr (u8 e 12) (u32 e 8 + m * u32 b 8)
        if 128 ≤ i then acc
        else if 2 ^ 23 < u32 e 8 + m * u32 b 8 + dd * w then (acc.1, some stInvalid)
        else if !s.ram.consumerOk o (dd * w) then (acc.1, some stCheck)
        else
          let bs := s.ram.read o (dd * w)
          let row := (List.range dd).map (fun j =>
            if bf then vf (Fp.bf16.decode (u16 bs (2 * j))) else f32At bs (4 * j))
          (scatterRow acc.1 i dd en.2 row, none)) acc

/-- SCATTER (R225): expert outputs combined into a tile register. -/
def scatterDesc (s : State) (a : Nat) (d : EDesc) (rest : List EDesc) : State :=
  let b := d.desc
  let srcs := u8 b 1
  let tab := u32 b 4
  let treg := u8 b 2
  if srcs = 0 ∨ 128 < srcs ∨ 8 ≤ treg ∨ 4 ≤ u8 b 3 ∨ u32 b 0x10 = 0 ∨ 128 < u32 b 0x10 ∨
      2 ^ 23 < tab + 16 * srcs ∨ (b.drop 20).any (fun x => x != 0#8) then endDesc s a d rest stInvalid
  else if !s.ram.consumerOk (storeAddr a tab) (16 * srcs) then endDesc s a d rest stCheck
  else
    let es := (List.range srcs).map (fun i => s.ram.read (storeAddr a (tab + 16 * i)) 16)
    if es.any (fun e => (s.plan.fab (u8 e 12)).isNone || decide (2 ^ 23 < u32 e 0 + 4) || decide (2 ^ 23 < u32 e 4)) then
      endDesc s a d rest stInvalid
    else
      let t0 := if bit (u8 b 3) 0 then List.replicate 16384 0#32
        else (List.range 16384).map (fun k => tregAt (s.arr a).tregs treg (k / 128) (k % 128))
      let r := es.foldl (fun acc e => scatterSource s a b e acc) (t0, none)
      let s1 := if r.2 = some stInvalid then s
        else s.setArr a (fun x => { x with
          tregs := SMap.set tregDflt x.tregs treg r.1, live := x.live ||| 2 ^ treg })
      endDesc s1 a d rest (r.2.getD stDone)

/-- ENGINE_SCATTER: a SCATTER descriptor combines expert outputs into a tile register by gates. -/
def execEngineScatter (a : Fin 64) (s : State) : Result :=
  match s.frontDesc a 4 with
  | some d => .next (scatterDesc s a d.1 d.2)
  | none => ignored s

/-- ENGINE_DESCRIPTOR_DONE: an engine descriptor completes; the next tile or descriptor may proceed (R223). A front
descriptor whose OP no engine knows, or whose array is not enabled, completes INVALID_COMMAND. -/
def execEngineDescriptorDone (a : Fin 64) (s : State) : Result :=
  match (s.arr a).eact with
  | some (d, some st) =>
    .next ({ s.setArr a (fun r => { r with eact := none }) with io := s.io.inc .VE_CHAINS a }.unitStatus
      d.ctx d.iter d.unit st)
  | some (_, none) => ignored s
  | none =>
    match (s.arr a).edescs with
    | d :: rest =>
      if (s.arr a).descReady d && (decide (u8 d.desc 0 = 0 ∨ 4 < u8 d.desc 0) || (s.plan.fab a).isNone) then
        .next ((s.setArr a (fun r => { r with edescs := rest })).unitStatus d.ctx d.iter d.unit stInvalid)
      else ignored s
    | [] => ignored s

end Sys2Proof.Machine
end

