-- ==== Sys2Proof/Machine/Transl.lean ====
section
/-! DEFINITION. Machine/Transl.lean: translation and migration (chapter 14): AS_ENABLE to XL_CNT_CLEAR, the fault ring's
registers, and DMA_READ_COMPLETION. -/

namespace Sys2Proof.Machine

/-! ### Address spaces (R334) -/

/-- The selected address space. -/
def Io.asSel (io : Io) : Nat := io.val .XL_AS_SEL % 256

/-- AS_ENABLE: XL_AS_CTRL.ENABLE is set for the selected address space, where the profile has it (R335). -/
def execAsEnable (s : State) : Result := if s.barShut then ignored s else
  let a := s.io.asSel
  match s.plan.walker with
  | some w =>
    if a < u16 w 0x28 then .next { s with xl := { s.xl with enabled := SMap.set (fun _ => false) s.xl.enabled a true } }
    else ignored s
  | none => ignored s

/-- AS_DISABLE: clearing ENABLE invalidates the whole address space; AS_BUSY reads 1 until that completes. -/
def execAsDisable (s : State) : Result := if s.barShut then ignored s else
  let a := s.io.asSel
  if s.xl.on a then
    let x := { s.xl with enabled := SMap.set (fun _ => false) s.xl.enabled a false }
    .next { s with xl := x.invalidate ⟨some a, 0, 0, none, true, false⟩ }
  else ignored s

/-- A root with one half replaced; bits [11:0] are 0. -/
def rootWith (old : Nat) (high : Bool) (v : Nat) : Nat :=
  if high then old % 2 ^ 32 + v * 2 ^ 32 else old / 2 ^ 32 * 2 ^ 32 + v / 4096 * 4096

/-- AS_ROOT_WRITE: half of the selected root is stored, unless the address space is enabled. -/
def execAsRootWrite (high : Bool) (v : BitVec 32) (s : State) : Result := if s.barShut then ignored s else
  let a := s.io.asSel
  if s.xl.on a then ignored s
  else .next { s with xl := { s.xl with roots := SMap.set (fun _ => 0) s.xl.roots a (rootWith (s.xl.root a) high v.toNat) } }

/-! ### Units and walks -/

/-- Whether a unit is the first of its owner that has not begun its accesses (R342). -/
def Xl.firstOf (x : Xl) (k : Nat) (u : XUnit) : Bool :=
  x.units.list.all (fun e => e.1 == k || e.2.st == .accessing || decide (k < e.1) ||
    !(match e.2.owner, u.owner with
      | .stream a _ _, .stream b _ _ => a == b
      | a, b => a == b))

/-- Class and share group of a host-link DMA unit (R390); none: a unit that reads commands or writes completions. -/
def State.dmaClass (s : State) (u : XUnit) : Option (Nat × Nat) :=
  match u.owner with
  | .cmd id => (s.cf.cmds.at id).map (fun c => (c.cls, c.share))
  | .stream ctx _ _ => some (s.sc.classOf ctx)
  | _ => none

/-- Whether a unit may begin now: its translation, or its accesses where a retraining held them. -/
def State.unitReady (s : State) (k : Nat) (u : XUnit) : Bool :=
  (u.st == .waiting || u.st == .ready) && !s.unitHeld u && s.xl.firstOf k u &&
  s.xl.invs.all (fun v => !(v.as.isNone || v.as == some u.as))

/-- Rank of a class and group for host-link DMA (R390): class 0 first, a positive weight before weight 0, then the deficit. -/
def State.dmaRank (s : State) (c : Nat × Nat) : Nat × Int :=
  if c.1 = 0 then (0, 0)
  else if s.plan.weight c.2 c.1 ≠ 0 then (1, SMap.get (fun _ => 0) s.xl.deficit (drrKey c.2 c.1))
  else (2, SMap.get (fun _ => 0) s.xl.deficit (drrKey c.2 c.1))

/-- Whether no other DMA unit that may begin goes before one of a class and group. -/
def State.dmaFirst (s : State) (k : Nat) (c : Nat × Nat) : Bool :=
  let r := s.dmaRank c
  s.xl.units.list.all (fun e =>
    e.1 == k || !s.unitReady e.1 e.2 ||
    (match s.dmaClass e.2 with
      | none => true
      | some d => !(decide ((s.dmaRank d).1 < r.1) || ((s.dmaRank d).1 == r.1 && decide (r.2 < (s.dmaRank d).2)))))

/-- A DMA unit begins: its queue has had its bytes (R390). -/
def State.dmaBegin (s : State) (k : Nat) (u : XUnit) (c : Nat × Nat) : State :=
  if c.1 = 0 then s
  else
    let qs := (s.xl.units.list.filter (fun e => e.1 == k || s.unitReady e.1 e.2)).filterMap (fun e =>
      match s.dmaClass e.2 with
      | some d => if d.1 = 0 then none else some (drrKey d.2 d.1)
      | none => none)
    s.dmaServe qs.eraseDups (drrKey c.2 c.1) u.len

/-- TRANSLATE_UNIT (R337, R341): the pages of a waiting unit are translated, in the order of its owner's units; it begins
its accesses, waits for a walk, or halts on a fault; so does a ready one that a retraining held. Host-link DMA
units begin in the order of R390. Not while an invalidation of its address space is in progress. -/
def execTranslateUnit (k : Nat) (s : State) : Result :=
  match s.xl.units.at k with
  | some u =>
    if s.unitReady k u then
      match s.dmaClass u with
      | none => .next (s.goUnit k)
      | some c => if s.dmaFirst k c then .next ((s.dmaBegin k u c).goUnit k) else ignored s
    else ignored s
  | none => ignored s

/-- WALK_ENTRY_RETURN (R339, R344): the 128-byte span that unit `k`'s walk asked for arrives and the walk goes on; an
error or poison is a BUS fault, and a read that the lost host cannot answer fails HOST_LOST (R330). -/
def execWalkEntryReturn (k : Nat) (bytes : List Byte) (ok : Bool) (s : State) : Result :=
  match s.xl.units.at k, s.xl.walks.at k with
  | some u, some w =>
    if u.st ≠ .walking then ignored s
    else if ok then
      match s.plan.walker with
      | some p =>
        let ea := w.table + w.va / 2 ^ wpShift p w.level % 2 ^ wpWidth p w.level * wpEntry p
        .next ({ s with xl := s.xl.putSpan ea ((bytes ++ zeros 128).take 128) }.goUnit k)
      | none => ignored s
    else if s.linkUp = false then .next (s.unitOver k u stHostLost)
    else
      let t := s.pageFault k u w.va 8 0 w.level
      match t.xl.units.at k with
      | some v => .next (if s.demanded u then t.haltOwner k v else s.dropUnit k)
      | none => .next t
  | _, _ => ignored s

/-! ### Answers to page requests (R347) -/

/-- Units that wait on no request: those that found 1,024 open. -/
def Xl.parked (x : Xl) : List Nat :=
  (x.units.list.filter (fun u => u.2.st == .halted && !x.reqs.list.any (fun r => r.2.waiting.contains u.1))).map (·.1)

/-- Units translate again from the beginning; a halted stream runs again (R341, R384). -/
def State.retryUnits (s : State) (ks : List Nat) : State :=
  ks.foldl (fun s k =>
    match s.xl.units.at k with
    | none => s
    | some u =>
      let s := s.setUnit k { u with st := .waiting, pages := [] }
      match u.owner with
      | .stream ctx _ _ =>
        { s with sc := { s.sc with streams := s.sc.streams.upd ctx (fun x =>
          if x.st = .halted then { x with st := .running } else x) } }
      | _ => s) s

/-- PRQ_RETRY: XL_PRQ_RESP with FAIL clear: every unit that waits on the request translates again. A closed REQ_ID is
counted in XL_BAD_RESP. -/
def execPrqRetry (req : Fin 1024) (s : State) : Result := if s.barShut then ignored s else
  match s.xl.reqs.at req with
  | none => .next { s with io := s.io.inc .XL_BAD_RESP }
  | some r =>
    .next ({ s with xl := { s.xl with reqs := s.xl.reqs.del req } }.retryUnits (r.waiting ++ s.xl.parked))

/-- What a FAIL answer means to a unit's owner (R347, R357, R384): FAULT_XLATE, the saved position exact. -/
def State.failUnit (s : State) (k : Nat) : State :=
  match s.xl.units.at k with
  | none => s
  | some u =>
    match u.owner with
    | .stream ctx _ _ =>
      let s := { s with sc := { s.sc with streams := s.sc.streams.upd ctx (fun x => { x with st := .running }) } }
      s.unitOver k u stXlate
    | .cmd _ => s.unitOver k u stXlate
    | .sq q => (s.dropUnit k).sqFail q (u.len / 128)
    | .buffer id =>
      let s := s.dropUnit k
      let s := { s with cf := { s.cf with buffers := s.cf.buffers.upd id (fun b => { b with stopped := some (b.next, stXlate) }) } }
      match s.pumpBuffer id with
      | (s, some (i, st, r)) => s.finish i st r
      | (s, none) => s
    | .cq _ => s.dropUnit k

/-- PRQ_FAIL: XL_PRQ_RESP with FAIL set: every command that waits on the request completes FAULT_XLATE, and the queue rules
of R373 and R374 follow. -/
def execPrqFail (req : Fin 1024) (s : State) : Result := if s.barShut then ignored s else
  match s.xl.reqs.at req with
  | none => .next { s with io := s.io.inc .XL_BAD_RESP }
  | some r =>
    .next (r.waiting.foldl State.failUnit ({ s with xl := { s.xl with reqs := s.xl.reqs.del req } }.retryUnits s.xl.parked))

/-! ### The ring's registers (R346) -/

/-- XL_RING_HEAD_WRITE: the new head frees ring space, and held records are posted in fault order. -/
def execXlRingHeadWrite (v : BitVec 32) (s : State) : Result := if s.barShut then ignored s else
  .next { s with io := s.io.putN .XL_RING_HEAD 0 (v.toNat % 4096) }.postHeld

/-- XL_RING_CTRL_ENABLE: faults that waited unrecorded post their records in fault order. -/
def execXlRingCtrlEnable (s : State) : Result := if s.barShut then ignored s else
  .next { s with io := s.io.putN .XL_RING_CTRL 0 1 }.postHeld

/-! ### Invalidation (R348) -/

/-- XL_INV_GO: an invalidation of the registers' range; ignored while BUSY. -/
def execXlInvGo (s : State) : Result := if s.barShut then ignored s else
  if s.xl.invs.any (·.reg) then ignored s
  else
    let io := s.io
    let as := if bit (io.val .XL_INV_AS) 8 then none else some (io.val .XL_INV_AS % 256)
    let va := io.val .XL_INV_VA_LO / 4096 * 4096 + io.val .XL_INV_VA_HI * 2 ^ 32
    .next { s with xl := s.xl.invalidate ⟨as, va, io.val .XL_INV_PAGES, none, false, true⟩ }

/-- INVALIDATION_DONE: the invalidation at place `i` completes once no unit accesses a page of its range; the command that
asked completes DONE. -/
def execInvalidationDone (i : Nat) (s : State) : Result :=
  match s.xl.invs[i]? with
  | none => ignored s
  | some v =>
    if s.xl.invDone v then
      let s := { s with
        xl := { s.xl with invs := s.xl.invs.eraseIdx i }
        io := s.io.event .XL_EVENT 0 3 }
      match v.cmd with
      | some id => .next (s.finish id stDone 0)
      | none => .next s
    else ignored s

/-! ### Access counters (R351) -/

/-- XL_CW_COUNT_WRITE: the selected window's region count; a sum above 65,536 sets CW_ERR and changes nothing. -/
def execXlCwCountWrite (v : BitVec 32) (s : State) : Result := if s.barShut then ignored s else
  let w := s.io.val .XL_CW_SEL % 16
  let n := v.toNat % 2 ^ 17
  let rest : Nat := ((s.xl.windows.list.filter (fun e => e.1 != w)).map (fun e => e.2.count)).sum
  if 65536 < rest + n then .next { s with xl := { s.xl with cwErr := true } }
  else
    let y := (s.xl.windows.at w).getD ⟨0, false, 0, 0⟩
    .next { s with xl := { s.xl with windows := s.xl.windows.put w { y with count := n } } }

/-- XL_CNT_CLEAR: the selected counter and its NOTIFIED bit are cleared. -/
def execXlCntClear (s : State) : Result := if s.barShut then ignored s else
  .next { s with xl := { s.xl with
    counters := SMap.set (fun _ => 0) s.xl.counters (s.io.val .XL_CNT_SEL % 65536) 0 } }

/-! ### Host reads come back (R324) -/

/-- A completion's bytes land, or are thrown away (R322, R324). -/
def landBytes (s : State) (k : Nat) (u : XUnit) (off : Nat) (bs : List Byte) (ok : Bool) : State :=
  let u := { u with landed := addRun off bs.length u.landed, bad := u.bad || !ok || s.ram.goneIn (u.dev + off) bs.length }
  let s :=
    if ok then
      let lost := s.ram.goneIn (u.dev + off) bs.length
      let s := s.devWrite (u.dev + off) bs
      match u.owner with
      | .cmd id =>
        if lost then (s.setCmd id (fun c => c.failed stCheck)).haltDma id
        else (s.setCmd id (fun c => { c with landed := addRun (u.base + off) bs.length c.landed })).dmaBytes
          ((s.cf.cmds.at id).map (·.share) |>.getD 0) bs.length
      | .stream ctx _ _ => s.dmaBytes (s.sc.classOf ctx).2 bs.length
      | _ => s
    else
      let s := { s with io := (s.io.inc .HC_POISONED).event .HC_EVENT 0 8 }
      match u.owner with
      | .cmd id => (s.setCmd id (fun c => c.failed stCheck)).haltDma id
      | _ => s
  if runBytes u.landed = u.len then s.unitOver k u (if u.bad then stCheck else stDone)
  else s.setUnit k u

/-- DMA_READ_COMPLETION: `bytes` at offset `off` of unit `k`, whole, or with the poisoned bit or an error status. Nothing
happens where those bytes are not outstanding. -/
def execDmaReadCompletion (k off : Nat) (bytes : List Byte) (ok : Bool) (s : State) : Result :=
  match s.xl.units.at k with
  | none => ignored s
  | some u =>
    let mine : Bool := match u.owner with | .cmd _ | .stream _ _ _ => true | _ => false
    if mine = true ∧ u.st = .accessing ∧ u.write = false ∧ bytes ≠ [] ∧ off + bytes.length ≤ u.len ∧
        runMeets off bytes.length u.landed = false ∧ s.unitHeld u = false then
      .next (landBytes s k u off bytes ok)
    else ignored s

end Sys2Proof.Machine
end

