-- ==== Sys2Proof/Machine/Streams.lean ====
section
/-! DEFINITION. Machine/Streams.lean: streams and their units, and pre-emption (chapter 16): CMD_STREAM to PREEMPT_RESUME. -/

namespace Sys2Proof.Machine

/-! ### Stream descriptors (Table 16-1) -/

/-- RECOVERY. -/
def sdRecovery (d : List Byte) : Bool := bit (u8 d 1) 0
/-- STANDBY. -/
def sdStandby (d : List Byte) : Nat := u8 d 2
/-- UNITS. -/
def sdUnits (d : List Byte) : Nat := u32 d 4
/-- ITERATIONS. -/
def sdIters (d : List Byte) : Nat := u32 d 8
/-- PAIR_DELTA. -/
def sdDelta (d : List Byte) : Nat := u32 d 0xC
/-- LIST. -/
def sdList (d : List Byte) : Nat := u64 d 0x10
/-- SRC_STEP. -/
def sdSrcStep (d : List Byte) : Nat := u32 d 0x18
/-- DST_STEP. -/
def sdDstStep (d : List Byte) : Nat := u32 d 0x1C
/-- LANDING. -/
def sdLanding (d : List Byte) : Nat := u64 d 0x20

/-- Whether a descriptor header breaks Table 16-1. -/
def descBad (p : Plan) (d : List Byte) : Bool :=
  u8 d 0 != 1 || decide (2 ≤ u8 d 1) || (decide (64 ≤ sdStandby d) && sdStandby d != 0xFF) || u8 d 3 != 0 ||
  decide (sdUnits d = 0 ∨ 65536 < sdUnits d) || sdIters d == 0 || sdDelta d % 256 != 0 || decide (2 ^ 23 ≤ sdDelta d) ||
  sdList d % 32 != 0 || sdSrcStep d % 256 != 0 || sdDstStep d % 256 != 0 || sdLanding d % 256 != 0 ||
  (d.drop 0x28).any (fun b => b != 0#8) || !p.dpaOk (sdList d) (32 * sdUnits d) || !p.dpaOk (sdLanding d) 256

/-! ### Unit entries (Tables 16-2 and 16-3) -/

/-- KIND. -/
def unKind (e : List Byte) : Nat := u8 e 0
/-- BARRIER. -/
def unBarrier (e : List Byte) : Nat := u8 e 3
/-- LENGTH. -/
def unLen (e : List Byte) : Nat := u32 e 0xC
/-- A bit of FLAGS. -/
def unFlag (e : List Byte) (i : Nat) : Bool := bit (u8 e 2) i

/-- Whether SRC is a store offset. -/
def unSrcStore (e : List Byte) : Bool := (unKind e == 5 || unKind e == 6) && unFlag e 5
/-- Whether DST is a store offset. -/
def unDstStore (e : List Byte) : Bool := unKind e == 3 || ((unKind e == 4 || unKind e == 6) && unFlag e 6)
/-- Whether the kind has a TARGET (Table 16-3). -/
def unTargeted (e : List Byte) : Bool := unKind e == 1 || unKind e == 2 || unSrcStore e || unDstStore e

/-- Whether `n` bytes from a host address lie within one 64 KiB boundary. -/
def oneSegment (va n : Nat) : Bool := decide (va % 65536 + n ≤ 65536)

/-- Whether LENGTH, and a host range, obey Table 16-3. -/
def unLenOk (e : List Byte) : Bool :=
  let n := unLen e
  match unKind e with
  | 3 => decide (0 < n ∧ n ≤ 2 ^ 20) && n % 4096 == 0
  | 4 => decide (1 ≤ n ∧ n ≤ 65536) && oneSegment (u64 e 0x10) n
  | 5 => decide (1 ≤ n ∧ n ≤ 65536) && oneSegment (u64 e 0x18) n
  | 6 => decide (0 < n ∧ n ≤ 2 ^ 20) && n % 256 == 0
  | _ => true

/-- Whether a unit entry breaks Tables 16-2 and 16-3, or the rule of ALT flags (R379, R382). -/
def unitBad (e : List Byte) : Bool :=
  let k := unKind e
  decide (k = 0 ∨ 9 < k) || unFlag e 7 || decide (2 < unBarrier e) || (unTargeted e && decide (64 ≤ u8 e 1)) ||
  (unFlag e 5 && !unSrcStore e) || (unFlag e 6 && !(unDstStore e && k != 3)) ||
  (k != 1 && ((unFlag e 0 && !unSrcStore e) || (unFlag e 1 && !unDstStore e))) ||
  (unFlag e 4 && (decide (k ≠ 1 ∧ k ≠ 2) || bits (u32 e 4) 25 23 != 0 || u32 e 4 % 4 != 0)) ||
  !unLenOk e || (k == 9 && (e.drop 8).any (fun b => b != 0#8))

/-- SRC of a unit in an iteration (R382). -/
def unSrc (d e : List Byte) (iter : Nat) : Nat :=
  (u64 e 0x10 + (if unFlag e 2 then iter * sdSrcStep d else 0) +
    (if unFlag e 0 && unKind e != 1 && iter % 2 == 1 then sdDelta d else 0)) % 2 ^ 64
/-- DST of a unit in an iteration (R382). -/
def unDst (d e : List Byte) (iter : Nat) : Nat :=
  (u64 e 0x18 + (if unFlag e 3 then iter * sdDstStep d else 0) +
    (if unFlag e 1 && unKind e != 1 && iter % 2 == 1 then sdDelta d else 0)) % 2 ^ 64

/-- No target. -/
def noTarget : Nat := 64

/-- A target after R386. -/
def Stream.moveTo (x : Stream) (a : Nat) : Nat := (x.moved.lookup a).getD a

/-- The logical array that a unit targets: a LOOKUP whose DEST_KIND is 1 counts as targeting its DEST_ARRAY (R379). -/
def State.unitTarget (s : State) (x : Stream) (e : List Byte) : Nat :=
  if unKind e = 7 then
    let h := listHead (s.ram.read (unSrc x.desc e x.iter) 32)
    if h.destKind = 1 then x.moveTo h.destArray else noTarget
  else if unTargeted e then x.moveTo (u8 e 1) else noTarget

/-! ### The end of a stream (R378, R381) -/

/-- Change a stream. -/
def State.setStream (s : State) (ctx : Nat) (f : Stream → Stream) : State :=
  { s with sc := { s.sc with streams := s.sc.streams.upd ctx f } }

/-- Whether a gradient list of a context waits for its step (R381). -/
def State.gradsOpen (s : State) (ctx : Nat) : Bool := s.upd.lists.list.any (fun l => l.2.owner.isCtx ctx)

/-- Whether every unit that will be dispatched has been, and has retired. -/
def State.streamOver (s : State) (ctx : Nat) (x : Stream) : Bool :=
  (x.stop.isSome || decide (sdIters x.desc ≤ x.iter)) && x.runs.isEmpty && !s.gradsOpen ctx

/-- Status and RESULT of a stream that is over: the status that stopped it, else a kept one, each with its position; else
DONE and the units skipped (R378, R381). -/
def Stream.outcome (x : Stream) : Nat × Nat :=
  match (x.stop.orElse (fun _ => x.kept)).orElse (fun _ => x.gkept) with
  | some (st, iter, unit) => (st, unit + iter * 2 ^ 32)
  | none => (stDone, x.skipped)

/-- A stream that is over completes its command, and the shadow takes effect or the context becomes IDLE (R377). -/
def State.settleStream (s : State) (ctx : Nat) : State :=
  match s.sc.streams.at ctx with
  | none => s
  | some x =>
    if s.streamOver ctx x then ((s.stopUnits ctx).nextDesc ctx).finish x.cmd x.outcome.1 x.outcome.2 else s

/-- The stream stops at its position (R381). -/
def State.stopStream (s : State) (ctx st : Nat) : State :=
  (s.setStream ctx (fun x => { x with stop := some (x.stop.getD (st, x.iter, x.unit)) })).settleStream ctx

/-! ### CMD_STREAM (R376, R377) -/

/-- A context takes up a descriptor. -/
def newStream (c : Cmd) (id : Nat) (d : List Byte) : Stream where
  st := .running
  queue := c.queue
  cmd := id
  desc := d
  shadow := none
  cls := c.cls
  group := c.share
  iter := 0
  unit := 0
  runs := []
  skipped := 0
  fullIter := 0
  fullUnit := 0
  moved := []
  stop := none
  kept := none
  gkept := none
  fetched := []
  remote := []
  saves := []

/-- Whether a unit of the list that can be read breaks its tables (R379). -/
def State.listBad (s : State) (d : List Byte) : Bool :=
  (List.range (sdUnits d)).any (fun i =>
    let a := sdList d + 32 * i
    s.ram.consumerOk a 32 && unitBad (s.ram.read a 32))

/-- A stream's descriptor is taken up: it starts the stream of an idle context, or becomes the shadow of one at work (R378). -/
def State.streamEnter (s : State) (c : Cmd) (id ctx : Nat) (d : List Byte) : State :=
  match s.sc.streams.at ctx with
  | some x => { s with sc := { s.sc with streams := s.sc.streams.put ctx { x with shadow := some (id, d) } } }
  | none => { s with sc := { s.sc with streams := s.sc.streams.put ctx (newStream c id d) } }

/-- A CMD_STREAM whose descriptor can be read: the descriptor's own checks, then its list's (R379). -/
def State.streamCheck (s : State) (c : Cmd) (id a ctx : Nat) (d : List Byte) : State :=
  if descBad s.plan d then s.finish id stInvalid 0
  else if s.dpaHeld (sdList d) (32 * sdUnits d) then s
  else if s.listBad d then s.finish id stInvalid 0
  else ((s.runCmd id 1).touch id 0 (2 ^ dpaStack a)).streamEnter c id ctx d

/-- A CMD_STREAM that is ready (R378, R379). It waits while 65,536 contexts are other than IDLE (R376). -/
def State.streamTake (s : State) (c : Cmd) (id a ctx : Nat) : State :=
  if 2 ^ 18 ≤ ctx ∨ (s.sc.streams.at ctx).any (fun x => x.queue != c.queue) = true then s.finish id stInvalid 0
  else if (s.sc.streams.at ctx).any (fun x => x.shadow.isSome) then
    { s with io := (s.io.inc .SC_REARM_BUSY).event .SC_EVENT 0 1 }.finish id stInvalid (2 ^ 63)
  else if s.plan.dpaOk a 64 = false then s.finish id stInvalid 0
  else if s.dpaHeld a 64 ∨ ((s.sc.streams.at ctx).isNone ∧ 65536 ≤ s.sc.streams.length) then s
  else if s.ram.consumerOk a 64 = false then (s.logCheck a (dpaRoom a)).finish id stCheck 0
  else s.streamCheck c id a ctx (s.ram.read a 64)

/-- CMD_STREAM (R377): the descriptor is checked; the stream starts in an IDLE context, or waits in the shadow slot of a
context of the same queue. With the slot full the command is refused BUSY. -/
def execCmdStream (id : Nat) (s : State) : Result :=
  match s.readyCmd id 0x1E with
  | some c => .next (s.streamTake c id (u64 c.entry 0x10) (u32 c.entry 0x18))
  | none => ignored s

/-! ### Dispatch (R380) -/

/-- What stands at a stream's position. -/
inductive NextUnit where
  /-- Nothing is to be dispatched now. -/
  | none
  /-- The entry fails its check, or breaks its tables: the stream stops. -/
  | stop (st : Nat)
  | go (x : Stream) (e : List Byte)
deriving DecidableEq, Repr

/-- The entry at a stream's position, where it is of a kind; an entry that stops the stream is found under any kind (R379). -/
def State.nextUnit (s : State) (ctx kind : Nat) : NextUnit :=
  match s.sc.streams.at ctx with
  | .none => .none
  | some x =>
    let a := sdList x.desc + 32 * x.unit
    if x.stop.isSome ∨ sdIters x.desc ≤ x.iter ∨ x.st = .halted ∨ s.dpaHeld a 32 = true then .none
    else if s.ram.consumerOk a 32 = false then .stop stCheck
    else
      let e := s.ram.read a 32
      if unitBad e then .stop stInvalid else if unKind e = kind then .go x e else .none

/-- Whether a unit's barrier is met (R380). -/
def Stream.barrierOk (x : Stream) (e : List Byte) (t : Nat) : Bool :=
  match unBarrier e with
  | 0 => true
  | 1 => !x.runs.any (fun r => r.target == t)
  | _ => x.runs.isEmpty

/-- A FULL barrier is passed: its position is kept (R386), the sharing of fetches ends (R387), and pairs without live state
are released (R391). It is passed once. -/
def State.passFull (s : State) (ctx : Nat) (x : Stream) (e : List Byte) : State :=
  if unBarrier e ≠ 2 ∨ (x.fullIter = x.iter ∧ x.fullUnit = x.unit) then s
  else
    let s := s.setStream ctx (fun x => { x with fullIter := x.iter, fullUnit := x.unit, fetched := [] })
    (s.sc.held ctx).foldl (fun (s : State) (a : Nat) => if s.pairLive a then s else s.releasePair a) s

/-- The position after a unit's. -/
def Stream.advance (x : Stream) : Stream :=
  if x.unit + 1 < sdUnits x.desc then { x with unit := x.unit + 1 } else { x with iter := x.iter + 1, unit := 0 }

/-- A unit is dispatched: it is in flight, with its status where it has one already, and the position moves on. -/
def State.sent (s : State) (ctx kind target : Nat) (st : Option Nat) : State :=
  s.setStream ctx (fun (x : Stream) => Stream.advance { x with runs := x.runs ++ [⟨x.iter, x.unit, kind, target, st⟩] })

/-- A unit retires at dispatch without an effect. -/
def State.passUnit (s : State) (ctx : Nat) : State := (s.setStream ctx Stream.advance).settleStream ctx

/-- A stream whose target is quarantined goes back to its last FULL barrier and uses STANDBY, or stops (R386). Its units in
flight stop as on cancellation. -/
def State.standby (s : State) (ctx a : Nat) : State :=
  match s.sc.streams.at ctx with
  | none => s
  | some x =>
    let b := sdStandby x.desc
    if b = 0xFF ∨ b = a ∨ s.arrOk b = false then s.stopStream ctx stCancelled
    else
      let s := s.stopUnits ctx
      let s := (s.sc.held ctx).foldl State.releasePair s
      { s.setStream ctx (fun x => { x with
          st := .running, iter := x.fullIter, unit := x.fullUnit, runs := [], remote := [], saves := [], fetched := []
          moved := (a, b) :: x.moved.map (fun m => (m.1, if m.2 = a then b else m.2)) }) with
        io := s.io.event .SC_EVENT 0 2 }

/-- Every stream with a unit at work on an array, or that holds or waits for it, when the array is quarantined (R386). -/
def State.standbyAll (s : State) (a : Nat) : State :=
  s.sc.streams.list.foldl (fun (s : State) (e : Nat × Stream) =>
    if e.2.runs.any (fun r => r.target == a) || (s.sc.held e.1).contains a || (s.sc.waiters a).contains e.1 ||
        e.2.saves.any (fun v => v.1 == a) then s.standby e.1 a else s) s

/-- Dispatch the unit at a stream's position once its barrier is met: `f` does so for its entry and target. -/
def State.dispatchUnit (s : State) (ctx kind : Nat) (f : State → Stream → List Byte → Nat → Option State) : Result :=
  match s.nextUnit ctx kind with
  | .none => ignored s
  | .stop st => .next (s.stopStream ctx st)
  | .go x e =>
    let t := s.unitTarget x e
    if x.barrierOk e t = false ∨ (t < 64 ∧ s.arrDraining t = true) then ignored s
    else if t < 64 ∧ (s.arr t).quarantined = true then .next (s.standby ctx t)
    else
      let s1 := s.passFull ctx x e
      match f s1 x e t with
      | some s' => .next (s'.setCmd x.cmd (fun c => { c with arrMask := if t < 64 then c.arrMask ||| 2 ^ t else c.arrMask }))
      | none => .next s1

/-- Whether a context holds a pair for dispatch: not while its save is asked for or its state is in a slot (R392). -/
def State.mayUse (s : State) (ctx : Nat) (x : Stream) (a : Nat) : Bool :=
  (match s.sc.pairs.at a with | some p => p.ctx == ctx && p.wanted.isNone | none => false) &&
  !x.saves.any (fun v => v.1 == a)

/-! ### TILE and ENGINE units -/

/-- The patched M of a TILE or RUN (R383): INVALID_COMMAND or FAULT_CHECK where the count cannot be read. -/
def patchedM (s : State) (e d : List Byte) : Nat ⊕ Nat :=
  let at' := u32 e 4
  let arr := bits at' 31 26
  let off := bits at' 22 0
  if !unFlag e 4 then .inl (u16 d 4)
  else if (s.plan.fab arr).isNone || decide (2 ^ 23 < off + 4) then .inr stInvalid
  else if !s.ram.consumerOk (storeAddr arr off) 4 then .inr stCheck
  else .inl (min (u32 (s.ram.read (storeAddr arr off) 4) 0 - u32 e 8) (u16 d 4))

/-- A descriptor's 32-bit field with PAIR_DELTA added. -/
def addField (d : List Byte) (o n : Nat) : List Byte := d.take o ++ bytesOf (u32 d o + n) 4 ++ d.drop (o + 4)

/-- The tile descriptor as delivered: bases of the pair's other buffer on odd iterations, and M as patched (R382, R383). A
MASKBASE moves where its operand has a mask. -/
def tileSent (x : Stream) (e d : List Byte) (m : Nat) : List Byte :=
  let odd := x.iter % 2 == 1
  let d := if odd && unFlag e 0 then addField d 0x10 (sdDelta x.desc) else d
  let d := if odd && unFlag e 0 && bit (u8 d 3) 3 then addField d 0x28 (sdDelta x.desc) else d
  let d := if odd && unFlag e 1 then addField d 0x18 (sdDelta x.desc) else d
  let d := if odd && unFlag e 1 && bit (u8 d 3) 4 then addField d 0x2C (sdDelta x.desc) else d
  d.take 4 ++ bytesOf m 2 ++ d.drop 6

/-- Deliver a TILE or ENGINE unit (R380, R383, R385): the context must hold the pair; the descriptor is read from its sheet
with its BCV; a unit whose patched M is 0 is skipped. -/
def sendEngine (ctx kind : Nat) (deliver : State → Stream → List Byte → Nat → List Byte → Nat → State) (s : State) (x : Stream)
    (e : List Byte) (a : Nat) : Option State :=
  let src := unSrc x.desc e x.iter
  if s.mayUse ctx x a = false then
    (if (s.sc.held ctx).contains a then none else some (s.wantPair a ctx))
  else if s.plan.dpaOk src 64 = false then some (s.sent ctx kind a (some stInvalid))
  else if s.dpaHeld src 64 then none
  else if s.ram.consumerOk src 64 = false then some ((s.logCheck src (dpaRoom src)).sent ctx kind a (some stCheck))
  else
    let d := s.ram.read src 64
    if unFlag e 4 && kind == 2 && u8 d 0 != 1 then some (s.sent ctx kind a (some stInvalid))
    else match patchedM s e d with
      | .inr st => some (s.sent ctx kind a (some st))
      | .inl m =>
        if unFlag e 4 && m == 0 then
          some ({ s.setStream ctx (fun x => { x with skipped := x.skipped + 1 }) with io := s.io.inc .SC_SKIPPED }.passUnit ctx)
        else some ((deliver s x e a d m).sent ctx kind a none)

/-- UNIT_TILE: a TILE unit's descriptor is delivered to its array once its barrier is met and the context holds the pair;
until then the context waits for it (R380, R391). -/
def execUnitTile (ctx : Fin 262144) (s : State) : Result :=
  s.dispatchUnit ctx 1 (sendEngine ctx 1 (fun s x e a d m =>
    s.setArr a (fun r => { r with inbox := r.inbox ++ [⟨tileSent x e d m, ctx, x.iter, x.unit, 0⟩] })))

/-- UNIT_ENGINE: as UNIT_TILE, for an engine descriptor (R223). -/
def execUnitEngine (ctx : Fin 262144) (s : State) : Result :=
  s.dispatchUnit ctx 2 (sendEngine ctx 2 (fun s x _ a d m =>
    let d := if u8 d 0 = 1 then d.take 4 ++ bytesOf m 2 ++ d.drop 6 else d
    s.setArr a (fun r => { r with edescs := r.edescs ++ [⟨d, ctx, x.iter, x.unit, r.seq + r.inbox.length⟩] })))

/-! ### Units that move bytes -/

/-- Whether `n` bytes exist at a device side: a store offset of an array, or a DPA. -/
def State.sideOk (s : State) (store : Bool) (a v n : Nat) : Bool :=
  if store then s.arrOk a && decide (v + n ≤ 2 ^ 23) else s.plan.dpaOk v n

/-- The address of a device side. -/
def sideAddr (store : Bool) (a v : Nat) : Nat := if store then storeAddr a v else v

/-- Whether a side lies in a sheet range whose accesses are held (R48, R97, R98). -/
def State.sideHeld (s : State) (store : Bool) (v n : Nat) : Bool := !store && s.dpaHeld v n

/-- The address that a request's read of a dense layer goes to (R17; log entry 171): a source in either of a layer's buffers is
read in the buffer of the set that was current when the request's itinerary was dispatched. The update's own launches, and
commands that no itinerary holds, read what they name. -/
def State.denseSrc (s : State) (x : Stream) (src : Nat) : Nat :=
  match (s.cf.rootLaunch x.cmd nestFuel).bind s.cf.launches.at with
  | none => src
  | some l =>
    match l.source with
    | .update _ => src
    | _ =>
      let hit := l.buffers.findSome? (fun v =>
        match s.entryNow (layerKey (v / 2)) with
        | none => none
        | some e =>
          let size := headerOff e + 256 + up256 (4 * eN e) + 4 * eK e
          let inside := fun (b : Nat) => decide (eBuf e b ≤ src ∧ src < eBuf e b + size)
          if inside 0 then some (eBuf e (v % 2) + (src - eBuf e 0))
          else if inside 1 then some (eBuf e (v % 2) + (src - eBuf e 1))
          else none)
      hit.getD src

/-- UNIT_FETCH (R387): the lines of SRC are read through the attic, hits delivered at once and misses filled. -/
def execUnitFetch (ctx : Fin 262144) (s : State) : Result :=
  s.dispatchUnit ctx 3 (fun s x e a =>
    let src := s.denseSrc x (unSrc x.desc e x.iter)
    let dst := unDst x.desc e x.iter
    let n := unLen e
    if s.sideOk true a dst n = false ∨ s.plan.dpaOk src n = false ∨ src % 256 ≠ 0 ∨ dst % 256 ≠ 0 then
      some (s.sent ctx 3 a (some stInvalid))
    else if s.dpaHeld src n then none
    else
      let first := !x.fetched.contains (src, n)
      let s := (s.sent ctx 3 a none).setStream ctx (fun x => { x with fetched := (src, n) :: x.fetched })
      some (s.beginFetch ⟨ctx, x.iter, x.unit, a, src, dst, n, fetchLines src n, false⟩ first))

/-- A host unit becomes a translation unit (R341); without a walker profile its address is a bus address (R354). One of a
stream that no queue owns names no address space (log entry 49). -/
def State.hostUnit (s : State) (ctx : Nat) (x : Stream) (e : List Byte) (a : Nat) (out : Bool) : Option State :=
  let kind := if out then 5 else 4
  let store := if out then unSrcStore e else unDstStore e
  let dev := if out then unSrc x.desc e x.iter else unDst x.desc e x.iter
  let va := if out then unDst x.desc e x.iter else unSrc x.desc e x.iter
  let n := unLen e
  match x.queue with
  | none => some (s.sent ctx kind a (some stInvalid))
  | some q =>
    if s.sideOk store a dev n = false ∨ oneSegment va n = false then some (s.sent ctx kind a (some stInvalid))
    else if s.sideHeld store dev n then none
    else
      let as := match s.plan.queue q with | some d => u8 d 3 | none => 0
      some ((s.sent ctx kind a none).newUnit ⟨.stream ctx x.iter x.unit, q, as, va, n, out, sideAddr store a dev, 0, .waiting, [], [], false⟩)

/-- UNIT_HOST_IN (R380). -/
def execUnitHostIn (ctx : Fin 262144) (s : State) : Result := s.dispatchUnit ctx 4 (fun s x e a => s.hostUnit ctx x e a false)

/-- UNIT_HOST_OUT (R380). -/
def execUnitHostOut (ctx : Fin 262144) (s : State) : Result := s.dispatchUnit ctx 5 (fun s x e a => s.hostUnit ctx x e a true)

/-- Copy whole blocks with their check bits until one fails a mover's check, which travels too (Table 17-1, R399): whether
all passed. -/
def State.carryBlocks (s : State) (src : Nat) (store : Bool) (a dst n : Nat) : State × Bool :=
  match s.devBad src n with
  | none => (if store then s.storeCarry src a dst n else s.sheetCarry src dst n, store || !s.ram.goneIn dst n)
  | some o =>
    let m := o / 256 * 256 + 256
    let s := if store then s.storeCarry src a dst m else s.sheetCarry src dst m
    (s.logCheck (src + o) (devPlace src), false)

/-- UNIT_COPY (R380): whole blocks are copied between sheets and stores. -/
def execUnitCopy (ctx : Fin 262144) (s : State) : Result :=
  s.dispatchUnit ctx 6 (fun s x e a =>
    let src := unSrc x.desc e x.iter
    let dst := unDst x.desc e x.iter
    let n := unLen e
    if s.sideOk (unSrcStore e) a src n = false ∨ s.sideOk (unDstStore e) a dst n = false ∨ src % 256 ≠ 0 ∨ dst % 256 ≠ 0 then
      some (s.sent ctx 6 a (some stInvalid))
    else if s.sideHeld (unSrcStore e) src n || s.sideHeld (unDstStore e) dst n then none
    else
      match s.carryBlocks (sideAddr (unSrcStore e) a src) (unDstStore e) a dst n with
      | (s, ok) => some (s.sent ctx 6 a (some (if ok then stDone else stCheck))))

/-! ### LOOKUP, GRADIENT and NOP units -/

/-- Units of a context with remote operations outstanding (R394). -/
def State.remoteUnits (s : State) (ctx : Nat) : List (Nat × Nat) :=
  (s.wings.lookups.list.filterMap (fun l =>
    match l.2.owner with
    | .unit c i u => if c = ctx ∧ l.2.parts.any (fun p => p.wing.isNone && p.st == .running) = true then some (i, u) else none
    | _ => none)) ++
  (s.upd.lists.list.filterMap (fun l =>
    match l.2.owner with
    | .unit c i u => if c = ctx ∧ l.2.remote ≠ 0 then some (i, u) else none
    | _ => none))

/-- UNIT_LOOKUP (R153 to R157, R380): the list is taken up at its steering landing. -/
def execUnitLookup (ctx : Fin 262144) (s : State) : Result :=
  s.dispatchUnit ctx 7 (fun s x e t =>
    let a := unSrc x.desc e x.iter
    match s.readList (.unit ctx x.iter x.unit) a x.cls with
    | .wait => none
    | .over st => some ((if st = stCheck then s.logCheck a (dpaRoom a) else s).sent ctx 7 t (some st))
    | .go l oor =>
      if l.parts.any (fun p => p.wing.isNone) && decide (16 ≤ (s.remoteUnits ctx).length) then none
      else some ((s.sent ctx 7 t none).beginList l oor))

/-- UNIT_GRADIENT (R243, R380): the list's contributions go to their landings. A frozen list's status is kept (R381). -/
def execUnitGradient (ctx : Fin 262144) (s : State) : Result :=
  s.dispatchUnit ctx 8 (fun s x e t =>
    let a := unSrc x.desc e x.iter
    match s.readGrad (.unit ctx x.iter x.unit) a with
    | .wait => none
    | .over st =>
      if st = stFrozen then
        some ((({ s with io := s.io.inc .UP_FROZEN }.keepGrad ctx x.iter x.unit st).sent ctx 8 t (some stDone)))
      else some ((if st = stCheck then s.logCheck a (dpaRoom a) else s).sent ctx 8 t (some st))
    | .go g =>
      if 16 ≤ (s.remoteUnits ctx).length then none else some ((s.sent ctx 8 t none).beginGrad g))

/-- UNIT_NOP: it retires at dispatch (Table 16-3). -/
def execUnitNop (ctx : Fin 262144) (s : State) : Result :=
  s.dispatchUnit ctx 9 (fun s _ _ _ => some (s.passUnit ctx))

/-! ### Retirement (R380, R381) -/

/-- Whether a shadow or an arbiter of a unit is still being compared (R406 to R409): a TILE retires after its sample. -/
def State.sampled (s : State) (ctx iter unit : Nat) : Bool :=
  s.rl.samples.list.any (fun x => x.2.tile && x.2.ctx == ctx && x.2.iter == iter && x.2.unit == unit)

/-- What a retired unit's status means to its stream (R381). -/
def Stream.retired (x : Stream) (r : UnitRun) (st : Nat) : Stream :=
  let x := { x with runs := x.runs.filter (fun q => !(q.iter == r.iter && q.unit == r.unit)) }
  if st = stDone then x
  else if r.kind = 7 ∧ (st = stCheck ∨ st = stUnreach) then { x with kept := some (x.kept.getD (st, r.iter, r.unit)) }
  else { x with stop := some (x.stop.getD (st, r.iter, r.unit)) }

/-- UNIT_RETIRE: the unit of an iteration whose engine has finished retires; the stream may stop, complete or switch to its
shadow descriptor (R377, R380, R381). With no unit left in flight, a stream whose gradient lists have all been decided
completes. -/
def execUnitRetire (ctx : Fin 262144) (iter unit : Nat) (s : State) : Result :=
  match s.sc.streams.at ctx with
  | none => ignored s
  | some x =>
    match x.runs.find? (fun r => r.iter == iter && r.unit == unit) with
    | some r =>
      match r.status with
      | some st =>
        if s.sampled ctx iter unit then ignored s
        else
          let s := s.setStream ctx (fun x => x.retired r st)
          .next ((if x.st = .halted then s.haltPairs ctx else s).settleStream ctx)
      | none => ignored s
    | none => if s.streamOver ctx x then .next (s.settleStream ctx) else ignored s

/-! ### Pre-emption (R391 to R395) -/

/-- Whether pre-emption of a pair waits for a tile boundary (R395). -/
def State.tileMode (s : State) (a : Nat) (x : Stream) : Bool :=
  !s.plan.has 0x23 || sdRecovery x.desc || s.arrTesting a

/-- PREEMPT_REQUEST (R391, R392): class 0 work waits for a pair that class 1 or 2 work holds; its save into the array's
reserved slot begins. -/
def execPreemptRequest (a : Fin 64) (s : State) : Result :=
  match s.sc.pairs.at a, (s.sc.waiters a).find? (fun c => (s.sc.classOf c).1 == 0) with
  | some p, some w =>
    if p.cls ≠ 0 ∧ p.wanted = none ∧ s.plan.has 0x23 = true ∧ (s.sc.reserved.at a).isNone = true ∧ s.arrTesting a = false then
      .next { s.askSave a w a with io := s.io.inc .SC_PREEMPT_C0 }
    else ignored s
  | _, _ => ignored s

/-- QUANTUM_EXPIRY (R391): a class 1 or 2 stream has held a pair for QUANTUM_US while a queue of another group or class
waits for it, and a pool slot is free; without one it keeps the pair and POOL_EMPTY is set. -/
def execQuantumExpiry (a : Fin 64) (s : State) : Result :=
  match s.sc.pairs.at a with
  | none => ignored s
  | some p =>
    let other := (s.sc.waiters a).find? (fun c =>
      let y := s.sc.classOf c
      y.1 != 0 && !(y.1 == p.cls && y.2 == p.group))
    match other with
    | none => ignored s
    | some w =>
      if p.cls ≠ 0 ∧ p.wanted = none ∧ s.plan.has 0x23 = true ∧ s.plan.quantum ≤ s.mer.count - p.since then
        match s.freePool with
        | some k => .next { s.askSave a w k with io := s.io.inc .SC_PREEMPT_QUANTUM }
        | none => .next { s with io := s.io.event .SC_EVENT 0 3 }
      else ignored s

/-- Whether an array has work of any kind. -/
def Arr.busy (r : Arr) : Bool :=
  !r.inbox.isEmpty || r.running.isSome || r.next.isSome || !r.queue.isEmpty || r.chain.isSome || !r.edescs.isEmpty ||
  r.eact.isSome

/-- Whether a tile, a chain or a descriptor is at work (R395). -/
def Arr.atWork (r : Arr) : Bool := r.running.isSome || !r.queue.isEmpty || r.chain.isSome || r.eact.isSome

/-- An array whose state has been saved: what is the array's own stays. -/
def Arr.saved (r : Arr) : Arr :=
  { Arr.reset with quarantined := r.quarantined, accSet := r.accSet, loads := r.loads }

/-- Bytes of a save: 64.25 KiB of array state (R194) and 787.25 KiB of engine state (R229). -/
def saveBytes : Nat := 871936

/-- The state of a pair goes into its slot: the bytes there are the device's own (R389), and the remote operations
outstanding are recorded with their places in the landing slot (R394). -/
def State.savePair (s : State) (a : Nat) (p : Pair) (x : Stream) (slot cmd group : Nat) : State :=
  let s := (s.sheetWrite .device (s.plan.saveSlot slot) (freeBytes s.free saveBytes)).drew saveBytes
  let far := (s.remoteUnits p.ctx).filter (fun u => !x.remote.any (fun r => r.1 == u.1 && r.2.1 == u.2))
  let taken := x.remote.map (·.2.2)
  let free := (List.range 16).filter (fun k => !taken.contains k)
  let s := s.setStream p.ctx (fun x => { x with
    st := if x.st = .halted then .halted else .preempted
    saves := x.saves ++ [(a, slot)], remote := x.remote ++ (far.zip free).map (fun e => (e.1.1, e.1.2, e.2)) })
  let reserved := if slot < 64 then s.sc.reserved.put a p.ctx else s.sc.reserved
  { s with
    sc := { s.sc with reserved := reserved, pairs := s.sc.pairs.del a }
    mx := { (s.mx.set a Arr.saved) with saves := s.mx.saves.put slot ⟨p.ctx, a, s.arr a, cmd, group⟩ } }

/-- The longest save so far, in array cycles: within the allowance of R392, or as long as the tile took under R395. -/
def State.noteSave (s : State) (longest : Nat) : State :=
  { s with io := s.io.putN .SC_SAVE_MAX 0 (max (s.io.val .SC_SAVE_MAX) (min longest 0xFFFFFFFF)) }

/-- A context whose pair was pre-empted for a quantum goes to the back of the pair's queue. -/
def State.waitAgain (s : State) (a ctx : Nat) : State :=
  { s with sc := { s.sc with waiting := s.sc.waiting ++ [(a, ctx)] } }

/-- A save is over: its time is charged to the stream that wants the pair, the pair's to its own. -/
def State.saveDone (s : State) (a : Nat) (p : Pair) (x y : Stream) (slot : Nat) : State :=
  let s1 := (((s.charge x.cmd p.group (p.asked - p.since)).charge y.cmd y.group (s.mer.count - p.asked)).serve a
    (drrKey p.group p.cls) (p.asked - p.since))
  (((s1.savePair a p x slot y.cmd y.group).drew 1).noteSave (if s.tileMode a x then s.draw else s.draw % 2041)).grantPair a

/-- PREEMPT_SAVE_DONE (R392 to R395): the pair's state is in its slot, the position recorded and the pair handed over; the
save's time is charged to the work that caused it (R393). Under R395 only once the running tile and its chain are over. -/
def execPreemptSaveDone (a : Fin 64) (s : State) : Result :=
  match s.sc.pairs.at a with
  | none => ignored s
  | some p =>
    match p.wanted, s.sc.streams.at p.ctx with
    | some (w, slot), some x =>
      if s.tileMode a x && (s.arr a).atWork then ignored s
      else if slot < 64 ∨ x.st = .halted then .next (s.saveDone a p x ((s.sc.streams.at w).getD x) slot)
      else .next (((s.saveDone a p x ((s.sc.streams.at w).getD x) slot).waitAgain a p.ctx).grantPair a)
    | _, _ => ignored s

/-- A context's slot for an array is free again. -/
def State.freeSave (s : State) (ctx a slot : Nat) : State :=
  let s := s.setStream ctx (fun x => { x with saves := x.saves.filter (fun v => v.1 != a) })
  { s with
    mx := { s.mx with saves := s.mx.saves.del slot }
    sc := { s.sc with
      pool := if slot < 64 then s.sc.pool else s.sc.pool.del slot
      reserved := if slot < 64 then s.sc.reserved.del a else s.sc.reserved } }

/-- The landing slot is read on resume: entries that are VALID are the statuses of their units, the others are awaited
(R394). -/
def State.readLanding (s : State) (ctx : Nat) : State :=
  match s.sc.streams.at ctx with
  | none => s
  | some x =>
    x.remote.foldl (fun (s : State) (r : Nat × Nat × Nat) =>
      let at' := sdLanding x.desc + 16 * r.2.2
      let b := s.ram.read at' 16
      if bit (u8 b 0) 0 then (s.setRun ctx r.1 r.2.1 (u8 b 1)).sheetWrite .device at' (zeros 16) else s)
      (s.setStream ctx (fun x => { x with remote := [] }))

/-- PREEMPT_RESUME (R393, R394): a pair is given back to a context whose state for it is in a slot: the state is read back,
every BCV checked, and the context continues. A failed check completes the stream FAULT_CHECK and frees the slot. -/
def execPreemptResume (a : Fin 64) (s : State) : Result :=
  match s.sc.pairs.at a with
  | none => ignored s
  | some p =>
    match s.sc.streams.at p.ctx with
    | none => ignored s
    | some x =>
      match x.saves.find? (fun v => v.1 == a.val) with
      | none => ignored s
      | some (_, slot) =>
        match s.mx.saves.at slot with
        | none => ignored s
        | some v =>
          let area := s.plan.saveSlot slot
          if (s.arr a).busy ∨ s.dpaHeld area saveBytes = true then ignored s
          else if s.ram.consumerOk area saveBytes then
            let took := s.mer.count - p.since
            let s1 := (s.charge v.cmd v.group took).freeSave p.ctx a slot
            let s2 := s1.setArr a (fun r => { v.state with
              quarantined := r.quarantined, loads := r.loads })
            let s3 := { s2 with sc := { s2.sc with pairs := s2.sc.pairs.put a { p with since := s.mer.count } } }
            .next ((s3.setStream p.ctx (fun x => { x with
              st := if x.st = .preempted ∧ x.saves = [] then .running else x.st })).readLanding p.ctx)
          else
            let bad := ((blocksOf area saveBytes).find? (fun b => !(s.ram.blk b).consumerOk)).getD area
            let s1 := ({ s with io := s.io.event .SC_EVENT 0 4 }.logCheck bad (dpaRoom bad)).freeSave p.ctx a slot
            let s2 := s1.setStream p.ctx (fun x => { x with runs := x.runs.filter (fun r => r.target != a.val) })
            .next (s2.stopStream p.ctx stCheck)

end Sys2Proof.Machine
end

