-- ==== Sys2Proof/Machine/Reliab.lean ====
section
/-! DEFINITION. Machine/Reliab.lean: reliability (chapter 17): outcomes of shadow sampling and twin mode, charges and
quarantine, replica digests and rejoin, restart, checkpoints and the error log. The model computes what a correct unit
computes and holds its signature; what a shadow or an arbiter found is the command's operand. -/

namespace Sys2Proof.Machine

/-! ### Charges and quarantine (R412, R413) -/

/-- Key of a fabricated pair among the charges. -/
def pairKey (f : Nat) : Nat := 2 ^ 20 + f

/-- The frame now. -/
def State.frameNow (s : State) : Nat := if s.plan.frameLen = 0 then 0 else s.mer.count / s.plan.frameLen

/-- Charges of a unit within the window. -/
def State.chargesOf (s : State) (k : Nat) : List Nat :=
  (SMap.get (fun _ => []) s.rl.charges k).filter (fun f => decide (s.frameNow < f + u32 (s.plan.sec 0x70) 4))

/-- Rooms of a stack that hold charges. -/
def State.chargedRooms (s : State) (st : Nat) : Nat :=
  (s.rl.charges.filter (fun e => decide (e.1 < 2 ^ 20) && e.1 / 65536 == st && !(s.chargesOf e.1).isEmpty)).length

/-- Charge a unit: whether it is to be quarantined (R412). -/
def State.chargeUnit (s : State) (k : Nat) : State × Bool :=
  let old := s.chargesOf k
  let full := decide (k < 2 ^ 20) && old.isEmpty && decide (4096 ≤ s.chargedRooms (k / 65536))
  let new := old ++ [s.frameNow]
  (if full then s else { s with rl := { s.rl with charges := SMap.set (fun _ => []) s.rl.charges k new } },
   full || decide (u8 (s.plan.sec 0x70) 2 ≤ new.length))

/-- A quarantine is logged and signalled (R404). -/
def State.quarantined (s : State) (place : Nat) : State :=
  { s with io := s.io.event .RL_EVENT 0 1 }.logError 5 stDone place

/-- Charge a room; it is quarantined where R412 says (R413). -/
def State.chargeRoom (s : State) (r : Nat) : State :=
  match s.chargeUnit r with
  | (s, true) =>
    if s.rl.rooms.contains r then s
    else
      { s with rl := { s.rl with rooms := s.rl.rooms ++ [r] }, po := { s.po with quarRooms := s.po.quarRooms ++ [r] } }.quarantined r
  | (s, false) => s

/-- The units whose work an array holds, as (context, iteration, unit). -/
def Arr.units (r : Arr) : List (Nat × Nat × Nat) :=
  (r.inbox ++ r.running.toList ++ r.next.toList).map (fun t => (t.ctx, t.iter, t.unit)) ++
  (r.queue ++ (r.chain.toList.filter (fun q => !q.run))).map (fun q => (q.ctx, q.iter, q.unit)) ++
  (r.edescs ++ r.eact.toList.map (·.1)).map (fun d => (d.ctx, d.iter, d.unit))

/-- A logical array is quarantined (R201, R228): its work completes CANCELLED, the chain at a vector boundary, the open
selection group goes, it accepts no descriptor, and its streams follow R386. Comparisons of its tiles end. -/
def State.quarantineArray (s : State) (a f : Nat) : State :=
  if (s.arr a).quarantined then s
  else
    let us := (s.arr a).units
    let s := if s.dupdLost a (s.arr a) (fun _ => true) ||
        (match (s.arr a).chain with | some q => s.dupdChain a q.chain | none => false) then s.denseProblem 10 else s
    let s := (s.cutChain a).abandon a
    let s := s.setArr a (fun r => { r with
      quarantined := true, inbox := [], running := none, next := none, raced := [], racedNext := [], queue := []
      chain := none, edescs := [], eact := none })
    let s := us.foldl (fun (s : State) u => s.unitStatus u.1 u.2.1 u.2.2 stCancelled) { s with io := s.io.event .MX_EVENT a 3 }
    let s := { s with
      rl := { s.rl with
        pairs := s.rl.pairs ++ [f]
        samples := s.rl.samples.filter (fun e => match e.2 with | some x => !(x.tile && x.origin == a) | none => false) }
      po := { s.po with quarPairs := s.po.quarPairs ++ [f] } }
    (s.quarantined (arrPlace a)).standbyAll a

/-- Charge the fabricated pair of a logical array (R412). -/
def State.chargeArray (s : State) (a : Nat) : State :=
  match s.plan.fab a with
  | none => s
  | some f =>
    match s.chargeUnit (pairKey f) with
    | (s, true) => s.quarantineArray a f
    | (s, false) => s

/-! ### Outcomes of a comparison (R408, R409, R414) -/

/-- A sample is over. -/
def State.dropSample (s : State) (k : Nat) : State := { s with rl := { s.rl with samples := s.rl.samples.del k } }

/-- The held writes of a call go to a room. -/
def State.release (s : State) (x : Sample) (room : Nat) : State :=
  x.writes.foldl (fun (s : State) h => s.roomWrite (coreWriter h.1) room h.2.1 h.2.2) s

/-- What a call served learns its end, as its room gave it. -/
def State.callOver (s : State) (x : Sample) : State :=
  match x.work, x.ended with
  | some w, some (st, exc) => s.report w x.origin st exc x.sends
  | _, _ => s

/-- A call completes FAULT_CHECK and nothing of it is written: a lookup's bag is damaged (R163), a row is excluded. -/
def State.callDamaged (s : State) (x : Sample) : State :=
  match x.work with
  | some (.lookup l i) => (s.setPart l i (fun p => { p with st := .damaged stCheck })).settleList l
  | some (.update w row primary) => s.rowEnded w row primary x.origin stCheck (some 7) []
  | none => s

/-- A tile's unit completes FAULT_CHECK (Table 17-3). -/
def State.tileFails (s : State) (x : Sample) : State := s.setRun x.ctx x.iter x.unit stCheck

/-- Whether a sampled tile or call has come as far as its comparison: the unit's engine has finished, or the call has ended. -/
def State.comparable (s : State) (x : Sample) : Bool :=
  if x.tile then
    match s.sc.streams.at x.ctx with
    | some y => !y.runs.any (fun r => r.iter == x.iter && r.unit == x.unit && r.status.isNone)
    | none => true
  else x.ended.isSome

/-- Charge the unit that ran a part of a sample: a logical array, or a room. -/
def State.chargeIn (s : State) (tile : Bool) (u : Nat) : State := if tile then s.chargeArray u else s.chargeRoom u

/-- Where a sample's mismatch is entered in the error log. -/
def Sample.place (x : Sample) : Nat := if x.tile then arrPlace x.origin else x.origin

/-- A mismatch is counted and logged (R404). -/
def State.mismatch (s : State) (x : Sample) : State :=
  { s with io := if x.tile then s.io.incLo .RL_MISMATCH else s.io.incHi .RL_MISMATCH }.logError 4 stDone x.place

/-- The sample's result fails: the tile's unit, or the call, completes FAULT_CHECK. -/
def State.sampleFails (s : State) (k : Nat) (x : Sample) : State :=
  if x.tile then (s.tileFails x).dropSample k else (s.dropSample k).callDamaged x

/-- The sample's result stands: a call's SENDs and held writes are used. -/
def State.sampleStands (s : State) (k : Nat) (x : Sample) : State :=
  if x.tile then s.dropSample k else ((s.dropSample k).release x x.origin).callOver x

/-- The signature of a sample's origin: a tile's S (R406, R407), or a call's over what R408 names. -/
def Sample.signature (x : Sample) : DWord :=
  if x.tile then x.sig else Config.callSignature x.sends (x.writes.map (fun w => (w.2.1, w.2.2))) x.ended

/-- SHADOW_COMPARE (R409): the shadow of sample `k` gives its signature, which is compared with the origin's. Where they agree
the sample ends; a mismatch starts an arbiter run on the unit that R410 gives, and without one fails and charges both. -/
def execShadowCompare (k : Nat) (sig : BitVec 64) (s : State) : Result :=
  match s.rl.samples.at k with
  | none => ignored s
  | some x =>
    if x.twin ∨ x.arbiter.isSome = true ∨ s.comparable x = false then ignored s
    else if sig = x.signature then .next (s.sampleStands k x)
    else
      let s := s.mismatch x
      let arb := if x.tile then s.usableAfter x.shadow [x.origin, x.shadow] else s.roomUp x.shadow [x.origin, x.shadow]
      match arb with
      | some b => .next { s with rl := { s.rl with samples := s.rl.samples.put k { x with arbiter := some b, other := sig } } }
      | none => .next (((s.sampleFails k x).chargeIn x.tile x.origin).chargeIn x.tile x.shadow)

/-- ARBITER_DONE (R409, Table 17-3): the arbiter `unit` of sample `k`, an array or a room, gives its signature, which agrees with
the origin's, with the shadow's, or with neither. -/
def execArbiterDone (k : Nat) (sig : BitVec 64) (unit : Nat) (s : State) : Result :=
  match s.rl.samples.at k with
  | none => ignored s
  | some x =>
    match x.arbiter with
    | none => ignored s
    | some b =>
      if unit ≠ b then ignored s
      else if sig = x.signature then .next ((s.sampleStands k x).chargeIn x.tile x.shadow)
      else if sig = x.other then
        let s := if x.tile then s.sampleFails k x
          else s.sampleStands k { x with ended := some (stDone, none) }
        .next (s.chargeIn x.tile x.origin)
      else .next ((((s.sampleFails k x).chargeIn x.tile x.origin).chargeIn x.tile x.shadow).chargeIn x.tile b)

/-- The shards that an update call of a twinned row changes are stale (R414). -/
def State.divergeTwins (s : State) (x : Sample) : State :=
  let ws := [x.origin, x.shadow].filterMap (fun r => s.plan.wingOf r)
  match x.work with
  | some (.update _ _ _) => ws.foldl (fun (s : State) w => s.staleShard (wId w)) s
  | _ => s

/-- TWIN_COMPARE (R414): the signatures of the twins' calls of sample `k` are compared. On a mismatch `first` and `second`
say whether each twin's re-run agrees with its own origin. -/
def execTwinCompare (k : Nat) (agree first second : Bool) (s : State) : Result :=
  match s.rl.samples.at k with
  | none => ignored s
  | some x =>
    if x.twin = false ∨ x.tile = true ∨ x.ended.isNone = true then ignored s
    else if agree then .next ((((s.dropSample k).release x x.origin).release x x.shadow).callOver x)
    else
      let s := s.mismatch x
      if first && second then
        let s := ({ s with io := s.io.event .RL_EVENT 0 4 }.logError 8 stDone x.origin).divergeTwins x
        .next ((s.dropSample k).callDamaged x)
      else
        let s := if first then s else s.chargeRoom x.origin
        let s := if second then s else s.chargeRoom x.shadow
        if first || second then .next ((((s.dropSample k).release x x.origin).release x x.shadow).callOver x)
        else .next ((s.dropSample k).callDamaged x)

/-! ### Replica digests (R416 to R420) -/

/-- The layers of a group on this device, ascending (R418). -/
def State.groupLayers (s : State) (g : Nat) : List (Nat × List Byte) :=
  (s.layerEntries.filter (fun p => u16 p.2 0x26 == g)).mergeSort (fun a b => decide (a.1 ≤ b.1))

/-- The 32 bytes that this device contributes for a layer (R418). -/
def State.digestEntry (s : State) (p : Nat × List Byte) : List Byte :=
  let x := s.layer p.1
  bytesOf p.1 2 ++ bytesOf ((if x.stale then 1 else 0) + (if eFrozen p.2 then 2 else 0)) 2 ++ bytesOf (s.layerStep p.1) 4 ++
  bytesOf (s.digest p.1 x.current) 16 ++ zeros 8

/-- DIGEST_AREA. -/
def Plan.digestArea (p : Plan) : Nat := u64 (p.sec 0x70) 0x40

/-- Bytes that a group's comparison takes. -/
def State.digestSpan (s : State) (g : Nat) : Nat := (s.groupOf g).length * 32 * (s.groupLayers g).length

/-- Where a group's comparison stands in DIGEST_AREA: after those of the lower groups being compared. -/
def State.digestAt (s : State) (g : Nat) : Nat :=
  s.plan.digestArea + (((s.rl.comparing.map (·.group)).eraseDups.filter (fun h => decide (h < g))).map s.digestSpan).sum

/-- Take a device call that is over: its status. -/
def State.takeColl (s : State) (g n : Nat) : Option (State × Nat) :=
  match s.fab.coll g n with
  | some c =>
    match c.overWith with
    | some st =>
      some ({ s with fab := { s.fab with colls := s.fab.colls.filter (fun d => !(d.group == g && d.call == n)) } }, st)
    | none => none
  | none => none

/-- Call number of a rejoin BROADCAST (R420). -/
def State.rejoinCall (s : State) (t : Nat) : Nat := 0xF8000000 + t / u16 (s.plan.sec 0x70) 8 % 2 ^ 27

/-- Issue a group's next rejoin copy, one at a time (R420). -/
def State.pumpRejoin (s : State) (g : Nat) : State :=
  match s.rl.rejoin.find? (fun r => r.group == g) with
  | none => s
  | some r =>
    if r.issued ∨ r.waits then s
    else
      match s.entryNow (layerKey r.layer) with
      | none => { s with rl := { s.rl with rejoin := s.rl.rejoin.erase r } }
      | some e =>
        let a := eBuf e (s.layer r.layer).current
        let rs := s.rl.rejoin.map (fun q => if q = r then { q with issued := true, late := false } else q)
        let c : Coll := ⟨g, s.rejoinCall r.step, 4, 0, bufferBytes e / 4, a, a, r.root, false, 0, 0, 0, 2, none, true, false, [], false, none⟩
        { s with rl := { s.rl with rejoin := rs } }.collIssue c

/-- DIGEST_COMPARISON (R418): the device issues the ALL_GATHER of a group's layers, its own contribution standing in its
place of DIGEST_AREA. One that does not fit there cannot complete and is counted late. With no comparison due, a rejoin copy
that waited for the flip is issued again (R420). -/
def execDigestComparison (g : Fin 4096) (s : State) : Result :=
  match s.rl.comparing.find? (fun d => d.group == g.val && !d.issued) with
  | none => .next (s.pumpRejoin g)
  | some d =>
    let ls := s.groupLayers g
    let at' := s.digestAt g
    let n := 32 * ls.length
    if s.plan.digestArea + 2 ^ 20 < at' + s.digestSpan g then
      .next { s with rl := { s.rl with comparing := s.rl.comparing.filter (fun e => e != d) }, io := s.io.inc .RL_DIGEST_LATE }
    else
      let me := (s.groupOf g).idxOf s.plan.ref
      let src := at' + me * n
      let s := s.sheetWrite .device src (ls.flatMap s.digestEntry)
      let s := { s with rl := { s.rl with comparing := s.rl.comparing.map (fun e => if e = d then { e with issued := true } else e) } }
      let c : Coll := ⟨g, s.digestCall d.step, 3, 0, 8 * ls.length, src, at', 0, false, 0, 0, 0, 2, none, true, false, [], false, none⟩
      .next (s.collIssue c)

/-- The digests of a layer that a gathered area holds: (rank, stale, D). -/
def gathered (m : Ram) (base g n layer : Nat) : List (Nat × Bool × Nat) :=
  (List.range g).filterMap (fun q =>
    ((List.range n).map (fun i => m.read (base + (q * n + i) * 32) 32)).findSome? (fun b =>
      if u16 b 0 = layer then some (q, bit (u16 b 2) 0, le b 8 16) else none))

/-- One layer is decided (R419): nothing, an expulsion of those outside a strict majority, or a split. -/
def State.decideLayer (s : State) (d : Digest) (base n id : Nat) : State :=
  let g := (s.groupOf d.group).length
  let me := (s.groupOf d.group).idxOf s.plan.ref
  let ds := (gathered s.ram base g n id).filter (fun x => !x.2.1)
  let votes := fun (v : Nat) => (ds.filter (fun x => x.2.2 == v)).length
  let place := 2 ^ 30 + id
  if ds.all (fun x => votes x.2.2 == ds.length) then s
  else
    match ds.find? (fun x => decide (ds.length < 2 * votes x.2.2)) with
    | some m =>
      let own := ds.any (fun x => x.1 == me && x.2.2 != m.2.2)
      let s := { s with io := s.io.event .RL_EVENT 0 2 }.logError 6 stDone place
      let s := if own then { s.staleLayer id with io := (s.staleLayer id).io.inc .RL_EXPELLED } else s
      { s with rl := { s.rl with rejoin := s.rl.rejoin ++ [⟨d.step, d.group, id, m.1, own, false, false, false⟩] } }
    | none => ({ s with io := s.io.event .RL_EVENT 0 3 }.logError 7 stDone place).staleLayer id

/-- DIGEST_DECIDE (R419): a group's ALL_GATHER has completed and every layer is decided; copies after an expulsion begin. A
gather that failed counts as a comparison that did not complete. -/
def execDigestDecide (g : Fin 4096) (s : State) : Result :=
  match s.rl.comparing.find? (fun d => d.group == g.val && d.issued) with
  | none => ignored s
  | some d =>
    match s.takeColl g (s.digestCall d.step) with
    | none => ignored s
    | some (t, st) =>
      let base := s.digestAt g
      let ids := (s.groupLayers g).map (·.1)
      let t := { t with rl := { t.rl with comparing := t.rl.comparing.filter (fun e => e != d) } }
      if st ≠ stDone then .next { t with io := t.io.inc .RL_DIGEST_LATE }
      else
        let t := { t with io := t.io.inc .RL_DIGESTS }
        .next ((ids.foldl (fun (u : State) id => u.decideLayer d base ids.length id) t).pumpRejoin g)

/-- A layer's current buffer is read for its digest, and the layer is stale no longer (R417, R423). -/
def State.restartLayer (s : State) (id : Nat) : State :=
  match s.entryNow (layerKey id) with
  | none => s
  | some e =>
    let b := (s.layer id).current
    (s.putDigest id b (s.readDigest e b)).setLayer id (fun x => { x with stale := false, fresh := false })

/-- REJOIN_COPY_DONE (R420): a group's BROADCAST has completed. In time, the expelled member recomputes its digest and takes
part again; a late copy is repeated after the next flip. -/
def execRejoinCopyDone (g : Fin 4096) (s : State) : Result :=
  match s.rl.rejoin.find? (fun r => r.group == g.val) with
  | none => ignored s
  | some r =>
    if r.issued = false then ignored s
    else
      match s.takeColl g (s.rejoinCall r.step) with
      | none => ignored s
      | some (t, st) =>
        if st = stDone ∧ r.late = true then
          let rs := t.rl.rejoin.map (fun q => if q = r then { q with issued := false, late := false, waits := true } else q)
          .next { t with rl := { t.rl with rejoin := rs } }
        else
          let t := { t with rl := { t.rl with rejoin := t.rl.rejoin.erase r } }
          .next ((if st = stDone ∧ r.own = true then t.restartLayer r.layer else t).pumpRejoin g)

/-! ### Registers of the block -/

/-- RL_RESTART_WRITE (R423): the digest of the layer written is recomputed and STALE cleared. -/
def execRlRestartWrite (v : BitVec 32) (s : State) : Result := if s.barShut then ignored s else
  let id := v.toNat % 4096
  if (s.entryNow (layerKey id)).isSome then .next (s.restartLayer id) else ignored s

/-- RL_CKPT_GO (R422): a cut is asked for; GO is ignored while one is. -/
def execRlCkptGo (s : State) : Result := if s.barShut then ignored s else
  if s.rl.ckpt.isSome then ignored s
  else
    let list := s.io.val .RL_CKPT_LIST_LO / 16 * 16 + s.io.val .RL_CKPT_LIST_HI * 2 ^ 32
    let dest := s.io.val .RL_CKPT_DEST_LO / 16 * 16 + s.io.val .RL_CKPT_DEST_HI * 2 ^ 32
    .next { s with
      rl := { s.rl with ckpt := some ⟨list, s.io.val .RL_CKPT_COUNT % 2048, dest⟩ }
      io := s.io.putN .RL_CKPT_STATUS 0 (2 ^ 31) }

/-- RL_LOG_CLEAR (R404): bit 0 invalidates every entry of the error log. -/
def execRlLogClear (v : BitVec 32) (s : State) : Result := if s.barShut then ignored s else
  if v.getLsbD 0 then .next { s with rl := { s.rl with log := [] } } else ignored s

end Sys2Proof.Machine
end

