-- ==== Sys2Proof/Machine/Stacks.lean ====
section
/-! DEFINITION. Machine/Stacks.lean: retraining and failure of channels, repair burns and soft sparing, refresh, scrub,
calibration, thermal steps and preserved contents of the stacks (chapters 5 and 20). -/

namespace Sys2Proof.Machine

/-- Change one stack. -/
def State.setStk (s : State) (st : Nat) (f : Stack → Stack) : State := { s with stk := setStack s.stk st f }

/-- Raise a bit of a stack's ST_EVENT. -/
def State.stEvent (s : State) (st b : Nat) : State := { s with io := s.io.event .ST_EVENT st b }

/-- The stacks that the plan in force puts in service. -/
def State.serving (s : State) : List Nat := (List.range 16).filter s.plan.inService

/-! ### Temperature and the governor (R108, R110, R111) -/

/-- RETRAIN_DRIFT_C. -/
def Plan.drift (p : Plan) : Nat := u8 (p.sec 0x30) 0xC

/-- The threshold of a thermal step (Tables 5-2, 5-6). -/
def Plan.thermAt (p : Plan) (step : Nat) : Nat := u8 (p.sec 0x30) (7 + step)

/-- The thermal step at a temperature (R110): it rises as soon as a threshold is reached, and falls only once HYST_C below
it. -/
def Plan.thermStep (p : Plan) (cur t : Nat) : Nat :=
  (([1, 2, 3] : List Nat).filter (fun k => decide (p.thermAt k ≤ t) ||
    (decide (k ≤ cur) && decide (p.thermAt k < t + u8 (p.sec 0x30) 0xB)))).foldl max 0

/-- The hottest storey and its temperature. -/
def Stack.hottest (k : Stack) : Nat × Nat :=
  k.temps.zipIdx.foldl (fun b x => if b.2 < x.1 then (x.2, x.1) else b) (0, 0)

/-- A stack takes its temperature (R110). -/
def State.heat (s : State) (st : Nat) (ts : List Nat) : State :=
  let s := s.setStk st (fun k => { k with temps := ts })
  if s.plan.inService st then
    let k := s.stack st
    let new := s.plan.thermStep k.thermStep k.hottest.2
    let up := decide (k.thermStep < new)
    let s := s.setStk st (fun k => { k with thermStep := new })
    if up then s.stEvent st 2 else s
  else s

/-- The stack rate: its entry's, or the header's (Tables 5-2, 5-3). -/
def Plan.stackRate (p : Plan) (st : Nat) : Nat :=
  let e := u16 (stackEntry (p.sec 0x30) st) 0xA
  if e = 0 then u16 (p.sec 0x30) 4 else e

/-- The governor's grant rate now (R108, R110): the stack's, as its thermal step and the power controller lower it. -/
def State.govRate (s : State) (st : Nat) : Nat :=
  let r := s.plan.stackRate st
  let floor := u16 (s.plan.sec 0x30) 6
  let t := match (s.stack st).thermStep with
    | 0 => r
    | 1 => max (r * 3 / 4) (min r floor)
    | 2 => max (r / 2) (min r floor)
    | _ => min r floor
  match (s.stack st).cap with
  | some c => min t c
  | none => t

/-! ### Retraining and failure (R97 to R100) -/

/-- The logical channel that a physical channel serves. -/
def Plan.logicalOf (p : Plan) (st ph : Nat) : Option Nat := (List.range (p.channels st)).find? (fun l => p.phys st l == some ph)

/-- A channel in the map of a stack in service that has not failed, as its logical number. -/
def State.liveChan (s : State) (st ph : Nat) : Option Nat :=
  if ((s.stack st).chan ph).st = .failed then none else s.plan.logicalOf st ph

/-- Whether a core's next instruction reaches its DRAM: RFETCH, RPUT, DQACC or FUPD. -/
def State.atDram (s : State) (r : Nat) (c : Core) : Bool :=
  c.wait == .run && !c.cancelled && [0x24, 0x25, 0x27, 0x2A].contains (iOp (s.progWord r c.pc))

/-- The cores of a channel that stood at a DRAM access for a retraining go on: the time adds to their rc (R139), and is no
part of what the call limit counts (R98, R117). -/
def State.excuse (s : State) (st l since : Nat) : State :=
  let one := fun (m : Tab Core) (e : Nat × Core) =>
    if e.2.home / 1024 = 64 * st + l ∧ s.atDram e.1 e.2 = true then
      let d := (s.mer.now - max since (e.2.entered + e.2.rc * 5 / 2)) * 2 / 5
      m.upd e.1 (fun (c : Core) => { c with rc := c.rc + d, paused := c.paused + d })
    else m
  { s with rooms := { s.rooms with cores := s.rooms.cores.list.foldl one s.rooms.cores } }

/-- Drop the rows of a shard's step that lie in a failed channel: they are refused (R100). -/
def State.dropRows (s : State) (w : List Byte) : State :=
  match s.plan.table (wOwner w % 4096) with
  | none => s
  | some t =>
    let lost := fun (row : Nat) => s.ram.gone (roomDpa (wingRoom w (row / tShards t % wRooms w)) 0)
    let s := s.setComb (wStack w) (fun c => { c with drain := c.drain.filter (fun r => !(r.wing == wId w && lost r.row)) })
    let s := s.setShard (wId w) (fun x => { x with running := x.running.filter (fun r => r.2.2 || !lost r.1) })
    s.settleShard w

/-- A channel fails (R100): its bit and event are set, its reads fail and its writes are discarded, and every shard with
rows in it is stale. -/
def State.failChannel (s : State) (st ph : Nat) : State :=
  match s.plan.logicalOf st ph with
  | none => s
  | some l =>
    let since := ((s.stack st).chan ph).since
    let held := ((s.stack st).chan ph).st != .ready
    let s := if held then s.excuse st l since else s
    let s := s.setStk st (fun k => k.setChan ph (fun c => { c with st := .failed }))
    let s := { s with
      ram := { s.ram with dead := s.ram.dead ++ [64 * st + l] }
      io := s.io.setBit (if ph < 32 then .ST_CH_FAILED_LO else .ST_CH_FAILED_HI) st (ph % 32) true }
    let s := s.stEvent st 1
    let s := s.plan.tableWings.foldl (fun (s : State) w =>
      if wStack w = st ∧ wFirst w ≤ l ∧ l < wFirst w + wChans w then (s.staleShard (wId w)).dropRows w else s) s
    s.wings.lookups.list.foldl (fun (s : State) e => s.sweepList e.1) s

/-- A planned retraining on another channel is abandoned (R99). -/
def State.abandonPlanned (s : State) (st ph : Nat) : State :=
  (List.range 64).foldl (fun (s : State) p =>
    let c := (s.stack st).chan p
    if p ≠ ph ∧ c.st = .planned then
      let s := match s.plan.logicalOf st p with | some l => s.excuse st l c.since | none => s
      s.setStk st (fun k => k.setChan p (fun c => { c with st := .ready }))
    else s) s

/-- Whether planned retraining of a channel is due (R97): drift on a storey, or 2,000 frames. -/
def State.retrainDue (s : State) (st ph : Nat) : Bool :=
  let c := (s.stack st).chan ph
  decide (c.frame + 2000 ≤ s.frameNow) ||
  ((s.stack st).temps.zip c.temps).any (fun t => decide (s.plan.drift ≤ max t.1 t.2 - min t.1 t.2))

/-- PLANNED_RETRAIN (R97): in a maintenance slot that leaves it 25,000 mt, one channel per stack at a time. -/
def execPlannedRetrain (st : Fin 16) (ph : Fin 64) (s : State) : Result :=
  if (s.liveChan st ph).isSome = true ∧ ((s.stack st).chan ph).st = .ready ∧ s.retrainDue st ph = true ∧ s.inMaintenance = true ∧
      s.mer.count + 25000 ≤ s.slotEnd ∧ (List.range 64).all (fun p => ((s.stack st).chan p).st != .planned) = true then
    .next ((s.setStk st (fun k => k.setChan ph (fun c => { c with st := .planned, since := s.mer.now }))).mapIo
      (fun io => io.incHi .ST_RETRAIN_COUNT st))
  else ignored s

/-- Losses of timing margin of a channel within the last 1,000 frames. -/
def State.recentLosses (s : State) (st ph : Nat) : List Nat :=
  ((s.stack st).chan ph).losses.filter (fun f => decide (s.frameNow < f + 1000))

/-- UNPLANNED_RETRAIN (R98 to R100): a bond bundle loses timing margin. The third loss within 1,000 frames starts no
retraining: the channel fails. A loss during a retraining starts it anew, from its own detection. -/
def execUnplannedRetrain (st : Fin 16) (ph : Fin 64) (s : State) : Result :=
  if (s.liveChan st ph).isSome then
    let old := s.recentLosses st ph
    if 2 ≤ old.length then .next (s.failChannel st ph)
    else
      let s := s.abandonPlanned st ph
      let c := (s.stack st).chan ph
      let s := match c.st, s.plan.logicalOf st ph with
        | .planned, some l => s.excuse st l c.since
        | .unplanned, some l => s.excuse st l c.since
        | _, _ => s
      .next ((s.setStk st (fun k => k.setChan ph (fun c => { c with
        st := .unplanned, losses := old ++ [s.frameNow], since := s.mer.now }))).mapIo
        (fun io => (io.incLo .ST_RETRAIN_COUNT st).event .ST_EVENT st 0))
  else ignored s

/-- RETRAIN_DONE (R97 to R100): a retraining and its pattern check end. One that has taken more than 30,000 mt, or whose
check fails, fails the channel; else what was held goes on. -/
def execRetrainDone (st : Fin 16) (ph : Fin 64) (ok : Bool) (s : State) : Result :=
  let c := (s.stack st).chan ph
  if c.st = .planned ∨ c.st = .unplanned then
    if ok = false ∨ c.since + 30000 < s.mer.now then .next (s.failChannel st ph)
    else
      let s := match s.plan.logicalOf st ph with | some l => s.excuse st l c.since | none => s
      .next (s.setStk st (fun k => k.setChan ph (fun c => { c with st := .ready, temps := k.temps, frame := s.frameNow })))
  else ignored s

/-- CHANNEL_FAIL (R100): a retraining has not completed within 30,000 mt, or a third loss of timing margin within 1,000
frames finds the channel. -/
def execChannelFail (st : Fin 16) (ph : Fin 64) (s : State) : Result :=
  let c := (s.stack st).chan ph
  if (s.liveChan st ph).isSome = true ∧
      (2 ≤ (s.recentLosses st ph).length ∨ (c.st ≠ .ready ∧ c.since + 30000 < s.mer.now)) then
    .next (s.failChannel st ph)
  else ignored s

/-! ### Repairs (R87, R92, R101 to R103) -/

/-- Distinct repairs of a kind on a channel, hard and soft, and on a storey of it where one is given. -/
def Stack.repairsOf (k : Stack) (kind ph : Nat) (storey : Option Nat) : Nat :=
  (((k.hard ++ k.soft).eraseDups).filter (fun (r : Repair) =>
    r.kind == kind && r.channel == ph && (match storey with | some y => r.storey == y | none => true))).length

/-- Spare room slots left of a channel. -/
def Stack.slotsLeft (k : Stack) (ph : Nat) : Nat := 32 - k.repairsOf 3 ph none
/-- Spare rows left of a storey of a channel. -/
def Stack.rowsLeft (k : Stack) (ph storey : Nat) : Nat := 256 - k.repairsOf 1 ph (some storey)
/-- Spare column groups left of a storey of a channel. -/
def Stack.colsLeft (k : Stack) (ph storey : Nat) : Nat := 64 - k.repairsOf 2 ph (some storey)

/-- Whether a repair finds its spare (R92, R101). -/
def Stack.spareFor (k : Stack) (r : Repair) : Bool :=
  match r.kind with
  | 1 => decide (0 < k.rowsLeft r.channel r.storey)
  | 2 => decide (0 < k.colsLeft r.channel r.storey)
  | _ => !(k.hard ++ k.soft).any (fun (x : Repair) => x.kind == 3 && x.channel == r.channel && x.target / 65536 == r.target / 65536)

/-- A repair's target with its Reserved bits zero (Table 5-4). -/
def repairTarget (kind t : Nat) : Nat := if kind = 3 then t % 2048 + t / 65536 % 2048 * 65536 else t % 2 ^ 18

/-- Whether a repair names what Table 5-4 allows. -/
def repairOk (r : Repair) : Bool :=
  if r.kind = 3 then r.storey == 0 && decide (r.target % 2048 < 1056) && decide (1024 ≤ r.target / 65536 ∧ r.target / 65536 < 1056)
  else decide (r.target / 128 < 1056)

/-- SPARES_LOW of ST_EVENT. -/
def State.sparesLow (s : State) (st ph : Nat) : State :=
  let k := s.stack st
  if k.slotsLeft ph < 4 ∨ (List.range 8).any (fun y => decide (k.rowsLeft ph y < 16)) = true then s.stEvent st 6 else s

/-- ST_REPAIR_STATUS: RESULT and BUSY. -/
def State.repairStatus (s : State) (st result : Nat) (busy : Bool) : State :=
  s.mapIo (fun io => io.putN .ST_REPAIR_STATUS st (result * 16 + (if busy then 1 else 0)))

/-- A burn command (R101): refused by the lock, for want of a drain, or of a spare or a record; else it burns. -/
def State.burn (s : State) (st kind : Nat) : State :=
  let k := s.stack st
  let a0 := s.io.val .ST_REPAIR_ARG0 st
  let r : Repair := ⟨kind, a0 % 64, a0 / 256 % 8, repairTarget kind (s.io.val .ST_REPAIR_ARG1 st)⟩
  if k.burn.isSome then s.repairStatus st 4 true
  else if !repairOk r then s.repairStatus st 4 false
  else if s.se.fuses.lock = 2 then s.repairStatus st 5 false
  else if s.plan.inService st && !bit (s.io.val .FP_DRAINED_STACKS) st then s.repairStatus st 1 false
  else if 1024 ≤ k.hard.length || !k.spareFor r then s.repairStatus st 2 false
  else (s.setStk st (fun k => { k with burn := some r })).repairStatus st 0 true

/-- BURN_ROW (R101). -/
def execBurnRow (st : Fin 16) (s : State) : Result := if s.barShut then ignored s else .next (s.burn st 1)
/-- BURN_COLUMN (R101). -/
def execBurnColumn (st : Fin 16) (s : State) : Result := if s.barShut then ignored s else .next (s.burn st 2)
/-- BURN_ROOM (R101). -/
def execBurnRoom (st : Fin 16) (s : State) : Result := if s.barShut then ignored s else .next (s.burn st 3)

/-- REPAIR_BAD_ARG (Table 5-9): a command that is none of the three, or that finds a burn in progress. -/
def execRepairBadArg (st : Fin 16) (s : State) : Result := if s.barShut then ignored s else .next (s.repairStatus st 4 (s.stack st).burn.isSome)

/-- BURN_DONE (R101): the burn in progress ends, well or not. After a PERST its RESULT is lost and the repair interface is
reset (R461). -/
def execBurnDone (st : Fin 16) (ok : Bool) (s : State) : Result :=
  match (s.stack st).burn with
  | none => ignored s
  | some r =>
    let gone := (s.stack st).burnLost
    let s := s.setStk st (fun k => { k with burn := none, burnLost := false, hard := if ok then k.hard ++ [r] else k.hard })
    if gone then
      .next (s.mapIo (fun io => (([.ST_REPAIR_ARG0, .ST_REPAIR_ARG1, .ST_REPAIR_STATUS] : List Reg).foldl (fun io x => io.putN x st 0) io)))
    else
    let s := (s.repairStatus st (if ok then 0 else 3) false).stEvent st (if ok then 4 else 5)
    .next (if ok then s.sparesLow st r.channel else s)

/-- SOFT_ROW_SPARE (R102): in a maintenance slot that leaves it 2,000 mt, the first row scheduled is switched to a spare. -/
def execSoftRowSpare (st : Fin 16) (s : State) : Result :=
  match (s.stack st).spareDue with
  | [] => ignored s
  | r :: rest =>
    if s.plan.inService st = true ∧ s.inMaintenance = true ∧ s.mer.count + 2000 ≤ s.slotEnd then
      let s := s.setStk st (fun k => { k with spareDue := rest })
      if 0 < (s.stack st).rowsLeft r.channel r.storey then
        let s := s.setStk st (fun k => { k with soft := k.soft ++ [r] })
        .next ((s.mapIo (fun io => io.incLo .ST_SOFT_REPAIRS st)).sparesLow st r.channel)
      else .next s
    else ignored s

/-! ### Refresh and scrub (R104 to R106) -/

/-- REFRESH (R104): one storey of one channel is refreshed; it closes the open rows of that storey's segments (R139). -/
def execRefresh (st : Fin 16) (ph : Fin 64) (storey : Fin 8) (s : State) : Result :=
  if s.plan.inService st = true ∧ (s.stack st).selfRefresh = false then
    let s := s.setStk st (fun k => { k with refreshed := SMap.set (fun _ => 0) k.refreshed (8 * ph + storey) s.mer.now })
    .next (match s.plan.logicalOf st ph with
      | some l =>
        let open' := SMap.drop (fun k => k / 8 / 1024 == 64 * st + l && k % 8 == storey) s.rooms.openRow
        { s with rooms := { s.rooms with openRow := open' } }
      | none => s)
  else ignored s

/-- Blocks of a sheet. -/
def Plan.blocks (p : Plan) (st : Nat) : Nat := p.channels st * 2 ^ 22

/-- A stack's quota in each SCRUB window (R105): one full pass per SCRUB_PERIOD_H, in equal shares. -/
def Plan.scrubQuota (p : Plan) (st : Nat) : Nat :=
  let ps := (p.instants.filter (fun (i : Instant) => i.kind == 4)).map (·.period)
  let all := ps.foldl Nat.lcm 1
  let wins := (ps.map (fun q => all / q)).sum
  let time := u16 (p.sec 0x30) 2 * 3600 * 10 ^ 9
  (p.blocks st * all * p.frameLen + time * wins - 1) / (time * wins)

/-- A stack's scrub window ends (R105): what is left is carried. -/
def State.endScrub (s : State) (st : Nat) : State :=
  match (s.stack st).scrub with
  | none => s
  | some w =>
    let s := s.setStk st (fun k => { k with scrub := none, scrubCarry := w.quota })
    if w.quota = 0 then s else s.stEvent st 3

/-- SCRUB_WINDOW (R105): a SCRUB instant opens a window on every stack in service. -/
def execScrubWindow (k : Nat) (s : State) : Result :=
  match s.dueInstant k with
  | none => ignored s
  | some (i, c) =>
    if i.kind ≠ 4 then ignored s
    else
      .next (s.serving.foldl (fun (s : State) st =>
        let s := s.endScrub st
        let q := s.plan.scrubQuota st
        s.setStk st (fun x => { x with scrub := some ⟨c + i.len, q + x.scrubCarry⟩, scrubCarry := 0 })) (s.fired k c))

/-- SCRUB_WINDOW_END (R105). -/
def execScrubWindowEnd (s : State) : Result :=
  .next ((List.range 16).foldl (fun (s : State) st =>
    match (s.stack st).scrub with
    | some w => if w.ends ≤ s.mer.count then s.endScrub st else s
    | none => s) s)

/-- Room slot of a channel's logical room (R87): its own, or the spare that a repair in effect substitutes for it (R96, R103). -/
def Stack.slotOf (k : Stack) (ph r : Nat) : Nat :=
  match (k.hardOn ++ k.soft).find? (fun (x : Repair) => x.kind == 3 && x.channel == ph && x.target % 2048 == r) with
  | some x => x.target / 65536
  | none => r

/-- The row repair that would spare the DRAM row of a block (R87, R102). -/
def State.rowRepair (s : State) (a : Nat) : Option Repair :=
  let st := dpaStack a
  (s.plan.phys st (a / 2 ^ 30 % 64)).map (fun ph =>
    ⟨1, ph, dpaOffset a / 131072, (s.stack st).slotOf ph (a / 256 % 1024) * 128 + dpaOffset a / 1024 % 128⟩)

/-- A pass found a correctable error in the DRAM row of a block: on its third pass the row is scheduled (R102). -/
def State.weakRow (s : State) (st a : Nat) : State :=
  match s.rowRepair a with
  | none => s
  | some r =>
    let key := (r.channel * 8 + r.storey) * 2 ^ 18 + r.target
    let k := s.stack st
    let old := SMap.get (fun _ => 0) k.weakRows key
    if old ≠ 0 ∧ old / 4 = k.scrubPass then s
    else
      let n := old % 4 + 1
      if n < 3 then s.setStk st (fun k => { k with weakRows := SMap.set (fun _ => 0) k.weakRows key (k.scrubPass * 4 + n) })
      else s.setStk st (fun k => { k with
        weakRows := SMap.set (fun _ => 0) k.weakRows key 0
        spareDue := if k.spareDue.contains r || k.soft.contains r then k.spareDue else k.spareDue ++ [r] })

/-- SCRUB_BLOCK (R105, R106): the next block of a stack's pass is read through ECC. `corrected`: the ECC corrected it;
`unc`: access units it could not correct, beside those already known; `raced`: a write reached the block since, and the
correction is dropped. -/
def execScrubBlock (st : Fin 16) (corrected raced : Bool) (unc : Fin 16) (s : State) : Result :=
  match (s.stack st).scrub with
  | none => ignored s
  | some w =>
    let n := s.plan.blocks st
    if s.plan.inService st = false ∨ w.quota = 0 ∨ w.ends ≤ s.mer.count ∨ n = 0 then ignored s
    else
      let pos := s.io.val .ST_SCRUB_POS st % n
      let a := st * 2 ^ 36 + 256 * pos
      let s := s.setStk st (fun k => { k with
        scrub := some { w with quota := w.quota - 1 }
        scrubPass := if pos + 1 = n then k.scrubPass + 1 else k.scrubPass })
      let s := s.mapIo (fun io => io.putN .ST_SCRUB_POS st (if pos + 1 = n then 0 else pos + 1))
      if s.ram.gone a then .next s
      else
        let s :=
          if corrected then
            (s.mapIo (fun io => (if raced then io else io.inc .ST_SCRUB_CORRECTED st).addWide .RL_ECC_CORR_LO 0 1)).weakRow st a
          else s
        let b := s.ram.blk a
        if b.unc ||| unc.val = 0 then .next s
        else if raced then .next ({ s with io := s.io.inc .RL_UNCORR }.logError 1 stCheck (dpaRoom a))
        else .next ({ s with ram := s.ram.setBlk a { b with unc := b.unc ||| unc.val } }.logCheck a (dpaRoom a))

/-! ### Calibration (R107) -/

/-- A stack's calibration window ends. -/
def State.endCal (s : State) (st : Nat) : State :=
  match (s.stack st).cal with
  | none => s
  | some w =>
    let s := s.setStk st (fun k => { k with cal := none, calCarry := w.quota })
    if w.quota = 0 then s else s.stEvent st 7

/-- CALIBRATE_WINDOW (R107): a CALIBRATE instant opens a window for one channel of every stack in service, after the channel
that the last one left unfinished. -/
def execCalibrateWindow (k : Nat) (s : State) : Result :=
  match s.dueInstant k with
  | none => ignored s
  | some (i, c) =>
    if i.kind ≠ 5 then ignored s
    else
      .next (s.serving.foldl (fun (s : State) st =>
        let s := s.endCal st
        s.setStk st (fun x => { x with cal := some ⟨c + i.len, 1 + x.calCarry⟩, calCarry := 0 })) (s.fired k c))

/-- CALIBRATION_STEP (R107): the next storey of the channel is calibrated; the eighth ends the channel. -/
def execCalibrationStep (st : Fin 16) (s : State) : Result :=
  match (s.stack st).cal with
  | none => ignored s
  | some w =>
    if s.plan.inService st = false ∨ w.quota = 0 ∨ w.ends ≤ s.mer.count then ignored s
    else
      let n := s.plan.channels st
      .next (s.setStk st (fun k =>
        if k.calStep < 7 then { k with calStep := k.calStep + 1 }
        else { k with calStep := 0, calChannel := (k.calChannel + 1) % n, cal := some { w with quota := w.quota - 1 } }))

/-- CAL_WINDOW_END (R107). -/
def execCalWindowEnd (s : State) : Result :=
  .next ((List.range 16).foldl (fun (s : State) st =>
    match (s.stack st).cal with
    | some w => if w.ends ≤ s.mer.count then s.endCal st else s
    | none => s) s)

/-! ### Preserved contents (R464 to R467) -/

/-- ST_CONTENT_STATUS.REFUSED. -/
def State.refusedBit (s : State) (st : Nat) (v : Bool) : State := s.mapIo (fun io => io.setBit .ST_CONTENT_STATUS st 2 v)

/-- CONTENT_ACCEPT (R465): refused unless a record is there, self-refresh ran unbroken and the channel map is unchanged. -/
def execContentAccept (st : Fin 16) (s : State) : Result := if s.barShut then ignored s else
  let k := s.stack st
  if k.clearing = true ∨ k.verifying = true then ignored s
  else
    match k.preserve with
    | some p =>
      if k.content = .preserved ∧ p.continuous = true ∧ p.mapMatch = true then
        .next (((s.setStk st (fun k => { k with verifying := true })).refusedBit st false).mapIo (fun io => io.putN .ST_VERIFY st 0))
      else .next (s.refusedBit st true)
    | none => .next (s.refusedBit st true)

/-- CONTENT_CLEAR (R466): accepted in any content state but NONE; a verification pass gives way to it. -/
def execContentClear (st : Fin 16) (s : State) : Result := if s.barShut then ignored s else
  if (s.stack st).content = .none then .next (s.refusedBit st true)
  else .next ((s.setStk st (fun k => { k with verifying := false, clearing := true })).refusedBit st false)

/-- Blocks of a sheet that fail their ECC or, with ROWCHK 0, their BCV: those listed or of undefined
content, and how many a failed channel adds. -/
def State.badBlocks (s : State) (st : Nat) : List Nat × Nat :=
  let n := s.plan.channels st
  let mine := fun (a : Nat) => decide (st * 2 ^ 36 ≤ a ∧ a < st * 2 ^ 36 + n * 2 ^ 30) && !s.ram.gone a
  let lost := (s.ram.lost.filter (fun (e : Nat × Nat × Bool) => e.1 / 64 == st)).flatMap (fun (e : Nat × Nat × Bool) =>
    (List.range (2 ^ 22)).map (fun i => e.1 * 2 ^ 30 + 256 * i))
  ((((s.ram.blks.filter (fun (e : Nat × Blk) => (s.ram.lostAt (256 * e.1)).isNone)).map (fun (e : Nat × Blk) => 256 * e.1) ++ lost).filter (fun a =>
      mine a && !(s.ram.blk a).moverOk)),
    (s.ram.dead.filter (fun d => d / 64 == st)).length * 2 ^ 22)

/-- Record slots of a wing's room (R147). -/
def roomSlots (l : Nat) : Nat := if l = 0 then 0 else 1044480 / l

/-- The slots of a sheet's TABLE wings that hold a listed byte or a listed block, as (wing, room, slot). -/
def State.listedSlots (s : State) (w t : List Byte) : List (Nat × Nat) :=
  let l := tRecLen t
  let at' := fun (a : Nat) =>
    let o := dpaOffset a
    if a < 2 ^ 40 ∧ dpaRoom a / 65536 = wStack w ∧ wFirst w ≤ dpaRoom a / 1024 % 64 ∧ dpaRoom a / 1024 % 64 < wFirst w + wChans w ∧
        0 < l ∧ o / l < roomSlots l then some (dpaRoom a, o / l) else none
  (s.ram.bytes.filterMap (fun (e : Nat × Byte) => at' e.1) ++
    s.ram.blks.flatMap (fun (e : Nat × Blk) => (List.range 4).filterMap (fun i => at' (256 * e.1 + 64 * i))) ++
    s.ram.lost.flatMap (fun (e : Nat × Nat × Bool) => if e.1 / 64 = wStack w ∧ wFirst w ≤ e.1 % 64 ∧ e.1 % 64 < wFirst w + wChans w then
      (List.range 1024).flatMap (fun r => (List.range (roomSlots l)).map (fun j => (e.1 * 1024 + r, j))) else [])).eraseDups

/-- Whether a record slot passes its row check (R397). -/
def State.slotOk (s : State) (t : List Byte) (room slot : Nat) : Bool :=
  let l := tRecLen t
  let at' := fun (i : Nat) => roomDpa room (slot * l + 64 * i)
  (List.range (l / 64)).all (fun i => s.ram.eccOk (at' i) 64) &&
  rowCheckOk ((List.range (l / 64)).flatMap (fun i => s.ram.read (at' i) 64))

/-- Record slots of a wing that fail their row check: those listed, and how many nothing has written. -/
def State.badSlots (s : State) (w t : List Byte) : Nat :=
  let ls := s.listedSlots w t
  let blank := wRooms w * roomSlots (tRecLen t) - ls.length
  (ls.filter (fun r => !s.slotOk t r.1 r.2)).length + (if rowCheckOk (zeros (tRecLen t)) then 0 else blank)

/-- CONTENT_VERIFY_DONE (R465): the pass ends, what failed is counted, and the sheet is LIVE. -/
def execContentVerifyDone (st : Fin 16) (s : State) : Result :=
  if (s.stack st).verifying then
    let bs := s.badBlocks st
    let recs := ((s.plan.tableWings.filter (fun w => wStack w == st.val)).map (fun w =>
      match s.plan.table (wOwner w % 4096) with | some t => s.badSlots w t | none => 0)).sum
    let s := bs.1.foldl (fun (s : State) a => s.logCheck a (dpaRoom a)) s
    let s := s.mapIo (fun io => (io.putN .ST_VERIFY st (min recs 65535 * 65536 + min (bs.1.length + bs.2) 65535)).add .RL_BCV_FAILS 0 recs)
    .next (s.setStk st (fun k => { k with verifying := false, content := .live, preserve := none }))
  else ignored s

/-- Zeros with valid checks in every block of a sheet (R466). -/
def Ram.clearSheet (m : Ram) (st n : Nat) : Ram :=
  let mine := fun (a : Nat) => decide (st * 2 ^ 36 ≤ a ∧ a < st * 2 ^ 36 + n * 2 ^ 30) && !m.gone a
  { m with
    bytes := SMap.drop mine m.bytes
    blks := SMap.drop (fun b => mine (256 * b)) m.blks
    lost := m.lost.filter (fun e => e.1 / 64 != st || m.dead.contains e.1) }

/-- CONTENT_CLEAR_DONE (R466): every block of the sheet is zero with valid checks, and the sheet is LIVE. -/
def execContentClearDone (st : Fin 16) (s : State) : Result :=
  if (s.stack st).clearing then
    let n := s.plan.channels st
    let attic := atticInvalidate s.mx.attic (st * 2 ^ 36) (n * 2 ^ 30)
    let s := { s with
      ram := s.ram.clearSheet st n
      mx := { s.mx with attic := attic }
      io := s.io.add .MX_ATTIC_INVALS 0 (s.mx.attic.length - attic.length) }
    .next (s.setStk st (fun k => { k with clearing := false, content := .live, preserve := none }))
  else ignored s

/-! ### Training at an application (R92, R96, R100, R103) -/

/-- Train a stack's channels: those of `phs` return to service with what they hold, and hard repairs burned on them take
effect (R96, R100). -/
def Stack.train (k : Stack) (phs : List Nat) (now frame : Nat) : Stack :=
  let k := { k with hardOn := k.hard.filter (fun (r : Repair) => k.hardOn.contains r || phs.contains r.channel) }
  phs.foldl (fun (k : Stack) ph => k.setChan ph (fun c => { c with st := .ready, since := now, temps := k.temps, frame := frame })) k

end Sys2Proof.Machine
end

