-- ==== Sys2Proof/Machine/Traffic.lean ====
section
/-! DEFINITION. Machine/Traffic.lean: partner connections (R283 to R287), receive windows (R280), datagrams (R288) and
multicast trees (R289 to R293). -/

namespace Sys2Proof.Machine

/-! ### Receive windows (R279, R280) -/

/-- Entry of a receive window. -/
def Plan.window (p : Plan) (w : Nat) : Option (List Byte) :=
  if p.has 0x22 ∧ w < u16 (p.sec 0x22) 2 then some (slice (p.sec 0x22) (64 + 16 * w) 16) else none

/-- Whether a window admits bytes from a source at an offset. -/
def State.windowOk (s : State) (w src off n : Nat) : Bool :=
  match s.plan.window w with
  | some e =>
    decide (off + n ≤ u32 e 8) &&
    (u16 e 14 == 0xFFFF || (match s.fab.groups.at (u16 e 14) with | some ms => ms.contains src | none => false))
  | none => false

/-- Whether `n` bytes at an offset of a window take no access now (R48, R97, R98). -/
def State.windowHeld (s : State) (w off n : Nat) : Bool :=
  match s.plan.window w with
  | some e => u8 e 12 == 0 && s.dpaHeld (u64 e 0 + off) n
  | none => false

/-- Bytes written into a window with new BCVs (Table 17-1). -/
def State.windowWrite (s : State) (w off : Nat) (bs : List Byte) : State :=
  match s.plan.window w with
  | some e =>
    if u8 e 12 = 1 then s.storeWrite .device (u8 e 13) (u64 e 0 + off) bs else s.sheetWrite .device (u64 e 0 + off) bs
  | none => s

/-- Whether bytes written into a window reach a failed channel (R100). -/
def State.windowGone (s : State) (w off n : Nat) : Bool :=
  match s.plan.window w with
  | some e => u8 e 12 != 1 && s.ram.goneIn (u64 e 0 + off) n
  | none => false

/-- A refusal under R280. -/
def State.windowRefused (s : State) : State := s.mapIo (fun io => (io.inc .FB_WINDOW_REFUSED).event .FB_TRAFFIC_EVENT 0 5)

/-! ### The entry table (R283) -/

/-- The lowest free partner entry. -/
def Fabric.freeConn (f : Fabric) : Option Nat := (List.range 4096).find? (fun k => (f.conns.at k).isNone)

/-- A new entry of a class and PATH to a device. -/
def freshConn (remote cls path epoch now : Nat) (cmd : Option Nat) : Conn :=
  ⟨remote, cls, path, .opening, epoch, 0, false, cmd, now, 0, 0, [], 0, 0⟩

/-- CMD_CONNECT (R283): an entry is listed and OPEN goes out; a BROKEN entry to the same device, class and PATH is listed
again. -/
def execCmdConnect (id : Nat) (s : State) : Result :=
  match s.readyCmd id 0x13 with
  | none => ignored s
  | some c =>
    let ref := u16 c.entry 0x10
    let cls := u8 c.entry 0x12
    let path := u8 c.entry 0x13
    let again := (s.fab.conns.list.find? (fun e =>
      e.2.st == .broken && e.2.remote == ref && e.2.cls == cls && e.2.path == path)).map (·.1)
    match again.orElse (fun _ => s.fab.freeConn) with
    | none => .next (s.finish id stInvalid 0)
    | some k =>
      if 2 < cls ∨ 3 < path ∨ 16384 ≤ ref ∨ s.plan.hasGrid = false then .next (s.finish id stInvalid 0)
      else
        let ep := s.fab.nextEpoch
        let s := s.runCmd id 1
        let s := { s with fab := { s.fab with
          conns := s.fab.conns.put k (freshConn ref cls path ep s.mer.now (some id)), nextEpoch := (ep + 1) % 65536 } }
        .next (s.sendTo none ref 3 path 0x10 { Msg.blank with
          cls := 3, epoch := ep, arg := k + 2 ^ 16 * cls + 2 ^ 18 * path }).2

/-- Answer an OPEN. -/
def State.accept (s : State) (ref path partner epoch own st : Nat) : State :=
  (s.sendTo none ref 3 path 0x11 { Msg.blank with cls := 3, conn := partner, epoch := epoch, arg := st + 2 ^ 16 * own }).2

/-- A pull cannot be served: a second PRUNED completion with LOST (R292). -/
def State.pullLost (s : State) (id : Nat) : State :=
  match s.fab.trees.at id with
  | some t =>
    match t.missing with
    | some (m, _) =>
      let s := { s with fab := { s.fab with trees := s.fab.trees.put id { t with missing := none } } }
      ((s.notify t.notify id stPruned (m + 2 ^ 32) false s.mer.count 0).2).mapIo (fun io => io.event .FB_TRAFFIC_EVENT 0 3)
    | none => s
  | none => s

/-- What becomes of a message once it is answered with a status, or never will be. -/
def State.outDone (s : State) (o : Outgoing) (st : Nat) : State :=
  if o.kind = 0x14 then s.connCmd o.cmd st 0
  else if o.kind = 0x17 then s.gradAnswer o.msg.arg st
  else if o.kind = 0x1C ∧ st ≠ stDone then s.pullLost o.msg.tag
  else s

/-- A close whose connection has nothing outstanding sends CLOSE and completes (R287). -/
def State.settleClose (s : State) (k : Nat) : State :=
  match s.fab.conns.at k with
  | some c =>
    if c.st = .closing ∧ c.outs = [] then
      let s := (s.sendTo none c.remote 3 c.path 0x12 { Msg.blank with cls := 3, conn := c.partner, epoch := c.epoch }).2
      { s with fab := { s.fab with conns := s.fab.conns.del k } }.connCmd c.cmd stDone 0
    else s
  | none => s

/-- Everything outstanding on a connection is unreachable (R286, R287). -/
def State.failConn (s : State) (k : Nat) (c : Conn) : State :=
  let s := s.setConn k (fun c => { c with outs := [] })
  let s := c.outs.foldl (fun (s : State) o => s.outDone o stUnreach) s
  ((s.breakParts c.remote c.cls).collBreak c.remote c.cls).pumpAll

/-- RX_OPEN (R283): a mirror entry is made and answered; ARG names the opener's entry, class and PATH. A repeated OPEN is
answered again; one with a new epoch renews its mirror, whose outstanding sends are unreachable. -/
def execRxOpen (p : Fin 64) (m : Msg) (s : State) : Result :=
  if (s.port p).linked = false ∨ s.host.parked = true then ignored s
  else
    let partner := m.arg % 4096
    let cls := m.arg / 2 ^ 16 % 4
    let path := m.arg / 2 ^ 18 % 4
    let old := s.fab.conns.list.find? (fun e => e.2.mirror && e.2.remote == m.src && e.2.partner == partner)
    match old with
    | some (k, c) =>
      if c.epoch = m.epoch then .next (s.accept m.src path partner m.epoch k 0)
      else
        let x : Conn := { freshConn m.src cls path m.epoch s.mer.now none with st := .opened, partner := partner, mirror := true }
        let s := (s.setConn k (fun c => { c with st := .broken })).failConn k c
        let s := { s with fab := { s.fab with conns := s.fab.conns.put k x } }
        .next (s.accept m.src path partner m.epoch k 0)
    | none =>
      match s.fab.freeConn with
      | some k =>
        let x : Conn := { freshConn m.src cls path m.epoch s.mer.now none with st := .opened, partner := partner, mirror := true }
        let s := { s with fab := { s.fab with conns := s.fab.conns.put k x } }
        .next (s.accept m.src path partner m.epoch k 0)
      | none => .next ((s.mapIo (fun io => io.inc .FB_CONN_REFUSED)).accept m.src path partner m.epoch 0 1)

/-- RX_ACCEPT (R283). -/
def execRxAccept (p : Fin 64) (m : Msg) (s : State) : Result :=
  if (s.port p).linked = false then ignored s
  else
    match s.fab.conns.at m.conn with
    | some c =>
      if c.st = .opening ∧ c.epoch = m.epoch ∧ c.remote = m.src then
        if m.arg % 256 = 0 then
          let s := s.setConn m.conn (fun c => { c with st := .opened, partner := m.arg / 2 ^ 16 % 4096, cmd := none })
          .next (s.connCmd c.cmd stDone m.conn)
        else
          let s := { s with fab := { s.fab with conns := s.fab.conns.del m.conn }, io := s.io.inc .FB_CONN_REFUSED }
          .next (s.connCmd c.cmd stUnreach 0)
      else ignored s
    | none => ignored s

/-- CONNECT_TIMEOUT (R283). -/
def execConnectTimeout (k : Fin 4096) (s : State) : Result :=
  match s.fab.conns.at k with
  | some c =>
    if c.st = .opening ∧ c.since + s.plan.connTimeout ≤ s.mer.now then
      .next ({ s with fab := { s.fab with conns := s.fab.conns.del k } }.connCmd c.cmd stUnreach 0)
    else ignored s
  | none => ignored s

/-! ### Acknowledgement, retransmission and breaks (R284 to R287) -/

/-- Payload that a retransmission carries: its source bytes read again (R285). -/
def State.outAgain (s : State) (o : Outgoing) : Msg :=
  match o.src with
  | none => o.msg
  | some a =>
    if o.kind = 0x18 then
      let data := s.ram.read a (o.msg.payload.length - 16)
      { o.msg with payload := o.msg.payload.take 16 ++ data, digest := collDigest o.msg.tag o.msg.arg data }
    else { o.msg with payload := s.ram.read a o.msg.payload.length }

/-- RX_ACK (R284, R285, R299): the messages it covers are done, the last of them with its status (R21; log entry 165); RESEND has the sender read
that chunk again and send it once more. -/
def execRxAck (p : Fin 64) (m : Msg) (s : State) : Result :=
  if (s.port p).linked = false then ignored s
  else
    match s.fab.conns.at m.conn with
    | some c =>
      if c.epoch = m.epoch ∧ c.remote = m.src ∧ (c.st = .opened ∨ c.st = .closing) then
        match c.outs.findIdx? (fun o => o.msg.mseq == m.mseq) with
        | none => ignored s
        | some i =>
          let s := s.setConn m.conn (fun c => { c with outs := c.outs.drop (i + 1) })
          let done := c.outs.take (i + 1)
          let s := done.zipIdx.foldl (fun (s : State) (o : Outgoing × Nat) =>
            s.outDone o.1 (if o.2 = i then endStatus (m.arg % 256) else stDone)) s
          let s := match c.outs[i]? with
            | some o => if bit m.arg 8 then s.connSendIn m.conn o.msg.cls o.kind (s.outAgain o) o.src o.cmd none else s
            | none => s
          .next (s.settleClose m.conn)
      else ignored s
    | none => ignored s

/-- RETRANSMIT (R284, R285): RTO_US after the oldest unacknowledged message was last sent, all are sent again in order. -/
def execRetransmit (k : Fin 4096) (s : State) : Result :=
  match s.fab.conns.at k with
  | some c =>
    match c.outs with
    | [] => ignored s
    | o :: _ =>
      if (c.st = .opened ∨ c.st = .closing) ∧ o.lastAt + s.plan.rto ≤ s.mer.now then
        let s := s.setConn k (fun c => { c with
          outs := c.outs.map (fun o => { o with lastAt := s.mer.now }), retx := min 0xFFFFFFFF (c.retx + c.outs.length) })
        .next (c.outs.foldl (fun (s : State) o => (s.sendTo none c.remote o.msg.cls c.path o.kind (s.outAgain o)).2) s)
      else ignored s
  | none => ignored s

/-- CONN_BREAK (R286): CONN_TIMEOUT_US after the oldest unacknowledged message was first sent, the connection breaks. -/
def execConnBreak (k : Fin 4096) (s : State) : Result :=
  match s.fab.conns.at k with
  | some c =>
    match c.outs with
    | [] => ignored s
    | o :: _ =>
      if (c.st = .opened ∨ c.st = .closing) ∧ o.firstAt + s.plan.connTimeout ≤ s.mer.now then
        let s := (s.setConn k (fun c => { c with st := if c.st = .closing then .closing else .broken })).mapIo
          (fun io => io.event .FB_TRAFFIC_EVENT 0 0)
        .next ((s.failConn k c).settleClose k)
      else ignored s
  | none => ignored s

/-- CMD_CLOSE (R287). -/
def execCmdClose (id : Nat) (s : State) : Result :=
  match s.readyCmd id 0x14 with
  | none => ignored s
  | some x =>
    let k := u16 x.entry 0x10
    match s.fab.conns.at k with
    | none => .next (s.finish id stInvalid 0)
    | some c =>
      if c.st = .opening ∨ c.st = .closing then .next (s.finish id stInvalid 0)
      else .next (((s.runCmd id 1).setConn k (fun c => { c with st := .closing, cmd := some id })).settleClose k)

/-- RX_CLOSE (R287): sends still unacknowledged are unreachable, and the entry is free. -/
def execRxClose (p : Fin 64) (m : Msg) (s : State) : Result :=
  if (s.port p).linked = false then ignored s
  else
    match s.fab.conns.at m.conn with
    | some c =>
      if c.epoch = m.epoch ∧ c.remote = m.src then
        let s := (s.setConn m.conn (fun c => { c with st := .broken })).failConn m.conn c
        .next ({ s with fab := { s.fab with conns := s.fab.conns.del m.conn } }.connCmd (if c.st = ConnState.closing then c.cmd else none) stDone 0)
      else ignored s
    | none => ignored s

/-! ### SEND and WRITE (R280, R285) -/

/-- The payload of a sending command: refused where it does not lie in a sheet, held while its stack drains, or stopped by a
failed check (R399). -/
def State.sendPayload (s : State) (c : Cmd) : Nat ⊕ Option (List Byte) :=
  let a := u64 c.entry 0x18
  let n := cCount c.entry
  if 65536 < n ∨ (0 < n ∧ s.plan.dpaOk a n = false) ∨ 63 < u8 c.entry 0x12 then .inl stInvalid
  else if 0 < n ∧ s.dpaHeld a n = true then .inr none
  else if 0 < n ∧ s.ram.moverOk a n = false then .inl stCheck
  else .inr (some (s.ram.read a n))

/-- CMD_SEND (R281, R285): a WRITE on a partner connection. -/
def execCmdSend (id : Nat) (s : State) : Result :=
  match s.readyCmd id 0x18 with
  | none => ignored s
  | some c =>
    let k := u16 c.entry 0x10
    match s.fab.conns.at k with
    | none => .next (s.finish id stInvalid 0)
    | some x =>
      if x.st = .broken then .next (s.finish id stUnreach 0)
      else if x.st ≠ .opened then .next (s.finish id stInvalid 0)
      else
        match s.sendPayload c with
        | .inl st => .next ((if st = stCheck then s.logCheck (u64 c.entry 0x18) (dpaRoom (u64 c.entry 0x18)) else s).finish id st 0)
        | .inr none => ignored s
        | .inr (some b) =>
          let (cls, s) := s.sendClass x.cls (c.cls = 0)
          .next ((s.runCmd id 1).connSendIn k cls 0x14
            { Msg.blank with window := u8 c.entry 0x12, arg := u64 c.entry 0x20, payload := b }
            (some (u64 c.entry 0x18)) (some id) (some c.share))

/-- RX_WRITE (R280, R284): the next message of its connection is written into its window, or refused. -/
def execRxWrite (p : Fin 64) (m : Msg) (s : State) : Result :=
  if (s.port p).linked = false then ignored s
  else
    match s.connTakes m with
    | none => ignored s
    | some (k, false) => .next (s.ackAgain k)
    | some (k, true) =>
      if s.windowOk m.window m.src m.arg m.payload.length then
        if s.windowHeld m.window m.arg m.payload.length then ignored s
        else .next ((s.windowWrite m.window m.arg m.payload).accepted k
          (if s.windowGone m.window m.arg m.payload.length then stCheck else stDone))
      else .next (s.windowRefused.accepted k stInvalid)

/-! ### Datagrams (R288) -/

/-- CMD_DATAGRAM (R288): it completes when its last flit has left the device. -/
def execCmdDatagram (id : Nat) (s : State) : Result :=
  match s.readyCmd id 0x19 with
  | none => ignored s
  | some c =>
    let ref := u16 c.entry 0x10
    if c.cls = 0 ∨ 3 < u8 c.entry 0x13 ∨ 16384 ≤ ref ∨ s.plan.hasGrid = false then .next (s.finish id stInvalid 0)
    else
      match s.sendPayload c with
      | .inl st => .next ((if st = stCheck then s.logCheck (u64 c.entry 0x18) (dpaRoom (u64 c.entry 0x18)) else s).finish id st 0)
      | .inr none => ignored s
      | .inr (some b) =>
        if s.distTo ref = 255 then .next (s.finish id stUnreach 0)
        else
          .next ((s.runCmd id 1).sendTo (some c.share) ref c.cls (u8 c.entry 0x13) 0x19
            { Msg.blank with cls := c.cls, window := u8 c.entry 0x12, arg := u64 c.entry 0x20, payload := b } (some id)).2

/-- RX_DGRAM: into the window, or discarded. -/
def execRxDgram (p : Fin 64) (m : Msg) (s : State) : Result :=
  if (s.port p).linked = false then ignored s
  else if s.windowOk m.window m.src m.arg m.payload.length then
    if s.windowHeld m.window m.arg m.payload.length then ignored s else .next (s.windowWrite m.window m.arg m.payload)
  else .next s.windowRefused

/-! ### Multicast trees (R289 to R293) -/

/-- Change a tree entry. -/
def State.setTree (s : State) (id : Nat) (f : Tree → Tree) : State :=
  { s with fab := { s.fab with trees := s.fab.trees.upd id f } }

/-- A tree entry that leads nowhere yet. -/
def freshTree (cls rootRef parent now : Nat) : Tree :=
  ⟨cls, false, rootRef, parent, 0, [], [], [], [], none, 0, false, false, 0, 0xFFFF, 0, none, 0, 0, 0, [], [], 0, none, now⟩

/-- What a TREE_SETUP asks: install, remove, installed (the member's answer to the root), rebuild (R293). -/
def setupMsg (id op window notify cls : Nat) : Msg :=
  { Msg.blank with cls := 3, tag := id, arg := op + 2 ^ 8 * window + 2 ^ 16 * notify + 2 ^ 32 * cls }

/-- An entry leads to one more member by a port. -/
def Tree.lead (t : Tree) (l : Leaf) : Tree :=
  { t with kids := t.kids ||| 2 ^ l.port, leaves := t.leaves.filter (fun x => x.ref != l.ref) ++ [l] }

/-- The root starts a member: TREE_SETUP goes along the route, or the member is itself. -/
def State.setupMember (s : State) (id cls ref window notify : Nat) : State :=
  if ref = s.plan.ref then
    s.setTree id (fun t => { t with member := true, window := window, notify := notify, reached := t.reached + 1, todo := t.todo.erase ref })
  else
    match s.route ref 3 0 with
    | some q => (s.setTree id (fun t => t.lead ⟨q, ref, window, notify⟩)).sendTo none ref 3 0 0x1E (setupMsg id 0 window notify cls) |>.2
    | none => s

/-- A tree command ends once every member has installed its entry. -/
def State.settleTree (s : State) (id : Nat) : State :=
  match s.fab.trees.at id with
  | some t =>
    match t.cmd with
    | some c => if t.todo.isEmpty then (s.setTree id (fun t => { t with cmd := none })).finish c stDone t.reached else s
    | none => s
  | none => s

/-- CMD_TREE (R289): the tree is installed from its root, or removed. -/
def execCmdTree (id : Nat) (s : State) : Result :=
  match s.readyCmd id 0x15 with
  | none => ignored s
  | some c =>
    let tr := u16 c.entry 0x10
    let cls := u8 c.entry 0x12
    let size := u32 c.entry 0x14
    let a := u64 c.entry 0x18
    let n := cCount c.entry
    if 4096 ≤ tr ∨ s.plan.hasGrid = false then .next (s.finish id stInvalid 0)
    else if n = 0 then
      match s.fab.trees.at tr with
      | some t =>
        if t.root then
          let s := t.leaves.foldl (fun (s : State) l => (s.sendTo none l.ref 3 0 0x1E (setupMsg tr 1 0 0 t.cls)).2) s
          .next ({ s with fab := { s.fab with trees := s.fab.trees.del tr } }.finish id stDone 0)
        else .next (s.finish id stInvalid 0)
      | none => .next (s.finish id stInvalid 0)
    else if 2 < cls ∨ size % 65536 ≠ 0 ∨ size < 65536 ∨ 2 ^ 26 < size ∨ s.plan.dpaOk a (16 + 8 * n) = false then
      .next (s.finish id stInvalid 0)
    else if s.dpaHeld a (16 + 8 * n) then ignored s
    else if s.ram.moverOk a (16 + 8 * n) = false then .next ((s.logCheck a (dpaRoom a)).finish id stCheck 0)
    else
      let b := s.ram.read a (16 + 8 * n)
      let ms := (chunks (b.drop 16) 8 n).map (fun e => (u16 e 0, u8 e 2, u16 e 3))
      if s.plan.dpaOk (u64 b 0) size = false ∨ ms.any (fun (m : Nat × Nat × Nat) => decide (16384 ≤ m.1) || decide (63 < m.2.1)) then
        .next (s.finish id stInvalid 0)
      else
        let t := { freshTree cls s.plan.ref 0xFF s.mer.now with
          root := true, base := u64 b 0, size := size, todo := ms.map (fun (m : Nat × Nat × Nat) => m.1), cmd := some id }
        let s := s.runCmd id 1
        let s := { s with fab := { s.fab with trees := s.fab.trees.put tr t } }
        .next ((ms.foldl (fun (s : State) (m : Nat × Nat × Nat) => s.setupMember tr cls m.1 m.2.1 m.2.2) s).settleTree tr)

/-- A member's answer to the root of tree `id` (R289). -/
def State.treeReached (s : State) (id src : Nat) : State :=
  (s.setTree id (fun t =>
    if t.todo.contains src then { t with todo := t.todo.erase src, reached := t.reached + 1 } else t)).settleTree id

/-- The entry of tree `id` that a TREE_SETUP leaves on a device of the route (R289, R293). -/
def State.treeEntry (s : State) (p id op cls src : Nat) : Tree :=
  match s.fab.trees.at id with
  | some t => if t.root then t else { t with cls := cls, rootRef := if op = 3 then t.rootRef else src, parent := p }
  | none => freshTree cls src p s.mer.now

/-- The entry as a member: the window, the notification, and the place the first message takes (R289). -/
def Tree.join (t : Tree) (op window notify : Nat) : Tree :=
  { t with member := true, window := window, notify := notify, next := if op = 0 then 0 else t.next
           missing := if op = 0 then none else t.missing }

/-- A device named by a TREE_SETUP is a member; one the route passes through leads to it. -/
def State.treeJoin (s : State) (dest : Fin 16384) (id op window notify cls src : Nat) : State :=
  if dest.val = s.plan.ref then
    (if op = 0 then ((s.setTree id (fun t => t.join op window notify)).sendTo none src 3 0 0x1E
        (setupMsg id 2 window notify cls)).2
      else s.setTree id (fun t => t.join op window notify))
  else
    match s.route dest 3 0 with
    | some q => s.setTree id (fun t => t.lead ⟨q, dest.val, window, notify⟩)
    | none => s

/-- What a TREE_SETUP of operation `op` does to tree `id` (R289, R293): 1 removes it, 2 is a member's answer. -/
def State.treeSetup (s : State) (p : Nat) (dest : Fin 16384) (id op window notify cls src : Nat) : State :=
  if op = 1 then { s with fab := { s.fab with trees := s.fab.trees.del id } }
  else if op = 2 then (if dest.val = s.plan.ref then s.treeReached id src else s)
  else
    { s with fab := { s.fab with trees := s.fab.trees.put id (s.treeEntry p id op cls src) } }.treeJoin dest id op window
      notify cls src

/-- RX_TREE_SETUP (R289, R293): every device on a member's route installs or removes its entry; the member answers the
root. -/
def execRxTreeSetup (p : Fin 64) (dest : Fin 16384) (m : Msg) (s : State) : Result :=
  if (s.port p).linked = false then ignored s
  else
    .next (s.treeSetup p dest (m.tag % 4096) (m.arg % 256) (m.arg / 2 ^ 8 % 256) (m.arg / 2 ^ 16 % 65536)
      (m.arg / 2 ^ 32 % 4) m.src)

/-- TREE_SETUP_TIMEOUT (R289): the tree serves the members that were reached. -/
def execTreeSetupTimeout (tr : Fin 4096) (s : State) : Result :=
  match s.fab.trees.at tr with
  | some t =>
    match t.cmd with
    | some c =>
      if t.since + s.plan.connTimeout ≤ s.mer.now ∧ t.todo ≠ [] then
        .next ((s.setTree tr (fun t => { t with cmd := none })).finish c stUnreach t.reached)
      else ignored s
    | none => ignored s
  | none => ignored s

/-- A message is kept in the replay window, which keeps the latest that fit (R290). -/
def State.keepReplay (s : State) (id window arg : Nat) (b : List Byte) : State :=
  match s.fab.trees.at id with
  | none => s
  | some t =>
    let n := b.length
    let at' := if t.size < t.place + n then 0 else t.place
    let log := (t.log.filter (fun r => !(decide (r.offset < at' + n) && decide (at' < r.offset + r.len)))) ++
      [⟨t.next, at', window, arg, n⟩]
    let s := if n = 0 then s else s.sheetWrite .device (t.base + at') b
    s.setTree id (fun t => { t with log := log, place := at' + n, next := (t.next + 1) % 2 ^ 32 })

/-- CMD_MCAST (R290): a message from a tree's root; it completes when its last flit has left. -/
def execCmdMcast (id : Nat) (s : State) : Result :=
  match s.readyCmd id 0x1A with
  | none => ignored s
  | some c =>
    let tr := u16 c.entry 0x10
    match s.fab.trees.at tr with
    | none => .next (s.finish id stInvalid 0)
    | some t =>
      if t.root = false then .next (s.finish id stInvalid 0)
      else
        match s.sendPayload c with
        | .inl st => .next ((if st = stCheck then s.logCheck (u64 c.entry 0x18) (dpaRoom (u64 c.entry 0x18)) else s).finish id st 0)
        | .inr none => ignored s
        | .inr (some b) =>
          if s.dpaHeld t.base t.size then ignored s
          else
            let (cls, s) := s.sendClass t.cls (c.cls = 0)
            let off := u64 c.entry 0x20
            let m := { Msg.blank with
              src := s.plan.ref, cls := cls, mseq := t.next, window := u8 c.entry 0x12, tag := tr, arg := off, payload := b }
            let s := s.keepReplay tr (u8 c.entry 0x12) off b
            let s := if t.member then
                (if s.windowOk t.window s.plan.ref off b.length then s.windowWrite t.window off b else s.windowRefused)
              else s
            let fs := flitsOf cls 0 (16384 + tr) s.plan.ref 0x1A s.plan.maxHops (msgBytes m)
            let s := s.mapIo (fun io => io.addWide .SC_GRP_FLITS_LO c.share fs.length)
            .next ((s.runCmd id 1).treeSend tr (ownTx fs c.share (some id)))

/-- A member asks the root for what it is missing, or without a connection has lost it (R287, R292). -/
def State.pull (s : State) (id : Nat) : State :=
  match s.fab.trees.at id with
  | some t =>
    match t.missing, s.connFor t.rootRef t.cls with
    | some (m, _), some k => s.connSend k 0x1C { Msg.blank with tag := id, arg := m } none none none
    | some _, none => (s.mapIo (fun io => io.inc .FB_NO_PARTNER)).pullLost id
    | none, _ => s
  | none => s

/-- A member takes tree message `seq` in order (R290): written, or refused and counted. -/
def State.takeTree (s : State) (id : Nat) (t : Tree) (off : Nat) (b : List Byte) : State :=
  let s := if s.windowOk t.window t.rootRef off b.length then s.windowWrite t.window off b else s.windowRefused
  s.setTree id (fun t => { t with next := (t.next + 1) % 2 ^ 32 })

/-- RX_MCAST (R290, R292): a live message, or one replayed on the connection to the root; each is taken once, in MSEQ
order. The last one replayed has the member graft itself again. -/
def execRxMcast (p : Fin 64) (m : Msg) (s : State) : Result :=
  if (s.port p).linked = false then ignored s
  else
    let id := m.tag % 4096
    match s.fab.trees.at id with
    | none => ignored s
    | some t =>
      if t.member = false ∨ s.windowHeld t.window (if m.conn = 0xFFFF then m.arg else m.arg % 2 ^ 32) m.payload.length = true then ignored s
      else if m.conn = 0xFFFF then
        if m.mseq = t.next then .next (s.takeTree id t m.arg m.payload)
        else if (m.mseq + 2 ^ 32 - t.next) % 2 ^ 32 < 2 ^ 31 ∧ t.missing.isNone then
          .next ((s.setTree id (fun t => { t with missing := some (t.next, s.plan.ref) })).pull id)
        else ignored s
      else
        match s.connTakes m with
        | none => ignored s
        | some (k, false) => .next (s.ackAgain k)
        | some (k, true) =>
          let s := s.accepted k stDone
          let s := if m.arg / 2 ^ 32 = t.next ∧ m.window ≠ 0xFFFF then s.takeTree id t (m.arg % 2 ^ 32) m.payload else s
          if m.window / 2 ^ 15 = 0 then .next s
          else
            let s := s.setTree id (fun t => { t with missing := none })
            match t.missing with
            | some (_, from') =>
              .next (if from' = s.plan.ref then s else (s.sendTo none from' 3 0 0x1D { Msg.blank with cls := 3, tag := id }).2)
            | none => .next s

/-- RX_PRUNE (R291, R292): the stream stopped; a member says so and asks the root for what follows. -/
def execRxPrune (p : Fin 64) (m : Msg) (s : State) : Result :=
  if (s.port p).linked = false then ignored s
  else
    let id := m.tag % 4096
    match s.fab.trees.at id with
    | none => ignored s
    | some t =>
      let s := s.setTree id (fun t => { t with mid := false })
      let s := (List.range 64).foldl (fun (s : State) q =>
        if bit t.kids q then
          s.setPort q (fun x => { x with cur := x.cur.map (fun o =>
            match o with | some i => (if i.2.2.1 = 16384 + id then none else some i) | none => none) })
        else s) s
      if t.member then
        let first := m.arg % 2 ^ 32
        let s := ((s.notify t.notify id stPruned first false s.mer.count 0).2).mapIo (fun io => io.event .FB_TRAFFIC_EVENT 0 2)
        .next ((s.setTree id (fun t => { t with missing := some (t.next, m.src) })).pull id)
      else .next s

/-- RX_PULL (R292): the root resends from its replay window on the connection that asks; a first message that has left the
window is answered NO_STATE. -/
def execRxPull (p : Fin 64) (m : Msg) (s : State) : Result :=
  if (s.port p).linked = false then ignored s
  else
    match s.connTakes m with
    | none => ignored s
    | some (k, false) => .next (s.ackAgain k)
    | some (k, true) =>
      let id := m.tag % 4096
      match s.fab.trees.at id with
      | none => .next (s.accepted k stInvalid)
      | some t =>
        if t.root = false then .next (s.accepted k stInvalid)
        else
          let s := s.mapIo (fun io => io.inc .FB_PULLS)
          let rs := t.log.dropWhile (fun r => r.mseq != m.arg % 2 ^ 32)
          if rs.isEmpty && m.arg % 2 ^ 32 != t.next then .next (s.accepted k stNoState)
          else
            let s := s.accepted k stDone
            let s := rs.zipIdx.foldl (fun (s : State) (r : Replay × Nat) =>
              s.connSend k 0x1A { Msg.blank with
                tag := id, window := r.1.window + (if r.2 + 1 = rs.length then 2 ^ 15 else 0), arg := r.1.arg + 2 ^ 32 * r.1.mseq
                payload := s.ram.read (t.base + r.1.offset) r.1.len } (some (t.base + r.1.offset)) none none) s
            .next (if rs.isEmpty then
                s.connSend k 0x1A { Msg.blank with tag := id, window := 0xFFFF, arg := 2 ^ 32 * t.next } none none none
              else s)

/-- RX_GRAFT (R292): the child port towards the member comes back at the next message boundary. -/
def execRxGraft (p : Fin 64) (m : Msg) (s : State) : Result :=
  if (s.port p).linked = false then ignored s
  else
    let id := m.tag % 4096
    match s.fab.trees.at id with
    | none => ignored s
    | some t =>
      match t.leaves.find? (fun l => l.ref == m.src) with
      | some l =>
        let s := s.setTree id (fun t => { t with grafts := if t.pruned.any (fun x => x.1 == l.port) then (t.grafts ++ [l.port]).eraseDups else t.grafts })
        .next (pumpTree s id (t.queue.length + 1))
      | none => ignored s

/-- Prune threshold of a class (R291). -/
def Plan.pruneMt (p : Plan) (cls : Nat) : Nat :=
  if cls = 0 then 2000
  else if p.has 0x22 then (if cls = 1 then u32 (p.sec 0x22) 4 else u32 (p.sec 0x22) 8)
  else if cls = 1 then 20000 else 100000

/-- PRUNE, naming the tree and the first MSEQ that was not sent. -/
def State.pruneMsg (s : State) (id first : Nat) : List Byte :=
  msgBytes { Msg.blank with src := s.plan.ref, cls := 3, tag := id, arg := first }

/-- BRANCH_PRUNE (R291): a flit has waited for one branch's credit alone longer than the threshold. -/
def execBranchPrune (tr : Fin 4096) (p : Fin 64) (s : State) : Result :=
  match s.fab.trees.at tr with
  | some t =>
    match t.queue, t.waitSince with
    | f :: _, some since =>
      if t.open.contains p.val = true ∧ (s.port p).takes f = false ∧ t.open.all (fun q => q == p.val || (s.port q).takes f) = true ∧
          since + s.plan.pruneMt t.cls ≤ s.mer.now then
        let first := t.unsent
        let s := s.pruneTree tr p
        .next (s.egress p (ownTx (flitsOf 3 0 (16384 + tr.val) s.plan.ref 0x1B s.plan.maxHops (s.pruneMsg tr first))))
      else ignored s
    | _, _ => ignored s
  | none => ignored s

/-- BRANCH_REBUILD (R293): a branch lost to a port that is DOWN is led along the current routes again; its members are told
where their stream stopped, and recover under R292. -/
def execBranchRebuild (tr : Fin 4096) (p : Fin 64) (s : State) : Result :=
  match s.fab.trees.at tr with
  | some t =>
    match t.pruned.find? (fun x => x.1 == p.val) with
    | some (_, first) =>
      if (s.port p).linked then ignored s
      else
        let lost := t.leaves.filter (fun l => l.port == p.val)
        let s := s.setTree tr (fun t => { t with
          kids := t.kids &&& (2 ^ 64 - 1 - 2 ^ p.val), pruned := t.pruned.filter (fun x => x.1 != p.val)
          leaves := t.leaves.filter (fun l => l.port != p.val) })
        .next (lost.foldl (fun (s : State) l =>
          match s.route l.ref 3 0 with
          | some q =>
            let s := s.setTree tr (fun t =>
              let new := !bit t.kids q
              let t := t.lead { l with port := q }
              if new then { t with pruned := t.pruned ++ [(q, first)] } else t)
            let s := (s.sendTo none l.ref 3 0 0x1E (setupMsg tr 3 l.window l.notify t.cls)).2
            s.forward l.ref 3 0 (ownTx (flitsOf 3 0 l.ref s.plan.ref 0x1B s.plan.maxHops (s.pruneMsg tr first)))
          | none => s) s)
    | none => ignored s
  | none => ignored s

end Sys2Proof.Machine
end

