-- ==== Sys2Proof/Machine/PlanCheck.lean ====
section
/-! DEFINITION. Machine/PlanCheck.lean: the floor-plan container and the checks that verification makes of it and of every
section's fields (chapter 2; R62, R66, R91, R146 to R149, R165, R173, R266, R271, R279, R335, R353, R388, R389, R405, R427,
R437, R453). -/

namespace Sys2Proof.Machine

/-- A failed check: code (Table 2-8), section id or 0, and what FP_ERR_DETAIL holds. -/
structure Bad where
  code : Nat
  sec : Nat
  detail : Nat
deriving DecidableEq, Repr

/-- A field check: the offset to report where it fails. -/
def chk (ok : Bool) (off : Nat) : Option Nat := if ok then none else some off

/-- The first failure of a list of checks. -/
def firstOf (xs : List (Option Nat)) : Option Nat := xs.findSome? id

/-- `n` numbers from `i` each with their checks: the first failure. -/
def eachOf (n : Nat) (f : Nat → Option Nat) : Option Nat := (List.range n).findSome? f

/-- `v` lies in a range. -/
def inRange (v lo hi : Nat) : Bool := decide (lo ≤ v) && decide (v ≤ hi)

/-- Whether two ranges of addresses meet. -/
def meets (a n b m : Nat) : Bool := decide (a < b + m) && decide (b < a + n)

/-! ### Section lengths (check 10) -/

/-- Bytes that a section needs for the fields that give its length, and the length they give. -/
def secLength (id : Nat) (x : List Byte) : Nat × Nat :=
  match id with
  | 0x01 => (0, 48)
  | 0x10 => (0, 16)
  | 0x11 => (0, 3088)
  | 0x20 => (0, 64)
  | 0x21 => (4, 32 + 8 * u16 x 0 + 16 * u16 x 2)
  | 0x22 => (4, 64 + 16 * u16 x 2)
  | 0x23 => (0, 528)
  | 0x30 => (0, 1024)
  | 0x31 => (6, 16 + 48 * u16 x 0 + 16 * u16 x 2 + 16 * u16 x 4)
  | 0x40 => (2, 0x110 + 16 * u16 x 0)
  | 0x50 => (0, 544)
  | 0x51 => (2, 16 + 16 * u16 x 0)
  | 0x60 => (2, 16 + 16 * u16 x 0)
  | 0x61 => (0, 88)
  | 0x70 => (0, 96)
  | 0x80 => (1, 16 + 16 * u8 x 0)
  | _ => (0, 0)

/-- The length check of a section. -/
def lengthBad (id : Nat) (x : List Byte) : Option Nat :=
  let l := secLength id x
  if x.length < l.1 then some x.length
  else if x.length ≠ l.2 then some (min x.length l.2)
  else none

/-! ### The sections -/

/-- Power envelope (Table 18-2). -/
def badEnvelope (x : List Byte) : Option Nat := firstOf [
  chk (inRange (u16 x 0) 1200 2400 && u16 x 0 % 100 == 0) 0,
  chk (inRange (u8 x 2) 0 7) 2,
  chk (inRange (u16 x 4) 2 1000) 4]

/-- Whether a sensor channel is Reserved (R435). -/
def channelReserved (c : Nat) : Bool := inRange c 218 227 || inRange c 238 255

/-- Whether a rule's ARG is one that its action takes (Table 18-7). -/
def ruleArgOk (action arg : Nat) : Bool :=
  match action with
  | 3 => inRange arg 0 7
  | 4 => inRange arg 1 8
  | 8 => true
  | 9 => inRange arg 12 24
  | _ => arg == 0

/-- Porch rules (R437). -/
def badPorch (x : List Byte) : Option Nat :=
  let n := u8 x 0
  firstOf [
    chk (inRange n 0 128) 0,
    eachOf 256 (fun c =>
      let o := 0x10 + 4 * c
      if channelReserved c then chk (u32 x o == 0) o
      else firstOf [chk (inRange (u8 x o) 0 4) o, chk (inRange (u8 x (o + 1)) 0 3) (o + 1), chk (inRange (u8 x (o + 2)) 0 10) (o + 2)]),
    eachOf n (fun r =>
      let o := 0x410 + 16 * r
      firstOf [
        chk (!channelReserved (u8 x o) && u8 x (0x10 + 4 * u8 x o) != 0) o,
        chk (inRange (u8 x (o + 2)) 1 9) (o + 2),
        chk (ruleArgOk (u8 x (o + 2)) (u8 x (o + 3))) (o + 3),
        chk (!f32nan (f32At x (o + 8)) && !f32lt (f32At x (o + 8)) 0#32) (o + 8),
        chk (decide (1 ≤ u16 x (o + 0xC))) (o + 0xC)]),
    eachOf (128 - n) (fun r =>
      let o := 0x410 + 16 * (n + r)
      chk ((slice x o 16).all (· == 0#8)) o)]

/-- Meridian inputs (Table 3-2, R55). -/
def badMeridian (x : List Byte) : Option Nat := firstOf [
  chk (inRange (u32 x 0) 500000 10000000 && u32 x 0 % 1000 == 0) 0,
  chk (inRange (u8 x 4) 0 2) 4,
  chk (u8 x 5 / 4 % 4 != 3) 5,
  chk (inRange (u16 x 6) 5 100) 6,
  chk (inRange (u16 x 8) 4 64) 8,
  chk (inRange (u16 x 0xA) 20 200) 0xA,
  chk (u64 x 0x10 % u32 x 0 == 0) 0x10,
  chk (inRange (u32 x 0x18) 0 100000) 0x18]

/-- The slot entries of a cycle table by owner: 0 class 0, 1 open, 2 maintenance. -/
def tableOwners (x : List Byte) : List Nat := (tableSlots x).map (·.owner)

/-- Offset of the first maintenance slot among the three that follow a class 0 slot, in a list of owners where the entry of
place `i` lies at `at' i`. -/
def badFollow (os : List Nat) (pairs : List (Nat × Nat)) (at' : Nat → Nat) : Option Nat :=
  pairs.findSome? (fun p => chk (!(os.getD p.1 1 == 0 && os.getD p.2 1 == 2)) (at' p.2))

/-- Cycle table (Tables 3-3 to 3-5, R66, R237, R388) under the plan `p` that it will be part of; `old`: the table in force,
for an amendment. -/
def badCycle (p : Plan) (old : Option (List Byte)) (x : List Byte) : Option Nat :=
  let n := u16 x 0
  let m := u16 x 2
  let f := u32 x 4
  let ss := tableSlots x
  let ins := tableInstants x
  let slot := fun (i : Nat) => 32 + 8 * i
  let inst := fun (i : Nat) => 32 + 8 * n + 16 * i
  let os := ss.map (·.owner)
  firstOf [
    chk (inRange n 1 256) 0,
    chk (inRange m 0 64) 2,
    chk (f == p.frameLen) 4,
    eachOf n (fun i =>
      let e := slice x (slot i) 8
      firstOf [
        chk (decide (5000 ≤ u32 e 0) && u32 e 0 % 1000 == 0) (slot i),
        chk (inRange (u8 e 4) 0 2) (slot i + 4),
        chk (if u8 e 4 = 0 then decide (0 < u16 e 6) && p.has 0x23 else u16 e 6 == 0) (slot i + 6)]),
    eachOf m (fun i =>
      let e := slice x (inst i) 16
      firstOf [
        chk (inRange (u8 e 0) 1 6) (inst i),
        chk (u8 e 0 == 3 || u8 e 1 == 0) (inst i + 1),
        chk (decide (1 ≤ u16 e 2)) (inst i + 2),
        chk (decide (u16 e 4 < u16 e 2)) (inst i + 4),
        chk (decide (u32 e 8 < f)) (inst i + 8),
        chk (if inRange (u8 e 0) 4 6 then decide (u32 e 8 + u32 e 0xC ≤ f) else u32 e 0xC == 0) (inst i + 0xC)]),
    chk ((ss.map (·.len)).sum == f) 4,
    badFollow os ((List.range n).flatMap (fun i => [1, 2, 3].map (fun k => (i, (i + k) % n)))) slot,
    match old with
    | some o =>
      let last := (tableOwners o).drop ((tableOwners o).length - 3)
      let l := last.length
      badFollow (last ++ os) ((List.range l).flatMap (fun i => ([1, 2, 3].map (fun k => (i, i + k))).filter (fun q => decide (l ≤ q.2))))
        (fun i => slot (i - l))
    | none => none,
    (([1, 2] : List Nat).findSome? (fun k =>
      match (ins.zipIdx.filter (fun (q : Instant × Nat) => q.1.kind == k)) with
      | _ :: b :: _ => some (inst b.2)
      | _ => none)),
    match ins.findIdx? (fun i => i.kind == 2) with
    | none => none
    | some j =>
      match ins[j]?, ins.find? (fun i => i.kind == 1) with
      | some fl, some cl =>
        let e := cl.period * f
        let d := (fl.phase * f + fl.offset + e - (cl.phase * f + cl.offset)) % e
        chk (fl.period == cl.period && decide (50000 ≤ d) && decide (d + 50000 ≤ e)) (inst j)
      | _, _ => some (inst j)]

/-- Traffic classes (R279). -/
def badTraffic (p : Plan) (x : List Byte) : Option Nat :=
  let n := u16 x 2
  firstOf [
    chk (inRange (u16 x 0) 1 446) 0,
    chk (inRange n 0 64) 2,
    chk (inRange (u32 x 4) 2000 1000000) 4,
    chk (inRange (u32 x 8) 2000 1000000) 8,
    chk (inRange (u16 x 0xC) 2 1000) 0xC,
    chk (inRange (u16 x 0xE) 100 60000) 0xE,
    eachOf n (fun i =>
      let o := 64 + 16 * i
      let e := slice x o 16
      firstOf [
        chk (u64 e 0 % 4096 == 0 &&
          (if u8 e 0xC = 1 then decide (u64 e 0 + u32 e 8 ≤ 2 ^ 23) else p.dpaOk (u64 e 0) (u32 e 8))) o,
        chk (decide (4096 ≤ u32 e 8) && u32 e 8 % 4096 == 0) (o + 8),
        chk (inRange (u8 e 0xC) 0 1) (o + 0xC),
        chk (if u8 e 0xC = 1 then inRange (u8 e 0xD) 0 63 else u8 e 0xD == 0) (o + 0xD),
        chk (inRange (u16 e 0xE) 0 4095 || u16 e 0xE == 0xFFFF) (o + 0xE)])]

/-- Whether an area of sheets meets a wing of the plan. -/
def Plan.meetsWing (p : Plan) (a n : Nat) : Bool :=
  p.wingList.any (fun w => meets a n (wStack w * 2 ^ 36 + wFirst w * 2 ^ 30) (wChans w * 2 ^ 30))

/-- Whether an area of sheets meets a receive window of the plan. -/
def Plan.meetsWindow (p : Plan) (a n : Nat) : Bool :=
  (List.range 64).any (fun i => match p.window i with | some e => u8 e 12 != 1 && meets a n (u64 e 0) (u32 e 8) | none => false)

/-- Share groups (R388, R389); `old`: the section in force, for an amendment. -/
def badShares (p : Plan) (old : Option (List Byte)) (x : List Byte) : Option Nat :=
  let base := u64 x 0
  let n := (64 + u16 x 8) * 2 ^ 20
  firstOf [
    chk (base % 2 ^ 20 == 0 && p.dpaOk base n && !p.meetsWing base n && !p.meetsWindow base n) 0,
    chk (inRange (u16 x 8) 0 960) 8,
    chk (inRange (u16 x 0xA) 50 10000) 0xA,
    eachOf 64 (fun g => chk (inRange (u8 x (0x12 + 8 * g)) 0 64) (0x12 + 8 * g)),
    match old with
    | some o => firstOf [chk (u64 o 0 == base) 0, chk (u16 o 8 == u16 x 8) 8]
    | none => none]

/-- Stacks and sheets (R91). -/
def badStacks (x : List Byte) : Option Nat := firstOf [
  chk (inRange (u16 x 2) 1 168) 2,
  chk (inRange (u16 x 4) 64 488) 4,
  chk (inRange (u16 x 6) 64 (u16 x 4)) 6,
  chk (inRange (u8 x 8) 75 90) 8,
  chk (inRange (u8 x 9) (u8 x 8 + 1) 94) 9,
  chk (inRange (u8 x 0xA) (u8 x 9 + 1) 98) 0xA,
  chk (inRange (u8 x 0xB) 2 5) 0xB,
  chk (inRange (u8 x 0xC) 5 20) 0xC,
  eachOf 16 (fun s =>
    let o := 0x40 + 32 * s
    if secInService x s then firstOf [
      chk (inRange (u8 x (o + 8)) 0 1) (o + 8),
      chk (inRange (u8 x (o + 9)) 1 32) (o + 9),
      chk (u16 x (o + 0xA) == 0 || inRange (u16 x (o + 0xA)) 64 488) (o + 0xA)]
    else none),
  eachOf 56 (fun i =>
    let o := 0x240 + 8 * i
    let e := slice x o 8
    let t := u32 e 4
    if u8 e 0 = 0 then chk (e.all (· == 0#8)) o
    else firstOf [
      chk (inRange (u8 e 0) 1 3) o,
      chk (inRange (u8 e 1) 0 15) (o + 1),
      chk (inRange (u8 e 2) 0 63) (o + 2),
      chk (if u8 e 0 = 3 then u8 e 3 == 0 else inRange (u8 e 3) 0 7) (o + 3),
      chk (if u8 e 0 = 3 then decide (t % 2048 < 1056) && inRange (t / 65536 % 2048) 1024 1055 else decide (t / 128 % 2048 < 1056)) (o + 4)])]

/-- Rows of shard k of a table (R145). -/
def shardRows (t : List Byte) (k : Nat) : Nat := if tRows t ≤ k then 0 else (tRows t - k - 1) / tShards t + 1

/-- Whether two wings are twins that obey R165. -/
def twinsOk (a b : List Byte) : Bool :=
  wTwin a == wId b && wTwin b == wId a && wKind a == 1 && wKind b == 1 && wOwner a % 4096 == wOwner b % 4096 &&
  wParam a == wParam b && wChans a == wChans b && wStack a != wStack b && wRead a == wRead b

/-- Wings and suites (R146 to R149, R165). -/
def badWings (p : Plan) (x : List Byte) : Option Nat :=
  let ts := secTables x
  let ws := secWings x
  let bs := secBatches x
  let tAt := fun (i : Nat) => 16 + 48 * i
  let wAt := fun (i : Nat) => 16 + 48 * ts.length + 16 * i
  let bAt := fun (i : Nat) => wAt ws.length + 16 * i
  firstOf [
    chk (inRange (u16 x 0) 0 4096) 0,
    chk (inRange (u16 x 2) 0 1024) 2,
    chk (inRange (u16 x 4) 0 64) 4,
    ts.zipIdx.findSome? (fun (q : List Byte × Nat) =>
      let t := q.1
      let o := tAt q.2
      let held := ((ws.filter (fun w => wKind w == 1 && wOwner w % 4096 == tId t)).map wParam).eraseDups.length
      firstOf [
        chk (!(ts.take q.2).any (fun u => tId u == tId t)) o,
        chk (inRange (tFmt t) 0 7) (o + 2),
        chk (inRange (tDim t) 16 1024 && tDim t % 16 == 0) (o + 4),
        chk (inRange (tPartial t) 0 1) (o + 6),
        chk (inRange (tSteer t) 0 15 && p.inService (tSteer t)) (o + 7),
        chk (decide (1 ≤ tRows t)) (o + 8),
        chk (inRange (tShards t) 1 262144) (o + 0xC),
        chk (if tOwnerMap t = 0 then held == tShards t
          else tOwnerMap t % 16 == 0 && dpaStack (tOwnerMap t) == tSteer t && p.dpaOk (tOwnerMap t) (4 * tShards t)) (o + 0x10),
        chk (decide (tLookup t < 12288)) (o + 0x18),
        chk (decide (tUpdate t < 12288)) (o + 0x1A)]),
    ws.zipIdx.findSome? (fun (q : List Byte × Nat) =>
      let w := q.1
      let o := wAt q.2
      let before := ws.take q.2
      let t := ts.find? (fun t => tId t == wOwner w)
      firstOf [
        chk (inRange (wId w) 0 1023 && !before.any (fun u => wId u == wId w)) o,
        chk (inRange (wStack w) 0 15 && p.inService (wStack w)) (o + 2),
        chk (inRange (wKind w) 1 2) (o + 3),
        chk (!before.any (fun u => wStack u == wStack w && meets (wFirst u) (wChans u) (wFirst w) (wChans w))) (o + 4),
        chk (inRange (wChans w) 1 64 && decide (wFirst w + wChans w ≤ p.channels (wStack w))) (o + 5),
        chk (if wKind w = 1 then t.isSome else inRange (wOwner w) 0 63 && bs.any (fun b => u8 b 0 == wOwner w)) (o + 6),
        chk (if wKind w = 1 then (match t with
            | some t => decide (wParam w < tShards t) &&
              before.all (fun u => !(wKind u == 1 && wOwner u == wOwner w && wParam u == wParam w) || twinsOk u w)
            | none => false)
          else inRange (wParam w) 256 65536 && wParam w % 256 == 0) (o + 8),
        chk (wTwin w == 0xFFFF || ws.any (fun u => twinsOk u w)) (o + 0xC),
        chk (inRange (wRead w) 0 1) (o + 0xE),
        match wKind w, t with
        | 1, some t =>
          chk (decide (shardRows t (wParam w) ≤ wRooms w * roomSlots (tRecLen t))) (tAt (ts.idxOf t) + 8)
        | _, _ => none]),
    bs.zipIdx.findSome? (fun (q : List Byte × Nat) =>
      let b := q.1
      let o := bAt q.2
      firstOf [
        chk (inRange (u8 b 0) 0 63 && !(bs.take q.2).any (fun u => u8 u 0 == u8 b 0)) o,
        chk (inRange (u16 b 2) 1 4096) (o + 2),
        chk (inRange (u16 b 4) 0 1023) (o + 4),
        chk (u64 b 8 % 16 == 0 && decide (u64 b 8 < 2 ^ 40)) (o + 8)])]

/-- Arrays and pairing (R173). -/
def badArrays (p : Plan) (x : List Byte) : Option Nat :=
  let n := u16 x 0
  let pin := fun (i : Nat) => slice x (0x110 + 16 * i) 16
  let fab := fun (a : Nat) => u8 x (0x10 + 4 * a)
  firstOf [
    chk (inRange n 0 32) 0,
    chk (inRange (u16 x 2) 16 256) 2,
    eachOf 64 (fun a =>
      chk (fab a == 0xFF || (inRange (fab a) 0 65 && !(List.range a).any (fun b => fab b == fab a))) (0x10 + 4 * a)),
    eachOf n (fun i =>
      let e := pin i
      let o := 0x110 + 16 * i
      firstOf [
        chk (u64 e 0 % 4096 == 0 && p.dpaOk (u64 e 0) (u32 e 8) &&
          !(List.range i).any (fun j => meets (u64 (pin j) 0) (u32 (pin j) 8) (u64 e 0) (u32 e 8))) o,
        chk (decide (4096 ≤ u32 e 8) && u32 e 8 % 4096 == 0) (o + 8)]),
    chk (decide (((List.range n).map (fun i => u32 (pin i) 8)).sum ≤ 96 * 2 ^ 20)) 0]

/-- Grid reference and port set (R266). -/
def badGrid (x : List Byte) : Option Nat := firstOf [
  chk (inRange (u16 x 0) 0 16383) 0,
  chk (u32 x 4 != 0) 4,
  chk (inRange (u16 x 8) 5 100) 8,
  chk (inRange (u8 x 0xA) 2 8) 0xA,
  chk (inRange (u8 x 0xB) 1 63) 0xB,
  eachOf 64 (fun i =>
    let o := 0x20 + 8 * i
    firstOf [
      chk (u8 x o / 4 == 0) o,
      if bit (u8 x o) 0 then firstOf [
        chk (inRange (u8 x (o + 1)) 0 63 || u8 x (o + 1) == 0xFF) (o + 1),
        chk (inRange (u16 x (o + 2)) 0 16383 || u16 x (o + 2) == 0xFFFF) (o + 2),
        chk (inRange (u8 x (o + 4)) 1 15) (o + 4)]
      else none])]

/-- Route pins (R271). -/
def badPins (p : Plan) (x : List Byte) : Option Nat :=
  let n := u16 x 0
  let pin := fun (i : Nat) => slice x (16 + 16 * i) 16
  firstOf [
    chk (inRange n 0 1024) 0,
    eachOf n (fun i =>
      let e := pin i
      let o := 16 + 16 * i
      firstOf [
        chk (inRange (u16 e 0) 0 16383 && !(List.range i).any (fun j =>
          let d := pin j
          decide (u16 d 0 ≤ u16 e 2) && decide (u16 e 0 ≤ u16 d 2) && (u8 d 4 &&& u8 e 4 &&& 15) != 0)) o,
        chk (inRange (u16 e 2) (u16 e 0) 16383) (o + 2),
        eachOf 4 (fun k => chk (u8 e (6 + k) == 0xFF || (decide (u8 e (6 + k) < 64) && p.portOn (u8 e (6 + k)))) (o + 6 + k))])]

/-- Host queues (R353). -/
def badQueues (p : Plan) (x : List Byte) : Option Nat :=
  let n := u16 x 0
  let q := fun (i : Nat) => slice x (16 + 16 * i) 16
  firstOf [
    chk (inRange n 1 4096) 0,
    chk (inRange (u16 x 2) 0 60000) 2,
    chk (inRange (u8 x 4) 1 8) 4,
    chk (u64 x 8 == 0 || (u64 x 8 % 4096 == 0 && p.dpaOk (u64 x 8) (2 ^ 24))) 8,
    eachOf n (fun i =>
      let e := q i
      let o := 16 + 16 * i
      firstOf [
        chk (inRange (u16 e 0) 0 4095 && !(List.range i).any (fun j => u16 (q j) 0 == u16 e 0)) o,
        chk (!qPrivileged e || decide (((List.range i).filter (fun j => qPrivileged (q j))).length < 16)) (o + 2),
        chk (match p.walker with | some w => decide (u8 e 3 < u16 w 0x28) | none => true) (o + 3),
        chk (inRange (u16 e 4) 160 2047) (o + 4),
        chk (inRange (u8 e 7) 4 16) (o + 7)])]

/-- Walker profile (R335). -/
def badWalker (x : List Byte) : Option Nat :=
  let n := u8 x 0
  let width := 8 * u8 x 1
  let addr := fun (b : Nat) => inRange b (u8 x 0xA) (u8 x 0xB)
  let named := fun (o : Nat) => u8 x o != 0xFF || o == 4 || o == 5
  let sw := u64 x 0x10
  let res := u64 x 0x18
  firstOf [
    chk (inRange n 2 5) 0,
    chk (u8 x 1 == 4 || u8 x 1 == 8) 1,
    chk (inRange (u8 x 2) 32 57 && wpShift x 0 + wpWidth x 0 == u8 x 2) 2,
    ([4, 5, 6, 7, 8, 9] : List Nat).findSome? (fun o =>
      chk (!named o || (decide (u8 x o < width) && !addr (u8 x o) && !bit sw (u8 x o) &&
        !(([4, 5, 6, 7, 8, 9] : List Nat).any (fun k => decide (k < o) && named k && u8 x k == u8 x o)))) o),
    chk (decide (12 ≤ u8 x 0xA)) 0xA,
    chk (inRange (u8 x 0xB) (u8 x 0xA) (width - 1)) 0xB,
    chk (res != 0 && !bit res (u8 x 4) && (List.range 64).all (fun b => !(bit res b && addr b))) 0x18,
    chk (u64 x 0x20 &&& res == u64 x 0x20) 0x20,
    chk (inRange (u16 x 0x28) 1 256) 0x28,
    eachOf 5 (fun l =>
      let o := 0x30 + 8 * l
      if n ≤ l then chk ((slice x o 8).all (· == 0#8)) o
      else firstOf [
        chk ((if l + 1 = n then wpShift x l == 12 else wpShift x l == wpShift x (l + 1) + wpWidth x (l + 1)) &&
          (u8 x (o + 2) != 1 || ([12, 21, 30] : List Nat).contains (wpShift x l))) o,
        chk (inRange (u8 x (o + 1)) 1 13) (o + 1),
        chk (inRange (u8 x (o + 2)) 0 1) (o + 2)])]

/-- Redundancy modes (R405). -/
def badModes (p : Plan) (x : List Byte) : Option Nat :=
  let a := u64 x 0x40
  let save := if p.has 0x23 then meets a (2 ^ 20) (u64 (p.sec 0x23) 0) ((64 + u16 (p.sec 0x23) 8) * 2 ^ 20) else false
  firstOf [
    chk (([0, 4, 6, 8] : List Nat).contains (u8 x 0)) 0,
    chk (([0, 6, 8, 10] : List Nat).contains (u8 x 1)) 1,
    chk (inRange (u8 x 2) 2 8) 2,
    chk (inRange (u32 x 4) 1000 1000000) 4,
    chk (decide (1 ≤ u16 x 8)) 8,
    chk (a % 2 ^ 20 == 0 && p.dpaOk a (2 ^ 20) && !p.meetsWing a (2 ^ 20) && !p.meetsWindow a (2 ^ 20) && !save) 0x40]

/-- Tracing sources (R453). -/
def badTracing (x : List Byte) : Option Nat :=
  let n := u8 x 0
  firstOf [
    chk (inRange n 0 64) 0,
    eachOf n (fun i =>
      let o := 16 + 16 * i
      chk (decide (u8 x o ≤ u8 x (o + 1)) && !(List.range i).any (fun j =>
        decide (u8 x (16 + 16 * j) ≤ u8 x (o + 1)) && decide (u8 x o ≤ u8 x (17 + 16 * j)))) o)]

/-- The field checks of a section under the plan it will be part of; `old`: the plan in force, for an amendment. -/
def badSection (p : Plan) (old : Option Plan) (id : Nat) (x : List Byte) : Option Nat :=
  match lengthBad id x with
  | some o => some o
  | none =>
    match id with
    | 0x10 => badEnvelope x
    | 0x11 => badPorch x
    | 0x20 => badMeridian x
    | 0x21 => badCycle p (old.map (fun q => q.sec 0x21)) x
    | 0x22 => badTraffic p x
    | 0x23 => badShares p (old.bind (fun q => if q.has 0x23 then some (q.sec 0x23) else none)) x
    | 0x30 => badStacks x
    | 0x31 => badWings p x
    | 0x40 => badArrays p x
    | 0x50 => badGrid x
    | 0x51 => badPins p x
    | 0x60 => badQueues p x
    | 0x61 => badWalker x
    | 0x70 => badModes p x
    | 0x80 => badTracing x
    | _ => none

/-! ### The container (R23 to R29) -/

/-- Section ids of Table 2-4. -/
def secIds : List Nat := [0x01, 0x10, 0x11, 0x20, 0x21, 0x22, 0x23, 0x30, 0x31, 0x40, 0x50, 0x51, 0x60, 0x61, 0x70, 0x80]
/-- Sections that a full plan must carry. -/
def secRequired : List Nat := [0x01, 0x10, 0x20, 0x21, 0x22, 0x30, 0x60]
/-- Sections that an amendment may carry (R42). -/
def secLive : List Nat := [0x11, 0x21, 0x23, 0x80]
/-- The order in which blocks take their sections (R36). -/
def secOrder : List Nat := [0x10, 0x11, 0x20, 0x21, 0x22, 0x23, 0x30, 0x31, 0x40, 0x70, 0x61, 0x60, 0x50, 0x51, 0x80]

/-- KIND of a container header. -/
def fpKind (b : List Byte) : Nat := u16 b 6
/-- LENGTH. -/
def fpLength (b : List Byte) : Nat := u32 b 8
/-- SECTIONS. -/
def fpSections (b : List Byte) : Nat := u16 b 0xC
/-- SIGNER. -/
def fpSigner (b : List Byte) : Nat := u8 b 0xE
/-- AMEND_SEQ. -/
def fpAmendSeq (b : List Byte) : Nat := u32 b 0x14
/-- EFFECTIVE. -/
def fpEffective (b : List Byte) : Nat := u64 b 0x18
/-- DIGEST of the signature block. -/
def fpDigest (b : List Byte) : List Byte := slice b (fpLength b - 96) 32
/-- Directory entry `i`. -/
def fpEntry (b : List Byte) (i : Nat) : List Byte := slice b (64 + 16 * i) 16

/-- Offset of the first byte of [lo, hi) that is not 0. -/
def nonzeroIn (b : List Byte) (lo hi : Nat) : Option Nat :=
  ((slice b lo (hi - lo)).findIdx? (fun x => x != 0#8)).map (lo + ·)

/-- Checks 1 and 2: the header; `n` is FP_LEN as the load left it. -/
def badHeader (b : List Byte) (n : Nat) : Option Bad :=
  let l := fpLength b
  let k := fpSections b
  if u32 b 0 ≠ 0x4C504650 then some ⟨0x01, 0, 0⟩
  else if u8 b 5 ≠ 1 then some ⟨0x02, 0, 5⟩
  else if fpKind b ≠ 1 ∧ fpKind b ≠ 2 then some ⟨0x02, 0, 6⟩
  else if u16 b 0x12 ≠ 0 then some ⟨0x02, 0, 0x12⟩
  else
    match (if fpKind b = 1 then nonzeroIn b 0x14 0x40 else none) with
    | some o => some ⟨0x02, 0, o⟩
    | none =>
      if l ≠ n ∨ 4194304 < l ∨ l % 16 ≠ 0 ∨ (1 ≤ k ∧ k ≤ 32 ∧ l < 64 + 16 * k + 160) then some ⟨0x03, 0, 8⟩ else none

/-- Check 3 on directory entry `i` of a container, the section before it ending at `prev`. -/
def badEntry (b : List Byte) (i prev : Nat) : Option Bad :=
  let e := fpEntry b i
  let at' := 64 + 16 * i
  let id := u16 e 0
  if !secIds.contains id then some ⟨0x05, id, at'⟩
  else if u8 e 2 ≠ 1 then some ⟨0x04, id, at' + 2⟩
  else if 0 < i ∧ id ≤ u16 (fpEntry b (i - 1)) 0 then some ⟨0x04, id, at'⟩
  else if u32 e 4 % 16 ≠ 0 ∨ u32 e 4 < prev then some ⟨0x04, id, at' + 4⟩
  else if fpLength b - 160 < u32 e 4 + u32 e 8 then some ⟨0x04, id, at' + 8⟩
  else (nonzeroIn b prev (u32 e 4)).map (fun o => ⟨0x04, id, o⟩)

/-- Check 3: the directory and the layout of R25. -/
def badDirectory (b : List Byte) : Option Bad :=
  let k := fpSections b
  let ends := fun (i : Nat) => if i = 0 then 64 + 16 * k else u32 (fpEntry b (i - 1)) 4 + u32 (fpEntry b (i - 1)) 8
  if k < 1 ∨ 32 < k then some ⟨0x04, 0, 0xC⟩
  else
    match (List.range k).findSome? (fun i => badEntry b i (ends i)) with
    | some x => some x
    | none => (nonzeroIn b (ends k) (fpLength b - 160)).map (fun o => ⟨0x04, 0, o⟩)

/-- Checks 4 to 7: digest, signer, signature, security version. -/
def badSignature (f : Fuses) (b : List Byte) : Option Bad :=
  let l := fpLength b
  let key := slice b (l - 160) 64
  let s := fpSigner b
  let slot := f.slots.getD (s - 1) (.empty, [])
  let signer :=
    if s = 0 then f.slots.all (fun x => x.1 == .empty) && decide (sm3 key = f.rootHash)
    else decide (s ≤ 4) && (slot.1 == .active) && decide (sm3 key = slot.2)
  if sm3 (b.take (l - 160)) ≠ fpDigest b then some ⟨0x07, 0, l - 96⟩
  else if signer = false then some ⟨0x08, 0, 0xE⟩
  else if sm2Verify key (fpDigest b) (slice b (l - 64) 64) = false then some ⟨0x09, 0, l - 64⟩
  else if u16 b 0x10 < f.minPlan then some ⟨0x0A, 0, 0x10⟩
  else none

/-- Plaintext of directory entry `i` (R28), or none where the tag check fails. -/
def fpPlain (f : Fuses) (b : List Byte) (i : Nat) : Option (List Byte) :=
  let e := fpEntry b i
  let x := slice b (u32 e 4) (u32 e 8)
  if bit (u8 e 3) 0 then
    match f.keys.getLast? with
    | some key =>
      if u16 e 0 = 1 ∨ x.length < 28 then none
      else sm4gcm key (x.take 12) e (slice x 12 (x.length - 28)) (x.drop (x.length - 16))
    | none => none
  else some x

/-- Check 8: the plaintext of every section, or the first that fails. -/
def fpSecs (f : Fuses) (b : List Byte) : Nat → List (Nat × List Byte) ⊕ Bad
  | 0 => .inl []
  | i + 1 =>
    match fpSecs f b i with
    | .inr x => .inr x
    | .inl l =>
      match fpPlain f b i with
      | some x => .inl (l ++ [(u16 (fpEntry b i) 0, x)])
      | none => .inr ⟨0x0B, u16 (fpEntry b i) 0, u32 (fpEntry b i) 4⟩

/-! ### Amendments (R42, R43) -/

/-- The first slot boundary after a count, and whether a count is one. -/
def Plan.boundaryAfter (p : Plan) (c : Nat) : Nat :=
  let f := p.frameLen
  if f = 0 then c + 1
  else
    let base := c / f * f
    match p.slots.find? (fun s => decide (c < base + s.start)) with
    | some s => base + s.start
    | none => base + f

/-- Whether a count is a slot boundary. -/
def Plan.isBoundary (p : Plan) (c : Nat) : Bool := p.frameLen != 0 && p.slots.any (fun s => s.start == c % p.frameLen)

/-- The count at which an amendment takes effect, or its failure under R43: `at'` is the count when AMEND was written; a
VERIFY has none, and the distance is judged when AMEND is written. -/
def State.amendAt (s : State) (b : List Byte) (cycle : Bool) (at' : Option Nat) : Nat ⊕ Bad :=
  let e := fpEffective b
  let f := s.plan.frameLen
  let near := match at' with | some c => decide (e < c + 2 * f) | none => false
  if cycle then (if e = 0 ∨ f = 0 ∨ e % f ≠ 0 ∨ near = true then .inr ⟨0x11, 0x21, 0x18⟩ else .inl e)
  else if e = 0 then .inl (s.plan.boundaryAfter s.mer.count)
  else if s.plan.isBoundary e && decide (s.mer.count ≤ e) then .inl e
  else .inr ⟨0x11, 0, 0x18⟩

/-- The digest registers as bytes. -/
def Io.appliedDigest (io : Io) : List Byte :=
  ([.FP_APPLIED_DIGEST0, .FP_APPLIED_DIGEST1, .FP_APPLIED_DIGEST2, .FP_APPLIED_DIGEST3, .FP_APPLIED_DIGEST4, .FP_APPLIED_DIGEST5,
    .FP_APPLIED_DIGEST6, .FP_APPLIED_DIGEST7] : List Reg).flatMap (fun r => bytesOf (io.val r) 4)

/-- The amendment rules (R42, R43): the effective count, or the first that fails. Where several fail, the code recorded is
that of the first in R42's own list; check 9 names the codes in another order (log entry 143). -/
def State.amendRules (s : State) (b : List Byte) (ids : List Nat) (at' : Option Nat) : Nat ⊕ Bad :=
  if s.plan.active = false then .inr ⟨0x17, 0, 0⟩
  else if slice b 0x20 32 ≠ s.io.appliedDigest then .inr ⟨0x0F, 0, 0x20⟩
  else if fpSigner b ≠ s.plan.signer then .inr ⟨0x08, 0, 0xE⟩
  else if fpAmendSeq b ≠ s.io.val .FP_AMEND_SEQ + 1 then .inr ⟨0x10, 0, 0x14⟩
  else
    match ids.find? (fun i => !secLive.contains i) with
    | some i => .inr ⟨0x0E, i, 0⟩
    | none => s.amendAt b (ids.contains 0x21) at'

/-! ### Verification -/

/-- The sections of a plan with some replaced, in ascending id. -/
def mergeSecs (old new : List (Nat × List Byte)) : List (Nat × List Byte) :=
  secIds.filterMap (fun i => ((new.lookup i).orElse (fun _ => old.lookup i)).map (fun x => (i, x)))

/-- Stepping code of the part (ID_PART [15:8]). -/
def Fuses.stepping (f : Fuses) : Nat := f.part / 256 % 256

/-- Checks 9 and 10 on the plaintexts: what the image's sections are, and the count at which an amendment takes effect. -/
def State.checkSecs (s : State) (b : List Byte) (secs : List (Nat × List Byte)) (at' : Option Nat) : Nat ⊕ Bad :=
  let ids := secs.map (·.1)
  let lab := (secs.lookup 1).getD []
  let full := fpKind b == 1
  let p : Plan := ⟨true, fpSigner b, u16 b 0x10, if full then secs else mergeSecs s.plan.sections secs⟩
  let fields := secs.findSome? (fun (x : Nat × List Byte) =>
    (badSection p (if full then none else some s.plan) x.1 x.2).map (fun o => (⟨0x0C, x.1, o⟩ : Bad)))
  let label : Option Bad :=
    if !ids.contains 1 then none
    else if u16 lab 0 ≠ 0x16 then some ⟨0x0D, 1, 0⟩
    else if s.se.fuses.stepping < u8 lab 2 then some ⟨0x0D, 1, 2⟩
    else none
  match label with
  | some x => .inr x
  | none =>
    if full then
      match secRequired.find? (fun i => !ids.contains i), fields with
      | some i, _ => .inr ⟨0x06, i, 0⟩
      | none, some x => .inr x
      | none, none => .inl 0
    else
      match s.amendRules b ids at', fields with
      | .inr x, _ => .inr x
      | .inl _, some x => .inr x
      | .inl e, none => .inl e

/-- Verification of the image `b` (checks 1 to 10): its sections, and the count at which an amendment takes effect. -/
def State.verify (s : State) (b : List Byte) (at' : Option Nat) : (List (Nat × List Byte) × Nat) ⊕ Bad :=
  match badHeader b s.fp.len with
  | some x => .inr x
  | none =>
    match badDirectory b with
    | some x => .inr x
    | none =>
      match badSignature s.se.fuses b with
      | some x => .inr x
      | none =>
        match fpSecs s.se.fuses b (fpSections b) with
        | .inr x => .inr x
        | .inl secs =>
          match s.checkSecs b secs at' with
          | .inr x => .inr x
          | .inl e => .inl (secs, e)

/-! ### The drain condition (R47 to R51, check 11) -/

/-- A unit of Table 2-8: 1 stack, 3 array, 4 port, 5 queue, and its number. -/
abbrev FpUnit := Nat × Nat

/-- Stacks whose part of the stacks section changes. -/
def changedStacks (a b : List Byte) : List Nat :=
  let reps := fun (x : List Byte) (s : Nat) =>
    ((List.range 56).map (fun i => slice x (0x240 + 8 * i) 8)).filter (fun e => u8 e 0 != 0 && u8 e 1 == s)
  (List.range 16).filter (fun s =>
    stackEntry a s != stackEntry b s || secInService a s != secInService b s || reps a s != reps b s)

/-- Stacks whose wings-and-suites entries change: a wing's stack, a table's steering stack and those of its wings, and the
stacks of a batch's SESSION wings. -/
def changedWings (a b : List Byte) : List Nat :=
  let ws := secWings a ++ secWings b
  let dw := (ws.filter (fun w => !((secWings a).contains w && (secWings b).contains w))).map wStack
  let ts := (secTables a ++ secTables b).filter (fun t => !((secTables a).contains t && (secTables b).contains t))
  let bs := (secBatches a ++ secBatches b).filter (fun t => !((secBatches a).contains t && (secBatches b).contains t))
  let all := dw ++ ts.map tSteer ++ (ws.filter (fun w => wKind w == 1 && ts.any (fun t => tId t == wOwner w % 4096))).map wStack ++
    (ws.filter (fun w => wKind w == 2 && bs.any (fun t => u8 t 0 == wOwner w))).map wStack
  (List.range 16).filter (fun s => all.contains s)

/-- Ports that a list of route pins names, each with what names it. -/
def pinsOf (x : List Byte) (p : Nat) : List (List Byte) :=
  (chunks (x.drop 16) 16 (u16 x 0)).filter (fun e => ([6, 7, 8, 9].map (u8 e)).contains p)

/-- Units that a change of one section affects (Table 2-4, "Changing structure", R405). -/
def affectedBy (id : Nat) (a b : List Byte) : List FpUnit :=
  let sts := (List.range 16).map (fun i => ((1, i) : FpUnit))
  let arrays := (List.range 64).map (fun i => ((3, i) : FpUnit))
  let ports := (List.range 64).map (fun i => ((4, i) : FpUnit))
  let queues := (List.range 4096).map (fun i => ((5, i) : FpUnit))
  if a = b then []
  else match id with
  | 0x20 => sts ++ arrays ++ ports ++ queues
  | 0x22 => ports ++ queues
  | 0x30 => (changedStacks a b).map (fun i => (1, i))
  | 0x31 => (changedWings a b).map (fun i => (1, i))
  | 0x40 => arrays.filter (fun u =>
      let f := fun (x : List Byte) => if x = [] then 0xFF else u8 x (0x10 + 4 * u.2)
      f a != f b)
  | 0x70 =>
    let cut := fun (x : List Byte) => x.take 8
    let other := (cut a).drop 1 != (cut b).drop 1 || a = [] || b = []
    if other then sts ++ arrays
    else if u8 a 0 ≠ u8 b 0 ∨ slice a 0x20 32 ≠ slice b 0x20 32 then arrays else []
  | 0x61 => queues
  | 0x60 => queues.filter (fun u => queueEntry a u.2 != queueEntry b u.2)
  | 0x50 => if u16 a 0 ≠ u16 b 0 ∨ a = [] ∨ b = [] then ports
      else ports.filter (fun u => slice a (0x20 + 8 * u.2) 8 != slice b (0x20 + 8 * u.2) 8)
  | 0x51 => ports.filter (fun u => pinsOf a u.2 != pinsOf b u.2)
  | _ => []

/-- Whether a unit carries work under the plan in force. -/
def State.carriesWork (s : State) (u : FpUnit) : Bool :=
  match u.1 with
  | 1 => s.plan.inService u.2
  | 3 => (s.plan.fab u.2).isSome
  | 4 => s.plan.portOn u.2
  | _ => (s.plan.queue u.2).isSome

/-- Whether a unit is drained, or a queue disabled. -/
def State.unitDrained (s : State) (u : FpUnit) : Bool :=
  match u.1 with
  | 1 => bit (s.io.val .FP_DRAINED_STACKS) u.2
  | 3 => if u.2 < 32 then bit (s.io.val .FP_DRAINED_ARRAYS_LO) u.2 else bit (s.io.val .FP_DRAINED_ARRAYS_HI) (u.2 - 32)
  | 4 => if u.2 < 32 then bit (s.io.val .FP_DRAINED_PORTS_LO) u.2 else bit (s.io.val .FP_DRAINED_PORTS_HI) (u.2 - 32)
  | _ => (s.cf.queue u.2).st == .disabled

/-- The units that a full plan's application affects, each with the section that says so, in the order of R36. -/
def State.affected (s : State) (secs : List (Nat × List Byte)) : List (Nat × FpUnit) :=
  secOrder.flatMap (fun id => (affectedBy id (s.plan.sec id) ((secs.lookup id).getD [])).map (fun u => (id, u)))

/-- The drain check (check 11): DRAIN_REQUIRED for the first unit that is not drained. -/
def State.drainBad (s : State) (secs : List (Nat × List Byte)) : Option Bad :=
  if s.plan.active then
    ((s.affected secs).find? (fun u => s.carriesWork u.2 && !s.unitDrained u.2)).map (fun u => ⟨0x12, u.1, u.2.1 * 2 ^ 28 + u.2.2⟩)
  else none

end Sys2Proof.Machine
end

