-- ==== Sys2Proof/Machine/Inert.lean ====
section
/-! DEFINITION. Machine/Inert.lean: the inert default of every block (R458, Table 20-3), which an application that fails
(R38), PERST (R460, R461) and the loss of the input return to. -/

namespace Sys2Proof.Machine

/-- Whether the key of a stored register lies between two registers of the table. -/
def Reg.between (lo hi : Reg) (k : Nat) : Bool := decide (lo.ctorIdx ≤ k % 512) && decide (k % 512 ≤ hi.ctorIdx)

/-- A stack left in self-refresh, its sheet PRESERVED_UNVERIFIED and its preservation record opened (R112, R461, R464). A
sheet that is NONE stays so. -/
def Stack.freeze (k : Stack) (cause now : Nat) : Stack :=
  if k.content = .none then
    { k with
      training := false, chans := [], refreshed := [], scrub := none, scrubCarry := 0, scrubPass := 0, weakRows := []
      spareDue := [], cal := none, calCarry := 0, calChannel := 0, calStep := 0, thermStep := 0, cap := none
      verifying := false, clearing := false }
  else
    let rec' : Preserve := match k.preserve with
      | some r => if k.selfRefresh then r else ⟨now, true, false, false, cause, none, k.lastMap⟩
      | none => ⟨now, true, false, false, cause, none, k.lastMap⟩
    { k with
      content := .preserved, selfRefresh := true, preserve := some rec'
      training := false, chans := [], refreshed := [], scrub := none, scrubCarry := 0, scrubPass := 0, weakRows := []
      spareDue := [], cal := none, calCarry := 0, calChannel := 0, calStep := 0, thermStep := 0, cap := none
      verifying := false, clearing := false }

/-- Memory once no plan is in force: array stores, program stores and chain stores read as zero, and no channel serves a
sheet (Table 20-3). -/
def Ram.inert (m : Ram) : Ram :=
  let gone := fun (a : Nat) => decide (2 ^ 40 ≤ a ∧ a < 2 ^ 43)
  { m with bytes := SMap.drop gone m.bytes, blks := SMap.drop (fun b => gone (256 * b)) m.blks, dead := [] }

/-- The image store empty. -/
def Ram.noImage (m : Ram) : Ram :=
  { m with bytes := SMap.drop (fun a => decide (imageAddr 0 ≤ a ∧ a < imageAddr 4194304)) m.bytes }

/-- The update block with no plan: every shard and layer it had stays stale (R241, R467). -/
def Update.inert (u : Update) : Update :=
  { Update.reset with
    shards := u.shards.filterMap (fun (e : Nat × Shard) =>
      if e.2.created || e.2.stale then some (e.1, { Shard.reset with stale := true }) else none)
    layers := u.layers.map (fun (e : Nat × Layer) => (e.1, { Layer.reset with stale := true })) }

/-- The translation block with no walker profile; its fault ring is the host's to set up again (R352). -/
def Xl.inert (x : Xl) : Xl := { Xl.reset with tail := x.tail, phase := x.phase }

/-- Every block at its inert default (R38, Table 20-3). -/
def State.inert (s : State) (cause : Nat) : State :=
  { s with
    plan := Plan.off
    mer := { Mer.reset with now := s.mer.now, refPresent := s.mer.refPresent }
    xl := Xl.inert s.xl
    host := { s.host with regions := [], fence := none, graceEnd := none, parked := false, driverBack := false }
    cf := Cf.reset
    sc := Sc.reset
    stk := (List.range 16).foldl (fun m st => setStack m st (fun k => k.freeze cause s.mer.now)) s.stk
    rl := { Rl.reset with rooms := s.po.quarRooms, pairs := s.po.quarPairs }
    rooms := Rooms.reset
    wings := Wings.reset
    upd := Update.inert s.upd
    mx := Mx.reset
    fab := Fabric.reset
    pw := { Power.reset with alert := s.pw.alert, therm := s.pw.therm, input := s.pw.input, perst := s.pw.perst }
    tr := Tr.reset
    ram := s.ram.inert
    io := { s.io with
      msixOn := false
      regs := SMap.drop (fun k => Reg.between .FP_AMEND_SEQ .FP_AMEND_SEQ k || Reg.between .FP_APPLIED_DIGEST0 .FP_DRAINED_PORTS_HI k ||
        Reg.between .UP_STEP .UP_STEP k || Reg.between .MER_PHASE_ERR .MER_PHASE_ERR k ||
        Reg.between .ST_CH_FAILED_LO .ST_CH_FAILED_HI k || Reg.between .SQ_BASE_LO .Q_CAUSE_EN k)
        s.io.regs } }

end Sys2Proof.Machine
end

