-- ==== Sys2Proof/Machine/Views.lean ====
section
/-! DEFINITION. Machine/Views.lean: what the status registers read that are computed from the blocks' state, and the
controls of power that they show: the envelope in force, clock steps and porch caps (chapters 2 to 20). -/

namespace Sys2Proof.Machine

/-- A one-bit field of a register. -/
def fieldIf (b : Bool) (i : Nat) : Nat := if b then 2 ^ i else 0

/-- Registers that show bit sets of logical arrays or physical channels: the low or the high word. -/
def maskWord (high : Bool) (p : Nat → Bool) : Nat :=
  ((List.range 32).map (fun i => fieldIf (p (if high then i + 32 else i)) i)).sum

/-! ### The loader (Table 2-7) and the meridian (Tables 3-10, 3-11) -/

/-- STATE of FP_STATUS. -/
def FpState.code : FpState → Nat
  | .empty => 0 | .loading => 1 | .loaded => 2 | .verifying => 3 | .verified => 4 | .applying => 5 | .failed => 6

/-- A command is executing: a FETCH, a verification or an application (Table 2-7). -/
def Loader.busy (l : Loader) : Bool := (l.st == .loading && l.source == 2) || l.st == .verifying || l.st == .applying

/-- FP_STATUS. -/
def State.fpStatus (s : State) : Nat :=
  s.fp.st.code + (if s.fp.st = .applying then 16 * (s.fp.step % 16) else 0) + fieldIf s.plan.active 8 + 512 * (s.fp.source % 4) +
  fieldIf s.fp.busy 11 + fieldIf s.fp.pending 12

/-- MER_STATUS. -/
def State.merStatus (s : State) : Nat :=
  merCode s.mer.st + fieldIf s.mer.refPresent 3 + fieldIf s.mer.stepNeeded 4 + 256 * (s.mer.use % 4) +
  (if s.mer.use = 2 then 65536 * (s.mer.hops % 256) + 2 ^ 24 * (s.mer.port % 64) else 0)

/-- MER_PHASE_ERR: 0 in OFF and FREE (R487). -/
def State.phaseErr (s : State) : Nat :=
  match s.mer.st with
  | .off | .free => 0
  | _ => s.io.val .MER_PHASE_ERR

/-- MER_MASTER. -/
def State.merMaster (s : State) : Nat :=
  s.mer.master % 65536 + fieldIf s.mer.masterValid 16 + fieldIf s.mer.masterSelf 17

/-- MER_SLOT. -/
def State.merSlot (s : State) : Nat :=
  match s.slotPos with
  | some (fr, i) => i % 256 + 256 * (match s.slotNow with | some x => x.owner % 4 | none => 0) + 65536 * (fr % 65536)
  | none => 0

/-- The count at the current frame boundary (MER_FRAME_START). -/
def State.frameStart (s : State) : Nat :=
  if s.plan.frameLen = 0 then 0 else s.mer.count / s.plan.frameLen * s.plan.frameLen

/-! ### Power and the porch (R427 to R430, R438, R439) -/

/-- Entry `i` of a porch-rules section (Table 18-6). -/
def porchRule (sec : List Byte) (i : Nat) : List Byte := slice sec (0x410 + 16 * i) 16

/-- Rules of the porch-rules section in force. -/
def Porch.rulesOf (p : Porch) : Nat := if p.plan = [] then 0 else min 128 (u8 p.plan 0)

/-- What a rule that has never acted holds. -/
def ruleDflt : Nat → RuleState := fun _ => ⟨false, false, 0, 0, 0⟩
/-- A rule's state. -/
def Porch.rule (p : Porch) (i : Nat) : RuleState := SMap.get ruleDflt p.rules i
/-- What a channel that nothing has sampled holds. -/
def sensorDflt : Nat → Sensor := fun _ => ⟨0#32, [], 0#32⟩
/-- A sensor channel. -/
def Porch.sensor (p : Porch) (c : Nat) : Sensor := SMap.get sensorDflt p.sensors c

/-- The caps in force, as (action, argument): those of active rules, and those of the old rules that still hold (R439). -/
def State.caps (s : State) : List (Nat × Nat) :=
  ((List.range s.po.rulesOf).filter (fun i => (s.po.rule i).active)).map (fun i =>
    (u8 (porchRule s.po.plan i) 2, u8 (porchRule s.po.plan i) 3)) ++
  (if s.mer.now < s.po.oldUntil then s.po.oldCaps.map (·.2) else [])

/-- The arguments of the caps of one action. -/
def State.capArgs (s : State) (action : Nat) : List Nat := (s.caps.filter (fun c => c.1 == action)).map (·.2)

/-- The envelope in force (R427, R438). -/
def State.envelope (s : State) : Nat :=
  ((s.capArgs 9).map (100 * ·)).foldl min (if s.plan.active then u16 (s.plan.sec 0x10) 0 else 1200)

/-- FLOOR_STEP. -/
def Plan.floorStep (p : Plan) : Nat := u8 (p.sec 0x10) 2

/-- GOV_FLOOR. -/
def Plan.govFloor (p : Plan) : Nat := u16 (p.sec 0x30) 6

/-- The clock step that the thermal steps of the stacks above an array demand (Table 5-6). -/
def State.thermalDemand (s : State) (a : Nat) : Nat :=
  match s.plan.fab a with
  | none => 0
  | some f =>
    ((List.range 16).map (fun st =>
      if s.plan.inService st && (Config.footprint st).contains f then
        (match (s.stack st).thermStep with
        | 2 => min (s.pw.step + 1) s.plan.floorStep
        | 3 => s.plan.floorStep
        | _ => 0)
      else 0)).foldl max 0

/-- An array's clock step: the slowest of its three demands (R430). -/
def State.arrayStep (s : State) (a : Nat) : Nat := (s.capArgs 3).foldl max (max s.pw.step (s.thermalDemand a))

/-- The rate that the power controller and the porch leave a stack's governor (R429, R438). -/
def State.govCap (s : State) (st : Nat) : Option Nat :=
  let r := s.plan.stackRate st
  let floor := min r s.plan.govFloor
  let ctl := if s.pw.notch = 0 then none else some (max floor (r - r * s.pw.notch / 8))
  let porch := ((s.capArgs 4).map (fun n => r * n / 8)).foldl (fun (m : Option Nat) x =>
    match m with | some y => some (min x y) | none => some x) none
  match ctl, porch with
  | some x, some y => some (min x y)
  | some x, none => some x
  | none, y => y

/-- The arrays that the plan enables. -/
def State.enabledArrays (s : State) : List Nat := (List.range 64).filter (fun a => (s.plan.fab a).isSome)

/-- Something runs below the floor, which only the porch can impose (R430). -/
def State.underFloor (s : State) : Bool :=
  s.plan.active && (s.enabledArrays.any (fun a => decide (s.plan.floorStep < s.arrayStep a)) ||
    s.serving.any (fun st => decide (s.govRate st < min (s.plan.stackRate st) s.plan.govFloor)))

/-- The governors take their caps anew, and BELOW_FLOOR is signalled when it begins (R430). -/
def State.recap (s : State) : State :=
  let s := s.serving.foldl (fun (s : State) st => s.setStk st (fun k => { k with cap := s.govCap st })) s
  let low := s.underFloor
  let s := if low && !s.pw.belowFloor then s.mapIo (fun io => io.event .PW_EVENT 0 1) else s
  { s with pw := { s.pw with belowFloor := low } }

/-- STATE of PW_STATUS. -/
def PwState.code : PwState → Nat
  | .noPlan => 0 | .running => 1 | .departing => 2 | .shuttered => 3 | .waking => 4 | .tripped => 5

/-- PW_STATUS. -/
def State.pwStatus (s : State) : Nat :=
  s.pw.st.code + 16 * (s.pw.step % 8) + fieldIf s.pw.belowFloor 7 + 4096 * (s.pw.refuse % 16)

/-- PW_ARRAY_STEP of the selected array. -/
def State.pwArrayStep (s : State) (a : Nat) : Nat :=
  s.arrayStep a % 8 + fieldIf (!(s.capArgs 3).isEmpty) 3 + 16 * (s.thermalDemand a % 8)

/-- PO_STATUS. -/
def State.poStatus (s : State) : Nat := s.po.rulesOf % 256 + 256 * (s.po.micro % 16)

/-- PO_RULE_STATE of a rule. -/
def RuleState.word (r : RuleState) : Nat := fieldIf r.active 0 + fieldIf r.latched 1 + 65536 * min r.times 65535

/-! ### Stacks (Tables 5-7, 5-8, 20-6) -/

/-- CONTENT of ST_STATUS. -/
def Content.code : Content → Nat
  | .none => 0 | .preserved => 1 | .live => 2

/-- STATE of ST_STATUS (Tables 5-2, 5-8). -/
def State.stState (s : State) (st : Nat) : Nat :=
  let k := s.stack st
  if k.training && s.fp.st == .applying && s.fp.step == 7 then 1
  else if k.selfRefresh then 3
  else if s.plan.inService st then 2
  else if k.content = .none then 0 else 3

/-- ST_STATUS. -/
def State.stStatus (s : State) (st : Nat) : Nat :=
  let k := s.stack st
  s.stState st + 16 * k.content.code + 256 * (k.thermStep % 4) +
  fieldIf (s.plan.inService st && decide (s.govRate st < s.plan.stackRate st)) 12 +
  fieldIf ((List.range 64).any (fun p => (k.chan p).st == .planned || (k.chan p).st == .unplanned)) 13

/-- ST_TEMP. -/
def State.stTemp (s : State) (st : Nat) : Nat :=
  let h := (s.stack st).hottest
  h.2 % 256 + 256 * (h.1 % 8)

/-- ST_GOV. -/
def State.stGov (s : State) (st : Nat) : Nat := if s.plan.inService st then s.govRate st % 512 else 0

/-- ST_CHMAP of a logical channel. -/
def State.stChmap (s : State) (st l : Nat) : Nat := match s.plan.phys st l with | some p => 2 ^ 31 + p % 64 | none => 0

/-- Physical channels mapped out by the applied plan. -/
def State.stOut (s : State) (st : Nat) : Nat := if s.plan.inService st then mappedOut (stackEntry (s.plan.sec 0x30) st) else 0

/-- Logical arrays beneath a stack (R110). -/
def State.beneath (s : State) (st a : Nat) : Bool :=
  match s.plan.fab a with | some f => (Config.footprint st).contains f | none => false

/-- The 8 bytes of a hard repair record (Table 5-4). -/
def Repair.bytes (r : Repair) (st : Nat) : List Byte :=
  bytesOf r.kind 1 ++ bytesOf st 1 ++ bytesOf r.channel 1 ++ bytesOf r.storey 1 ++ bytesOf r.target 4

/-- ST_FUSE_DATA: a word of the record at ST_FUSE_INDEX. -/
def State.fuseData (s : State) (st i o : Nat) : Nat := match (s.stack st).hard[i]? with | some r => u32 (r.bytes st) o | none => 0

/-- ST_SPARES of a physical channel. -/
def State.stSpares (s : State) (st ph : Nat) : Nat :=
  let k := s.stack st
  ((List.range 8).map (fun y => k.rowsLeft ph y)).foldl min 256 + 65536 * ((List.range 8).map (fun y => k.colsLeft ph y)).foldl min 64 +
  2 ^ 24 * (k.slotsLeft ph)

/-- ST_PRESERVE (Table 20-6). -/
def State.stPreserve (s : State) (st : Nat) : Nat :=
  match (s.stack st).preserve with
  | none => 0
  | some r =>
    let ms := match r.ms with | some m => m | none => (s.mer.now - r.since) / 1000000
    min ms (2 ^ 24 - 1) + 2 ^ 24 * (r.cause % 16) + fieldIf r.hot 28 + fieldIf r.mapMatch 29 + fieldIf r.continuous 30 +
    fieldIf ((s.stack st).content == .preserved) 31

/-- ST_CONTENT_STATUS; REFUSED is stored. -/
def State.stContent (s : State) (st : Nat) : Nat :=
  fieldIf (s.stack st).verifying 0 + fieldIf (s.stack st).clearing 1 + fieldIf (bit (s.io.val .ST_CONTENT_STATUS st) 2) 2

/-- Room cores of a stack at work. -/
def State.activeCores (s : State) (st : Nat) : Nat := (s.rooms.cores.list.filter (fun e => e.1 / 65536 == st)).length

/-! ### Rooms, wings and batches (Tables 6-16, 6-17, 7-10) -/

/-- An entry of a stack's fault log. -/
def State.flogEntry (s : State) (st i : Nat) : Option FaultEntry := (SMap.get (fun _ => []) s.rooms.flog st)[i]?

/-- RM_FLOG_INFO. -/
def FaultEntry.info (e : FaultEntry) : Nat :=
  e.pc % 16384 + fieldIf e.update 21 + 2 ^ 22 * (e.cls % 4) + 2 ^ 24 * (e.code % 256)

/-- Wings of a stack. -/
def State.wingsIn (s : State) (st : Nat) : List (List Byte) := s.plan.wingList.filter (fun w => wStack w == st)

/-- Whether a wing's primary rooms wait: for a retraining, a store being written, a drain or a clear (R48, R98, R115). -/
def State.wingHeld (s : State) (w : List Byte) : Bool :=
  s.stackHeld (wStack w) || (List.range (wChans w)).any (fun i =>
    let c := 64 * wStack w + wFirst w + i
    s.chanLocked c || (let x := s.roomChan (c * 1024); x == .planned || x == .unplanned))

/-- WG_STATUS. -/
def State.wgStatus (s : State) (st : Nat) : Nat :=
  let ws := s.wingsIn st
  fieldIf (s.plan.inService st) 0 + fieldIf (s.plan.tableList.any (fun t => tSteer t == st)) 1 +
  fieldIf (ws.any (fun w => (s.plan.twin w).isSome && (List.range (wChans w)).any (fun i =>
    s.barred ((64 * st + wFirst w + i) * 1024) []))) 2 +
  fieldIf (s.wings.lookups.list.any (fun e => e.2.parts.any (fun p => p.st == .waiting &&
    (match p.wing.bind s.plan.wing with | some w => wStack w == st && s.wingHeld w | none => false)))) 3 +
  256 * (ws.length % 256)

/-- WG_WING of a wing. -/
def State.wgWing (s : State) (st id : Nat) : Nat :=
  match (s.wingsIn st).find? (fun w => wId w == id) with
  | some w => wOwner w % 4096 + 2 ^ 15 * (wChans w % 128) + 2 ^ 22 * (wFirst w % 64) + 2 ^ 28 * (wKind w % 4) +
      fieldIf (wTwin w != 0xFFFF) 30 + 2 ^ 31
  | none => 0

/-- WG_WING_SLOTS of a wing. -/
def State.wgSlots (s : State) (st id : Nat) : Nat :=
  match (s.wingsIn st).find? (fun w => wId w == id) with
  | some w =>
    if wKind w = 1 then (match s.plan.table (wOwner w % 4096) with | some t => roomSlots (tRecLen t) | none => 0)
    else if wParam w = 0 then 0 else 1048576 / wParam w
  | none => 0

/-- WG_BATCH_MEMBERS. -/
def State.batchMembers (s : State) (b : Nat) : Nat :=
  if (s.plan.batch b).isSome then 2 ^ 31 + (s.batch b).members.length % 8192 else 0

/-- WG_BATCH_FREE. -/
def State.batchFree (s : State) (b : Nat) : Nat :=
  ((s.plan.sessions b).map wSlots).sum - (s.batch b).members.length - (s.batch b).freed.length

/-! ### Arrays and engines (Tables 8-12, 9-9) -/

/-- Whether an array is being saved (R392). -/
def State.saving (s : State) (a : Nat) : Bool := match s.sc.pairs.at a with | some p => p.wanted.isSome | none => false

/-- Whether an array reads drained (R47). -/
def State.arrDrained (s : State) (a : Nat) : Bool := s.unitDrained (3, a)

/-- MX_STATUS. Whether the feeders or the store freeze a running tile in this very cycle is free (log entry 135). -/
def State.mxStatus (s : State) (a : Nat) : Nat :=
  let r := s.arr a
  let st :=
    if s.arrTesting a then 1 else if (s.plan.fab a).isNone then 0 else if r.quarantined then 6 else if s.saving a then 4
    else if s.arrDrained a then 5 else if r.running.isSome then 3 else 2
  st + fieldIf r.next.isSome 3 + fieldIf r.accSet 4 + fieldIf (r.running.isSome && (decide (4 ≤ r.slots) || !r.loads.isEmpty)) 11 +
  (if r.running.isSome then 256 * (s.draw % 8) else 0)

/-- VE_STATUS. -/
def State.veStatus (s : State) (a : Nat) : Nat :=
  let r := s.arr a
  let st :=
    if s.arrTesting a then 1 else if (s.plan.fab a).isNone then 0 else if r.quarantined then 6 else if s.saving a then 5
    else if r.chain.isSome then 3 else if r.eact.isSome then 4 else 2
  st + 64 * (min r.slots 4) + 512 * (match r.sel with | none => 0 | some x => if x.route then 2 else 1) +
  fieldIf (!r.loads.isEmpty) 11 + 65536 * (match r.chain with | some q => q.chain % 256 | none => 0)

/-! ### Online update (Table 10-8) -/

/-- UP_STATUS. -/
def State.upStatus (s : State) : Nat :=
  (match s.upd.phase with
  | .off => 0 | .collecting => 1 | .scanning => 2 | .await => 3 | .applying => 4 | .awaitFlip => 5) +
  fieldIf s.upd.lastSkipped 4 + fieldIf s.upd.lastFlipSkipped 5 +
  fieldIf (s.plan.tableWings.any (fun w => (s.shard (wId w)).stale) || s.upd.layers.any (fun e => e.2.stale)) 6

/-- UP_SHARD of a wing. -/
def State.upShard (s : State) (st id : Nat) : Nat :=
  match (s.wingsIn st).find? (fun w => wId w == id && wKind w == 1) with
  | some w => 2 ^ 31 + fieldIf (s.shard id).stale 30 +
      fieldIf (match s.plan.table (wOwner w % 4096) with | some t => s.tableFrozen t | none => false) 29
  | none => 0

/-- Whether a stack holds a TABLE wing. -/
def State.hasShard (s : State) (st id : Nat) : Bool := (s.wingsIn st).any (fun w => wId w == id && wKind w == 1)

/-- UP_LAYER of a layer. -/
def State.upLayer (s : State) (id : Nat) : Nat :=
  match s.entryNow (layerKey id) with
  | some e => 2 ^ 31 + fieldIf (s.layer id).stale 30 + fieldIf (eFrozen e) 29 + 2 ^ 28 * ((s.layer id).current % 2)
  | none => 0

/-! ### Fabric (Tables 11-7, 11-8, 12-7) -/

/-- STATE of FB_STATUS. -/
def PortState.code : PortState → Nat
  | .dark => 0 | .training => 1 | .survey => 2 | .up => 3 | .degraded => 4 | .down => 5 | .miswired => 6

/-- FB_STATUS. Light is received, and FEC locked, from SURVEY on. -/
def State.fbStatus (s : State) (p : Nat) : Nat :=
  let x := s.port p
  let lit := x.st == .survey || x.st == .up || x.st == .degraded || x.st == .miswired
  x.st.code + 16 * (if x.st = .miswired then x.cause % 8 else 0) + fieldIf (x.st != .dark) 11 + fieldIf lit 12 + fieldIf lit 13 +
  fieldIf (s.portDraining p) 14 + fieldIf (s.unitDrained (4, p)) 15

/-- FB_NEIGHBOUR. -/
def State.fbNeighbour (s : State) (p : Nat) : Nat :=
  match (s.port p).nbr with | some n => 2 ^ 31 + 65536 * (n.2 % 64) + n.1 % 65536 | none => 0

/-- FB_DEVICES. -/
def State.fbDevices (s : State) : Nat :=
  if s.plan.hasGrid then 1 + (s.fab.dests.filter (fun d => d != s.plan.ref && decide (s.distTo d < 255))).length else 0

/-- FB_ROUTE of a destination. -/
def State.fbRoute (s : State) (d : Nat) : Nat :=
  if s.plan.hasGrid then s.distTo d % 256 + fieldIf ((List.range 4).any (fun c => (s.plan.pin d c).isSome)) 31 else 255

/-- FB_ROUTE_PORTS of a destination. -/
def State.fbRoutePorts (s : State) (d : Nat) : Nat :=
  (((s.choices d).take 4).zipIdx.map (fun c => 256 ^ c.2 * (0x80 + fieldIf c.1.1 6 + c.1.2 % 64))).sum

/-- FB_CONN of a partner entry. -/
def State.fbConn (s : State) (k : Nat) : Nat :=
  match s.fab.conns.at k with
  | some c => 2 ^ 31 + 2 ^ 28 * (match c.st with | .opening => 0 | .opened => 1 | .broken => 2 | .closing => 3) +
      2 ^ 26 * (c.cls % 4) + 2 ^ 24 * (c.path % 4) + c.remote % 65536
  | none => 0

/-- FB_VTREE. -/
def State.fbVtree (s : State) : Nat :=
  let up := s.parentPort
  s.subtree % 32768 + 2 ^ 24 * (up.getD 0 % 64) + fieldIf up.isSome 30 + fieldIf (s.mer.masterValid && s.mer.masterSelf) 31

/-! ### Host, translation and queues (Tables 13-9, 14-6, 15-5, 15-9) -/

/-- A dword of the region table (Table 13-2). -/
def HostSide.region (h : HostSide) (i d : Nat) : Nat := (SMap.get (fun _ => 0#32) h.regions (8 * i + d)).toNat

/-- HC_STATUS. -/
def State.hcStatus (s : State) : Nat :=
  s.io.link % 8 + fieldIf (s.cf.queues.any (fun e => e.2.st == .hostLost)) 3 + fieldIf s.host.graceEnd.isSome 4 +
  fieldIf s.host.parked 5 + fieldIf (s.host.regions.any (fun e => e.1 % 8 == 0 && e.2.getLsbD 0)) 6

/-- XL_STATUS; AS_BUSY is that of the selected address space. -/
def State.xlStatus (s : State) : Nat :=
  fieldIf s.plan.walker.isSome 0 + fieldIf (s.xl.invs.any (fun v => v.disable && v.as == some (s.io.val .XL_AS_SEL % 256))) 1 +
  fieldIf s.xl.cwErr 2

/-- STATE of Q_STATUS. -/
def State.qCode (s : State) (q : Nat) : Nat :=
  if (s.plan.queue q).isNone then 0
  else match (s.cf.queue q).st with
  | .disabled => 1 | .enabled => 2 | .hostLost => 3 | .halted => 4 | .resetting => 5

/-- Q_STATUS. -/
def State.qStatus (s : State) (q : Nat) : Nat :=
  let x := s.cf.queue q
  s.qCode q + fieldIf x.pending 4 + fieldIf x.examining 5 + fieldIf x.stalled 6 +
  fieldIf (match s.plan.queue q with | some d => qPrivileged d | none => false) 7 + 65536 * (x.overflow.length % 128)

/-- CF_ITIN of an itinerary. -/
def State.cfItin (s : State) (k : Nat) : Nat :=
  match s.cf.itins.at k with
  | some i => 2 ^ 31 + 65536 * (s.cf.runningOf k % 8192) + i.nodes % 8192
  | none => 0

/-! ### Streams and reliability (Tables 16-8, 17-7) -/

/-- SC_CTX of a context. -/
def State.scCtx (s : State) (k : Nat) : Nat :=
  match s.sc.streams.at k with
  | some x => fieldIf x.shadow.isSome 31 + 2 ^ 28 * (match x.st with | .running => 1 | .halted => 2 | .preempted => 3) +
      4096 * (x.queue.getD 0 % 4096) + 1024 * (x.cls % 4) + x.group % 64
  | none => 0

/-- SC_ARRAY of a logical array. -/
def State.scArray (s : State) (a : Nat) : Nat :=
  fieldIf (s.sc.reserved.at a).isSome 30 +
  (match s.sc.pairs.at a with
  | some p => 2 ^ 31 + 2 ^ 28 * (p.cls % 4) + 2 ^ 18 * (p.group % 64) + p.ctx % 2 ^ 18
  | none => 0)

/-- SC_STATUS. -/
def State.scStatus (s : State) : Nat :=
  fieldIf (s.sc.pairs.list.any (fun p => match s.sc.streams.at p.2.ctx with | some x => s.tileMode p.1 x | none => false)) 0 +
  2 * ((s.plan.poolSlots - s.sc.pool.list.length) % 1024)

/-- RL_STATUS. -/
def State.rlStatus (s : State) : Nat :=
  fieldIf (s.plan.has 0x70) 0 + fieldIf s.rl.ckpt.isSome 1 + fieldIf (!s.rl.comparing.isEmpty) 2

/-- RL_LOG_INFO. -/
def LogEntry.info (e : LogEntry) : Nat := 2 ^ 31 + 65536 * (e.kind % 256) + 256 * (e.status % 256)

end Sys2Proof.Machine
end

