-- ==== Sys2Proof/Machine/Trace.lean ====
section
/-! DEFINITION. Machine/Trace.lean: marks, the tracing banks, dumps and telemetry snapshots (R305, R451 to R455). -/

namespace Sys2Proof.Machine

/-- Raise a bit of TR_EVENT. -/
def State.trEvent (s : State) (b : Nat) : State := { s with io := s.io.event .TR_EVENT 0 b }

/-! ### Marks (R452, R453) -/

/-- The entry of the tracing-sources section that covers a mark id; a mark received over the fabric needs ACCEPT_FABRIC
(R453). -/
def Plan.traceEntry (p : Plan) (id : Nat) (received : Bool) : Option (List Byte) :=
  if p.has 0x80 then
    let sec := p.sec 0x80
    (chunks (sec.drop 16) 16 (u8 sec 0)).find? (fun e =>
      decide (u8 e 0 ≤ id) && decide (id ≤ u8 e 1) && (!received || bit (u8 e 2) 0))
  else none

/-- Schedule a mark. -/
def State.addMark (s : State) (id instant source : Nat) (received : Bool) (cmd : Option Nat) (origin : Nat) : State :=
  { s with tr := { s.tr with marks := s.tr.marks ++ [⟨id, instant, source, received, cmd, none, origin, decide (instant ≤ s.mer.count)⟩] } }

/-- An immediate local mark (Table 19-9). -/
def State.markNow (s : State) (id source : Nat) : State := s.addMark id s.mer.count source false none s.plan.ref

/-- MARK's message (R276, R305; log entry 164): the header, then origin, mark id, sequence and M, naturally aligned (R7). -/
def markBytes (origin seq id m : Nat) : List Byte :=
  msgBytes { Msg.blank with
    cls := 3, src := origin, payload := bytesOf origin 2 ++ bytesOf id 1 ++ zeros 1 ++ bytesOf seq 4 ++ bytesOf m 8 }

/-- CMD_MARK (R452): a local mark at a count or at once, or a fabric mark at least 100,000 mt ahead. It completes at the
latch. -/
def execCmdMark (id : Nat) (s : State) : Result :=
  match s.readyCmd id 0x1F with
  | none => ignored s
  | some c =>
    let mark := u8 c.entry 0x10
    let at' := u64 c.entry 0x18
    let s := s.runCmd id 1
    match u8 c.entry 0x11 with
    | 0 =>
      if at' = 0 then .next (s.addMark mark s.mer.count 2 false (some id) s.plan.ref)
      else if at' < s.mer.count then .next ((s.addMark mark s.mer.count 2 false (some id) s.plan.ref).trEvent 1)
      else .next (s.addMark mark at' 2 false (some id) s.plan.ref)
    | 1 =>
      let m := if at' = 0 then s.mer.count + 100000 else at'
      if m < s.mer.count + 100000 then .next (s.finish id stInvalid 0)
      else
        let (q, s) := s.nextSeq
        .next ((s.addMark mark m 3 false (some id) s.plan.ref).floodOn 0x8000 0x23 (markBytes s.plan.ref q mark m))
    | _ => .next (s.finish id stInvalid 0)

/-- RX_MARK (R305): a fabric mark is flooded on and scheduled for M; at or after M it latches at once, MARK_LATE. -/
def execRxMark (p : Fin 64) (origin : Fin 16384) (seq : BitVec 32) (id : Fin 256) (m : BitVec 64) (s : State) : Result :=
  if (s.port p).linked = false then ignored s
  else
    match s.newer origin seq.toNat with
    | none => ignored s
    | some s =>
      let s := s.floodFrom p 0x8000 0x23 origin (markBytes origin seq.toNat id m.toNat)
      if m.toNat ≤ s.mer.count then
        .next ((s.addMark id s.mer.count 3 true none origin).mapIo (fun io => io.event .FB_TRAFFIC_EVENT 0 6))
      else .next (s.addMark id m.toNat 3 true none origin)

/-- MARK_INSTANT (Table 19-9): MARK instant `k` of the cycle table triggers a mark with its ARG. -/
def execMarkInstant (k : Nat) (s : State) : Result :=
  match s.dueInstant k with
  | none => ignored s
  | some (i, c) => if i.kind = 3 then .next ((s.fired k c).addMark i.arg c 1 false none s.plan.ref) else ignored s

/-- TR_MARK: TR_CTRL.MARK triggers an immediate local mark with the id of bits [15:8]. -/
def execTrMark (id : Fin 256) (s : State) : Result := if s.barShut then ignored s else .next (s.markNow id 5)

/-! ### What latches (R141, R202, R230, R454) -/

/-- A room core's 16 bytes (R141). A core without a call latches IDLE alone. A record burst is whole within its instruction
(R125, R133), so none is in progress between two. -/
def roomTrace (s : State) (c : Option Core) : List Byte :=
  match c with
  | none => bytesOf (2 ^ 65) 16
  | some c =>
    bytesOf (c.pc % 2 ^ 14 + 2 ^ 14 * (c.events % 256) + 2 ^ 22 * (c.call.tag % 65536) + 2 ^ 38 * (c.call.cls % 4) +
      2 ^ 40 * min (s.rcOf c) (2 ^ 24 - 1)) 16

/-- An array's 32 bytes (R202): what cycles decide, the last k-step, the freeze causes and the drained rows, is a free value
from `fr` on. -/
def arrayTrace (s : State) (a fr : Nat) : List Byte :=
  let r := s.arr a
  bytesOf (s.mxStatus a % 32) 4 ++ (match r.running with | some t => slice (t.desc ++ zeros 64) 0x30 4 | none => zeros 4) ++
  bytesOf (Config.freeValue fr % 65536) 4 ++ bytesOf (Config.freeValue (fr + 1) % 16) 4 ++ bytesOf (Config.freeValue (fr + 2) % 129) 4 ++ zeros 12

/-- An engine's 32 bytes (R230): the vector index is a free value. -/
def engineTrace (s : State) (a fr : Nat) : List Byte :=
  let r := s.arr a
  bytesOf (s.veStatus a % 8) 4 ++
  bytesOf (match r.chain, r.eact with | some q, _ => q.chain % 256 | none, some d => u8 d.1.desc 0 | none, none => 0) 4 ++
  bytesOf (match r.chain with | some q => q.tag | none => 0) 4 ++ bytesOf (Config.freeValue fr % 64) 4 ++ bytesOf r.slots 4 ++
  bytesOf (match r.sel with | some x => x.entries.length + (x.buckets.map List.length).sum | none => 0) 4 ++ zeros 8

/-- A landing's 32 bytes: WG_STATUS, calls in flight, calls held. -/
def landingTrace (s : State) (st : Nat) : List Byte :=
  let waits := (s.wings.lookups.list.map (fun e => (e.2.parts.filter (fun p => p.st == .waiting &&
    (match p.wing.bind s.plan.wing with | some w => wStack w == st && s.wingHeld w | none => false))).length)).sum
  bytesOf (s.wgStatus st) 4 ++ bytesOf (s.activeCores st) 4 ++ bytesOf waits 4 ++ zeros 20

/-- A port's 32 bytes: FB_STATUS, replay occupancy and the credits of each class. -/
def portTrace (s : State) (p : Nat) : List Byte :=
  let x := s.port p
  bytesOf (s.fbStatus p) 4 ++ bytesOf x.replay.length 4 ++ (x.credits.flatMap (fun c => bytesOf c 4)) ++ zeros 8

/-- The front end's 32 bytes: launches running, and the queue being examined. -/
def frontTrace (s : State) : List Byte :=
  bytesOf s.cf.slotsUsed 4 ++ bytesOf (match s.cf.queues.find? (fun e => e.2.examining) with | some e => e.1 | none => 0xFFFF) 4 ++ zeros 24

/-- Key of a latched entry. -/
def traceKey (kind inst : Nat) : Nat := 2 ^ 20 * kind + inst

/-- SOURCES, STACKS and ARRAYS of a tracing entry. -/
def teSources (e : List Byte) : Nat := u16 e 4
/-- STACKS. -/
def teStacks (e : List Byte) : List Nat := (List.range 16).filter (fun i => bit (u16 e 6) i)
/-- ARRAYS. -/
def teArrays (e : List Byte) : List Nat := (List.range 64).filter (fun i => bit (u64 e 8) i)

/-- The entries that a tracing entry selects (R453), but for rooms that run no call. -/
def State.traceSet (s : State) (e : List Byte) : List (Nat × List Byte) :=
  let src := teSources e
  let pick := fun (b : Nat) (xs : List (Nat × List Byte)) => if bit src b then xs else []
  pick 0 ((teArrays e).map (fun a => (traceKey 0 a, arrayTrace s a (s.free + 4 * a)))) ++
  pick 1 ((teArrays e).map (fun a => (traceKey 1 a, engineTrace s a (s.free + 4 * a + 3)))) ++
  pick 2 (s.rooms.cores.list.filterMap (fun (c : Nat × Core) =>
    if (teStacks e).contains (c.1 / 65536) then some (traceKey 2 c.1, roomTrace s (some c.2)) else none)) ++
  pick 3 ((teStacks e).map (fun st => (traceKey 3 st, landingTrace s st))) ++
  pick 4 ((List.range 64).map (fun p => (traceKey 4 p, portTrace s p))) ++
  pick 5 [(traceKey 5 0, frontTrace s)]

/-- The entries of a privileged capture: the rooms, arrays and engines that the command touched (R374). -/
def State.captureEntry (c : Capture) : List Byte := zeros 4 ++ bytesOf 7 2 ++ bytesOf c.stkMask 2 ++ bytesOf c.arrMask 8

/-- A bank that latches. -/
def State.bankOf (s : State) (m : Mark) (e : List Byte) : TrBank :=
  ⟨true, m.id, m.source, m.instant, m.origin, e, (s.traceSet e).foldl (fun t x => SMap.set (fun _ => []) t x.1 x.2) []⟩

/-- One mark latches, is missed, or selects nothing (R453, R454); a MARK command completes with the count. -/
def State.latch (s : State) (m : Mark) : State :=
  let s :=
    match m.cap with
    | some k =>
      match s.cf.captures.at k with
      | none => s
      | some c =>
        if s.tr.capture.held then s.trEvent 4
        else
          let b := s.bankOf { m with id := k } (State.captureEntry c)
          { s with tr := { s.tr with capture := b }, free := s.free + 256 }
    | none =>
      match s.plan.traceEntry m.id m.fabric with
      | none => s
      | some e =>
        if s.tr.mark.held then
          s.mapIo (fun io => (io.inc .TR_MISSED).putN .TR_MISSED_ID 0 m.id)
        else
          let b := s.bankOf m e
          { s with tr := { s.tr with mark := b }, free := s.free + 256 }.trEvent 0
  match m.cmd with
  | some id => s.finish id stDone m.instant
  | none => s

/-- Put a mark in the order of instant, then id (R454). -/
def insertMark (m : Mark) : List Mark → List Mark
  | [] => [m]
  | x :: xs =>
    if m.instant < x.instant ∨ (m.instant = x.instant ∧ m.id < x.id) then m :: x :: xs else x :: insertMark m xs

/-- Whether a mark latches now: its instant has come, and no event before it is due (R64, R68). -/
def State.latches (s : State) (m : Mark) : Bool := s.markDue m && s.comesFirst m.instant 1

/-- MARK_LATCH (R452, R454): the marks whose instant has come latch, the lowest id of one instant first. -/
def execMarkLatch (s : State) : Result :=
  let due := (s.tr.marks.filter s.latches).foldl (fun l m => insertMark m l) []
  .next (due.foldl State.latch { s with tr := { s.tr with marks := s.tr.marks.filter (fun m => !s.latches m) } })

/-! ### Release and dump (R454, R455) -/

/-- TR_RELEASE (R454): the mark bank is released, at the end of a dump that runs. -/
def execTrRelease (s : State) : Result := if s.barShut then ignored s else
  if s.tr.dumping then .next { s with tr := { s.tr with releaseAsked := true } }
  else .next { s with tr := { s.tr with mark := { s.tr.mark with held := false } } }

/-- An entry of a bank; a room that ran no call reads IDLE. -/
def TrBank.entry (b : TrBank) (kind inst : Nat) : List Byte :=
  match SMap.get (fun _ => []) b.entries (traceKey kind inst) with
  | [] => if kind = 2 && bit (teSources b.sel) 2 && (teStacks b.sel).contains (inst / 65536) then bytesOf (2 ^ 65) 16 else zeros 32
  | x => x

/-- Bytes of the held bank's dump (R455). -/
def TrBank.dumpLen (b : TrBank) : Nat :=
  let src := teSources b.sel
  let n := fun (i c : Nat) => if bit src i then c else 0
  if b.held then
    64 + 32 * n 0 (teArrays b.sel).length + 32 * n 1 (teArrays b.sel).length + 32 * n 3 (teStacks b.sel).length + 32 * n 4 64 +
      32 * n 5 1 + 16 * 65536 * n 2 (teStacks b.sel).length
  else 0

/-- The dump of a held bank (R455). -/
def TrBank.dump (b : TrBank) : List Byte :=
  let src := teSources b.sel
  let pick := fun (i : Nat) (xs : List Byte) => if bit src i then xs else []
  (bytesOf b.id 1 ++ bytesOf b.source 1 ++ zeros 6 ++ bytesOf b.count 8 ++ bytesOf b.origin 2 ++ bytesOf src 2 ++ zeros 44) ++
  pick 0 ((teArrays b.sel).flatMap (b.entry 0)) ++ pick 1 ((teArrays b.sel).flatMap (b.entry 1)) ++
  pick 3 ((teStacks b.sel).flatMap (b.entry 3)) ++ pick 4 ((List.range 64).flatMap (b.entry 4)) ++ pick 5 (b.entry 5 0) ++
  pick 2 ((teStacks b.sel).flatMap (fun st => (List.range 65536).flatMap (fun r => b.entry 2 (65536 * st + r))))

/-- TR_DUMP as a device-physical address. -/
def Io.dumpAddr (io : Io) : Nat := io.val .TR_DUMP_LO + io.val .TR_DUMP_HI * 2 ^ 32

/-- TR_DUMP (R455): the held bank is written to its address, which must lie in one sheet in service. -/
def execTrDump (s : State) : Result := if s.barShut then ignored s else
  if s.tr.mark.held = false ∨ s.tr.dumping = true then ignored s
  else if s.io.dumpAddr % 256 = 0 ∧ s.plan.dpaOk s.io.dumpAddr s.tr.mark.dumpLen = true then
    .next { s with tr := { s.tr with dumping := true, dumpAt := s.io.dumpAddr } }
  else .next (s.trEvent 3)

/-- The dump lands at its address, where that still exists. -/
def State.dumpWrite (s : State) : State :=
  if s.plan.dpaOk s.tr.dumpAt s.tr.mark.dumpLen then s.sheetWrite .device s.tr.dumpAt s.tr.mark.dump else s

/-- No dump is at work; a release that was asked for takes effect. -/
def State.dumpOver (s : State) : State :=
  { s with tr := { s.tr with
    dumping := false, releaseAsked := false, mark := { s.tr.mark with held := s.tr.mark.held && !s.tr.releaseAsked } } }

/-- DUMP_DONE (R455). -/
def execDumpDone (s : State) : Result :=
  if s.tr.dumping then .next (s.dumpWrite.dumpOver.trEvent 2) else ignored s

/-! ### Telemetry (R451) -/

/-- The page that a snapshot fills: SEQ, the count at its opening, and the values (Table 19-8). -/
def State.telemetry (s : State) (seq at' : Nat) : List Byte :=
  bytesOf seq 8 ++ bytesOf at' 8 ++
  ([s.io.val .PW_POWER, s.pwStatus, s.io.val .UP_STEP, s.io.val .UP_COMMITS, s.io.val .UP_SKIPS, s.io.val .RL_UNCORR,
    s.io.val .RL_MISMATCH, s.merStatus, s.phaseErr, s.io.val .MER_ADMIT_DEFERRED, s.fbDevices,
    s.sc.streams.list.length] : List Nat).flatMap (fun v => bytesOf v 4) ++
  (List.range 256).flatMap (fun c => bytesOf (s.po.sensor c).value.toNat 4) ++
  (List.range 16).flatMap (fun st => bytesOf (s.stGov st) 4 ++ bytesOf (s.stTemp st) 4) ++ zeros 2880

/-- A snapshot that has not completed is abandoned. -/
def State.dropSnapshot (s : State) : State :=
  match s.tr.snapshot with
  | some _ => { s with tr := { s.tr with snapshot := none } }.trEvent 5
  | none => s

/-- TELEMETRY_WINDOW (R451): TELEMETRY instant `k` opens a snapshot into the page that is not current. -/
def execTelemetryWindow (k : Nat) (s : State) : Result :=
  match s.dueInstant k with
  | none => ignored s
  | some (i, c) =>
    if i.kind = 6 then
      let s := (s.fired k c).dropSnapshot
      .next { s with tr := { s.tr with snapshot := some (c + i.len, 1 - s.tr.cur, s.tr.seq + 1, c) } }
    else ignored s

/-- SNAPSHOT_DONE (R451): within its window the page is complete and becomes current. -/
def execSnapshotDone (s : State) : Result :=
  match s.tr.snapshot with
  | none => ignored s
  | some (ends, page, seq, at') =>
    if s.mer.count < ends then
      .next { s with
        ram := s.ram.poke (telemAddr page 0) (s.telemetry seq at')
        tr := { s.tr with snapshot := none, cur := page, seq := seq } }
    else ignored s

/-- TELEMETRY_WINDOW_END (R451). -/
def execTelemetryWindowEnd (s : State) : Result :=
  match s.tr.snapshot with
  | none => ignored s
  | some (ends, _, _, _) => if ends ≤ s.mer.count then .next s.dropSnapshot else ignored s

end Sys2Proof.Machine
end

