-- ==== Sys2Proof/Machine/Power.lean ====
section
/-! DEFINITION. Machine/Power.lean: the power controller, the Shuttered state, the porch and the 56 V input (chapter 18,
R436, R439, R456, R460). -/

namespace Sys2Proof.Machine

/-- Raise a bit of PW_EVENT. -/
def State.pwEvent (s : State) (b : Nat) : State := { s with io := s.io.event .PW_EVENT 0 b }
/-- Raise a bit of PO_EVENT. -/
def State.poEvent (s : State) (b : Nat) : State := { s with io := s.io.event .PO_EVENT 0 b }
/-- Change the power block. -/
def State.setPw (s : State) (f : Power → Power) : State := { s with pw := f s.pw }
/-- Change the porch. -/
def State.setPo (s : State) (f : Porch → Porch) : State := { s with po := f s.po }

/-! ### Loss of power (R436, R460) -/

/-- Boot begins (R442, R456): the porch ROM verifies the preferred bank first. -/
def Se.startBoot (e : Se) : Se := { e with boot := .rom, retry := false, runB := e.preferB, result := 0, failA := 0, failB := 0 }

/-- What security keeps when it loses power or is reset: the fuses, the flash with its banks and certificates. -/
def Se.kept (e : Se) : Se :=
  { Se.reset with fuses := e.fuses, bankA := e.bankA, bankB := e.bankB, preferB := e.preferB, certs := e.certs }

/-- Everything that a trip or the loss of the input clears (Table 20-4): all but the fuses and the boot bank. -/
def State.dark (s : State) : State :=
  { s with
    io := { Io.reset with out := s.io.out }
    ram := ⟨[], [], [], []⟩
    plan := Plan.off
    fp := Loader.reset
    mer := { Mer.reset with now := s.mer.now }
    xl := Xl.reset
    host := HostSide.reset
    cf := Cf.reset
    sc := Sc.reset
    stk := (List.range 16).foldl (fun (m : SMap Stack) st => setStack m st (fun k => { Stack.reset with hard := k.hard, temps := k.temps })) s.stk
    rl := Rl.reset
    rooms := Rooms.reset
    wings := Wings.reset
    upd := Update.reset
    mx := Mx.reset
    fab := Fabric.reset
    po := { Porch.reset with sensors := s.po.sensors }
    se := s.se.kept
    tr := Tr.reset }

/-- A trip (R436): every rail but VDD_AON goes, THERMTRIP_N is asserted, the cause and the channel are recorded. -/
def State.trip (s : State) (cause channel : Nat) : State :=
  if s.pw.st = .tripped then s
  else
    let old := s.io.reg .PO_TRIP_CAUSE &&& 0x1F#32
    let s := s.dark
    let s := { s with
      pw := { Power.reset with st := .tripped, therm := true, input := true, perst := s.pw.perst }
      io := s.io.put .PO_TRIP_CAUSE 0 (old ||| BitVec.ofNat 32 (2 ^ cause + 65536 * channel)) }
    s.poEvent 2

/-- RAIL_OUT_OF_REGULATION (R426): a rail has left its band for 100,000 mt. -/
def execRailOutOfRegulation (rail : Fin 11) (s : State) : Result :=
  if s.pw.input = true ∧ s.pw.st ≠ .tripped then .next (s.trip 3 (196 + 2 * rail)) else ignored s

/-- INPUT_APPLIED (R456): the 56 V input reaches 50 V; the porch runs from its ROM, and boot begins unless PERST_N is
held. -/
def execInputApplied (s : State) : Result :=
  if s.pw.input then ignored s
  else
    let s := s.setPw (fun w => { w with input := true })
    .next (if s.pw.perst then s else { s with se := s.se.startBoot })

/-- INPUT_LOST (R460): everything but the fuses and the boot bank is lost. -/
def execInputLost (s : State) : Result :=
  if s.pw.input then
    let perst := s.pw.perst
    let s := s.dark
    .next { s with pw := { Power.reset with input := false, perst := perst }, po := Porch.reset }
  else ignored s

/-- A temperature channel's trip (R436), in degrees. -/
def tripAt (c : Nat) : Option Nat := if c < 128 then some 105 else if c < 192 then some 115 else none

/-- An integer as FP32. -/
def degrees (n : Int) : Word := vf (intVal n)

/-- PO_TRIP_CLEAR (R436): TRIPPED is left once every temperature channel lies 10 °C below its trip; the device starts as from
power-on. -/
def execPoTripClear (v : BitVec 32) (s : State) : Result := if s.barGone then ignored s else
  if v.getLsbD 0 = true ∧ s.pw.st = .tripped ∧
      (List.range 192).all (fun c => match tripAt c with
        | some t => !f32lt (degrees ((t : Int) - 10)) (s.po.sensor c).raw
        | none => true) = true then
    let s := s.setPw (fun w => { w with st := .noPlan, therm := false })
    .next (if s.pw.perst then s else { s with se := s.se.startBoot })
  else ignored s

/-! ### Shuttered entry and wake (R431 to R434) -/

/-- Why Shuttered entry is refused, if it is (R431, Table 18-8). -/
def State.shutterRefused (s : State) : Option Nat :=
  if s.fp.st = .applying ∨ (([.FP_DRAIN_STACKS, .FP_DRAIN_ARRAYS_LO, .FP_DRAIN_ARRAYS_HI, .FP_DRAIN_PORTS_LO, .FP_DRAIN_PORTS_HI] :
      List Reg).any (fun r => s.io.val r != 0)) = true then some 1
  else if s.cf.queues.any (fun e => e.2.st == .enabled || e.2.st == .halted || e.2.st == .resetting) = true then some 2
  else if s.cf.launches.list.any (fun l => l.2.slot.isSome) = true then some 3
  else if s.pw.st ≠ .running then some 4
  else none

/-- A request for Shuttered entry (R431): refused, or the device is DEPARTING and announces it with reason 1. -/
def State.requestShutter (s : State) : State :=
  match s.shutterRefused with
  | some c => (s.setPw (fun w => { w with refuse := c })).pwEvent 4
  | none =>
    let eff := nextFrame s.plan.frameLen (s.mer.count + u16 (s.plan.sec 0x10) 4 * s.plan.frameLen)
    (s.setPw (fun w => { w with st := .departing, effective := eff, wakeAsked := false })).announceDepart eff 1

/-- A request for a wake (R433): it begins at once from SHUTTERED, and at the end of entry from DEPARTING. -/
def State.requestWake (s : State) : State :=
  match s.pw.st with
  | .shuttered => s.setPw (fun w => { w with st := .waking, wakeSince := s.mer.now, wakeAsked := false })
  | .departing => s.setPw (fun w => { w with wakeAsked := true })
  | _ => s

/-- PW_SHUTTER (R431). -/
def execPwShutter (s : State) : Result := if s.barGone then ignored s else .next s.requestShutter

/-- PW_WAKE (R433). -/
def execPwWake (s : State) : Result := if s.barGone then ignored s else .next s.requestWake

/-- An update commit is in progress: rows or parameter blocks of its step are still to be written (R49, R431). -/
def State.committing (s : State) : Bool :=
  s.upd.phase == .applying || s.upd.shards.any (fun e => e.2.busy) || !s.upd.blocks.isEmpty

/-- SHUTTERED (R432): lasers off, every array, engine and room core stopped, the array stores, attic and tile registers lost,
the sheets in self-refresh. The plan, the queue definitions, the region table, the program and chain stores and the
resident itineraries stay. -/
def State.shutter (s : State) : State :=
  let s := (List.range 64).foldl (fun (s : State) p =>
    if (s.port p).st = .dark then s else (s.portLost p .dark).setPort p (fun x => { x with cause := 0, failed := 0 })) s
  let s := if s.mer.use = 2 then s.loseSource else s
  let gone := fun (a : Nat) => decide (2 ^ 40 ≤ a ∧ a < 2 ^ 41)
  let woken := s.pw.wakeAsked
  let arrs := s.mx.arrs.foldl (fun (m : SMap Arr) (e : Nat × Arr) =>
    SMap.set arrDflt m e.1 { Arr.reset with quarantined := e.2.quarantined }) []
  let s := { s with
    ram := { s.ram with bytes := SMap.drop gone s.ram.bytes, blks := SMap.drop (fun b => gone (256 * b)) s.ram.blks }
    mx := { Mx.reset with arrs := arrs }
    sc := Sc.reset
    cf := { s.cf with cmds := [], buffers := [], launches := [] }
    xl := { s.xl with units := [], walks := [], reqs := [] }
    rooms := { s.rooms with cores := [], openRow := [], locked := [] }
    wings := { s.wings with lookups := [] }
    upd := { s.upd with
      phase := (if s.upd.phase = UpPhase.off then UpPhase.off else UpPhase.collecting), combiners := [], lists := [], commitSent := false
      flipSent := false, flipVerdict := none, blocks := []
      shards := s.upd.shards.map (fun (e : Nat × Shard) => (e.1, { e.2 with stale := true, busy := false, running := [], load := none })) }
    rl := { s.rl with samples := [], comparing := [], rejoin := [], ckpt := none }
    tr := { s.tr with dumping := false, snapshot := none }
    pw := { s.pw with
      st := (if woken then .waking else .shuttered), wakeAsked := false, wakeSince := s.mer.now, step := 0, notch := 0, lowSince := none } }
  let s := s.serving.foldl (fun (s : State) st => s.setStk st (fun k => { k with
    selfRefresh := true, training := false, scrub := none, cal := none, verifying := false, clearing := false
    chans := k.chans.foldl (fun (m : SMap Chan) e => SMap.set chanDflt m e.1
      (if e.2.st = ChanState.failed then e.2 else { e.2 with st := ChanState.ready })) [] })) s
  s.pwEvent 2

/-- SHUTTER_ENTRY (R431, R432): 100,000 mt after EFFECTIVE, once no update commit is in progress. -/
def execShutterEntry (s : State) : Result :=
  if s.pw.st = .departing ∧ s.mer.reached (s.pw.effective + 100000) = true ∧ s.committing = false then .next s.shutter
  else ignored s

/-- PW_WAKE_AT. -/
def Io.wakeAt (io : Io) : Nat := io.val .PW_WAKE_AT_LO + io.val .PW_WAKE_AT_HI * 2 ^ 32

/-- WAKE_AT (R433): in SHUTTERED, the count reaches PW_WAKE_AT, when that is not 0. -/
def execWakeAt (s : State) : Result :=
  if s.pw.st = .shuttered ∧ s.io.wakeAt ≠ 0 ∧ s.mer.reached s.io.wakeAt = true then .next s.requestWake else ignored s

/-- WAKE_COMPLETE (Table 18-4): the stacks have left self-refresh, lasers are on and ports train, every shard and layer is
stale, the porch's rules start afresh and the scheduled events of the time asleep do not fire. -/
def execWakeComplete (s : State) : Result :=
  if s.pw.st = .waking then
    let s := s.serving.foldl (fun (s : State) st => s.setStk st (fun k => { k with selfRefresh := false })) s
    let s := { s with
      pw := { s.pw with st := .running }
      mer := s.mer.newTable (s.mer.count + 1) s.mer.count
      tr := { s.tr with marks := s.tr.marks.filter (fun m => m.asap || decide (s.mer.count < m.instant)) }
      po := { s.po with rules := s.po.rules.foldl (fun (m : SMap RuleState) r =>
        SMap.set ruleDflt m r.1 { r.2 with active := r.2.latched, beyond := 0, back := 0 }) s.po.rules } }
    let s := (List.range 64).foldl State.lightPort s
    .next ((s.staleAll.recap).pwEvent 3)
  else ignored s

/-- DEPARTURE_FORWARDING_END (R269): at EFFECTIVE + 100,000 mt a departing device stops forwarding and keeping its ports
UP. -/
def execDepartureForwardingEnd (s : State) : Result :=
  match s.fab.departs.find? (fun d => d.ref == s.plan.ref) with
  | some d =>
    if s.mer.reached (d.effective + 100000) then
      let s := { s with fab := { s.fab with departs := s.fab.departs.filter (fun (e : Depart) => e.ref != s.plan.ref) } }
      .next ((List.range 64).foldl (fun (s : State) p =>
        if (s.port p).st = .dark then s else (s.portLost p .dark).setPort p (fun x => { x with cause := 0, failed := 0 })) s)
    else ignored s
  | none => ignored s

/-! ### The controller (R428, R429) -/

/-- Whether one more notch changes anything: an array above the floor step, or a governor above GOV_FLOOR. -/
def State.canTighten (s : State) : Bool :=
  decide (s.pw.step < s.plan.floorStep) ||
  s.serving.any (fun st => let r := s.plan.stackRate st; decide (min r s.plan.govFloor < r - r * s.pw.notch / 8))

/-- The controller at `n` notches: the arrays go no slower than FLOOR_STEP. -/
def State.notches (s : State) (n : Nat) : State :=
  (s.setPw (fun w => { w with notch := n, step := min n s.plan.floorStep })).recap

/-- ALERT_N: an active ALERT rule, or arrays below step 0 with ALERT_ON_THROTTLE (Tables 18-2, 18-7). -/
def State.realert (s : State) : State :=
  let slow := s.plan.active && bit (u8 (s.plan.sec 0x10) 3) 0 && s.enabledArrays.any (fun a => decide (0 < s.arrayStep a))
  s.setPw (fun w => { w with alert := slow || !(s.capArgs 2).isEmpty })

/-- POWER_PROJECTION (R429): every 10,000 mt the next window's draw is projected, and the controller tightens or loosens
one notch. -/
def execPowerProjection (watts : Nat) (s : State) : Result :=
  if s.plan.active = true ∧ s.asleep = false ∧ s.pw.lastProjection + 10000 ≤ s.mer.now then
    let e := s.envelope
    let s := s.setPw (fun w => { w with lastProjection := s.mer.now })
    if e < watts + 50 then
      let s := s.setPw (fun w => { w with lowSince := none })
      .next (if s.canTighten then ((s.notches (s.pw.notch + 1)).pwEvent 0).realert else s)
    else if watts + 150 < e then
      match s.pw.lowSince with
      | none => .next (s.setPw (fun w => { w with lowSince := some s.mer.now }))
      | some t =>
        if t + 1000000 ≤ s.mer.now ∧ 0 < s.pw.notch then
          .next (((s.setPw (fun w => { w with lowSince := some s.mer.now })).notches (s.pw.notch - 1)).realert)
        else .next s
    else .next (s.setPw (fun w => { w with lowSince := none }))
  else ignored s

/-- The most that the module draws as the mean of a window: the envelope (R19, R428), and 65 W while SHUTTERED (R432). -/
def State.drawLimit (s : State) : Nat := if s.pw.st = .shuttered then min 65 s.envelope else s.envelope

/-- POWER_WINDOW (R428): a window of 100,000 mt ends with this mean power. No window's mean lies above the envelope (R19): such
a command does not occur. -/
def execPowerWindow (watts : Fin 65536) (s : State) : Result := if s.drawLimit < watts then ignored s else
  let peak := max (s.io.val .PW_POWER / 65536) watts
  let slow := s.enabledArrays.any (fun a => decide (0 < s.arrayStep a))
  let low := s.underFloor
  .next (s.mapIo (fun io =>
    let io := io.putN .PW_POWER 0 (peak * 65536 + watts)
    let io := if slow then io.inc .PW_THROTTLED else io
    if low then io.inc .PW_BELOW_FLOOR else io))

/-! ### Sensors, filters and rules (R435 to R439) -/

/-- A channel's filter entry (R437). -/
def porchFilter (sec : List Byte) (c : Nat) : List Byte := slice sec (0x10 + 4 * c) 4

/-- The mean of FP32 samples, formed exactly and rounded once. -/
def meanOf (xs : List Word) : Word :=
  let r := ((xs.map fv).foldl Val.add (.fin false 0 0)).div (intVal xs.length)
  BitVec.ofNat 32 (Fp.fp32.encodeS .rne r.1 r.2)

/-- A sample passes through its channel's filter (R437). With no porch-rules section there is no filter (Table 20-1). -/
def filterSample (p : Porch) (c : Nat) (v : Word) : Sensor :=
  let x := p.sensor c
  if p.plan = [] then ⟨v, [], v⟩
  else
    let f := porchFilter p.plan c
    if u8 f 0 = 0 then ⟨v, [], x.value⟩
    else
      let w := (v :: x.window).take (2 ^ u8 f 2)
      ⟨v, w, match u8 f 1 with
        | 0 => v
        | 1 => meanOf w
        | 2 => w.foldl f32max v
        | _ => w.foldl f32min v⟩

/-- A rule's state after one filtered sample (R438), and whether it has become active. -/
def ruleStep (e : List Byte) (r : RuleState) (v : Word) : RuleState × Bool :=
  let below := bit (u8 e 1) 2
  let th := f32At e 4
  let hyst := f32At e 8
  let hold := u16 e 0xC
  let out := if below then f32lt v th else f32lt th v
  let ok := if below then f32lt (f32add th hyst) v else f32lt v (f32sub th hyst)
  let r := { r with beyond := if out then r.beyond + 1 else 0, back := if ok then r.back + 1 else 0 }
  if r.active then
    (if !r.latched && decide (hold ≤ r.back) then { r with active := false, beyond := 0 } else r, false)
  else if hold ≤ r.beyond then
    ({ r with active := true, latched := bit (u8 e 1) 1, times := min (r.times + 1) 65535, back := 0 }, true)
  else (r, false)

/-- What a rule does on becoming active (Table 18-7); its caps are in force while it is. -/
def State.ruleActs (s : State) (e : List Byte) : State :=
  match u8 e 2 with
  | 1 => s.poEvent 0
  | 5 => s.requestShutter
  | 6 => s.requestWake
  | 7 => s.trip 4 (u8 e 0)
  | 8 => s.markNow (u8 e 3) 4
  | _ => s

/-- The rules of a channel take a filtered sample, in ascending index (R438); the old rules' caps of the channel end with
this first evaluation (R439). -/
def State.evaluate (s : State) (c : Nat) (v : Word) : State :=
  let mine := (List.range s.po.rulesOf).filter (fun i =>
    u8 (porchRule s.po.plan i) 0 == c && bit (u8 (porchRule s.po.plan i) 1) 0)
  if mine.isEmpty then s
  else
    let sec := s.po.plan
    let s := s.setPo (fun p => { p with oldCaps := p.oldCaps.filter (fun (x : Nat × Nat × Nat) => x.1 != c) })
    mine.foldl (fun (s : State) i =>
      if s.pw.st = .tripped then s
      else
        let e := porchRule sec i
        let (r, on) := ruleStep e (s.po.rule i) v
        let s := s.setPo (fun p => { p with rules := SMap.set ruleDflt p.rules i r })
        if on then s.ruleActs e else s) s

/-- Whole degrees of a temperature; nothing below zero. -/
def wholeDegrees (v : Word) : Nat :=
  match fv v with
  | .fin false m e => min 255 (if 0 ≤ e then m * 2 ^ e.toNat else m / 2 ^ (-e).toNat)
  | _ => 0

/-- A built-in trip that a sample fires (R436): its cause. The input trips once it has been out for 100,000 mt. -/
def State.sampleTrip (s : State) (c : Nat) (v : Word) : Option Nat :=
  if c < 128 then (if !f32lt v (degrees 105) && !f32nan v then some 0 else none)
  else if c < 192 then (if !f32lt v (degrees 115) && !f32nan v then some 1 else none)
  else
    match s.po.outSince with
    | some t => if c = 192 ∧ t + 100000 ≤ s.mer.now then some 2 else none
    | none => none

/-- The input voltage's time outside 48 V to 62 V (R436). -/
def State.watchInput (s : State) (c : Nat) (v : Word) : State :=
  if c = 192 then
    let out := f32lt v (degrees 48) || f32lt (degrees 62) v
    s.setPo (fun p => { p with outSince := if out then (if p.outSince.isSome then p.outSince else some s.mer.now) else none })
  else s

/-- A storey's sample heats its stack (R110); above 85 °C an open preservation record is HOT (Table 20-6). -/
def State.heatStorey (s : State) (c : Nat) (v : Word) : State :=
  if c < 128 then
    let st := c / 8
    let s := s.heat st ((s.stack st).temps.set (c % 8) (wholeDegrees v))
    if (s.stack st).selfRefresh && f32lt (degrees 85) v then
      s.setStk st (fun k => { k with preserve := k.preserve.map (fun (r : Preserve) => { r with hot := true }) })
    else s
  else s

/-- SENSOR_SAMPLE (R435 to R438): a channel is sampled; the built-in trips see the sample, the filter takes it and the
channel's rules are evaluated. Reserved channels read 0. -/
def execSensorSample (c : Fin 256) (v : BitVec 32) (s : State) : Result :=
  if s.pw.input = false ∨ channelReserved c = true then ignored s
  else
    let x := filterSample s.po c v
    let s := s.setPo (fun p => { p with sensors := SMap.set sensorDflt p.sensors c x })
    if s.pw.st = .tripped then .next s
    else
      let s := (s.watchInput c v).heatStorey c v
      match s.sampleTrip c v with
      | some k => .next (s.trip k c)
      | none =>
        let s := if s.po.plan ≠ [] ∧ u8 (porchFilter s.po.plan c) 0 ≠ 0 then s.evaluate c x.value else s
        .next s.recap.realert

/-- PO_RULE_CLEAR (Table 18-8): the selected rule's LATCHED and ACTIVE are cleared. -/
def execPoRuleClear (v : BitVec 32) (s : State) : Result := if s.barGone then ignored s else
  if v.getLsbD 0 then
    let i := s.io.val .PO_RULE_SEL % 128
    .next ((s.setPo (fun p => { p with rules := SMap.set ruleDflt p.rules i { p.rule i with active := false, latched := false, beyond := 0, back := 0 } })).recap.realert)
  else ignored s

/-- OLD_RULE_CAPS_EXPIRY (R439): 100,000 mt after a new porch-rules section, what is left of the old rules' caps ends. -/
def execOldRuleCapsExpiry (s : State) : Result :=
  if s.po.oldCaps ≠ [] ∧ s.po.oldUntil ≤ s.mer.now then .next ((s.setPo (fun p => { p with oldCaps := [] })).recap.realert)
  else ignored s

/-- A porch-rules section takes effect with every rule inactive; caps of the old rules hold for a while (R439). -/
def State.installPorch (s : State) (sec : List Byte) : State :=
  let old := ((List.range s.po.rulesOf).filter (fun i => (s.po.rule i).active)).map (fun i =>
    let e := porchRule s.po.plan i
    (u8 e 0, u8 e 2, u8 e 3))
  (s.setPo (fun p => { p with
    plan := sec, rules := []
    sensors := p.sensors.foldl (fun (m : SMap Sensor) x => SMap.set sensorDflt m x.1 { x.2 with window := [] }) p.sensors
    oldCaps := old.filter (fun (x : Nat × Nat × Nat) => x.2.1 == 3 || x.2.1 == 4 || x.2.1 == 9)
    oldUntil := s.mer.now + 100000 })).recap.realert

/-- HEARTBEAT_LOST (Table 17-6): a keeper core's heartbeat stops and a sibling takes its duties. -/
def execHeartbeatLost (core : Fin 4) (s : State) : Result :=
  if bit s.po.keepers core then .next ((s.setPo (fun p => { p with keepers := p.keepers - 2 ^ core.val })).poEvent 1)
  else ignored s

end Sys2Proof.Machine
end

