-- ==== Sys2Proof/Machine/Host.lean ====
section
/-! DEFINITION. Machine/Host.lean: the host link, the letterbox, MSI-X, configuration space and the DOE mailbox
(chapter 13). -/

namespace Sys2Proof.Machine

/-- Raise a bit of HC_EVENT. -/
def State.hcEvent (s : State) (b : Nat) : State := { s with io := s.io.event .HC_EVENT 0 b }
/-- Change the host side. -/
def State.setHost (s : State) (f : HostSide → HostSide) : State := { s with host := f s.host }

/-! ### The region table (R315, R316, R318) -/

/-- The 32 bytes of a region entry (Table 13-2). -/
def HostSide.entry (h : HostSide) (i : Nat) : List Byte := (List.range 8).flatMap (fun d => bytesOf (h.region i d) 4)

/-- The bits of dword `d` of a region entry that are no Reserved ones (Table 13-2): the others read zero (R8). -/
def regionMask (d : Nat) : Word := if d = 0 then 0xFFFF0307#32 else if d = 7 then 0x3F#32 else 0xFFFFFFFF#32

/-- Store a dword of a region entry. -/
def HostSide.setRegion (h : HostSide) (i d : Nat) (v : Word) : HostSide :=
  { h with regions := SMap.set (fun _ => 0#32) h.regions (8 * i + d) (v &&& regionMask d) }

/-- VALID of a region. -/
def HostSide.valid (h : HostSide) (i : Nat) : Bool := bit (h.region i 0) 0

/-- SPAN. -/
def rgSpan (e : List Byte) : Nat := u16 e 2
/-- LENGTH. -/
def rgLength (e : List Byte) : Nat := u32 e 4
/-- SHEET_BASE. -/
def rgBase (e : List Byte) : Nat := u64 e 8
/-- FLAG_OFFSET. -/
def rgFlag (e : List Byte) : Nat := u32 e 0x14
/-- NOTIFY_QUEUE. -/
def rgQueue (e : List Byte) : Nat := u16 e 0x18
/-- ITINERARY. -/
def rgItin (e : List Byte) : Nat := u16 e 0x1A

/-- The valid region that covers a granule (R315): at most 4,096 granules. -/
def HostSide.covering (h : HostSide) (g : Nat) : Option Nat :=
  ((h.regions.filter (fun e => e.1 % 8 == 0 && e.2.getLsbD 0)).map (fun e => e.1 / 8)).find? (fun i =>
    decide (i ≤ g) && decide (g < i + rgSpan (h.entry i)))

/-- Whether a region lies within one sheet of a plan (R90). -/
def Plan.regionFits (p : Plan) (e : List Byte) : Bool := p.dpaOk (rgBase e) (rgLength e)

/-- Why a region entry cannot become valid, as HC_LB_ENTRY_ERR.CAUSE (R316). -/
def State.regionBad (s : State) (i : Nat) (e : List Byte) : Option Nat :=
  let span := rgSpan e
  let len := rgLength e
  if s.plan.active = false then some 8
  else if span = 0 ∨ 4096 < span ∨ 65536 < i + span then some 2
  else if u8 e 1 % 4 = 3 ∨ len % 256 ≠ 0 ∨ len ≤ (span - 1) * 2 ^ 20 ∨
      span * 2 ^ 20 < len ∨ rgBase e % 4096 ≠ 0 ∨ s.plan.regionFits e = false then some 1
  else if rgFlag e ≠ 0xFFFFFFFF ∧ (rgFlag e % 8 ≠ 0 ∨ len ≤ rgFlag e) then some 4
  else if (if bit (u8 e 0) 2 then decide (4095 < rgQueue e) else rgQueue e != 0xFFFF) = true then some 5
  else if (if bit (u8 e 0) 1 then decide (1023 < rgItin e) else rgItin e != 0xFFFF) = true then some 6
  else if (s.host.covering i).isSome ∨ (List.range span).any (fun k => decide (0 < k) &&
      (s.host.valid (i + k) || (s.host.covering (i + k)).isSome)) = true then some 3
  else none

/-- An entry error: the first since software cleared VALID is kept (R316). -/
def State.entryErr (s : State) (i cause : Nat) : State :=
  let s := if bit (s.io.val .HC_LB_ENTRY_ERR) 31 then s
    else s.mapIo (fun io => io.putN .HC_LB_ENTRY_ERR 0 (2 ^ 31 + cause * 65536 + i))
  s.hcEvent 7

/-- A write that includes an entry's first dword; `hi` is the second dword of an 8-byte write (R316, R318). -/
def State.regionFirst (s : State) (i : Nat) (v : Word) (hi : Option Word) : State :=
  if s.host.valid i ∧ v.getLsbD 0 = true then s.entryErr i 7
  else
    let s := match hi with | some w => s.setHost (fun h => h.setRegion i 1 w) | none => s
    let t := s.setHost (fun h => h.setRegion i 0 v)
    if v.getLsbD 0 then
      match s.regionBad i (t.host.entry i) with
      | some c => (s.setHost (fun h => h.setRegion i 0 (v &&& ~~~1#32))).entryErr i c
      | none => t
    else t

/-- A write of an entry's other dwords: ignored whole and logged while the entry is valid (R316). -/
def State.regionOther (s : State) (i d : Nat) (v : Word) : State :=
  if s.host.valid i then s.entryErr i 7 else s.setHost (fun h => h.setRegion i d v)

/-- REGION_VALIDATE (R316): FLAGS is written with VALID 1. -/
def execRegionValidate (i : Fin 65536) (v : BitVec 32) (hi : Option (BitVec 32)) (s : State) : Result := if s.barShut then ignored s else
  if v.getLsbD 0 then .next (s.regionFirst i v hi) else ignored s

/-- REGION_END (R318): the first dword is written with VALID 0. -/
def execRegionEnd (i : Fin 65536) (v : BitVec 32) (hi : Option (BitVec 32)) (s : State) : Result := if s.barShut then ignored s else
  if v.getLsbD 0 then ignored s else .next (s.regionFirst i v hi)

/-- Regions that a plan no longer fits lose VALID (R316). -/
def State.shrinkRegions (s : State) : State :=
  ((s.host.regions.filter (fun e => e.1 % 8 == 0 && e.2.getLsbD 0)).map (fun e => e.1 / 8)).foldl (fun (s : State) i =>
    if s.plan.active && s.plan.regionFits (s.host.entry i) then s
    else (s.setHost (fun h => h.setRegion i 0 (BitVec.ofNat 32 (h.region i 0 - 1)))).entryErr i 9) s

/-! ### The letterbox (R313, R317 to R321) -/

/-- A refused access of BAR2 is counted, logged as the first since the log was cleared, and answered Unsupported Request. -/
def State.lbReject (s : State) (cause off req : Nat) : State :=
  let s := s.mapIo (fun io =>
    let io := io.inc .HC_LB_REJECTS
    let io := if bit (io.val .HC_LB_REJ_LOG0) 31 then io
      else (io.putN .HC_LB_REJ_LOG0 0 (2 ^ 31 + cause * 65536 + req)).putN .HC_LB_REJ_LOG1 0 (off / 16)
    io.send .unsupported)
  s.hcEvent 5

/-- Whether the host's requests other than configuration reach the device: the link is up, in D0, and no reset runs. -/
def State.hostReaches (s : State) : Bool := s.linkUp && !s.host.d3 && s.host.resetting == 0 && s.pw.st != .tripped && s.pw.input

/-- BAR2_READ (R313). -/
def execBar2Read (off : BitVec 36) (req : BitVec 16) (s : State) : Result :=
  if s.hostReaches then .next (s.lbReject 5 off.toNat req.toNat) else ignored s

/-- A flag's launch and notification dropped because 16 are held (R321). -/
def State.flagDrop (s : State) : State := (s.mapIo (fun io => io.inc .HC_LB_FLAG_DROPS)).hcEvent 6

/-- A flag launches its itinerary: word 0 the region, word 1 the flag word, word 2 the count (R319, R367). -/
def State.launchFlag (s : State) (i : Nat) (e : List Byte) (word : Nat) : State :=
  let l := s.cf.nextLaunch
  let cls := u8 e 1 % 4
  let c := s.mer.count
  let s := if s.cf.launchFull then s.mapIo (fun io => io.inc .CF_LAUNCH_WAITS) else s
  let go := if cls = 0 then s.admitClass0 (2 * l + 1) else (true, s)
  let x : Launch := ⟨rgItin e, .flag i word c, 1, cls, u8 e 0x1C % 64, (0, bytesOf i 8 ++ bytesOf word 8 ++ bytesOf c 8), none, go.1,
    [], 0, 0, stDone, 0, c, none, [], 0⟩
  let s := go.2
  { s with cf := { s.cf with launches := s.cf.launches.put l x, nextLaunch := l + 1 } }

/-- Honoured flags of a region whose launch has not been dispatched (R321). -/
def State.flagsHeld (s : State) (i : Nat) : Nat :=
  (s.cf.launches.list.filter (fun l => l.2.slot.isNone && (match l.2.source with | .flag r _ _ => r == i | _ => false))).length

/-- A flag is honoured, or dropped (R319, R321, R330). -/
def State.honour (s : State) (i : Nat) (e : List Byte) : State :=
  let word := le (s.ram.read (rgBase e + rgFlag e) 8) 0 8
  let launch := bit (u8 e 0) 1
  if launch && decide (16 ≤ s.flagsHeld i) then s.flagDrop
  else
    let s := s.mapIo (fun io => io.inc .HC_LB_FLAGS)
    let s := if bit (u8 e 0) 2 then
        match s.notify (rgQueue e) i stDone word true s.mer.count 0 with
        | (true, s) => s
        | (false, s) => s.mapIo (fun io => io.inc .HC_LB_FLAG_DROPS)
      else s
    if launch then
      (if s.host.parked then s.mapIo (fun io => io.inc .HC_LB_FLAG_DROPS) else s.launchFlag i e word)
    else s

/-- Why a letterbox write is refused, if it is (R317); the SHUTTERED letterbox answers NO_REGION (R434). -/
def State.lbCause (s : State) (off n req : Nat) (poisoned : Bool) : Nat × Nat :=
  match s.host.covering (off / 2 ^ 20) with
  | none => (1, 0)
  | some i =>
    let e := s.host.entry i
    let m := u16 e 0x12
    if s.asleep then (1, i)
    else if rgLength e < off - i * 2 ^ 20 + n then (2, i)
    else if req &&& m ≠ u16 e 0x10 &&& m then (3, i)
    else if poisoned then (4, i)
    else (0, i)

/-- LETTERBOX_WRITE (R317): a posted write to BAR2 lands whole in its region's sheet range, and is a flag where it reaches
the flag word, or it lands nowhere. A drain does not hold it; a channel being retrained does (R97, R98). -/
def execLetterboxWrite (off : BitVec 36) (bytes : List Byte) (req : BitVec 16) (poisoned : Bool) (s : State) : Result :=
  if s.hostReaches = false ∨ bytes = [] then ignored s
  else
    match s.lbCause off.toNat bytes.length req.toNat poisoned with
    | (0, i) =>
      let e := s.host.entry i
      let x := off.toNat - i * 2 ^ 20
      if s.chanHeld ((rgBase e + x) / 2 ^ 30) ∨ s.chanHeld ((rgBase e + x + bytes.length - 1) / 2 ^ 30) then ignored s
      else
      let s := (s.mapIo (fun io => io.addWide .HC_LB_ACCEPTED_LO 0 1)).sheetWrite .host (rgBase e + x) bytes
      .next (if rgFlag e ≠ 0xFFFFFFFF ∧ x < rgFlag e + 8 ∧ rgFlag e < x + bytes.length then s.honour i e else s)
    | (c, _) => .next (s.lbReject c off.toNat req.toNat)

/-- HC_LB_FENCE (R318). -/
def execHcLbFence (v : BitVec 32) (s : State) : Result := if s.barShut then ignored s else
  .next ((s.setHost (fun h => { h with fence := some (v.toNat % 65536) })).mapIo (fun io => io.putN .HC_LB_FENCE_STATUS 0 1))

/-- LB_FENCE_DONE (R318): every flag that the region accepted has been dispatched or dropped. -/
def execLbFenceDone (s : State) : Result :=
  match s.host.fence with
  | some i =>
    if s.flagsHeld i = 0 then
      .next ((s.setHost (fun h => { h with fence := none })).mapIo (fun io => io.putN .HC_LB_FENCE_STATUS 0 0))
    else ignored s
  | none => ignored s

/-! ### The link (R306, R329, R330) -/

/-- A queue whose host is lost: fetching stops, and what was not yet sent is discarded and counted (R330). -/
def State.loseQueue (s : State) (q : Nat) : State :=
  let x := s.cf.queue q
  if x.st = .enabled ∨ x.st = .halted then
    let n := x.cpls.length + x.overflow.length
    let s := { s with xl := s.xl.dropUnits (fun o => o == Owner.sq q || o == Owner.cq q), io := s.io.add .HC_LOST_WRITES 0 n }
    (s.setQueue q (fun x => { x with
      st := .hostLost, disabling := false, examining := false, fetching := 0, fetchNext := x.sqHead, cpls := [], overflow := []
      cqStall := false, sqFault := false, partialBytes := [], guiltyTo := none })).cause q 4
  else s

/-- A read of a lost host fails (R330): the buffer stops, the command or stream unit ends HOST_LOST. On link down a unit that
waits for the host's answer goes on waiting; a hot reset ends it too, which `all` says (R352). -/
def State.readFails (s : State) (all : Bool) (k : Nat) : State :=
  match s.xl.units.at k with
  | none => s
  | some u =>
    if all = false ∧ u.st ≠ .walking ∧ u.st ≠ .accessing then s
    else match u.owner with
      | .buffer id =>
        let run : Bool := match s.cf.cmds.at id with | some c => c.phase == .running | none => false
        let s := s.dropUnit k
        let s := { s with cf := { s.cf with buffers := s.cf.buffers.upd id (fun (b : Buffer) =>
          { b with stopped := some (b.next, stHostLost) }) } }
        if run then
          match s.pumpBuffer id with
          | (s, some (i, st, r)) => s.finish i st r
          | (s, none) => s
        else s
      | .cmd _ | .stream _ _ _ => s.unitOver k u stHostLost
      | _ => s.dropUnit k

/-- The host is lost (R330): every enabled queue enters HOST_LOST, host reads fail, and the grace period begins. -/
def State.hostLost (s : State) (link : Nat) (all : Bool) : State :=
  let s := s.mapIo (fun io => { io with link := link })
  let qs := (s.cf.queues.filter (fun e => e.2.st == .enabled || e.2.st == .halted)).map (·.1)
  let s := qs.foldl State.loseQueue s
  let s := (s.xl.units.list.map (·.1)).foldl (fun (s : State) k => s.readFails all k) s
  let s := if s.cf.queues.any (fun e => e.2.st == .hostLost) then s.hcEvent 3 else s
  s.setHost (fun h => { h with
    driverBack := false
    graceEnd := if s.plan.active then some (s.mer.now + u16 (s.plan.sec 0x60) 2 * 1000000) else none })

/-- LINK_DOWN (R330). -/
def execLinkDown (s : State) : Result :=
  if s.linkUp then .next (((s.hostLost 0 false).mapIo (fun io => io.inc .HC_LINK_DOWNS)).hcEvent 0) else ignored s

/-- LINK_UP (R306, R330): the link trains to some width and rate. -/
def execLinkUp (lanes rate : Fin 16) (flit : Bool) (s : State) : Result :=
  if s.linkUp = true ∨ s.pw.perst = true ∨ s.pw.input = false ∨ s.pw.st = .tripped then ignored s
  else
    .next (((s.mapIo (fun io =>
      { io.putN .HC_LINK 0 (lanes.val + 16 * rate.val + fieldIf flit 8) with link := 2 })).hcEvent 1).unpark)

/-- LINK_RECOVERY (R329): the link retrains, and nothing is dropped; `done` ends it. -/
def execLinkRecovery (done : Bool) (s : State) : Result :=
  if done then (if s.io.link = 3 then .next (s.mapIo (fun io => { io with link := 2 })) else ignored s)
  else if s.io.link = 2 then .next ((s.mapIo (fun io => { io.inc .HC_RETRAINS with link := 3 })).hcEvent 2)
  else ignored s

/-- HOST_GRACE_EXPIRY (R330): the device parks and announces its departure with reason 2. The spec gives no EFFECTIVE for
it: that is a free value (log entry 7). -/
def execHostGraceExpiry (s : State) : Result :=
  match s.host.graceEnd with
  | some t =>
    if t ≤ s.mer.now then
      let eff := s.draw % 2 ^ 64
      .next ((((s.drew 1).setHost (fun h => { h with graceEnd := none, parked := true })).hcEvent 4).announceDepart eff 2)
    else ignored s
  | none => ignored s

/-- POWER_STATE_CHANGE (R306): D0 and D3hot; no block's state changes. -/
def execPowerStateChange (d3 : Bool) (s : State) : Result := .next (s.setHost (fun h => { h with d3 := d3 }))

/-! ### MSI-X (R333) -/

/-- Deliver what is pending on every vector that is open. -/
def State.flushMsix (s : State) : State :=
  (s.io.pba.map (·.1)).foldl (fun (s : State) v =>
    if s.io.vectorOpen v then
      s.mapIo (fun io => { io with pba := SMap.set (fun _ => false) io.pba v false }.raise v)
    else s) s

/-- Write a dword of the MSI-X table. -/
def Io.msixPut (io : Io) (k : Nat) (v : Word) : Io := { io with msixTab := SMap.set msixDflt io.msixTab k v }

/-- MSIX_UNMASK (R333): a vector's Mask bit is cleared, and what is pending on it is delivered once. -/
def execMsixUnmask (v : Fin 2048) (s : State) : Result := if s.barShut then ignored s else .next ((s.mapIo (fun io => io.msixPut (4 * v + 3) 0#32)).flushMsix)

/-! ### Configuration space, cache requests and the DOE mailbox (R309 to R314, R457) -/

/-- Dword `d` of configuration space as last written. -/
def HostSide.cfg (h : HostSide) (d : Nat) : Nat := le ((List.range 4).map (fun i => SMap.get (fun _ => 0#8) h.config (4 * d + i))) 0 4

/-- The dwords of the capabilities whose content Table 13-1, R310 and R333 give, where the standards' layouts put them (log
entry 166): the MSI-X table and pending bits, the Device Serial Number, the DVSECs with ID 0, 7 and 8. -/
def capDword (d : Nat) : Option Nat :=
  if d = Config.msixCap + 1 then some 0x48000
  else if d = Config.msixCap + 2 then some 0x50000
  else if d = Config.serialCap + 1 then some (Config.deviceId % 2 ^ 32)
  else if d = Config.serialCap + 2 then some (Config.deviceId / 2 ^ 32 % 2 ^ 32)
  else if d = Config.cxlCap + 2 then some 0x430000
  else if d = Config.cxlCap + 5 then some 0x4010000
  else if d = Config.flexCap + 2 then some 0x20030007
  else if d = Config.locatorCap + 2 then some (8 + Config.configSpace d / 65536 % 65536 * 65536)
  else if d = Config.locatorCap + 3 then some 0x60100
  else if d = Config.locatorCap + 4 then some 0
  else none

/-- A configuration dword (Table 13-1, R312): the identity, the base address registers, MSI-X control, the capabilities; a
dword whose content the standard defines and this manual does not place is a constant of Config. -/
def State.configRead (s : State) (d : Nat) : Nat :=
  if d = 0 then 0x00161F6C
  else if d = 1 then s.host.cfg 1 % 65536 + Config.configSpace 1 / 65536 % 65536 * 65536
  else if d = 2 then 0x120000B1
  else if d = 4 then s.host.cfg 4 / 2 ^ 25 * 2 ^ 25 + 4
  else if d = 5 then s.host.cfg 5
  else if d = 6 then 0xC
  else if d = 7 then s.host.cfg 7 / 16 * 16
  else if d = 8 ∨ d = 9 then 0
  else if d = 11 then 0x1F6C + 65536 * (if s.se.fuses.part % 256 = 1 then 2 else 1)
  else if d = Config.msixCap then
    Config.configSpace d % 2 ^ 16 + 2047 * 2 ^ 16 + fieldIf s.io.msixMask 30 + fieldIf s.io.msixOn 31
  else (capDword d).getD (Config.configSpace d % 2 ^ 32)

/-- Dwords of configuration space that hold what software writes. -/
def cfgHolds (d : Nat) : Bool := d == 1 || d == 4 || d == 5 || d == 6 || d == 7

/-- CONFIG_REQUEST (R457, R462): a read, or a write of a dword; Retry Status until boot has a result and no reset runs. -/
def execConfigRequest (d : Fin 1024) (w : Option (BitVec 32)) (s : State) : Result :=
  if s.linkUp = false then ignored s
  else if s.se.result = 0 ∨ s.host.resetting ≠ 0 then .next (s.mapIo (fun io => io.send (.config false 0)))
  else
    match w with
    | none => .next (s.mapIo (fun io => io.send (.config true (s.configRead d))))
    | some v =>
      let s := s.mapIo (fun io => io.send (.config true 0))
      if d = Config.msixCap then
        .next ((s.mapIo (fun io => { io with msixOn := v.getLsbD 31, msixMask := v.getLsbD 30 })).flushMsix)
      else if cfgHolds d then
        .next (s.setHost (fun h => { h with config := (List.range 4).foldl (fun (m : SMap Byte) i =>
          SMap.set (fun _ => 0#8) m (4 * d.val + i) (BitVec.ofNat 8 (v.toNat / 256 ^ i))) h.config }))
      else .next s

/-- WRITEBACK_INVALIDATE (R310): no line is modified, so the request completes at once; no line stays. -/
def execWritebackInvalidate (s : State) : Result := .next { s with xl := { s.xl with lines := [] } }

/-- SNOOP (R314): the line is given up and the answer carries no data. -/
def execSnoop (addr : BitVec 64) (s : State) : Result :=
  .next { s with
    xl := { s.xl with lines := s.xl.lines.filter (fun l => l.1 != addr.toNat / 64 * 64) }
    io := s.io.send (.snoopAck addr.toNat) }

/-- The answer of DOE Discovery at an index: data object 0 is Discovery itself, 1 is CMA/SPDM (R311). -/
def doeDiscovery (i : Nat) : Option (List Byte) :=
  match i with
  | 0 => some (bytesOf 1 2 ++ bytesOf 0 1 ++ bytesOf 1 1)
  | 1 => some (bytesOf 1 2 ++ bytesOf 1 1 ++ bytesOf 0 1)
  | _ => none

/-- DOE_REQUEST (R311): a data object of a vendor and a type. Discovery is answered at once; a CMA/SPDM object of at most
16 KiB waits in the mailbox for its SPDM request; anything else is not supported. -/
def execDoeRequest (vendor : BitVec 16) (type : BitVec 8) (bytes : List Byte) (s : State) : Result :=
  if s.linkUp = false ∨ s.se.result = 0 ∨ s.host.resetting ≠ 0 then ignored s
  else if vendor = 1 ∧ type = 0 ∧ bytes.length ≤ 16384 then
    match doeDiscovery (u8 bytes 0) with
    | some r => .next (s.mapIo (fun io => io.send (.mgmt 3 0 [] r)))
    | none => .next (s.mapIo (fun io => io.send (.mgmt 3 1 [] [])))
  else if vendor = 1 ∧ type = 1 ∧ bytes.length ≤ 16384 then .next (s.setHost (fun h => { h with doe := bytes }))
  else .next (s.mapIo (fun io => io.send (.mgmt 3 1 [] [])))

end Sys2Proof.Machine
end

