-- ==== Sys2Proof/Machine/Plan.lean ====
section
/-! DEFINITION. Machine/Plan.lean: the floor plan loader (chapter 2): loading, verification, application, amendments and
drains. -/

namespace Sys2Proof.Machine

/-! ### The image store (R31 to R33) -/

/-- Change the loader. -/
def State.setFp (s : State) (f : Loader → Loader) : State := { s with fp := f s.fp }

/-- A command that is not executed records a code and sets FP_EVENT.ERROR (R33, R53). -/
def State.fpRefuse (s : State) (code : Nat) : State := s.mapIo (fun io => (io.putN .FP_ERROR 0 code).event .FP_EVENT 0 1)

/-- An error with its section and its detail (Table 2-7). -/
def State.fpErr (s : State) (b : Bad) : State :=
  s.mapIo (fun io => ((io.putN .FP_ERROR 0 (b.code + 256 * b.sec)).putN .FP_ERR_DETAIL 0 b.detail).event .FP_EVENT 0 1)

/-- The store moves to FAILED (Table 2-10). -/
def State.fpFail (s : State) (b : Bad) : State := (s.fpErr b).setFp (fun l => { l with st := .failed, pending := false })

/-- The store returns to EMPTY (R31): it has no owner, and FP_DROPPED is cleared. -/
def State.fpEmpty (s : State) : State :=
  { s with fp := Loader.reset, ram := s.ram.noImage, io := s.io.putN .FP_DROPPED 0 0 }

/-- The image in the store, by the length it was loaded with (R33). -/
def State.image' (s : State) : List Byte := s.ram.read (imageAddr 0) (min s.fp.len 4194304)

/-- What the management bus shows of the image of a FAILED store, for diagnosis (R34): its stored bytes, never plaintext
(R35). The manual names no message that asks for it, so it is an observation of the state (log entry 140). -/
def State.failedImage (s : State) (off n : Nat) : List Byte :=
  if s.fp.st = .failed then s.ram.read (imageAddr off) (min n (4194304 - off)) else []

/-- KIND of the stored header. -/
def State.imageKind (s : State) : Nat := fpKind (s.ram.read (imageAddr 0) 64)

/-- The loader's registers answer: a boot without a valid image leaves the identity block alone (R443). -/
def State.keeperUp (s : State) : Bool := s.se.result != 3

/-- FP_FETCH (R32): a DMA fetch into the EMPTY store. With FP_LEN 0 there is nothing to read, and the store is LOADED at
once: the spec is silent, the model's choice (log entry 141). -/
def execFpFetch (s : State) : Result := if s.barShut then ignored s else
  if s.keeperUp = false then ignored s
  else if s.fp.busy then .next (s.fpRefuse 0x13)
  else if s.fp.source ≠ 0 ∧ s.fp.source ≠ 2 then .next (s.fpRefuse 0x13)
  else if s.fp.st ≠ .empty ∨ s.io.val .FP_SRC_LO % 16 ≠ 0 then .next (s.fpRefuse 0x16)
  else
    let n := s.io.val .FP_LEN
    let s := s.setFp (fun l => { l with source := 2 })
    if 4194304 < n then .next (s.fpFail ⟨0x03, 0, 8⟩)
    else if n = 0 then .next (s.setFp (fun l => { l with st := .loaded, len := 0 }))
    else
      .next ((s.hostAsk (s.io.val .FP_SRC_LO + s.io.val .FP_SRC_HI * 2 ^ 32) n).setFp (fun l =>
        { l with st := .loading, want := n, landed := [] }))

/-- FETCH_READ_COMPLETION (R32): bytes of the fetch land, the last of them completing the load, or a read fails. -/
def execFetchReadCompletion (off : Nat) (bytes : List Byte) (ok : Bool) (s : State) : Result :=
  let l := s.fp
  if l.st = .loading ∧ l.source = 2 ∧ bytes ≠ [] ∧ off + bytes.length ≤ l.want ∧ runMeets off bytes.length l.landed = false then
    if ok then
      let runs := addRun off bytes.length l.landed
      .next ({ s with ram := s.ram.poke (imageAddr off) bytes }.setFp (fun l =>
        { l with landed := runs, len := l.want, st := if runBytes runs = l.want then .loaded else l.st }))
    else .next (s.fpFail ⟨0x18, 0, off⟩)
  else ignored s

/-- STAGING_WRITE (R32, R33): `off` in the aperture; 4 bytes, or 8 where `wide`. A misaligned write is discarded (R313). -/
def execStagingWrite (off : Fin 32768) (wide : Bool) (v : BitVec 64) (s : State) : Result := if s.barGone then ignored s else
  let n : Nat := if wide then 8 else 4
  let a := s.io.val .FP_STAGE_BASE + off
  if s.keeperUp = false ∨ off % n ≠ 0 then ignored s
  else if (s.fp.st = .empty ∨ (s.fp.st = .loading ∧ s.fp.source = 1)) ∧ a + n ≤ 4194304 then
    .next ({ s with ram := s.ram.poke (imageAddr a) (bytesOf v.toNat n) }.setFp (fun l => { l with st := .loading, source := 1 }))
  else .next (s.mapIo (fun io => io.inc .FP_DROPPED))

/-- FP_LEN_WRITE (R33): the length is stored, and ends a load through the boot window. -/
def execFpLenWrite (v : BitVec 32) (s : State) : Result := if s.barShut then ignored s else
  if s.keeperUp = false then ignored s
  else
    let s := s.mapIo (fun io => io.put .FP_LEN 0 v)
    if s.fp.st = .loading ∧ s.fp.source = 1 then .next (s.setFp (fun l => { l with st := .loaded, len := v.toNat }))
    else .next s

/-- FP_BAD_COMMAND (R33, R53): an unknown CMD. -/
def execFpBadCommand (cmd : Fin 16) (s : State) : Result := if s.barShut then ignored s else
  if s.keeperUp = false ∨ (1 ≤ cmd.val ∧ cmd.val ≤ 6) then ignored s
  else .next (s.fpRefuse (if s.fp.busy then 0x13 else 0x16))

/-- FP_ABORT (R52). -/
def execFpAbort (s : State) : Result := if s.barShut then ignored s else
  if s.keeperUp = false then ignored s
  else
    match s.fp.st with
    | .applying => .next (s.fpRefuse 0x13)
    | .loading | .verifying => .next (s.fpFail ⟨0x15, 0, 0⟩)
    | .verified => .next (if s.fp.pending then s.fpFail ⟨0x15, 0, 0⟩ else s.fpRefuse 0x16)
    | _ => .next (s.fpRefuse 0x16)

/-- FP_DISCARD (R52). -/
def execFpDiscard (s : State) : Result := if s.barShut then ignored s else
  if s.keeperUp = false then ignored s
  else if s.fp.busy then .next (s.fpRefuse 0x13)
  else
    match s.fp.st with
    | .loaded | .verified | .failed => .next (s.fpEmpty.mapIo (fun io => io.putN .FP_ERROR 0 0))
    | _ => .next (s.fpRefuse 0x16)

/-! ### Verification, and what follows it (R33, R34, R43, R50) -/

/-- Whether an application of plan `p` trains a physical channel of a stack (R96, R100). -/
def State.trains (s : State) (p : Plan) (aff : List FpUnit) (st ph : Nat) : Bool :=
  p.inService st && (survivors (stackEntry (p.sec 0x30) st)).contains ph &&
  (aff.contains (1, st) || ((s.stack st).chan ph).st == .failed)

/-- The plan that the image in the store makes. -/
def State.nextPlan (s : State) : Plan :=
  let b := s.image'
  ⟨true, fpSigner b, u16 b 0x10, s.fp.sections⟩

/-- An application starts with step 1 of R36, and `State.applyTick` moves it on; the stacks whose channels step 7 trains are
known. -/
def State.startApply (s : State) : State :=
  let aff := (s.affected s.fp.sections).map (·.2)
  let p := s.nextPlan
  let t := { s with stk := (List.range 16).foldl (fun m st => setStack m st (fun k => { k with
    training := (List.range 64).any (s.trains p aff st) })) s.stk }
  t.setFp (fun l => { l with st := .applying, step := 1, pending := false })

/-- APPLY on a verified image: check 11, then application (R50). -/
def State.applyVerified (s : State) : State :=
  match s.drainBad s.fp.sections with
  | some b => (s.fpErr b).setFp (fun l => { l with st := .verified, pending := false })
  | none => s.startApply

/-- Verification begins. -/
def State.startVerify (s : State) (c : FpCmd) : State :=
  let n := s.mer.count
  s.setFp (fun l => { l with st := .verifying, cmd := c, amendAt := n })

/-- FP_VERIFY (R34). -/
def execFpVerify (s : State) : Result := if s.barShut then ignored s else
  if s.keeperUp = false then ignored s
  else if s.fp.busy then .next (s.fpRefuse 0x13)
  else if s.fp.st = .loaded then .next (s.startVerify .verify)
  else .next (s.fpRefuse 0x16)

/-- FP_APPLY (R33, R36, R50). -/
def State.fpApply (s : State) : State :=
  if s.fp.busy then s.fpRefuse 0x13
  else if s.imageKind = 2 then s.fpRefuse 0x16
  else if s.fp.st = .loaded then s.startVerify .apply
  else if s.fp.st = .verified ∧ s.fp.pending = false then s.applyVerified
  else s.fpRefuse 0x16

/-- FP_AMEND (R33, R42, R43). On an image already VERIFIED, what verification fixed stands; only the distance of a cycle
table's boundary is judged here, from the count at which AMEND is written, and a LATE found here leaves the image VERIFIED
with PENDING 0, since Table 2-10 gives no way from VERIFIED to FAILED for it (log entry 142). -/
def State.fpAmend (s : State) : State :=
  if s.fp.busy then s.fpRefuse 0x13
  else if s.imageKind = 1 then s.fpRefuse 0x16
  else if s.fp.st = .loaded then s.startVerify .amend
  else if s.fp.st = .verified ∧ s.fp.pending = false then
    if (s.fp.sections.lookup 0x21).isSome ∧ s.fp.effective < s.mer.count + 2 * s.plan.frameLen then s.fpErr ⟨0x11, 0x21, 0x18⟩
    else s.setFp (fun l => { l with pending := true })
  else s.fpRefuse 0x16

/-- FP_APPLY. -/
def execFpApply (s : State) : Result := if s.barShut then ignored s else if s.keeperUp then .next s.fpApply else ignored s

/-- FP_AMEND. -/
def execFpAmend (s : State) : Result := if s.barShut then ignored s else if s.keeperUp then .next s.fpAmend else ignored s

/-- VERIFY_COMPLETE (R33, R34): checks 1 to 10 in order, and check 11 for APPLY. -/
def execVerifyComplete (s : State) : Result :=
  if s.fp.st ≠ .verifying then ignored s
  else
    match s.verify s.image' (if s.fp.cmd = .verify then none else some s.fp.amendAt) with
    | .inr b => .next (s.fpFail b)
    | .inl (secs, e) =>
      let s := s.setFp (fun l => { l with st := .verified, sections := secs, effective := e })
      match s.fp.cmd with
      | .verify => .next s
      | .amend => .next (s.setFp (fun l => { l with pending := true }))
      | .apply => .next s.applyVerified

/-! ### Application, step by step (R36, R37) -/

/-- Whether a section differs between two plans, or is in one of them only. -/
def changed (a b : Plan) (id : Nat) : Bool := a.has id != b.has id || a.sec id != b.sec id

/-- Step 2: the porch rules. -/
def State.stepPorch (s : State) : State :=
  let sec := s.plan.sec 0x11
  if sec = s.po.plan then s else s.installPorch sec

/-- Steps 3 and 4: the meridian leaves OFF, or keeps its count and state (R54, R488); the cycle table, which governs from the
count `c`. A new frame length gives slots from its first frame boundary on. -/
def State.stepMeridian (s : State) (old : Plan) (c : Nat) : State :=
  let a := old.sec 0x20
  let b := s.plan.sec 0x20
  let src := u8 a 4 != u8 b 4 || bit (u8 a 5) 1 != bit (u8 b 5) 1 || u32 a 0x18 != u32 b 0x18
  let s :=
    if s.mer.st = .off then s.setMer (fun m => { m with st := .free })
    else if src then s.dropLocal.loseSource else s
  let f := s.plan.frameLen
  let s := if old.frameLen != f then s.setMer (fun m => { m.newTable c (nextFrame f c) with nextFrom := nextFrame f (m.count + 1) })
    else if changed old s.plan 0x21 then s.setMer (fun m => m.newTable c c) else s
  let on := s.plan.closeInstant.isSome
  s.setUpd (fun u => { u with
    phase := if on then (if u.phase = .off then .collecting else u.phase) else .off })

/-- A repair entry of the stacks section (Table 5-4). -/
def repairEntry (sec : List Byte) (i : Nat) : Option (Nat × Repair) :=
  let e := slice sec (0x240 + 8 * i) 8
  if u8 e 0 = 0 then none else some (u8 e 1, ⟨u8 e 0, u8 e 2, u8 e 3, repairTarget (u8 e 0) (u32 e 4)⟩)

/-- Soft repairs (R92): the first entry without a spare, as stack × 64 + channel, or all are in effect. -/
def State.softRepairs (s : State) : State × Option Nat :=
  (List.range 56).foldl (fun (r : State × Option Nat) i =>
    match r.2, repairEntry (r.1.plan.sec 0x30) i with
    | none, some (st, x) =>
      let k := r.1.stack st
      if !r.1.plan.inService st || k.hard.contains x || k.soft.contains x then r
      else if k.spareFor x then ((r.1.setStk st (fun k => { k with soft := k.soft ++ [x] })).sparesLow st x.channel, none)
      else (r.1, some (st * 64 + x.channel))
    | _, _ => r) (s, none)

/-- Logical channels of a stack whose content the new channel map makes undefined (R94), or that it no longer has. -/
def movedChannels (old new : List Byte) : List Nat :=
  (List.range 64).filter (fun l => physOf old l != physOf new l)

/-- A logical channel's bytes and checks leave memory. -/
def Ram.dropChannel (m : Ram) (c : Nat) : Ram :=
  let mine := fun (a : Nat) => decide (a / 2 ^ 30 = c)
  { m with
    bytes := SMap.drop mine m.bytes
    blks := SMap.drop (fun b => mine (256 * b)) m.blks
    lost := m.lost.filter (fun e => e.1 != c) }

/-- A logical channel's content is undefined: each byte and each check is a free value (R94, log entry 7). -/
def Ram.loseChannel (m : Ram) (c seed : Nat) : Ram :=
  let m := m.dropChannel c
  { m with lost := m.lost ++ [(c, seed, false)] }

/-- A stack that a plan puts in service (R94, R96, R112, R464). -/
def State.serveStack (s : State) (aff : List FpUnit) (st : Nat) : State :=
  let e := stackEntry (s.plan.sec 0x30) st
  let k := s.stack st
  let n := (survivors e).length
  let phs := (List.range 64).filter (s.trains s.plan aff st)
  let lost := if k.content = .none then [] else movedChannels k.lastMap e
  let ram := lost.foldl (fun (m : Ram) l =>
    if l < n then m.loseChannel (64 * st + l) (s.free + 2 ^ 31 * l) else m.dropChannel (64 * st + l)) s.ram
  let alive := if k.content = .none then Content.live else k.content
  let now := s.mer.now
  let rec' := k.preserve.map (fun (r : Preserve) =>
    { r with mapMatch := r.map == slice e 0 9, ms := some (r.ms.getD ((now - r.since) / 1000000)) })
  let fr := s.frameNow
  let s := { s with ram := { ram with dead := ram.dead.filter (fun d => d / 64 != st) }, free := s.free + 2 ^ 37 }
  let s := s.setStk st (fun k => { k.train phs now fr with
    content := alive, preserve := rec', selfRefresh := false, training := false, lastMap := slice e 0 9
    refreshed := if k.selfRefresh then [] else k.refreshed })
  let s := phs.foldl (fun (s : State) ph =>
    s.mapIo (fun io => io.setBit (if ph < 32 then .ST_CH_FAILED_LO else .ST_CH_FAILED_HI) st (ph % 32) false)) s
  s.heat st (s.stack st).temps

/-- A stack that a plan leaves out of service: its storeys hold what they have in self-refresh (R91). -/
def State.restStack (s : State) (st : Nat) : State :=
  let s := { s with ram := { s.ram with dead := s.ram.dead.filter (fun d => d / 64 != st) } }
  s.setStk st (fun k => { k with
    selfRefresh := k.content != .none, training := false, verifying := false, clearing := false, scrub := none, cal := none
    cap := none, thermStep := 0, refreshed := [] })

/-- Step 7: stacks and sheets. -/
def State.stepStacks (s : State) (aff : List FpUnit) : State :=
  (List.range 16).foldl (fun (s : State) st => if s.plan.inService st then s.serveStack aff st else s.restStack st) s

/-- Whether a plan assigns a wing anew: its entry, or its table's, is not that of the plan before. -/
def newWing (old new : Plan) (w : List Byte) : Bool :=
  !old.wingList.contains w || (wKind w == 1 && old.table (wOwner w % 4096) != new.table (wOwner w % 4096))

/-- Both halves of the dirty-row maps of a channel's rooms read as zero (R421). -/
def Ram.clearMaps (m : Ram) (c : Nat) : Ram :=
  let mine := fun (a : Nat) => decide (a / 2 ^ 30 = c ∧ 0xFF000 ≤ dpaOffset a)
  { m with
    bytes := SMap.drop mine m.bytes
    blks := SMap.drop (fun b => mine (256 * b)) m.blks
    lost := m.lost.map (fun e => if e.1 = c then (e.1, e.2.1, true) else e) }

/-- A channel's program store reads as zero (R115). -/
def Ram.clearProg (m : Ram) (c : Nat) : Ram :=
  { m with bytes := SMap.drop (fun a => decide (progAddr (c / 64) (c % 64) 0 ≤ a ∧ a < progAddr (c / 64) (c % 64) 65536)) m.bytes }

/-- A wing's logical channels, as 64 × stack + channel. -/
def wingChannels (w : List Byte) : List Nat := (List.range (wChans w)).map (fun i => 64 * wStack w + wFirst w + i)

/-- A wing that a plan assigns (R115, R234, R421): its channels' program stores read as zero, and a TABLE wing's shard is
created and its dirty-row maps are clear. A shard that the loss of a plan made stale stays stale (R241). -/
def State.assignWing (s : State) (w : List Byte) : State :=
  let s := { s with ram := (wingChannels w).foldl Ram.clearProg s.ram }
  if wKind w = 1 then
    let d := match s.plan.table (wOwner w % 4096) with | some t => tDim t | none => 0
    let s := s.setShard (wId w) (fun x => { Shard.reset with
      created := true, stale := x.stale && !x.created, c := List.replicate d 0x3F800000#32 })
    let s := s.forgetLines (fun x => (wingChannels w).contains (x / 2 ^ 30) && decide (0xFF000 ≤ dpaOffset x))
    { s with
      ram := (wingChannels w).foldl Ram.clearMaps s.ram
      rl := { s.rl with half := SMap.set (fun _ => 0) s.rl.half (wId w) 0 } }
  else s

/-- Step 8: wings and suites (R171, R234). Batches whose entry or SESSION wings change are emptied. -/
def State.stepWings (s : State) (old : Plan) : State :=
  if changed old s.plan 0x31 = false then s
  else
    let fresh := s.plan.wingList.filter (newWing old s.plan)
    let ids := (s.plan.tableWings.filter (fun w => !newWing old s.plan w)).map wId
    let gone := (old.batchList ++ s.plan.batchList).filter (fun b =>
      old.batch (u8 b 0) != s.plan.batch (u8 b 0) || old.sessions (u8 b 0) != s.plan.sessions (u8 b 0))
    let s := ((gone.map (fun b => u8 b 0)).eraseDups).foldl (fun (s : State) b => s.emptyBatch b stInvalid) s
    let s := s.setUpd (fun u => { u with
      shards := u.shards.filter (fun (e : Nat × Shard) => ids.contains e.1 || !e.2.created || fresh.any (fun w => wId w == e.1))
      combiners := u.combiners.foldl (fun (m : SMap Combiner) (e : Nat × Combiner) => SMap.set combDflt m e.1 { e.2 with
        acc := e.2.acc.filter (fun (r : AccRow) => ids.contains r.wing), drain := e.2.drain.filter (fun (r : AccRow) => ids.contains r.wing) }) [] })
    fresh.foldl State.assignWing s

/-- An array that a plan enables, moves or disables: stores, chains and buffers read as zero (R174, R195, R203). -/
def State.freshArray (s : State) (a : Nat) (fab : Option Nat) : State :=
  let mine := fun (x : Nat) => decide (chainAddr a 0 0 ≤ x ∧ x < chainAddr (a + 1) 0 0)
  let ram := s.ram.clearStore a
  { s with
    ram := { ram with bytes := SMap.drop mine ram.bytes }
    mx := { s.mx.set a (fun _ => Arr.reset) with clearing := s.mx.clearing.filter (· != a) }
    io := s.io.putN .MX_FAB a (match fab with | some f => 2 ^ 31 + f | none => 0) }

/-- Step 9: arrays and pairing. -/
def State.stepArrays (s : State) (old : Plan) : State :=
  (List.range 64).foldl (fun (s : State) a => if old.fab a = s.plan.fab a then s else s.freshArray a (s.plan.fab a)) s

/-- Steps 10 and 11: redundancy modes and the walker profile; a new profile starts with nothing cached (R352). -/
def State.stepWalker (s : State) (old : Plan) : State :=
  let s := if changed old s.plan 0x70 then { s with rl := { s.rl with comparing := [], rejoin := [] } } else s
  if changed old s.plan 0x61 then
    match s.plan.walker with
    | some w => { s with xl := { s.xl with
        tlb := [], lines := [], units := [], walks := []
        roots := SMap.drop (fun a => decide (u16 w 0x28 ≤ a)) s.xl.roots
        enabled := SMap.drop (fun a => decide (u16 w 0x28 ≤ a)) s.xl.enabled } }
    | none => { s with xl := Xl.inert s.xl }
  else s

/-- Step 12: a queue whose entry changes starts DISABLED and empty; one that is gone, or new, has its registers at their
reset values. -/
def State.stepQueues (s : State) (old : Plan) : State :=
  if changed old s.plan 0x60 = false then s
  else
    let qs := (List.range 4096).filter (fun q => old.queue q != s.plan.queue q)
    let clear := qs.filter (fun q => (old.queue q).isNone || (s.plan.queue q).isNone)
    { s with
      cf := qs.foldl (fun (c : Cf) q => c.setQueue q (fun _ => Queue.reset)) s.cf
      io := { s.io with regs := SMap.drop (fun k => Reg.between .SQ_BASE_LO .Q_CAUSE_EN k && clear.contains (k / 512)) s.io.regs } }

/-- Steps 13 and 14: ports whose entry changes train anew or go dark; a change of grid reference makes every neighbour and
every route be learnt again. -/
def State.stepPorts (s : State) (old : Plan) : State :=
  let all := old.hasGrid != s.plan.hasGrid || old.ref != s.plan.ref
  let s := (List.range 64).foldl (fun (s : State) p =>
    if all = false ∧ old.portEntry p = s.plan.portEntry p then s
    else
      let s := if (s.port p).st = .dark then s else (s.portLost p .dark).setPort p (fun x => { x with cause := 0, failed := 0 })
      s.lightPort p) s
  if all then
    let f := if s.plan.hasGrid then
        { s.fab with heard := [], dist := [], choices := [], seqs := [], departs := [], masters := [] }
      else { Fabric.reset with ports := s.fab.ports }
    let s := if s.mer.follows then s.dropLocal.loseSource else s
    { s with
      fab := f
      mer := { s.mer with
        masterValid := false, masterSelf := false, masterHold := false, master := 0, hops := 0, port := 0, nextMaster := none
        said := none } }.electMaster
  else s

/-! ### The end of an application (R36, R38, R39, R47) -/

/-- Clear drain requests and drained bits of units (R47). -/
def Io.release (io : Io) (us : List FpUnit) : Io :=
  us.foldl (fun (io : Io) (u : FpUnit) =>
    let k := u.2
    match u.1 with
    | 1 => (io.setBit .FP_DRAIN_STACKS 0 k false).setBit .FP_DRAINED_STACKS 0 k false
    | 3 => if k < 32 then (io.setBit .FP_DRAIN_ARRAYS_LO 0 k false).setBit .FP_DRAINED_ARRAYS_LO 0 k false
        else (io.setBit .FP_DRAIN_ARRAYS_HI 0 (k - 32) false).setBit .FP_DRAINED_ARRAYS_HI 0 (k - 32) false
    | 4 => if k < 32 then (io.setBit .FP_DRAIN_PORTS_LO 0 k false).setBit .FP_DRAINED_PORTS_LO 0 k false
        else (io.setBit .FP_DRAIN_PORTS_HI 0 (k - 32) false).setBit .FP_DRAINED_PORTS_HI 0 (k - 32) false
    | _ => io) io

/-- FP_APPLIED_DIGEST holds a digest. -/
def Io.setDigest (io : Io) (d : List Byte) : Io :=
  (([.FP_APPLIED_DIGEST0, .FP_APPLIED_DIGEST1, .FP_APPLIED_DIGEST2, .FP_APPLIED_DIGEST3, .FP_APPLIED_DIGEST4, .FP_APPLIED_DIGEST5,
    .FP_APPLIED_DIGEST6, .FP_APPLIED_DIGEST7] : List Reg).zipIdx).foldl (fun (io : Io) x => io.putN x.1 0 (u32 d (4 * x.2))) io

/-- The porch at its inert default: the built-in trips only (Table 20-3, R439). -/
def Porch.inert (p : Porch) : Porch :=
  { p with
    plan := [], rules := [], oldCaps := []
    sensors := p.sensors.foldl (fun (m : SMap Sensor) x => SMap.set sensorDflt m x.1 { x.2 with window := [] }) p.sensors }

/-- UNIT_FAILED (R38): the batches are emptied (R171), every block returns to its inert default, and the store is FAILED. -/
def State.unitFailed (s : State) (kind i : Nat) : State :=
  let s := (s.wings.batches.map (·.1)).foldl (fun (s : State) b => s.emptyBatch b stInvalid) (s.setPo Porch.inert)
  ((s.inert 2).fpFail ⟨0x14, 0, kind * 2 ^ 28 + i⟩).realert

/-- What follows the last step (R36, R39, R413): quarantines end, units are released, the digest is held, the image store is
EMPTY and FP_EVENT.DONE is set. -/
def State.finishApply (s : State) (aff : List FpUnit) (digest : List Byte) : State :=
  let s := { s with
    rl := { s.rl with rooms := [], pairs := [] }
    po := { s.po with quarRooms := [], quarPairs := [] }
    mx := s.mx.mapArrs (fun r => { r with quarantined := false })
    rooms := { s.rooms with loads := [] }
    pw := { s.pw with st := if s.pw.st = PwState.noPlan then PwState.running else s.pw.st } }
  let s := s.fpEmpty
  let s := s.mapIo (fun io => (((io.release aff).setDigest digest).putN .FP_AMEND_SEQ 0 0).event .FP_EVENT 0 0)
  s.shrinkRegions.recap.realert

/-- A channel that this application trains, or an array that it tests, as the failing unit of APPLICATION_COMPLETE. -/
def State.failsUnit (s : State) (old : Plan) (aff : List FpUnit) (f : Bool × Nat) : Bool :=
  if f.1 then decide (f.2 < 64) && (s.plan.fab f.2).isSome && s.plan.fab f.2 != old.fab f.2
  else decide (f.2 < 1024) && s.trains s.plan aff (f.2 / 64) (f.2 % 64)

/-- An application up to the failure of a unit, or to its end. UP_STEP is 0 after it (R236). -/
def State.install (s : State) (fault : Option (Bool × Nat)) : State :=
  let old := s.plan
  let b := s.image'
  let aff := (s.affected s.fp.sections).map (·.2)
  let s := { s with plan := s.nextPlan, io := s.io.putN .UP_STEP 0 0 }
  let s := s.stepPorch.stepMeridian old s.mer.count
  let bad := fault.filter (s.failsUnit old aff)
  match s.softRepairs with
  | (s, some c) => s.unitFailed 2 c
  | (s, none) =>
    match bad with
    | some (false, c) => s.unitFailed 2 c
    | some (true, a) =>
      let s := ((s.stepStacks aff).stepWings old).stepArrays old
      (s.mapIo (fun io => io.setBit .MX_FAB a 8 true)).unitFailed 3 a
    | none =>
      ((((((s.stepStacks aff).stepWings old).stepArrays old).stepWalker old).stepQueues old).stepPorts old).finishApply aff (fpDigest b)

/-- APPLICATION_COMPLETE (R36 to R38): the steps have run; `fault` is a unit that failed: a channel as stack × 64 + channel,
or, with true, a logical array. -/
def execApplicationComplete (fault : Option (Bool × Nat)) (s : State) : Result :=
  if s.fp.st = .applying then .next (s.install fault) else ignored s

/-! ### Amendments (R44) -/

/-- AMENDMENT_EFFECT (R44, R45): the carried sections replace those in force at the effective instant. -/
def execAmendmentEffect (s : State) : Result :=
  if s.amendDue = true ∧ s.plan.active = true ∧ s.comesFirst s.fp.effective 2 = true then
    let old := s.plan
    let c := s.fp.effective
    let seq := s.io.val .FP_AMEND_SEQ + 1
    let s := { s with plan := { s.plan with sections := mergeSecs s.plan.sections s.fp.sections } }
    let s := s.stepPorch.stepMeridian old c
    .next (s.fpEmpty.mapIo (fun io => (io.putN .FP_AMEND_SEQ 0 seq).event .FP_EVENT 0 2))
  else ignored s

/-! ### Drains (R47 to R49) -/

/-- The drain-request registers and the drained registers beside them. -/
def drainRegs (k : Nat) : Reg × Reg :=
  match k with
  | 0 => (.FP_DRAIN_STACKS, .FP_DRAINED_STACKS)
  | 1 => (.FP_DRAIN_ARRAYS_LO, .FP_DRAINED_ARRAYS_LO)
  | 2 => (.FP_DRAIN_ARRAYS_HI, .FP_DRAINED_ARRAYS_HI)
  | 3 => (.FP_DRAIN_PORTS_LO, .FP_DRAINED_PORTS_LO)
  | _ => (.FP_DRAIN_PORTS_HI, .FP_DRAINED_PORTS_HI)

/-- FP_DRAIN_WRITE (R47): a 1 requests a drain, a 0 releases the unit. -/
def execFpDrainWrite (k : Fin 5) (v : BitVec 32) (s : State) : Result := if s.barShut then ignored s else
  let r := drainRegs k
  let v := v &&& r.1.spec.mask
  if s.keeperUp then .next (s.mapIo (fun io => (io.put r.1 0 v).put r.2 0 (io.reg r.2 &&& v))) else ignored s

/-- Whether a draining unit's work in flight has ended: room-calls, rows of a commit and accesses of a stack; tiles and
descriptors of an array; flits of a port (R47, R49, R269). -/
def State.unitIdle (s : State) (kind i : Nat) : Bool :=
  match kind with
  | 0 => s.activeCores i == 0 && !(s.stack i).verifying &&
      s.plan.tableWings.all (fun w => wStack w != i || !(s.shard (wId w)).busy) &&
      s.xl.units.list.all (fun u => u.2.st != .accessing || decide (2 ^ 40 ≤ u.2.dev) || dpaStack u.2.dev != i) &&
      s.mx.attic.all (fun l => !l.filling || dpaStack l.line != i)
  | 1 =>
    let r := s.arr i
    r.inbox.isEmpty && r.running.isNone && r.next.isNone && r.queue.isEmpty && r.chain.isNone && r.edescs.isEmpty && r.eact.isNone
  | _ => (s.port i).replay.isEmpty && (s.port i).waiting.isEmpty

/-- UNIT_DRAINED (R47): a draining stack, array or port has finished its work in flight. -/
def execUnitDrained (kind : Fin 3) (n : Fin 64) (s : State) : Result :=
  let k := match kind.val with
    | 0 => 0
    | 1 => if n.val < 32 then 1 else 2
    | _ => if n.val < 32 then 3 else 4
  let r := drainRegs k
  let b := n.val % 32
  if (s.io.reg r.1).getLsbD b = true ∧ (kind.val = 0 → n.val < 16) ∧ s.unitIdle kind n = true then
    .next (s.mapIo (fun io => io.setBit r.2 0 b true))
  else ignored s

end Sys2Proof.Machine
end

