-- ==== Sys2Proof/Machine/Resets.lean ====
section
/-! DEFINITION. Machine/Resets.lean: PERST, hot reset and function-level reset (chapter 20, R332, R352, R460 to R463). -/

namespace Sys2Proof.Machine

/-! ### PERST (R460, R461) -/

/-- Registers that PERST leaves as they are: the porch's, the soft spares, and the repair interface of a stack whose burn
runs on. -/
def State.keptByPerst (s : State) (k : Nat) : Bool :=
  Reg.between .PO_STATUS .PO_EVENT_EN k || Reg.between .ST_SOFT_REPAIRS .ST_SOFT_REPAIRS k ||
  (Reg.between .ST_REPAIR_CMD .ST_REPAIR_STATUS k && (s.stack (k / 512)).burn.isSome)

/-- Everything that PERST resets: the batches are emptied, their requests ending HOST_LOST (R171); the stacks enter self-refresh, and all but the porch, the fuses and the flash starts
again. -/
def State.perst (s : State) : State :=
  let s := (s.wings.batches.map (·.1)).foldl (fun (s : State) b => s.emptyBatch b stHostLost) s
  let regs := SMap.drop (fun k => !s.keptByPerst k) s.io.regs
  let out := s.io.out
  let i := s.inert 1
  let ram := i.ram.noImage
  { i with
    io := { Io.reset with regs := regs, out := out }
    fp := Loader.reset
    ram := { ram with bytes := SMap.drop (fun a => decide (2 ^ 44 ≤ a)) ram.bytes }
    host := HostSide.reset
    xl := Xl.reset
    mer := { Mer.reset with now := s.mer.now }
    stk := (List.range 16).foldl (fun m st => setStack m st (fun k => { k with burnLost := k.burn.isSome })) i.stk
    se := { s.se.kept with eid := s.se.eid }
    pw := { i.pw with perst := true } }.realert

/-- PERST_ASSERT (R461). A device that has tripped stays TRIPPED (R463). -/
def execPerstAssert (s : State) : Result :=
  if s.pw.input = false ∨ s.pw.perst = true then ignored s
  else if s.pw.st = .tripped then .next (s.setPw (fun w => { w with perst := true }))
  else .next s.perst

/-- PERST_DEASSERT (R442, R456): boot and link training begin. -/
def execPerstDeassert (s : State) : Result :=
  if s.pw.perst = false then ignored s
  else
    let s := s.setPw (fun w => { w with perst := false })
    if s.pw.input = false ∨ s.pw.st = .tripped then .next s
    else .next { s with se := s.se.startBoot, io := { s.io with link := 1 } }

/-! ### Hot reset and function-level reset (R41, R332, R352, R460) -/

/-- R41: the boot window's or the DMA path's image goes, but one being applied or pending. -/
def State.dropImage (s : State) : State :=
  let mine := s.fp.source == 1 || s.fp.source == 2
  let gone := match s.fp.st with
    | .loading | .loaded | .verifying | .failed => true
    | .verified => !s.fp.pending
    | _ => false
  if mine && gone then s.fpEmpty.mapIo (fun io => io.putN .FP_ERROR 0 0) else s

/-- Configuration space, MSI-X, the region table and translation at their reset values (Table 20-4); a hot reset, `kind` 2, clears
the queues' definitions too (Table 13-5). -/
def State.clearHost (s : State) (kind : Nat) : State :=
  { s with
    xl := Xl.reset
    host := { s.host with regions := [], config := [], d3 := false, doe := [], resetting := kind }
    io := { s.io with
      msixOn := false, msixMask := false, msixTab := [], pba := []
      regs := SMap.drop (fun k => Reg.between .XL_STATUS .XL_EVENT_EN k || (kind == 2 && Reg.between .SQ_BASE_LO .CQ_BASE_HI k))
        s.io.regs
      wide := SMap.drop (fun k => Reg.between .XL_STATUS .XL_EVENT_EN k) s.io.wide } }

/-- A hot reset or a function-level reset reaches the function (R463). -/
def State.resettable (s : State) : Bool := s.pw.input && !s.pw.perst && s.pw.st != .tripped

/-- FUNCTION_LEVEL_RESET (R332, R460): queues are DISABLED and empty, their commands stopped without a completion; no grace
period begins. -/
def execFunctionLevelReset (s : State) : Result :=
  if s.resettable then
    let qs := (s.cf.queues.map (·.1)).filter (fun q => (s.cf.queue q).st != .disabled)
    let s := qs.foldl (fun (s : State) q => (s.emptyQueue q .disabled).setQueue q (fun _ => Queue.reset)) s
    .next ((s.dropImage.clearHost 1).mapIo (fun io => io.incHi .HC_RESETS))
  else ignored s

/-- Array stores and the attic at a hot reset (R195): a pair whose work is in flight keeps its store until that has ended. -/
def State.clearStores (s : State) : State :=
  let busy := fun (a : Nat) => (s.sc.pairs.at a).isSome
  let ram := ((List.range 64).filter (fun a => !busy a)).foldl Ram.clearStore s.ram
  { s with ram := ram, mx := { s.mx with attic := [], clearing := (List.range 64).filter busy } }

/-- HOT_RESET (R330, R460): the host is lost, queue definitions are cleared, and the link trains anew. -/
def execHotReset (s : State) : Result :=
  if s.resettable then
    let s := s.hostLost 1 true
    .next ((s.dropImage.clearHost 2).clearStores.mapIo (fun io => io.incLo .HC_RESETS))
  else ignored s

/-- RESET_COMPLETE (R462). -/
def execResetComplete (s : State) : Result :=
  if s.host.resetting ≠ 0 then .next (s.setHost (fun h => { h with resetting := 0 })) else ignored s

end Sys2Proof.Machine
end

