-- ==== Sys2Proof/Machine/Security.lean ====
section
/-! DEFINITION. Machine/Security.lean: secure boot, key records, attestation over SPDM, and the management bus: MCTP and PLDM
(chapter 19). Answers leave as `Out.mgmt`: protocol 0 MCTP control, 1 SPDM, 2 PLDM, 3 DOE, 4 debug; a code, 0 for success;
fields; and bytes. -/

namespace Sys2Proof.Machine

/-- Change the security block. -/
def State.setSe (s : State) (f : Se → Se) : State := { s with se := f s.se }
/-- Raise a bit of SE_EVENT. -/
def State.seEvent (s : State) (b : Nat) : State := { s with io := s.io.event .SE_EVENT 0 b }

/-! ### Secure boot (R441 to R443) -/

/-- Directory entry `i` of a firmware image, the section before it ending at `prev`: the rules of R25, and the two
components. -/
def fwEntryOk (b : List Byte) (i prev : Nat) : Bool :=
  let e := fpEntry b i
  (u16 e 0 == 1 || u16 e 0 == 2) && (i == 0 || decide (u16 (fpEntry b (i - 1)) 0 < u16 e 0)) && u32 e 4 % 16 == 0 &&
  decide (prev ≤ u32 e 4) && decide (u32 e 4 + u32 e 8 ≤ fpLength b - 160) && (nonzeroIn b prev (u32 e 4)).isNone

/-- Header, directory and layout of a firmware image (R441: verification steps 1 to 3, with the differences of PFWI). -/
def fwLayoutOk (b : List Byte) : Bool :=
  let l := fpLength b
  let k := fpSections b
  let ends := fun (i : Nat) => if i = 0 then 64 + 16 * k else u32 (fpEntry b (i - 1)) 4 + u32 (fpEntry b (i - 1)) 8
  u32 b 0 == 0x49574650 && u8 b 5 == 1 && fpKind b == 0x10 && u16 b 0x12 == 0 && l == b.length && decide (l ≤ 4194304) &&
  l % 16 == 0 && inRange k 1 32 && decide (64 + 16 * k + 160 ≤ l) && (List.range k).all (fun i => fwEntryOk b i (ends i)) &&
  (nonzeroIn b (ends k) (l - 160)).isNone

/-- Why a firmware image is not valid (R441), as FAIL_A and FAIL_B say it (Table 19-3). -/
def fwBad (f : Fuses) (b : List Byte) : Option Nat :=
  let l := fpLength b
  if fwLayoutOk b = false then some 1
  else if sm3 (b.take (l - 160)) ≠ fpDigest b then some 2
  else if fpSigner b ≠ 0 ∨ sm3 (slice b (l - 160) 64) ≠ f.rootHash ∨
      sm2Verify (slice b (l - 160) 64) (fpDigest b) (slice b (l - 64) 64) = false then some 3
  else if u16 b 0x10 < f.minFw then some 4
  else none

/-- The bank at work. -/
def Se.bank (e : Se) : Bank := if e.runB then e.bankB else e.bankA

/-- A boot stage fails on the bank at work (R442): it is retried on the other bank, or no image is valid. -/
def Se.stageFails (e : Se) (code : Nat) : Se :=
  let e := if e.runB then { e with failB := code } else { e with failA := code }
  if e.retry then { e with boot := .failed, result := 3 } else { e with retry := true, runB := !e.runB }

/-- A boot stage ends (Table 19-2); `read` says that the flash could be read. -/
def Se.stage (e : Se) (read : Bool) : Se :=
  let check := fun (img : List Byte) => if read then fwBad e.fuses img else some 5
  match e.boot with
  | .rom => match check e.bank.porch with | some c => e.stageFails c | none => { e with boot := .keeper, m2 := sm3 e.bank.porch }
  | .keeper => match check e.bank.keeper with | some c => e.stageFails c | none => { e with boot := .keys }
  | .keys => { e with boot := .done }
  | _ => e

/-- BOOT_STAGE (R442). -/
def execBootStage (read : Bool) (s : State) : Result :=
  if s.pw.input = true ∧ s.pw.perst = false ∧ s.pw.st ≠ .tripped then .next (s.setSe (fun e => e.stage read)) else ignored s

/-- Bytes that are each a free value (R444, log entry 7). -/
def State.freeBytes (s : State) (n : Nat) : List Byte := (List.range n).map (fun i => BitVec.ofNat 8 (Config.freeValue (s.free + i)))

/-- ID_NONCE takes a fresh random value (R444). -/
def State.freshNonce (s : State) : State :=
  let v := s.freeBytes 16
  (s.drew 16).setSe (fun e => { e with nonce := v })

/-- BOOT_COMPLETE (R442): the boot window and the DOE mailbox answer. -/
def execBootComplete (s : State) : Result :=
  if s.se.boot = .done ∧ s.se.result = 0 then .next (s.freshNonce.setSe (fun e => { e with result := if e.retry then 2 else 1 }))
  else ignored s

/-- ID_BOOT (Table 19-3). -/
def Se.idBoot (e : Se) : Nat := e.result % 4 + fieldIf e.runB 2 + 16 * (e.failB % 16) + 256 * (e.failA % 16)

/-- ID_FW_VERSION: the keeper firmware running. -/
def Se.fwVersion (e : Se) : Nat := if e.result = 1 ∨ e.result = 2 then Config.fwVersion e.bank.keeper % 2 ^ 24 else 0

/-- ID_SEC_MIN. -/
def Fuses.secMin (f : Fuses) : Nat := f.minPlan % 65536 * 65536 + f.minFw % 65536

/-- Debug is open: unlocked, or the level is OPEN (Table 19-5). -/
def Se.debugOpen (e : Se) : Bool := e.debug || e.fuses.lock == 0

/-- ID_LOCK. -/
def Se.idLock (e : Se) : Nat := e.fuses.lock % 4 + fieldIf e.debugOpen 2

/-- A slot's state as SE_SLOT shows it. -/
def SlotState.code : SlotState → Nat
  | .empty => 0 | .active => 1 | .revoked => 2

/-- An owner slot. -/
def Fuses.slot (f : Fuses) (i : Nat) : SlotState × List Byte := f.slots.getD i (.empty, zeros 32)

/-- Change an owner slot. -/
def Fuses.setSlot (f : Fuses) (i : Nat) (v : SlotState × List Byte) : Fuses := { f with slots := f.slots.set i v }

/-! ### Advances and key records (R443 to R445) -/

/-- Change the fuses. -/
def State.setFuses (s : State) (g : Fuses → Fuses) : State := s.setSe (fun e => { e with fuses := g e.fuses })

/-- SE_RESULT. -/
def State.seResult (s : State) (code : Nat) : State := s.mapIo (fun io => io.putN .SE_RESULT 0 code)

/-- ADVANCE_FW (R443): the firmware minimum rises to the SEC_VERSION of the image running, at most 64 times. -/
def execAdvanceFw (s : State) : Result := if s.barShut then ignored s else
  if s.se.result ≠ 1 ∧ s.se.result ≠ 2 then ignored s
  else
    let v := u16 s.se.bank.keeper 0x10
    if v ≤ s.se.fuses.minFw then .next (s.seResult 0)
    else if 64 ≤ s.se.fuses.fwAdvances then .next (s.seResult 6)
    else .next ((s.setFuses (fun f => { f with minFw := max f.minFw v, fwAdvances := f.fwAdvances + 1 })).seResult 0)

/-- ADVANCE_PLAN (R443): the floor-plan minimum rises to the SEC_VERSION of the plan in force, at most 64 times. -/
def execAdvancePlan (s : State) : Result := if s.barShut then ignored s else
  if s.plan.active = false then ignored s
  else
    let v := s.plan.version
    if v ≤ s.se.fuses.minPlan then .next (s.seResult 0)
    else if 64 ≤ s.se.fuses.planAdvances then .next (s.seResult 6)
    else .next ((s.setFuses (fun f => { f with minPlan := max f.minPlan v, planAdvances := f.planAdvances + 1 })).seResult 0)

/-- OP of a key record (Table 19-4). -/
def krOp (r : List Byte) : Nat := u8 r 1
/-- SLOT of a key record. -/
def krSlot (r : List Byte) : Nat := u8 r 0
/-- PAYLOAD of a key record. -/
def krPayload (r : List Byte) : List Byte := slice r 0x20 112

/-- Whether the fields of a key record obey Table 19-4. -/
def krFieldsOk (r : List Byte) : Bool :=
  let op := krOp r
  let p := krPayload r
  inRange op 1 5 && decide (krSlot r < 4) && (krSlot r == 0 || (op != 3 && op != 4)) && (u8 r 2 == 0 || op == 5) &&
  (match op with
    | 1 => p.drop 32 == zeros 80
    | 3 => true
    | _ => p == zeros 112)

/-- Whether the signer of a key record may sign it (R445). -/
def Fuses.mayAuthorise (f : Fuses) (r : List Byte) : Bool :=
  let h := sm3 (slice r 0x90 64)
  let root := decide (h = f.rootHash)
  if !f.slots.any (fun x => x.1 == .active) then root
  else if krOp r = 4 ∧ f.lock = 2 then root
  else f.slots.any (fun x => x.1 == .active && x.2 == h)

/-- Why a key record is refused at arrival, as SE_RESULT says it; 0: it is accepted (R445). -/
def Se.recordCode (e : Se) (r : List Byte) : Nat :=
  if e.record.isSome then 7
  else if r.length ≠ 272 ∨ krFieldsOk r = false ∨ u64 r 8 ≠ e.fuses.device then 1
  else if slice r 0x10 16 ≠ e.nonce then 2
  else if e.fuses.mayAuthorise r = false then 3
  else if sm2Verify (slice r 0x90 64) (sm3 (r.take 0xD0)) (slice r 0xD0 64) = false then 4
  else 0

/-- A key record ends with a result (Table 19-10). -/
def State.recordEnds (s : State) (code : Nat) : State := (s.seResult code).seEvent (if code = 0 then 0 else 1)

/-- A key record arrives (R444): it is refused, or processed; either way the nonce is used up. -/
def State.takeRecord (s : State) (r : List Byte) : State × Nat :=
  let code := s.se.recordCode r
  let s := s.freshNonce
  (if code = 0 then s.setSe (fun e => { e with record := some r }) else s.recordEnds code, code)

/-- SE_SUBMIT (R444): the record in the window is submitted, while a plan is in force. -/
def execSeSubmit (s : State) : Result := if s.barShut then ignored s else
  if s.plan.active then .next (s.takeRecord (s.ram.read (keyrecAddr 0) 272)).1 else ignored s

/-- The record being processed, where its OP is `op`. -/
def Se.processing (e : Se) (op : Nat) : Option (List Byte) := e.record.filter (fun r => krOp r == op)

/-- A record's operation ends. -/
def State.recordDone (s : State) (code : Nat) : State := (s.setSe (fun e => { e with record := none })).recordEnds code

/-- PROGRAM (R445): the named slot, if EMPTY, holds the new key's hash and is ACTIVE. -/
def execProgram (s : State) : Result :=
  match s.se.processing 1 with
  | none => ignored s
  | some r =>
    let i := krSlot r
    if (s.se.fuses.slot i).1 = .empty then
      .next ((s.setFuses (fun f => f.setSlot i (.active, (krPayload r).take 32))).recordDone 0)
    else .next (s.recordDone 8)

/-- REVOKE (R445): the slot is REVOKED, unless no ACTIVE slot would be left. -/
def execRevoke (s : State) : Result :=
  match s.se.processing 2 with
  | none => ignored s
  | some r =>
    let i := krSlot r
    if (List.range 4).any (fun k => k != i && (s.se.fuses.slot k).1 == .active) then
      .next ((s.setFuses (fun f => f.setSlot i (.revoked, (f.slot i).2))).recordDone 0)
    else .next (s.recordDone 5)

/-- SET_PLAN_KEY (R445): the next of four banks takes the key. -/
def execSetPlanKey (s : State) : Result :=
  match s.se.processing 3 with
  | none => ignored s
  | some r =>
    if 4 ≤ s.se.fuses.keys.length then .next (s.recordDone 6)
    else
      match sm2Decrypt Config.deviceKey (krPayload r) with
      | some k => .next ((s.setFuses (fun f => { f with keys := f.keys ++ [k] })).recordDone 0)
      | none => .next (s.recordDone 1)

/-- DEBUG_UNLOCK (R445): debug is open until the next PERST. -/
def execDebugUnlock (s : State) : Result :=
  match s.se.processing 4 with
  | none => ignored s
  | some _ => .next (((s.setSe (fun e => { e with debug := true })).recordDone 0).seEvent 2)

/-- RAISE_LOCK (R445): a higher level is burned; any other is refused. -/
def execRaiseLock (s : State) : Result :=
  match s.se.processing 5 with
  | none => ignored s
  | some r =>
    let v := u8 r 2
    if s.se.fuses.lock < v ∧ v ≤ 2 then .next ((s.setFuses (fun f => { f with lock := max f.lock v })).recordDone 0)
    else .next (s.recordDone 1)

/-! ### What answers on the management bus (R443, R449, R456) -/

/-- How much of the bus is served: 0 nothing, 1 MCTP control and SPDM GET_VERSION, 2 what needs no valid image, 3 all. -/
def State.mgmtLevel (s : State) : Nat :=
  if s.pw.input = false then 0
  else if s.pw.st = .tripped then 3
  else if s.pw.perst = true ∨ s.se.result = 0 then 1
  else if s.se.result = 3 then 2
  else 3

/-- Answer on a protocol. -/
def State.answer (s : State) (proto code : Nat) (fields : List Nat) (bytes : List Byte) : State :=
  s.mapIo (fun io => io.send (.mgmt proto code fields bytes))

/-! ### SPDM (R448) -/

/-- Whether an SPDM request is served: over MCTP from a level of the bus, over the DOE mailbox once boot has a valid
image. -/
def State.spdmOn (s : State) (doe : Bool) (level : Nat) : Bool :=
  if doe then s.linkUp && (s.se.result == 1 || s.se.result == 2) && s.host.resetting == 0 && !s.pw.perst
  else decide (level ≤ s.mgmtLevel)

/-- Answer an SPDM request; a response longer than 4,096 bytes is left for CHUNK_GET (LargeResponse, code 0x0F). -/
def State.spdm (s : State) (code : Nat) (fields : List Nat) (bytes : List Byte) : State :=
  let s := s.setHost (fun h => { h with doe := [] })
  if bytes.length ≤ 4096 then s.answer 1 code fields bytes
  else (s.setSe (fun e => { e with chunkOut := bytes })).answer 1 0x0F [] []

/-- Measurement 3: the keeper image. -/
def Se.m3 (e : Se) : List Byte := sm3 e.bank.keeper

/-- Measurement block `i` (Table 19-6). -/
def State.measurement (s : State) (i : Nat) : List Byte :=
  let f := s.se.fuses
  match i with
  | 1 => Config.romDigest
  | 2 => s.se.m2
  | 3 => s.se.m3
  | 4 => sm3 (bytesOf f.secMin 4 ++ f.slots.flatMap (fun x => bytesOf x.1.code 1 ++ x.2) ++ bytesOf f.keys.length 1)
  | 5 => if s.plan.active then sm3 (s.io.appliedDigest ++ bytesOf (s.io.val .FP_AMEND_SEQ) 4) else zeros 32
  | _ => bytesOf s.se.idLock 2

/-- The certificate chain of a slot: slot 0 holds Iacel root CA, DeviceID and Alias. -/
def State.chain (s : State) (slot : Nat) : List Byte :=
  if slot = 0 then Config.deviceChain ++ Config.aliasCert s.se.m3 else SMap.get (fun _ => []) s.se.certs slot

/-- A signed response: what is signed is the request's nonce followed by the response. -/
def State.signed (s : State) (nonce body : List Byte) : List Byte := body ++ Config.aliasSign s.se.m3 (sm3 (nonce ++ body))

/-- GET_VERSION: SPDM 1.2; what was agreed before is forgotten. -/
def execGetVersion (doe : Bool) (s : State) : Result :=
  if s.spdmOn doe 1 then .next ((s.setSe (fun e => { e with version := true, agreed := false })).spdm 0 [0x12] []) else ignored s

/-- GET_CAPABILITIES: CERT_CAP, CHAL_CAP, MEAS_CAP with signature, CHUNK_CAP. -/
def execGetCapabilities (doe : Bool) (s : State) : Result :=
  if s.spdmOn doe 2 then .next (if s.se.version then s.spdm 0 [1, 1, 2, 1] [] else s.spdm 4 [] []) else ignored s

/-- NEGOTIATE_ALGORITHMS: SM2 with SM3 for signing and SM3 for measurements, where both are offered. -/
def execNegotiateAlgorithms (doe sm2 sm3 : Bool) (s : State) : Result :=
  if s.spdmOn doe 3 then
    .next (if s.se.version = false then s.spdm 4 [] []
      else if sm2 && sm3 then (s.setSe (fun e => { e with agreed := true })).spdm 0 [1, 1, 1] []
      else s.spdm 1 [] [])
  else ignored s

/-- A request that needs agreed algorithms, answered, or refused as unexpected. -/
def State.spdmAgreed (s : State) (doe : Bool) (f : State → State) : Result :=
  if s.spdmOn doe 3 then .next (if s.se.agreed then f s else s.spdm 4 [] []) else ignored s

/-- GET_DIGESTS: the digest of the chain of every slot that holds one. -/
def execGetDigests (doe : Bool) (s : State) : Result :=
  let slots := (List.range 4).filter (fun i => s.chain i != [])
  s.spdmAgreed doe (fun s => s.spdm 0 slots (slots.flatMap (fun i => sm3 (s.chain i))))

/-- GET_CERTIFICATE: part of a slot's chain, and how much is left. -/
def execGetCertificate (doe : Bool) (slot : Fin 4) (off len : BitVec 16) (s : State) : Result :=
  let c := s.chain slot
  let part := slice c off.toNat len.toNat
  s.spdmAgreed doe (fun s =>
    if c = [] ∨ c.length < off.toNat then s.spdm 1 [] [] else s.spdm 0 [slot, part.length, c.length - off.toNat - part.length] part)

/-- CHALLENGE: signed with the Alias key over the requester's nonce. -/
def execChallenge (doe : Bool) (slot : Fin 4) (nonce : List Byte) (s : State) : Result :=
  let c := s.chain slot
  let own := s.freeBytes 32
  s.spdmAgreed doe (fun s =>
    if c = [] then s.spdm 1 [] [] else (s.drew 32).spdm 0 [slot] (s.signed nonce (sm3 c ++ own)))

/-- GET_MEASUREMENTS: the number of blocks, all of them, or one; signed where asked. -/
def execGetMeasurements (doe : Bool) (index : Fin 256) (sign : Bool) (nonce : List Byte) (s : State) : Result :=
  let ids := if index.val = 0 then [] else if index.val = 255 then [1, 2, 3, 4, 5, 6] else [index.val]
  let body := ids.flatMap s.measurement
  s.spdmAgreed doe (fun s =>
    if 7 ≤ index.val ∧ index.val ≠ 255 then s.spdm 1 [] []
    else s.spdm 0 (if index.val = 0 then [6] else ids) (if sign then s.signed nonce body else body))

/-- SET_CERTIFICATE: slots 1 to 3, with a chain that ends in the DeviceID key. -/
def execSetCertificate (doe : Bool) (slot : Fin 4) (chain : List Byte) (s : State) : Result :=
  s.spdmAgreed doe (fun s =>
    if slot.val = 0 ∨ Config.endsInDevice chain = false then s.spdm 1 [] []
    else (s.setSe (fun e => { e with certs := SMap.set (fun _ => []) e.certs slot.val chain })).spdm 0 [slot] [])

/-- CHUNK_SEND: a part of a large request; the last part leaves the request to its own command. -/
def execChunkSend (doe last : Bool) (bytes : List Byte) (s : State) : Result :=
  s.spdmAgreed doe (fun s =>
    let all := s.se.chunkIn ++ bytes
    (s.setSe (fun e => { e with chunkIn := if last then [] else all })).spdm 0 [all.length] [])

/-- CHUNK_GET: a part of the large response that waits. -/
def execChunkGet (doe : Bool) (i : Nat) (s : State) : Result :=
  s.spdmAgreed doe (fun s =>
    let part := slice s.se.chunkOut (4096 * i) 4096
    if part = [] then s.spdm 1 [] []
    else
      let last := decide (s.se.chunkOut.length ≤ 4096 * (i + 1))
      (s.setSe (fun e => { e with chunkOut := if last then [] else e.chunkOut })).spdm 0 [i, fieldIf last 0] part)

/-! ### MCTP control (R449) -/

/-- Answer an MCTP control command. -/
def State.mctp (s : State) (fields : List Nat) (bytes : List Byte) : Result :=
  if 1 ≤ s.mgmtLevel then .next (s.answer 0 0 fields bytes) else ignored s

/-- SET_ENDPOINT_ID. -/
def execSetEndpointId (id : Fin 256) (s : State) : Result :=
  if 1 ≤ s.mgmtLevel then .next ((s.setSe (fun e => { e with eid := id })).answer 0 0 [id] []) else ignored s
/-- GET_ENDPOINT_ID. -/
def execGetEndpointId (s : State) : Result := s.mctp [s.se.eid] []
/-- GET_MCTP_VERSION_SUPPORT: the versions of the standard that the device follows are a constant of Config. -/
def execGetMctpVersionSupport (type : Fin 256) (s : State) : Result := s.mctp [type, Config.mctpVersion type % 2 ^ 32] []
/-- GET_MESSAGE_TYPE_SUPPORT: control, PLDM, SPDM and the vendor-defined debug type. -/
def execGetMessageTypeSupport (s : State) : Result := s.mctp [0, 1, 5, 0x7E] []
/-- GET_ENDPOINT_UUID. -/
def execGetEndpointUuid (s : State) : Result := s.mctp [] Config.endpointUuid

/-! ### PLDM (R440, R443, R450) -/

/-- Answer a PLDM command at a level of the bus. -/
def State.pldm (s : State) (level code : Nat) (fields : List Nat) (bytes : List Byte) : Result :=
  if level ≤ s.mgmtLevel then .next (s.answer 2 code fields bytes) else ignored s

/-- GETTID: no terminus id has been assigned. -/
def execGettid (s : State) : Result := s.pldm 3 0 [0] []
/-- GETPLDMVERSION: the versions are a constant of Config. -/
def execGetpldmversion (type : Fin 64) (s : State) : Result :=
  if type.val = 0 ∨ type.val = 2 ∨ type.val = 5 then s.pldm 3 0 [type, Config.pldmVersion type % 2 ^ 32] [] else s.pldm 3 0x83 [] []
/-- GETPLDMTYPES: types 0, 2 and 5. -/
def execGetpldmtypes (s : State) : Result := s.pldm 3 0 [0x25] []
/-- GETPLDMCOMMANDS: the commands that the manual names, by the standard's codes. -/
def execGetpldmcommands (type : Fin 64) (s : State) : Result :=
  match type.val with
  | 0 => s.pldm 3 0 [2, 3, 4, 5] []
  | 2 => s.pldm 3 0 [0x11, 0x21, 0x39, 0x51] []
  | 5 => s.pldm 3 0 [0x01, 0x10, 0x13, 0x14, 0x15, 0x17, 0x18, 0x1A] []
  | _ => s.pldm 3 0x83 [] []

/-- The identity block's fixed words as bytes (Table 19-1), the nonce among them. -/
def State.identity (s : State) : List Byte :=
  bytesOf 0x36314D50 4 ++ bytesOf s.se.fuses.part 4 ++ bytesOf s.se.fuses.device 8 ++ bytesOf s.se.idBoot 4 ++
  bytesOf s.se.fwVersion 4 ++ bytesOf s.se.fuses.secMin 4 ++ bytesOf s.se.idLock 4 ++ s.se.nonce ++ zeros 16 ++ s.se.fuses.rootHash

/-- QUERYDEVICEIDENTIFIERS (R440). -/
def execQuerydeviceidentifiers (s : State) : Result := s.pldm 2 0 [] s.identity

/-- PLDM_SENSOR_READ (R450): a channel's filtered value, or state sensor 1, which reports PW_STATUS.STATE. -/
def execPldmSensorRead (c : Option (Fin 256)) (s : State) : Result :=
  match c with
  | some c => if channelReserved c then s.pldm 3 0x80 [] [] else s.pldm 3 0 [] (bytesOf (s.po.sensor c).value.toNat 4)
  | none => s.pldm 3 0 [s.pw.st.code] []

/-- STATE_SET_WAKE (R433, R450). -/
def execStateSetWake (s : State) : Result := if 3 ≤ s.mgmtLevel then .next (s.requestWake.answer 2 0 [] []) else ignored s

/-- STATE_SET_SHUTTER (R431, R450). -/
def execStateSetShutter (s : State) : Result := if 3 ≤ s.mgmtLevel then .next (s.requestShutter.answer 2 0 [] []) else ignored s

/-- Bytes put at an offset of a string, zeros before it where it is short. -/
def putBytes (b : List Byte) (off : Nat) (bs : List Byte) : List Byte :=
  (b ++ zeros (off - b.length)).take off ++ bs ++ b.drop (off + bs.length)

/-- A floor-plan container's data (R31, R450): it takes the EMPTY store, or goes on filling it. Data that would reach beyond
4 MiB is dropped and counted like a staging write of R32, and answered as taken: the spec is silent on it, the model's choice
(log entry 144). -/
def State.planData (s : State) (off : Nat) (bs : List Byte) (last : Bool) : State :=
  if s.fp.st = .empty ∨ (s.fp.st = .loading ∧ s.fp.source = 3) then
    let fits := decide (off + bs.length ≤ 4194304)
    let s := if fits then { s with ram := s.ram.poke (imageAddr off) bs } else s.mapIo (fun io => io.inc .FP_DROPPED)
    let s := s.setFp (fun l => { l with
      st := if last then .loaded else .loading, source := 3, len := if last then off + bs.length else l.len })
    (if last then s.mapIo (fun io => io.putN .FP_LEN 0 (off + bs.length)) else s).answer 2 0 [] []
  else s.answer 2 4 [] []

/-- PLDM_COMPONENT_TRANSFER (R443, R450): data of a component of Table 19-7; with no valid image, firmware components only. A
store that another path owns answers busy (R31). -/
def execPldmComponentTransfer (id : BitVec 16) (off : Nat) (bytes : List Byte) (last : Bool) (s : State) : Result :=
  let fw := id = 1 ∨ id = 2
  if s.mgmtLevel < 2 then ignored s
  else if id = 0x10 ∧ s.mgmtLevel = 3 then
    .next ((s.setSe (fun e => { e with comp := 0x10, compBytes := [], verified := false })).planData off bytes last)
  else if fw ∨ (id = 0x20 ∧ s.mgmtLevel = 3) then
    .next ((s.setSe (fun e => { e with
      comp := id.toNat, compBytes := putBytes (if off = 0 then [] else e.compBytes) off bytes, verified := false })).answer 2 0 [] [])
  else .next (s.answer 2 2 [] [])

/-- PLDM_VERIFY (R443, R450): a floor plan's verification begins; a firmware image is checked; a key record is checked at
activation. -/
def execPldmVerify (s : State) : Result :=
  if s.mgmtLevel < 2 then ignored s
  else if s.se.comp = 0x10 then
    .next (if s.fp.st = .loaded ∧ s.fp.source = 3 then (s.startVerify .verify).answer 2 0 [] [] else s.answer 2 4 [] [])
  else if s.se.comp = 1 ∨ s.se.comp = 2 then
    match fwBad s.se.fuses s.se.compBytes with
    | none => .next ((s.setSe (fun e => { e with verified := true })).answer 2 0 [] [])
    | some c => .next (s.answer 2 3 [c] [])
  else if s.se.comp = 0x20 then .next ((s.setSe (fun e => { e with verified := true })).answer 2 0 [] [])
  else .next (s.answer 2 2 [] [])

/-- A firmware image is written to the bank not running, which is then preferred (R443). -/
def Se.newFirmware (e : Se) : Se :=
  let put := fun (b : Bank) => if e.comp = 1 then { b with porch := e.compBytes } else { b with keeper := e.compBytes }
  let e := if e.runB then { e with bankA := put e.bankA } else { e with bankB := put e.bankB }
  { e with preferB := !e.runB, comp := 0, compBytes := [], verified := false }

/-- ACTIVATEFIRMWARE (R443, R444, R450): APPLY or AMEND as the image's KIND requires, the key record, or the bank. -/
def execActivatefirmware (s : State) : Result :=
  if s.mgmtLevel < 2 then ignored s
  else if s.se.comp = 0x10 then
    if s.fp.source = 3 ∧ s.fp.st = .verified ∧ s.fp.pending = false then
      let t := if s.imageKind = 2 then s.fpAmend else s.fpApply
      .next (t.answer 2 (if t.fp.st = .applying ∨ t.fp.pending = true then 0 else 5) [] [])
    else .next (s.answer 2 5 [] [])
  else if s.se.comp = 0x20 ∧ s.se.verified = true then
    let r := (s.setSe (fun e => { e with comp := 0, compBytes := [], verified := false })).takeRecord s.se.compBytes
    .next (r.1.answer 2 (if r.2 = 0 then 0 else 5) [r.2] [])
  else if (s.se.comp = 1 ∨ s.se.comp = 2) ∧ s.se.verified = true then .next ((s.setSe Se.newFirmware).answer 2 0 [] [])
  else .next (s.answer 2 5 [] [])

/-- DEBUG_MESSAGE (R447): answered while debug is open; what an answer holds is Iacel's. -/
def execDebugMessage (bytes : List Byte) (s : State) : Result :=
  if 3 ≤ s.mgmtLevel ∧ s.se.debugOpen = true then .next (s.answer 4 0 [] (Config.debugAnswer bytes)) else ignored s

end Sys2Proof.Machine
end

