-- ==== Sys2Proof/Machine/Registers.lean ====
section
/-! DEFINITION. Machine/Registers.lean: what every register of the control window reads as, a BAR0 write to a register that has
no command of its own, and the reads that latch a high half (R9, R10, R20, R63, R313; the register tables). -/

namespace Sys2Proof.Machine

/-! ### 64-bit registers (R63) -/

/-- The selected capture slot, when it holds a capture (Table 15-9). -/
def State.capSel (s : State) : Option Capture := s.cf.captures.at (s.io.val .CF_CAP_SEL % 16)

/-- The selected entry of the error log (Table 17-7). -/
def State.logSel (s : State) : Option LogEntry := s.rl.log[s.io.val .RL_LOG_SEL % 64]?

/-- The 64 bits behind a _LO register. -/
def State.wideView (s : State) (r : Reg) (i : Nat) : DWord :=
  match r with
  | .MER_COUNT_LO => BitVec.ofNat 64 s.mer.count
  | .MER_FRAME_START_LO => BitVec.ofNat 64 s.frameStart
  | .WG_BATCH_STEP_LO => BitVec.ofNat 64 (s.batch (s.io.val .WG_BATCH_SEL i % 64)).step
  | .CF_CAP_COUNT_LO => BitVec.ofNat 64 (match s.capSel with | some c => c.count | none => 0)
  | .SC_GRP_ENGINE_LO | .SC_GRP_GRANTS_LO | .SC_GRP_FLITS_LO | .SC_GRP_DMA_LO => s.io.wideReg r (s.io.val .SC_GRP_SEL % 64)
  | .RL_LOG_COUNT_LO => BitVec.ofNat 64 (match s.logSel with | some e => e.count | none => 0)
  | .TR_LATCH_LO => BitVec.ofNat 64 s.tr.mark.count
  | _ => s.io.wideReg r i

/-- The low half of a 64-bit register. -/
def State.wideLo (s : State) (r : Reg) (i : Nat) : Nat := ((s.wideView r i).setWidth 32).toNat

/-- The _HI register that follows a _LO one in every table. -/
def Reg.high (r : Reg) : Reg := Reg.ofNat (r.ctorIdx + 1)

/-- A read of a _LO register: it answers the low half and latches the high half into _HI (R63). A block that does not answer
reads as 0 (R9, R432). -/
def State.readLo (s : State) (r : Reg) (i : Nat) : State :=
  if s.barShut then s.mapIo (fun io => io.send (.readData 0))
  else s.mapIo (fun io => (io.put r.high i (((s.wideView r i) >>> 32).setWidth 32)).send (.readData (s.wideLo r i)))

/-- MER_COUNT_LO_READ (R63). -/
def execMerCountLoRead (s : State) : Result := .next (s.readLo .MER_COUNT_LO 0)
/-- MER_FRAME_START_LO_READ (R63). -/
def execMerFrameStartLoRead (s : State) : Result := .next (s.readLo .MER_FRAME_START_LO 0)
/-- WG_ROWS_LO_READ (R63) of a stack's landing. -/
def execWgRowsLoRead (st : Fin 16) (s : State) : Result := .next (s.readLo .WG_ROWS_LO st)
/-- WG_BATCH_STEP_LO_READ (R63): the selected batch. -/
def execWgBatchStepLoRead (st : Fin 16) (s : State) : Result := .next (s.readLo .WG_BATCH_STEP_LO st)
/-- MX_FEED_LO_READ (R63) of an array. -/
def execMxFeedLoRead (a : Fin 64) (s : State) : Result := .next (s.readLo .MX_FEED_LO a)
/-- MX_ATTIC_HITS_LO_READ (R63). -/
def execMxAtticHitsLoRead (s : State) : Result := .next (s.readLo .MX_ATTIC_HITS_LO 0)
/-- VE_BUSY_LO_READ (R63) of an engine. -/
def execVeBusyLoRead (a : Fin 64) (s : State) : Result := .next (s.readLo .VE_BUSY_LO a)
/-- UP_CONTRIB_LO_READ (R63) of a stack's combiner. -/
def execUpContribLoRead (st : Fin 16) (s : State) : Result := .next (s.readLo .UP_CONTRIB_LO st)
/-- UP_CLOSE_LO_READ (R63). -/
def execUpCloseLoRead (s : State) : Result := .next (s.readLo .UP_CLOSE_LO 0)
/-- FB_FEC_CORR_LO_READ (R63) of a port. -/
def execFbFecCorrLoRead (p : Fin 64) (s : State) : Result := .next (s.readLo .FB_FEC_CORR_LO p)
/-- FB_TX_FLITS_LO_READ (R63) of a port. -/
def execFbTxFlitsLoRead (p : Fin 64) (s : State) : Result := .next (s.readLo .FB_TX_FLITS_LO p)
/-- FB_RX_FLITS_LO_READ (R63) of a port. -/
def execFbRxFlitsLoRead (p : Fin 64) (s : State) : Result := .next (s.readLo .FB_RX_FLITS_LO p)
/-- HC_LB_ACCEPTED_LO_READ (R63). -/
def execHcLbAcceptedLoRead (s : State) : Result := .next (s.readLo .HC_LB_ACCEPTED_LO 0)
/-- XL_HITS_LO_READ (R63). -/
def execXlHitsLoRead (s : State) : Result := .next (s.readLo .XL_HITS_LO 0)
/-- CF_COMMANDS_LO_READ (R63). -/
def execCfCommandsLoRead (s : State) : Result := .next (s.readLo .CF_COMMANDS_LO 0)
/-- CF_CAP_COUNT_LO_READ (R63): the selected capture slot. -/
def execCfCapCountLoRead (s : State) : Result := .next (s.readLo .CF_CAP_COUNT_LO 0)
/-- SC_GRP_ENGINE_LO_READ (R63): the selected group. -/
def execScGrpEngineLoRead (s : State) : Result := .next (s.readLo .SC_GRP_ENGINE_LO 0)
/-- SC_GRP_GRANTS_LO_READ (R63): the selected group. -/
def execScGrpGrantsLoRead (s : State) : Result := .next (s.readLo .SC_GRP_GRANTS_LO 0)
/-- SC_GRP_FLITS_LO_READ (R63): the selected group. -/
def execScGrpFlitsLoRead (s : State) : Result := .next (s.readLo .SC_GRP_FLITS_LO 0)
/-- SC_GRP_DMA_LO_READ (R63): the selected group. -/
def execScGrpDmaLoRead (s : State) : Result := .next (s.readLo .SC_GRP_DMA_LO 0)
/-- RL_ECC_CORR_LO_READ (R63). -/
def execRlEccCorrLoRead (s : State) : Result := .next (s.readLo .RL_ECC_CORR_LO 0)
/-- RL_LOG_COUNT_LO_READ (R63): the selected log entry. -/
def execRlLogCountLoRead (s : State) : Result := .next (s.readLo .RL_LOG_COUNT_LO 0)
/-- TR_LATCH_LO_READ (R63): the mark bank's latched count. -/
def execTrLatchLoRead (s : State) : Result := .next (s.readLo .TR_LATCH_LO 0)

/-! ### What the other registers read as -/

/-- The low or the high word of a 64-bit value. -/
def halfOf (v : Nat) (high : Bool) : Nat := if high then v / 2 ^ 32 % 2 ^ 32 else v % 2 ^ 32

/-- The entry of the tracing banks that TR_SEL names (Table 19-11). -/
def State.trData (s : State) : Nat :=
  let sel := s.io.val .TR_SEL
  let b := if bit sel 31 then s.tr.capture else s.tr.mark
  if b.held then u32 (b.entry (sel / 2 ^ 28 % 8) (sel / 256 % 2 ^ 20)) (4 * (sel % 8)) else 0

/-- Registers of the identity block, the security block and tracing (Tables 19-1, 19-10, 19-11). -/
def State.readSecurity (s : State) (r : Reg) : Option Nat :=
  let e := s.se
  let slot := e.fuses.slot (s.io.val .SE_SLOT_SEL % 4)
  match r with
  | .ID_PART => some e.fuses.part
  | .ID_DEVICE_LO => some (halfOf e.fuses.device false)
  | .ID_DEVICE_HI => some (halfOf e.fuses.device true)
  | .ID_BOOT => some e.idBoot
  | .ID_FW_VERSION => some e.fwVersion
  | .ID_SEC_MIN => some e.fuses.secMin
  | .ID_LOCK => some e.idLock
  | .ID_NONCE0 | .ID_NONCE1 | .ID_NONCE2 | .ID_NONCE3 => some (u32 e.nonce (4 * (r.ctorIdx - Reg.ID_NONCE0.ctorIdx)))
  | .ID_ROOT_HASH0 | .ID_ROOT_HASH1 | .ID_ROOT_HASH2 | .ID_ROOT_HASH3 | .ID_ROOT_HASH4 | .ID_ROOT_HASH5 | .ID_ROOT_HASH6
  | .ID_ROOT_HASH7 => some (u32 e.fuses.rootHash (4 * (r.ctorIdx - Reg.ID_ROOT_HASH0.ctorIdx)))
  | .SE_STATUS => some (fieldIf (!e.fuses.keys.isEmpty) 0 + fieldIf e.record.isSome 1)
  | .SE_SLOT => some slot.1.code
  | .SE_SLOT_HASH0 | .SE_SLOT_HASH1 | .SE_SLOT_HASH2 | .SE_SLOT_HASH3 | .SE_SLOT_HASH4 | .SE_SLOT_HASH5 | .SE_SLOT_HASH6
  | .SE_SLOT_HASH7 => some (u32 slot.2 (4 * (r.ctorIdx - Reg.SE_SLOT_HASH0.ctorIdx)))
  | .TR_STATUS => some (fieldIf s.tr.mark.held 0 + fieldIf s.tr.capture.held 1 + fieldIf s.tr.dumping 2)
  | .TR_MARK_ID => some (s.tr.mark.id % 256 + 65536 * (s.tr.mark.source % 256))
  | .TR_DATA => some s.trData
  | .TR_DUMP_LEN => some s.tr.mark.dumpLen
  | .TR_TELEM_CUR => some (s.tr.cur % 2 + 2 * (s.tr.seq % 2 ^ 31))
  | _ => none

/-- Registers of the loader, the meridian, the stacks and the rooms of stack `i` (Tables 2-6, 3-10, 5-7, 6-16). -/
def State.readStack (s : State) (r : Reg) (i : Nat) : Option Nat :=
  let flog := s.flogEntry i (s.io.val .RM_FLOG_SEL i % 16)
  let ch := s.io.val .RM_PSTORE_SEL i % 64
  match r with
  | .FP_STATUS => some s.fpStatus
  | .MER_STATUS => some s.merStatus
  | .MER_PHASE_ERR => some s.phaseErr
  | .MER_MASTER => some s.merMaster
  | .MER_SLOT => some s.merSlot
  | .ST_STATUS => some (s.stStatus i)
  | .ST_SHEET_SIZE => some (if s.plan.inService i then s.plan.channels i else 0)
  | .ST_CH_MAPPED_OUT_LO => some (halfOf (s.stOut i) false)
  | .ST_CH_MAPPED_OUT_HI => some (halfOf (s.stOut i) true)
  | .ST_CHMAP => some (s.stChmap i (s.io.val .ST_CHMAP_SEL i % 64))
  | .ST_TEMP => some (s.stTemp i)
  | .ST_GOV => some (s.stGov i)
  | .ST_ACTIVE => some (s.activeCores i % 65536)
  | .ST_FOOTPRINT_LO => some (maskWord false (s.beneath i))
  | .ST_FOOTPRINT_HI => some (maskWord true (s.beneath i))
  | .ST_FUSE_DATA_LO => some (s.fuseData i (s.io.val .ST_FUSE_INDEX i % 1024) 0)
  | .ST_FUSE_DATA_HI => some (s.fuseData i (s.io.val .ST_FUSE_INDEX i % 1024) 4)
  | .ST_SPARES => some (s.stSpares i (s.io.val .ST_SPARES_SEL i % 64))
  | .ST_PRESERVE => some (s.stPreserve i)
  | .ST_CONTENT_STATUS => some (s.stContent i)
  | .RM_FLOG_ROOM => some (match flog with | some e => 2 ^ 31 + e.room % 2 ^ 20 | none => 0)
  | .RM_FLOG_INFO => some (match flog with | some e => e.info | none => 0)
  | .RM_FLOG_TAG => some (match flog with | some e => 65536 * (e.entry % 65536) + e.tag % 65536 | none => 0)
  | .RM_PSTORE_CRC => some (crc32c (s.ram.read (progAddr i ch 0) 49152)).toNat
  | .RM_PSTORE_LOADS => some (SMap.get (fun _ => 0) s.rooms.loads (64 * i + ch) % 65536)
  | _ => none

/-- Registers of the wings, the update block and the batches (Tables 7-9, 10-7). -/
def State.readWing (s : State) (r : Reg) (i : Nat) : Option Nat :=
  let wing := s.io.val .WG_WING_SEL i % 1024
  let shard := s.io.val .UP_SHARD_SEL i % 1024
  let layer := s.io.val .UP_LAYER_SEL % 4096
  let b := s.io.val .WG_BATCH_SEL i % 64
  match r with
  | .WG_STATUS => some (s.wgStatus i)
  | .WG_WING => some (s.wgWing i wing)
  | .WG_WING_SLOTS => some (s.wgSlots i wing)
  | .WG_BATCH_MEMBERS => some (s.batchMembers b)
  | .WG_BATCH_FREE => some (s.batchFree b)
  | .UP_STATUS => some s.upStatus
  | .UP_CMB_ROWS => some (s.comb i).acc.length
  | .UP_CMB_ELEMS => some ((s.comb i).acc.map (fun x => x.acc.length)).sum
  | .UP_CMB_DRAIN => some (s.comb i).drain.length
  | .UP_SHARD => some (s.upShard i shard)
  | .UP_SHARD_STEP => some (if s.hasShard i shard then (s.shard shard).step else 0)
  | .UP_SHARD_Q => some (if s.hasShard i shard then (s.shard shard).q.toNat else 0)
  | .UP_LAYER => some (s.upLayer layer)
  | .UP_LAYER_STEP => some (s.layerStep layer)
  | _ => none

/-- Registers of the arrays and engines (Tables 8-11, 9-8). -/
def State.readArray (s : State) (r : Reg) (i : Nat) : Option Nat :=
  match r with
  | .MX_STATUS => some (s.mxStatus i)
  | .MX_ATTIC_PINNED => some (s.mx.attic.filter (fun l => s.plan.pinned l.line)).length
  | .VE_STATUS => some (s.veStatus i)
  | .VE_CHAIN_CRC => some (crc32c (s.ram.read (chainAddr i (s.io.val .VE_CHAIN_SEL i % 256) 0) 128)).toNat
  | .VE_TREG_LIVE => some ((s.arr i).live % 256)
  | _ => none

/-- Registers of the fabric ports and of fabric traffic (Tables 11-7, 12-7). -/
def State.readFabric (s : State) (r : Reg) (i : Nat) : Option Nat :=
  let d := s.io.val .FB_ROUTE_SEL % 16384
  let c := s.io.val .FB_CONN_SEL % 4096
  match r with
  | .FB_STATUS => some (s.fbStatus i)
  | .FB_NEIGHBOUR => some (s.fbNeighbour i)
  | .FB_LANES => some (256 * ((s.port i).failed % 256) + (s.port i).inUse % 256)
  | .FB_LANE_SYMERR => some (min ((s.port i).symErr.getD (s.io.val .FB_LANE_SEL i % 8) 0) 0xFFFFFFFF)
  | .FB_GRID => some (if s.plan.hasGrid then 2 ^ 31 + s.plan.ref % 65536 else 0)
  | .FB_FABRIC_ID => some (if s.plan.hasGrid then s.plan.fabricId else 0)
  | .FB_ROUTE => some (s.fbRoute d)
  | .FB_ROUTE_PORTS => some (s.fbRoutePorts d)
  | .FB_DEVICES => some s.fbDevices
  | .FB_CONN => some (s.fbConn c)
  | .FB_CONN_OUT => some (match s.fab.conns.at c with | some x => x.outs.length % 65536 | none => 0)
  | .FB_CONN_RETX => some (match s.fab.conns.at c with | some x => min x.retx 0xFFFFFFFF | none => 0)
  | .FB_CONNS => some (s.fab.conns.length % 8192)
  | .FB_VTREE => some s.fbVtree
  | _ => none

/-- Registers of host coupling, translation, queues and the front end (Tables 13-9, 14-6, 15-5, 15-9). -/
def State.readHost (s : State) (r : Reg) (i : Nat) : Option Nat :=
  let as := s.io.val .XL_AS_SEL % 256
  let w := s.io.val .XL_CW_SEL % 16
  let win := (s.xl.windows.at w).getD ⟨0, false, 0, 0⟩
  let q := s.cf.queue i
  match r with
  | .HC_STATUS => some s.hcStatus
  | .HC_GRACE_LEFT => some (match s.host.graceEnd with | some e => (e - s.mer.now + 999999) / 1000000 | none => 0)
  | .XL_STATUS => some s.xlStatus
  | .XL_AS_ROOT_LO => some (halfOf (SMap.get (fun _ => 0) s.xl.roots as) false)
  | .XL_AS_ROOT_HI => some (halfOf (SMap.get (fun _ => 0) s.xl.roots as) true)
  | .XL_AS_CTRL => some (fieldIf (SMap.get (fun _ => false) s.xl.enabled as) 0)
  | .XL_INV_STATUS => some (fieldIf (s.xl.invs.any (fun v => v.reg)) 0)
  | .XL_RING_TAIL => some (s.xl.tail % 4096)
  | .XL_PRQ_OPEN => some (s.xl.reqs.length % 2048)
  | .XL_RUNS => some (s.xl.tlb.filter (fun e => decide (0 < e.m))).length
  | .XL_CW_AS => some (win.as % 256 + fieldIf win.on 8)
  | .XL_CW_BASE_LO => some (halfOf win.base false)
  | .XL_CW_BASE_HI => some (halfOf win.base true)
  | .XL_CW_COUNT => some (win.count % 2 ^ 17)
  | .XL_CW_FIRST => some (s.xl.first w % 65536)
  | .XL_CNT => some (SMap.get (fun _ => 0) s.xl.counters (s.io.val .XL_CNT_SEL % 65536) % 2 ^ 17)
  | .Q_STATUS => some (s.qStatus i)
  | .Q_HEADS => some (65536 * (q.cqTail % 65536) + q.sqHead % 65536)
  | .Q_INFLIGHT => some ((s.cf.ringCmds i).length % 2 ^ 17)
  | .CF_STATUS => some (s.cf.slotsUsed % 8192)
  | .CF_ITIN => some (s.cfItin (s.io.val .CF_ITIN_SEL % 1024))
  | .CF_CAP_INFO => some (match s.capSel with | some c => 2 ^ 31 + 65536 * (c.queue % 4096) + 256 * (c.status % 256) | none => 0)
  | .CF_CAP_SLOT => some (match s.capSel with | some c => c.slot % 65536 | none => 0)
  | .CF_CAP_VA_LO => some (match s.capSel with | some c => halfOf c.va false | none => 0)
  | .CF_CAP_VA_HI => some (match s.capSel with | some c => halfOf c.va true | none => 0)
  | .CF_CAP_ARRAYS_LO => some (match s.capSel with | some c => halfOf c.arrMask false | none => 0)
  | .CF_CAP_ARRAYS_HI => some (match s.capSel with | some c => halfOf c.arrMask true | none => 0)
  | .CF_CAP_STACKS => some (match s.capSel with | some c => c.stkMask % 65536 | none => 0)
  | .CF_CAP_WORD => some (match s.capSel with | some c => u32 c.entry (4 * (s.io.val .CF_CAP_WORD_SEL % 32)) | none => 0)
  | _ => none

/-- Logical arrays quarantined (RL_QUAR_ARRAYS): those whose fabricated pair is on the list (R413). -/
def State.quarantinedArray (s : State) (a : Nat) : Bool :=
  match s.plan.fab a with | some f => s.rl.pairs.contains f | none => false

/-- Registers of streams, reliability, power and the porch (Tables 16-8, 17-7, 18-8). -/
def State.readRest (s : State) (r : Reg) : Option Nat :=
  let ctx := s.sc.streams.at (s.io.val .SC_CTX_SEL % 2 ^ 18)
  let grp := s.io.val .SC_GRP_SEL % 64
  let a := s.io.val .SC_ARRAY_SEL % 64
  let ch := s.po.sensor (s.io.val .PO_CH_SEL % 256)
  match r with
  | .SC_STATUS => some s.scStatus
  | .SC_STREAMS => some (s.sc.streams.length % 2 ^ 17)
  | .SC_CTX => some (s.scCtx (s.io.val .SC_CTX_SEL % 2 ^ 18))
  | .SC_CTX_ITER => some (match ctx with | some x => x.iter % 2 ^ 32 | none => 0)
  | .SC_CTX_UNIT => some (match ctx with | some x => x.unit % 2 ^ 17 | none => 0)
  | .SC_ARRAY => some (s.scArray a)
  | .SC_GRP_HELD => some (s.sc.pairs.list.filter (fun e => e.2.group == grp)).length
  | .RL_STATUS => some s.rlStatus
  | .RL_QUAR_ARRAYS_LO => some (maskWord false s.quarantinedArray)
  | .RL_QUAR_ARRAYS_HI => some (maskWord true s.quarantinedArray)
  | .RL_QUAR_ROOMS => some (s.rl.rooms.length % 8192)
  | .RL_QUAR_ROOM => some (match s.rl.rooms[s.io.val .RL_QUAR_SEL % 8192]? with | some x => 2 ^ 31 + x % 2 ^ 20 | none => 0)
  | .RL_LOG_INFO => some (match s.logSel with | some e => e.info | none => 0)
  | .RL_LOG_WHERE => some (match s.logSel with | some e => e.place | none => 0)
  | .PW_STATUS => some s.pwStatus
  | .PW_ENVELOPE => some (s.envelope % 4096)
  | .PW_ARRAY_STEP => some (s.pwArrayStep (s.io.val .PW_ARRAY_SEL % 64))
  | .PO_STATUS => some s.poStatus
  | .PO_CH_VALUE => some ch.value.toNat
  | .PO_CH_RAW => some ch.raw.toNat
  | .PO_RULE_STATE => some (s.po.rule (s.io.val .PO_RULE_SEL % 128)).word
  | _ => none

/-- Whether a register is the low half of a 64-bit one (R63). -/
def Reg.isWide (r : Reg) : Bool :=
  [Reg.MER_COUNT_LO, .MER_FRAME_START_LO, .WG_ROWS_LO, .WG_BATCH_STEP_LO, .MX_FEED_LO, .MX_ATTIC_HITS_LO, .VE_BUSY_LO, .UP_CONTRIB_LO,
   .UP_CLOSE_LO, .FB_FEC_CORR_LO, .FB_TX_FLITS_LO, .FB_RX_FLITS_LO, .HC_LB_ACCEPTED_LO, .XL_HITS_LO, .CF_COMMANDS_LO,
   .CF_CAP_COUNT_LO, .SC_GRP_ENGINE_LO, .SC_GRP_GRANTS_LO, .SC_GRP_FLITS_LO, .SC_GRP_DMA_LO, .RL_ECC_CORR_LO, .RL_LOG_COUNT_LO,
   .TR_LATCH_LO].contains r

/-- What instance `i` of a register reads as (R8, R10, Table 0-5): a view of a block's state, or the stored value; a WO register
reads 0. -/
def State.regRead (s : State) (r : Reg) (i : Nat) : Word :=
  if r.spec.acc = .wo then 0#32
  else if r.isWide then (s.wideView r i).setWidth 32
  else
    match s.readSecurity r with
    | some v => BitVec.ofNat 32 v
    | none =>
    match s.readStack r i with
    | some v => BitVec.ofNat 32 v
    | none =>
    match s.readWing r i with
    | some v => BitVec.ofNat 32 v
    | none =>
    match s.readArray r i with
    | some v => BitVec.ofNat 32 v
    | none =>
    match s.readFabric r i with
    | some v => BitVec.ofNat 32 v
    | none =>
    match s.readHost r i with
    | some v => BitVec.ofNat 32 v
    | none =>
    match s.readRest r with
    | some v => BitVec.ofNat 32 v
    | none => s.io.reg r i

/-- Whether the places that answer while the device is SHUTTERED hold an offset: the identity and boot window, and the power and
porch block (R432). The DB_SQ words have a command of their own. -/
def staysOpen (off : Nat) : Bool := decide (off < 0x10000) || (decide (0x180000 ≤ off) && decide (off < 0x1C0000))

/-- What an aligned 32-bit word of BAR0 reads as, but for the latching of R63: an offset without a register reads 0 (R9). -/
def State.barRead (s : State) (off : Nat) : Word :=
  if s.barGone || (s.barShut && !staysOpen off) || off % 4 != 0 then 0#32
  else if 0x1000000 ≤ off ∧ off < 0x1200000 then
    BitVec.ofNat 32 (s.host.region ((off - 0x1000000) / 32) ((off - 0x1000000) / 4 % 8))
  else if 0x48000 ≤ off ∧ off < 0x50000 then SMap.get msixDflt s.io.msixTab ((off - 0x48000) / 4)
  else if 0x50000 ≤ off ∧ off < 0x50100 then
    BitVec.ofNat 32 (((List.range 32).map (fun b => fieldIf (SMap.get (fun _ => false) s.io.pba (8 * (off - 0x50000) + b)) b)).sum)
  else if 0x201000 ≤ off ∧ off < 0x203000 then
    if (s.plan.instantOf 6).isNone then 0#32
    else BitVec.ofNat 32 (u32 (s.ram.read (telemAddr ((off - 0x201000) / 4096) (off % 4096)) 4) 0)
  else match findReg off with
    | some (r, i) => s.regRead r i
    | none => 0#32

/-! ### REGISTER_WRITE (R10, Table 0-5) -/

/-- Registers whose writes have commands of their own, although they can be read back. -/
def Reg.ownWrite (r : Reg) : Bool :=
  [Reg.FP_LEN, .FP_DRAIN_STACKS, .FP_DRAIN_ARRAYS_LO, .FP_DRAIN_ARRAYS_HI, .FP_DRAIN_PORTS_LO, .FP_DRAIN_PORTS_HI,
   .XL_AS_ROOT_LO, .XL_AS_ROOT_HI, .XL_AS_CTRL, .XL_RING_HEAD, .XL_CW_COUNT].contains r

/-- Change the selected access-counter window (R351). -/
def State.setWindow (s : State) (f : Window → Window) : State :=
  let w := s.io.val .XL_CW_SEL % 16
  { s with xl := { s.xl with windows := s.xl.windows.put w (f ((s.xl.windows.at w).getD ⟨0, false, 0, 0⟩)) } }

/-- The bits that writing 1 clears: a record's VALID bit alone where its other bits are what it recorded. -/
def clearMask (r : Reg) (v : Word) : Word :=
  match r with
  | .HC_LB_REJ_LOG0 | .HC_LB_ENTRY_ERR => v &&& 0x80000000#32
  | _ => v &&& r.spec.mask

/-- A write of an RW register. -/
def State.store (s : State) (r : Reg) (i : Nat) (v : Word) : State :=
  let v := v &&& r.spec.mask
  match r with
  | .XL_RING_CTRL => if v.getLsbD 0 then s else s.mapIo (fun io => io.put .XL_RING_CTRL 0 0#32)
  | .XL_CW_AS => s.setWindow (fun w => { w with as := v.toNat % 256, on := v.getLsbD 8 })
  | .XL_CW_BASE_LO => s.setWindow (fun w => { w with base := w.base / 2 ^ 32 * 2 ^ 32 + v.toNat })
  | .XL_CW_BASE_HI => s.setWindow (fun w => { w with base := w.base % 2 ^ 32 + v.toNat * 2 ^ 32 })
  | _ => s.mapIo (fun io => io.put r i v)

/-- Whether a register is one of a queue's that the plan in force does not define (R353). -/
def State.noQueue (s : State) (r : Reg) (i : Nat) : Bool :=
  (r.spec.addr / 0x400000 == 5) && (s.plan.queue i).isNone

/-- A write of one register by its access code (Table 0-5). -/
def State.regWrite (s : State) (r : Reg) (i : Nat) (v : Word) : State :=
  if r.ownWrite || s.noQueue r i then s
  else match r.spec.acc with
    | .ro | .wo => s
    | .rw => s.store r i v
    | .w1c => s.mapIo (fun io => io.put r i (io.reg r i &&& ~~~(clearMask r v)))

/-- A write of one aligned 32-bit word of BAR0: registers, the letterbox region table, the MSI-X table and the key-record window.
What has a command of its own, and what no register holds, it leaves alone (R9). -/
def State.barWrite (s : State) (off : Nat) (v : Word) : State :=
  if s.barShut && !staysOpen off then s
  else if 0x1000000 ≤ off ∧ off < 0x1200000 then
    let d := (off - 0x1000000) / 4 % 8
    if d = 0 then s else s.regionOther ((off - 0x1000000) / 32) d v
  else if 0x48000 ≤ off ∧ off < 0x50000 then
    let k := (off - 0x48000) / 4
    if k % 4 = 3 then (if v.getLsbD 0 then s.mapIo (fun io => io.msixPut k 1#32) else s)
    else s.mapIo (fun io => io.msixPut k v)
  else if 0x1C0100 ≤ off ∧ off < 0x1C0210 then
    { s with ram := s.ram.poke (keyrecAddr (off - 0x1C0100)) (bytesOf v.toNat 4) }
  else match findReg off with
    | some (r, i) => s.regWrite r i v
    | none => s

/-- REGISTER_WRITE (R10, R313): a BAR0 write of 4 or 8 bytes, naturally aligned; any other is discarded. An 8-byte write is its
two words in address order. -/
def execRegisterWrite (addr : BitVec 25) (wide : Bool) (v : BitVec 64) (s : State) : Result :=
  let off := addr.toNat
  if s.barGone = true ∨ s.se.result = 3 then ignored s
  else if wide then
    if off % 8 = 0 then .next ((s.barWrite off (v.setWidth 32)).barWrite (off + 4) ((v >>> 32).setWidth 32)) else ignored s
  else if off % 4 = 0 then .next (s.barWrite off (v.setWidth 32)) else ignored s

/-- WAKE_N (R433, the pin table): asserted while the function is in D3hot and an enabled PW_EVENT bit is set. -/
def State.wakePin (s : State) : Bool := s.host.d3 && (s.io.reg .PW_EVENT &&& s.io.reg .PW_EVENT_EN) != 0#32

end Sys2Proof.Machine
end

