-- ==== Sys2Proof/Machine/Clock.lean ====
section
/-! DEFINITION. Machine/Clock.lean: what one mt does when no command waits (log entry 10): the count advances, the ports fill
their flit times (R259, R262, R263), the FEC counters advance (R255), and the governors count the accesses that
wait and those they grant (R108, R396). -/

namespace Sys2Proof.Machine

/-- Whether a cycle of `num / den` to the mt ends in the mt that brings the clock to `now`. -/
def beats (num den now : Nat) : Bool := decide ((now - 1) * num / den < now * num / den)

/-- Whether a port's flit time ends in this mt: 1.28 mt with eight lanes, 2.56 mt with four (R255, R264). -/
def Port.flitTime (x : Port) (now : Nat) : Bool := if x.st = .degraded then beats 25 64 now else beats 25 32 now

/-- The FB_CREDIT_STALL counter of a class. -/
def creditStall (c : Nat) : Reg :=
  match c with
  | 0 => .FB_CREDIT_STALL0 | 1 => .FB_CREDIT_STALL1 | 2 => .FB_CREDIT_STALL2 | _ => .FB_CREDIT_STALL3

/-- The FEC counters of a receiving port: how many of the codewords that end in a flit time were corrected and how many could
not be is the link's, a free value of at most one a lane (R255; log entry 188). -/
def State.fecTime (s : State) (p : Nat) : State :=
  (s.mapIo (fun io => (io.addWide .FB_FEC_CORR_LO p (s.draw % 9)).add .FB_FEC_UNCORR p (Config.freeValue (s.free + 1) % 9))).drew 2

/-- A flit time of a port: each class with a flit waiting and no credit counts a stall (R263), and where credit is owed an IDLE
returns it (R259, R262). An IDLE that would return none is not listed (log entry 173). -/
def State.portTime (s : State) (p : Nat) : State :=
  let x := s.port p
  if x.sends && x.flitTime s.mer.now then
    let s := s.fecTime p
    let s := ([0, 1, 2, 3] : List Nat).foldl (fun (s : State) c =>
      if x.waiting.any (fun t => t.flit.cls == c) && x.credits.getD c 0 == 0 then s.mapIo (fun io => io.inc (creditStall c) p) else s) s
    if x.nextCredit.isSome then s.sendLink p 0 [] else s
  else s

/-- A room-clock cycle of a stack's governor: whether an access waits for a grant is decided by cycles, which the model does not
have, so it is a free value (R108; log entry 174). -/
def State.govTime (s : State) (st : Nat) : State :=
  (s.mapIo (fun io => io.add .ST_GOV_STALLS st (s.draw % 2))).drew 1

/-- The grants that a share group's work received in a room-clock cycle (R396): the cycles decide them within the most that
`n` governors grant (R108), so they are a free value (log entry 188). -/
def State.grantTime (n : Nat) (s : State) (g : Nat) : State :=
  (s.mapIo (fun io => io.addWide .SC_GRP_GRANTS_LO g (s.draw % (488 * n + 1)))).drew 1

/-- A room-clock cycle of all governors. -/
def State.rcTime (s : State) : State :=
  match s.serving with
  | [] => s
  | l => (List.range 64).foldl (State.grantTime l.length) (l.foldl State.govTime s)

/-- One mt passes for the whole module; a room-clock cycle is 2.5 mt. -/
def State.clock (s : State) : State :=
  let s := s.tick
  let s := if beats 2 5 s.mer.now then s.rcTime else s
  (s.fab.ports.map (·.1)).foldl State.portTime s

end Sys2Proof.Machine
end

