-- ==== Sys2Proof/Machine/RoomIns.lean ====
section
/-! DEFINITION. Machine/RoomIns.lean: the scalar, vector, scratch and store instructions of a room core (R119 to R123,
R134, R137, Tables 6-5, 6-6 and 6-8). -/

namespace Sys2Proof.Machine

/-- ILLEGAL (R119): the fetched word is none that Table 6-5 assigns, or has a Reserved bit set; or the fetch is of word
12,288 or above, which takes PC_RANGE. -/
def execIllegal (r : Fin 1048576) (s : State) : Result :=
  match s.rooms.cores.at r with
  | some c =>
    if c.wait = .run ∧ c.cancelled = false ∧ s.limitRc c < s.callLimit (r.val / 65536) then
      if 12288 ≤ c.pc then .next (s.endCall r c (codeStatus 2) (some 2))
      else if wordOk (s.progWord r c.pc) then ignored s
      else .next (s.endCall r c (codeStatus 1) (some 1))
    else ignored s
  | none => ignored s

/-! ### Scalar instructions (R121) -/

/-- A register instruction: d from a and b. -/
def State.alu (s : State) (r op : Nat) (g : Word → Word → Word) : Result :=
  s.runRoom r op anyWord (fun c w => .next (c.setReg (iD w) (g (c.reg (iA w)) (c.reg (iB w)))) 1)

/-- NOP. -/
def execNop (r : Fin 1048576) (s : State) : Result := s.runRoom r 0x01 anyWord (fun c _ => .next c 1)
/-- ADD wraps modulo 2^32. -/
def execAdd (r : Fin 1048576) (s : State) : Result := s.alu r 0x02 (fun a b => a + b)
/-- SUB wraps modulo 2^32. -/
def execSub (r : Fin 1048576) (s : State) : Result := s.alu r 0x03 (fun a b => a - b)
/-- AND. -/
def execAnd (r : Fin 1048576) (s : State) : Result := s.alu r 0x04 (fun a b => a &&& b)
/-- OR. -/
def execOr (r : Fin 1048576) (s : State) : Result := s.alu r 0x05 (fun a b => a ||| b)
/-- XOR. -/
def execXor (r : Fin 1048576) (s : State) : Result := s.alu r 0x06 (fun a b => a ^^^ b)
/-- MUL: the low 32 bits. -/
def execMul (r : Fin 1048576) (s : State) : Result := s.alu r 0x0A (fun a b => a * b)

/-- The amount of a shift: f[4:0] where f[13] = 1, else b modulo 32 (R121). -/
def shiftAmount (c : Core) (w : Nat) : Nat := if bit (iF w) 13 then iF w % 32 else c.num (iB w) % 32

/-- SHL. -/
def execShl (r : Fin 1048576) (s : State) : Result :=
  s.runRoom r 0x07 anyWord (fun c w => .next (c.setReg (iD w) (c.reg (iA w) <<< shiftAmount c w)) 1)
/-- SHR: logical. -/
def execShr (r : Fin 1048576) (s : State) : Result :=
  s.runRoom r 0x08 anyWord (fun c w => .next (c.setReg (iD w) (c.reg (iA w) >>> shiftAmount c w)) 1)
/-- SRA: arithmetic. -/
def execSra (r : Fin 1048576) (s : State) : Result :=
  s.runRoom r 0x09 anyWord (fun c w => .next (c.setReg (iD w) ((c.reg (iA w)).sshiftRight (shiftAmount c w))) 1)

/-- SLT: signed, or unsigned when f[0] = 1. -/
def execSlt (r : Fin 1048576) (s : State) : Result :=
  s.runRoom r 0x0B anyWord (fun c w =>
    let a := c.reg (iA w)
    let b := c.reg (iB w)
    let lt := if bit (iF w) 0 then a.ult b else a.slt b
    .next (c.setReg (iD w) (if lt then 1#32 else 0#32)) 1)

/-- ADDI wraps modulo 2^32. -/
def execAddi (r : Fin 1048576) (s : State) : Result :=
  s.runRoom r 0x0C anyWord (fun c w => .next (c.setReg (iD w) (c.reg (iA w) + BitVec.ofInt 32 (iImm w))) 1)

/-- LUI: the unsigned 22-bit immediate shifted left by 10. -/
def execLui (r : Fin 1048576) (s : State) : Result :=
  s.runRoom r 0x0D anyWord (fun c w => .next (c.setReg (iD w) (BitVec.ofNat 32 (w % 2 ^ 22 * 1024))) 1)

/-! ### Branches and jumps (R119) -/

/-- A branch on its two registers, a in bits [25:22] and b in [21:18] (Table 6-4). -/
def State.branch (s : State) (r op : Nat) (p : Word → Word → Bool) : Result :=
  s.runRoom r op anyWord (fun c w =>
    if p (c.reg (iD w)) (c.reg (iA w)) then jump c ((c.pc : Int) + iImm w) 2 else .next c 1)

/-- BEQ. -/
def execBeq (r : Fin 1048576) (s : State) : Result := s.branch r 0x0E (fun a b => a == b)
/-- BNE. -/
def execBne (r : Fin 1048576) (s : State) : Result := s.branch r 0x0F (fun a b => a != b)
/-- BLT: signed. -/
def execBlt (r : Fin 1048576) (s : State) : Result := s.branch r 0x10 (fun a b => a.slt b)
/-- BGE: signed. -/
def execBge (r : Fin 1048576) (s : State) : Result := s.branch r 0x11 (fun a b => !a.slt b)

/-- JAL: d takes the word after this one. -/
def execJal (r : Fin 1048576) (s : State) : Result :=
  s.runRoom r 0x12 anyWord (fun c w =>
    jump (c.setReg (iD w) (BitVec.ofNat 32 (c.pc + 1))) ((c.pc : Int) + iImm22 w) 2)

/-- JR: to a + imm, computed without wrapping. -/
def execJr (r : Fin 1048576) (s : State) : Result :=
  s.runRoom r 0x13 anyWord (fun c w => jump c ((c.num (iA w) : Int) + iImm w) 2)

/-- LOOP: a := a − 1, and a branch while the difference is not 0. A target outside the code area takes PC_RANGE either
way. -/
def execLoop (r : Fin 1048576) (s : State) : Result :=
  s.runRoom r 0x14 anyWord (fun c w =>
    let x := c.reg (iD w) - 1#32
    let t := (c.pc : Int) + iImm w
    if t < 0 ∨ 12287 < t then roomFault 2
    else if x = 0#32 then .next (c.setReg (iD w) x) 1
    else jump (c.setReg (iD w) x) t 2)

/-! ### Scratch and the program store (R114, R115) -/

/-- The address a + imm, modulo 2^32. -/
def memAddr (c : Core) (w : Nat) : Nat := (c.reg (iA w) + BitVec.ofInt 32 (iImm w)).toNat

/-- A scratch access of `n` bytes: SCRATCH where it is misaligned or outside scratch. -/
def scratchAt (a n align : Nat) (k : RoomEff) : RoomEff :=
  if a % align ≠ 0 ∨ 2048 < a + n then roomFault 3 else k

/-- LDS. -/
def execLds (r : Fin 1048576) (s : State) : Result :=
  s.runRoom r 0x15 anyWord (fun c w =>
    let a := memAddr c w
    scratchAt a 4 4 (let c := c.race s.free a 4 false; .next (c.setReg (iD w) (c.word a)) 1))

/-- STS. -/
def execSts (r : Fin 1048576) (s : State) : Result :=
  s.runRoom r 0x16 anyWord (fun c w =>
    let a := memAddr c w
    scratchAt a 4 4 (.next ((c.race s.free a 4 true).poke a (bytesOf (c.num (iD w)) 4)) 1))

/-- LDSV. -/
def execLdsv (r : Fin 1048576) (s : State) : Result :=
  s.runRoom r 0x17 anyWord (fun c w =>
    let a := memAddr c w
    scratchAt a 16 16 (let c := c.race s.free a 16 false; .next (c.setVec (iD w) (BitVec.ofNat 128 (le (c.peek a 16) 0 16))) 1))

/-- STSV. -/
def execStsv (r : Fin 1048576) (s : State) : Result :=
  s.runRoom r 0x18 anyWord (fun c w =>
    let a := memAddr c w
    scratchAt a 16 16 (.next ((c.race s.free a 16 true).poke a (bytesOf (c.vec (iD w)).toNat 16)) 1))

/-- Bytes of a room's program store. -/
def State.storeBytes (s : State) (r a n : Nat) : List Byte := s.ram.read (progAddr (r / 65536) (r / 1024 % 64) a) n

/-- LDC: STORE where misaligned or reaching byte 65,536. -/
def execLdc (r : Fin 1048576) (s : State) : Result :=
  s.runRoom r 0x19 anyWord (fun c w =>
    let a := memAddr c w
    if a % 4 ≠ 0 ∨ 65536 < a + 4 then roomFault 4
    else .next (c.setReg (iD w) (BitVec.ofNat 32 (le (s.storeBytes r a 4) 0 4))) 2)

/-- LDCV. -/
def execLdcv (r : Fin 1048576) (s : State) : Result :=
  s.runRoom r 0x1A anyWord (fun c w =>
    let a := memAddr c w
    if a % 16 ≠ 0 ∨ 65536 < a + 16 then roomFault 4
    else .next (c.setVec (iD w) (BitVec.ofNat 128 (le (s.storeBytes r a 16) 0 16))) 2)

/-! ### FOP (Table 6-6, R122) -/

/-- A FOP function of a and b at its cost. -/
def State.fop (s : State) (r f cost : Nat) (g : Word → Word → Word) : Result :=
  s.runRoom r 0x1B (fun w => iF w == f) (fun c w => .next (c.setReg (iD w) (g (c.reg (iA w)) (c.reg (iB w)))) cost)

/-- FADD. -/
def execFadd (r : Fin 1048576) (s : State) : Result := s.fop r 0 1 f32add
/-- FSUB. -/
def execFsub (r : Fin 1048576) (s : State) : Result := s.fop r 1 1 f32sub
/-- FMUL. -/
def execFmul (r : Fin 1048576) (s : State) : Result := s.fop r 2 1 f32mul
/-- FDIV: division by zero gives the IEEE 754 result. -/
def execFdiv (r : Fin 1048576) (s : State) : Result := s.fop r 3 8 f32div
/-- FSQRT. -/
def execFsqrt (r : Fin 1048576) (s : State) : Result := s.fop r 4 8 (fun a _ => f32sqrt a)
/-- 1 / sqrt of a within 1 ulp (log entry 41). -/
def roomRsqrt (a : Word) : Word := if a = 0x80000000#32 then 0xFF800000#32 else within 1 9 a (f32rsqrtExact a)
/-- FRSQ. -/
def execFrsq (r : Fin 1048576) (s : State) : Result := s.fop r 5 4 (fun a _ => roomRsqrt a)
/-- FMIN. -/
def execFmin (r : Fin 1048576) (s : State) : Result := s.fop r 6 1 f32min
/-- FMAX. -/
def execFmax (r : Fin 1048576) (s : State) : Result := s.fop r 7 1 f32max
/-- ITOF. -/
def execItof (r : Fin 1048576) (s : State) : Result := s.fop r 8 1 (fun a _ => int32toF32 .rne a)
/-- FTOI, with the saturation of R86. -/
def execFtoi (r : Fin 1048576) (s : State) : Result := s.fop r 9 1 (fun a _ => f32toInt32 .rne a)
/-- FLT: 0 where either operand is a NaN. -/
def execFlt (r : Fin 1048576) (s : State) : Result := s.fop r 10 1 (fun a b => if f32lt a b then 1#32 else 0#32)

/-! ### Vector instructions (R123, Table 6-1) -/

/-- Bits of a lane. -/
def laneBits (lt : Nat) : Nat := if lt = 1 then 16 else 32
/-- The lanes of a vector register, as bit patterns. -/
def lanesOf (x : BitVec 128) (lt : Nat) : List Nat :=
  (List.range (128 / laneBits lt)).map (fun i => x.toNat / 2 ^ (laneBits lt * i) % 2 ^ laneBits lt)
/-- A vector register of lanes. -/
def ofLanes (lt : Nat) (ls : List Nat) : BitVec 128 :=
  BitVec.ofNat 128 (ls.zipIdx.foldl (fun (a : Nat) (p : Nat × Nat) => a + p.1 % 2 ^ laneBits lt * 2 ^ (laneBits lt * p.2)) 0)
/-- The format of a floating-point lane. -/
def laneFp (lt : Nat) : Fp := if lt = 1 then .bf16 else .fp32

/-- A lanewise operation with its meaning on values, rounded once, and on 32-bit integers (R123; log entry 53). -/
def laneOp (lt : Nat) (fl : Val → Val → Val → Val) (ig : Word → Word → Word → Word) (x y z : Nat) : Nat :=
  if lt = 2 then (ig (BitVec.ofNat 32 x) (BitVec.ofNat 32 y) (BitVec.ofNat 32 z)).toNat
  else (laneFp lt).encode .rne (fl ((laneFp lt).decode x) ((laneFp lt).decode y) ((laneFp lt).decode z))

/-- A lanewise instruction: va, vb and vd to vd; a Reserved lane type takes FORMAT. -/
def State.vop (s : State) (r op : Nat) (fl : Val → Val → Val → Val) (ig : Word → Word → Word → Word) : Result :=
  s.runRoom r op anyWord (fun c w =>
    let lt := iLt w
    if 2 < lt then roomFault 11
    else
      let a := lanesOf (c.vec (iVa w)) lt
      let b := lanesOf (c.vec (iVb w)) lt
      let d := lanesOf (c.vec (iVd w)) lt
      .next (c.setVec (iVd w) (ofLanes lt ((List.range a.length).map (fun i =>
        laneOp lt fl ig (a.getD i 0) (b.getD i 0) (d.getD i 0))))) 1)

/-- The greater of two values under R122. -/
def Val.max (x y : Val) : Val := if x.isNan then x else if y.isNan then y else if x.lt y then y else x

/-- VADD. -/
def execVadd (r : Fin 1048576) (s : State) : Result := s.vop r 0x1C (fun x y _ => x.add y) (fun x y _ => x + y)
/-- VMUL. -/
def execVmul (r : Fin 1048576) (s : State) : Result := s.vop r 0x1D (fun x y _ => x.mul y) (fun x y _ => x * y)
/-- VFMA: vd + va × vb, fused. -/
def execVfma (r : Fin 1048576) (s : State) : Result := s.vop r 0x1E (fun x y z => x.fma y z) (fun x y z => z + x * y)
/-- VMAX. -/
def execVmax (r : Fin 1048576) (s : State) : Result :=
  s.vop r 0x1F (fun x y _ => x.max y) (fun x y _ => if x.slt y then y else x)

/-- One lane converted (R84, R86, R123). -/
def cvtLane (lt dst : Nat) (mode : Rnd) (x : Nat) : Nat :=
  if lt = 2 ∧ dst = 2 then x
  else
    let v := if lt = 2 then intVal (BitVec.ofNat 32 x).toInt else (laneFp lt).decode x
    if dst = 2 then (BitVec.ofInt 32 (v.toInt mode (-2147483648) 2147483647)).toNat else (laneFp dst).encode mode v

/-- The rounding of element `i` of a conversion: RNE, or the generator's draw for it (R134). -/
def Core.rnd (c : Core) (stoch : Bool) (i : Nat) : Rnd :=
  if stoch then .stoch (draw16 (genDraw c.key c.row ((c.ctr + i) % 2 ^ 32))) else .rne

/-- The generator with its counter advanced. -/
def Core.drawn (c : Core) (n : Nat) : Core := { c with ctr := (c.ctr + n) % 2 ^ 32 }

/-- VCVT (R123): four lanes where one of the two types is BF16, placed or read by f[3]; each advances the counter under
stochastic rounding. -/
def execVcvt (r : Fin 1048576) (s : State) : Result :=
  s.runRoom r 0x20 anyWord (fun c w =>
    let lt := iLt w
    let dst := iF w % 8
    let stoch := bit (iF w) 4
    let half := if bit (iF w) 3 then 4 else 0
    if 2 < lt ∨ 2 < dst then roomFault 11
    else
      let src := lanesOf (c.vec (iVa w)) lt
      let src := if lt = 1 ∧ dst ≠ 1 then (src.drop half).take 4 else src
      let out := src.zipIdx.map (fun (p : Nat × Nat) => cvtLane lt dst (c.rnd stoch p.2) p.1)
      let out := if dst = 1 ∧ lt ≠ 1 then
        let old := lanesOf (c.vec (iVd w)) 1
        old.take half ++ out ++ old.drop (half + 4)
        else out
      .next ((c.setVec (iVd w) (ofLanes dst out)).drawn (if stoch then src.length else 0)) 1)

/-- VSPLAT: the bit pattern of a in every lane. -/
def execVsplat (r : Fin 1048576) (s : State) : Result :=
  s.runRoom r 0x21 anyWord (fun c w =>
    let lt := iF w % 8
    if 2 < lt then roomFault 11
    else .next (c.setVec (iD w % 8) (ofLanes lt (List.replicate (128 / laneBits lt) (c.num (iA w))))) 1)

/-- VSUM: the lanes in a fixed tree; INT32 takes FORMAT. -/
def execVsum (r : Fin 1048576) (s : State) : Result :=
  s.runRoom r 0x22 anyWord (fun c w =>
    let lt := iF w % 8
    if 1 < lt then roomFault 11
    else
      let ls := (lanesOf (c.vec (iA w % 8)) lt).map (fun (x : Nat) => vf ((laneFp lt).decode x))
      .next (c.setReg (iD w) (treeSum (if lt = 1 then 3 else 2) ls)) 2)

/-- VMOV with f[13] = 0: a 32-bit lane to d. -/
def execVmovGet (r : Fin 1048576) (s : State) : Result :=
  s.runRoom r 0x23 (fun w => !bit (iF w) 13) (fun c w =>
    .next (c.setReg (iD w) (BitVec.ofNat 32 ((lanesOf (c.vec (iA w % 8)) 0).getD (iF w % 4) 0))) 1)

/-- VMOV with f[13] = 1: a to a 32-bit lane. -/
def execVmovPut (r : Fin 1048576) (s : State) : Result :=
  s.runRoom r 0x23 (fun w => bit (iF w) 13) (fun c w =>
    .next (c.setVec (iD w % 8) (ofLanes 0 ((lanesOf (c.vec (iD w % 8)) 0).set (iF w % 4) (c.num (iA w))))) 1)

/-! ### The generator (R134) -/

/-- RSEED: table a[11:0], row b, step d, stream f[3:0]. -/
def execRseed (r : Fin 1048576) (s : State) : Result :=
  s.runRoom r 0x2B anyWord (fun c w =>
    .next { c with key := genKey (c.num (iD w)) (c.num (iA w) % 4096) (iF w % 16), row := c.num (iB w), ctr := 0 } 2)

/-- RAND: z[63:32]. -/
def execRand (r : Fin 1048576) (s : State) : Result :=
  s.runRoom r 0x2C anyWord (fun c w =>
    .next ((c.setReg (iD w) ((genDraw c.key c.row c.ctr >>> 32).setWidth 32)).drawn 1) 4)

/-! ### Events and the end (R124, R137, R138) -/

/-- A core begins to wait: a wait that is already over goes on at once. -/
def State.await (s : State) (r op : Nat) (f : Core → Nat → RoomWait) : Result :=
  s.runRoom r op anyWord (fun c w => .whole (s.wake r { c with wait := f c w }))

/-- WAIT for any, or for all, of the events of imm[7:0]. -/
def execWait (r : Fin 1048576) (s : State) : Result := s.await r 0x2F (fun _ w => .events (w % 256) (bit w 8))
/-- FENCE. -/
def execFence (r : Fin 1048576) (s : State) : Result := s.await r 0x31 (fun _ _ => .fence)
/-- END with the status a[7:0]. -/
def execEndCall (r : Fin 1048576) (s : State) : Result := s.await r 0x33 (fun c w => .endOf (endStatus (c.num (iA w) % 256)))

/-- EVT reads the event register and clears the bits of imm[7:0]. -/
def execEvt (r : Fin 1048576) (s : State) : Result :=
  s.runRoom r 0x30 anyWord (fun c w =>
    .next ({ c with events := c.events &&& (255 - w % 64) }.setReg (iD w) (BitVec.ofNat 32 c.events)) 1)

/-- TRAP: the status imm[7:0], or INVALID_COMMAND for a reserved code. -/
def execTrap (r : Fin 1048576) (s : State) : Result :=
  s.runRoom r 0x34 anyWord (fun _ w => .fault 10 (endStatus (w % 256)))

/-- A GETS value (Table 6-8). -/
def State.special (s : State) (c : Core) (i : Nat) : Nat :=
  let w := (s.plan.wingOf c.home).getD []
  match i with
  | 0 => c.ident
  | 1 => wOwner w % 4096
  | 2 => wRooms w
  | 3 => roomIndex ((s.plan.wingOf c.ident).getD []) c.ident
  | 4 => (s.shard (wId w)).step
  | 5 => s.rcOf c
  | 6 => s.mer.count
  | 7 => c.call.cls * 65536 + c.call.tag
  | _ => c.ppos

/-- GETS: values 5 and 6 void the sample the call belongs to (R408). -/
def execGets (r : Fin 1048576) (s : State) : Result :=
  s.runRoom r 0x32 anyWord (fun c w =>
    let i := w % 16
    let c' := c.setReg (iD w) (BitVec.ofNat 32 (s.special c i))
    if i = 5 ∨ i = 6 then .whole (s.voidSample r { c' with pc := c.pc + 1, rc := c.rc + 1 }) else .next c' 1)

end Sys2Proof.Machine
end

