-- ==== Sys2Proof/Machine/RoomRow.lean ====
section
/-! DEFINITION. Machine/RoomRow.lean: the DRAM, record and message instructions of a room core (R124 to R133, R136). -/

namespace Sys2Proof.Machine

/-- A DRAM access of a call under its channel (R98, R100): it stalls while the channel retrains. -/
def State.dramGate (s : State) (c : Core) (k : RoomEff) : RoomEff :=
  match s.roomChan c.home with
  | .ready => k
  | .failed => roomFault 8
  | _ => .stall

/-- A row instruction's failed check, in the error log: an uncorrectable word, or a row check (R404, Table 17-7). -/
def State.logRow (s : State) (room : Nat) (unc : Bool) : State :=
  if unc then ({ s with io := s.io.inc .RL_UNCORR }).logError 1 stCheck room else s.logError 3 stCheck room

/-! ### RFETCH and RPUT (R124, R126) -/

/-- What RFETCH and RPUT of the same operands check first: ROOM_RANGE, SCRATCH, and the slot (R124). Where the slot was busy
the wait for it is part of the rc (R139). -/
def moveChecks (c : Core) (w : Nat) (k : Core → RoomEff) : RoomEff :=
  let o := c.num (iD w)
  let a := c.num (iA w)
  let n := c.num (iB w)
  let g := if bit (iF w) 2 then 256 else 64
  if o % g ≠ 0 ∨ n % g ≠ 0 ∨ n < 64 ∨ 2048 < n ∨ 1048576 < o + n then roomFault 5
  else if a % 16 ≠ 0 ∨ 2048 < a + n then roomFault 3
  else
    match c.slots.at (iF w % 4) with
    | some op => if op.known && op.fail then roomFault 7 else .stall
    | none => k { c with rc := max c.rc (c.evAt.getD (iF w % 4) 0) }

/-- RFETCH: the data is what DRAM holds at issue (R124); it reaches scratch later. -/
def execRfetch (r : Fin 1048576) (s : State) : Result :=
  s.runRoom r 0x24 anyWord (fun c w =>
    moveChecks c w (fun c => s.dramGate c (
      let o := c.num (iD w)
      let a := c.num (iA w)
      let n := c.num (iB w)
      let slot := iF w % 4
      let bcv := bit (iF w) 2
      let fail := !s.dramEcc c o n || (bcv && !s.dramBcv c o n)
      let at' := c.rc + 16 + 16 * (n / 64 - 1) + s.rowCost r c o
      let c' := (c.race s.free a n true).clearEvent slot at'
      let c' := { c' with slots := c'.slots.put slot ⟨false, a, o, s.dram c o n, bcv, fail, false, []⟩, pc := c.pc + 1, rc := c.rc + 1 }
      .whole (((s.drew (if c.racy then 128 else 0)).opened c.home o n).setCore r c'))))

/-- RPUT: DRAM takes the data in issue order (R124). -/
def execRput (r : Fin 1048576) (s : State) : Result :=
  s.runRoom r 0x25 anyWord (fun c w =>
    moveChecks c w (fun c => s.dramGate c (
      let o := c.num (iD w)
      let a := c.num (iA w)
      let n := c.num (iB w)
      let slot := iF w % 4
      let bcv := bit (iF w) 2
      let at' := c.rc + 16 * (n / 64) + s.rowCost r c o
      let c' := (c.race s.free a n false).clearEvent slot at'
      let data := c'.peek a n
      let c' := { c' with slots := c'.slots.put slot ⟨true, a, o, data, bcv, false, false, []⟩, pc := c.pc + 1, rc := c.rc + 1 }
      .whole (((s.drew (if c.racy then 128 else 0)).opened c.home o n).dramWrite r c' bcv o data))))

/-- The event of an operation's completion is entered in its core. -/
def Core.doneSlot (c : Core) (slot : Nat) : Core := { c with slots := c.slots.del slot }.setEvent slot

/-- RFETCH_DONE (R124, R126): the data lands, except in lines touched meanwhile, which hold old or new content; a failed
check writes undefined bytes instead and sets no event. -/
def execRfetchDone (r : Fin 1048576) (slot : Fin 4) (s : State) : Result :=
  match s.rooms.cores.at r with
  | none => ignored s
  | some c =>
    match c.slots.at slot with
    | none => ignored s
    | some op =>
      if op.put || op.known then ignored s
      else if op.fail then
        let c := c.poke op.scratch (freeBytes s.free op.data.length)
        let c := { c with slots := c.slots.put slot { op with known := true } }
        let bad := (List.range (op.data.length / 64)).find? (fun (i : Nat) => !s.ram.eccOk (roomDpa c.home (op.addr + 64 * i)) 64)
        let s := s.drew op.data.length
        let s := match bad with
          | some i => s.logCheck (roomDpa c.home (op.addr + 64 * i)) c.home
          | none =>
            match (List.range (op.data.length / 256)).find? (fun (i : Nat) => !s.ram.consumerOk (roomDpa c.home (op.addr + 256 * i)) 256) with
            | some i => s.logCheck (roomDpa c.home (op.addr + 256 * i)) c.home
            | none => s
        .next (s.wake r c)
      else
        let keep := op.raced.filter (fun l => Config.freeValue (s.free + l) % 2 = 1)
        let data := keep.foldl (fun d l =>
          d.take (16 * l - op.scratch) ++ c.peek (16 * l) 16 ++ d.drop (16 * l + 16 - op.scratch)) op.data
        let s := s.drew (if op.raced.isEmpty then 0 else 128)
        .next (s.wake r ((c.poke op.scratch data).doneSlot slot))

/-- A line that was touched while an RPUT was outstanding reaches DRAM as it is now (R126). -/
def State.lateLine (s : State) (r : Nat) (op : SlotOp) (l : Nat) : State :=
  match s.rooms.cores.at r with
  | some c => s.dramWrite r c op.bcv (op.addr + (16 * l - op.scratch)) (c.peek (16 * l) 16)
  | none => s

/-- A core whose event has come goes on if it waited for it. -/
def State.wakeRoom (s : State) (r : Nat) : State :=
  match s.rooms.cores.at r with | some c => s.wake r c | none => s

/-- RPUT_DONE (R124, R126): the event; a line of scratch written meanwhile may have carried its new content to DRAM. -/
def execRputDone (r : Fin 1048576) (slot : Fin 4) (s : State) : Result :=
  match s.rooms.cores.at r with
  | none => ignored s
  | some c =>
    match c.slots.at slot with
    | none => ignored s
    | some op =>
      if op.put then
        let late := op.raced.filter (fun l => Config.freeValue (s.free + l) % 2 = 1)
        let s := s.drew (if op.raced.isEmpty then 0 else 128)
        let c := c.doneSlot slot
        .next ((late.foldl (fun (s : State) l => s.lateLine r op l) (s.setCore r c)).wakeRoom r)
      else ignored s

/-! ### Records (R127 to R129) -/

/-- RCHECK: 0 in g(b) where the image passes, else 1. -/
def execRcheck (r : Fin 1048576) (s : State) : Result :=
  s.runRoom r 0x26 anyWord (fun c w =>
    let a := c.num (iD w)
    let n := c.num (iB w)
    if n % 64 ≠ 0 ∨ n < 64 ∨ 2048 < n then roomFault 11
    else if a % 16 ≠ 0 ∨ 2048 < a + n then roomFault 3
    else
      let c := c.race s.free a n false
      .next (c.setReg (iA w) (if rowCheckOk (c.peek a n) then 0#32 else 1#32)) (2 + n / 16))

/-- DQACC of one mode: `f` combines weight, decoded element and accumulator. -/
def State.dqacc (s : State) (r mode : Nat) (f : Word → Word → Word → Word) : Result :=
  s.runRoom r 0x27 (fun w => let m := iF w / 512 % 4; m == mode || (m == 3 && mode == 0)) (fun c w =>
    let o := c.num (iD w)
    let b := c.num (iA w)
    let sl := c.num (iB w)
    let fmt := iF w / 2048
    let j0 := sl % 1024
    let k := sl / 1024 % 256 + 1
    let d := sl / 2 ^ 18 % 2048
    let l := recLen fmt d
    if iF w / 512 % 4 = 3 ∨ sl / 2 ^ 29 ≠ 0 ∨ d < 16 ∨ 1024 < d ∨ d % 16 ≠ 0 ∨ d < j0 + k ∨ b % 16 ≠ 0 ∨ 2048 < b + 4 * k then
      roomFault 11
    else if o % 64 ≠ 0 ∨ 1048576 < o + l then roomFault 5
    else s.dramGate c (
      let rec' := s.dram c o l
      let cost := 16 + max (l / 4) ((k + 3) / 4) + s.rowCost r c o
      let s' := s.opened c.home o l
      if !s.dramEcc c o l then .whole ((s'.logRow c.home true).endCall r c stCheck (some 7))
      else if !rowCheckOk rec' then .whole ((s'.logRow c.home false).endCall r c stCheck (some 7))
      else
        let wt := c.reg (iF w / 32 % 16)
        let c' := c.race s.free b (4 * k) true
        let out := (List.range k).flatMap (fun m => bytesOf (f wt (recVal fmt d rec' (j0 + m)) (c'.word (b + 4 * m))).toNat 4)
        .whole ((s'.drew (if c.racy then 128 else 0)).setCore r { c'.poke b out with pc := c.pc + 1, rc := c.rc + cost })))

/-- DQACC, ASSIGN: w × x, rounded once. Mode 3 takes FORMAT here. -/
def execDqaccAssign (r : Fin 1048576) (s : State) : Result := s.dqacc r 0 (fun w x _ => f32mul w x)
/-- DQACC, ADD: acc + w × x, fused. -/
def execDqaccAdd (r : Fin 1048576) (s : State) : Result := s.dqacc r 1 (fun w x acc => f32fma w x acc)
/-- DQACC, MAX: the greater of acc and x under R122. -/
def execDqaccMax (r : Fin 1048576) (s : State) : Result := s.dqacc r 2 (fun _ x acc => f32max acc x)

/-- SCALE: each FP32 word times register a. -/
def execScale (r : Fin 1048576) (s : State) : Result :=
  s.runRoom r 0x28 anyWord (fun c w =>
    let b := c.num (iA w)
    let n := c.num (iB w)
    if b % 4 ≠ 0 ∨ 2048 < b + 4 * n then roomFault 3
    else
      let c' := c.race s.free b (4 * n) true
      let out := (List.range n).flatMap (fun i => bytesOf (f32mul (c.reg (iD w)) (c'.word (b + 4 * i))).toNat 4)
      .next (c'.poke b out) (2 + (n + 3) / 4))

/-- PACK (R129): overlapping ranges other than equal ones leave undefined values in the destination. -/
def execPack (r : Fin 1048576) (s : State) : Result :=
  s.runRoom r 0x29 anyWord (fun c w =>
    let a := c.num (iD w)
    let b := c.num (iA w)
    let n := c.num (iB w)
    let fmt := iF w / 2048
    let stoch := bit (iF w) 0
    let z := fmtBits fmt / 8
    if 3 < fmt then roomFault 11
    else if a % 4 ≠ 0 ∨ b % z ≠ 0 ∨ 2048 < a + 4 * n ∨ 2048 < b + z * n then roomFault 3
    else
      let c' := (c.race s.free a (4 * n) false).race s.free b (z * n) true
      let cost := 2 + (n + 3) / 4
      let out := (List.range n).flatMap (fun i => encodeElem fmt (c.rnd stoch i) (c'.word (a + 4 * i)))
      if a ≠ b ∧ a < b + z * n ∧ b < a + 4 * n then
        let key := [a, b, n, fmt, iF w % 2, c.key.toNat, c.row, c.ctr] ++ (c'.peek a (4 * n) ++ c'.peek b (z * n)).map BitVec.toNat
        .next ((c'.poke b ((List.range (z * n)).map (fun i => BitVec.ofNat 8 (Config.undefined key i)))).drawn
          (if stoch then n else 0)) cost
      else .next ((c'.poke b out).drawn (if stoch then n else 0)) cost)

/-! ### FUPD (R131, R132) -/

/-- The largest magnitude that FUPD writes in a format without block scale (R132). -/
def clampWord : Nat → Word
  | 1 => 0x7F7F0000#32 | 2 => 0x477FE000#32 | 3 => 0x43E00000#32 | 4 => 0x47600000#32 | _ => fp32max

/-- A finite value in place of one that is not: which one the spec does not state, an unknown function of what the
instruction reads (R132: FUPD writes no such value; R135; log entry 59). -/
def tame (key : List Nat) (i : Nat) (w : Word) : Word :=
  if f32fin w then w else BitVec.ofNat 32 (Config.undefined key i) &&& 0xFF7FFFFF#32

/-- Element `i` divided by the row scale, as FUPD encodes it (R132): INT8 converts under R86 whatever it is; a format without
block scale narrower than FP32 takes its largest value where the quotient passes it. -/
def quotient (fmt : Nat) (key : List Nat) (i : Nat) (scale w : Word) : Word :=
  let q := f32div w scale
  if fmt = 7 then q
  else if 1 ≤ fmt ∧ fmt ≤ 4 then
    f32min (f32max (if (fv q).isNan then tame key i q else q) (clampWord fmt ^^^ 0x80000000#32)) (clampWord fmt)
  else tame key i q

/-- The element area of a record from FP32 values (Table 7-6, R85). -/
def encodeArea (fmt : Nat) (mode : Nat → Rnd) (xs : List Word) : List Byte :=
  if fmtBlock fmt then
    let gs := (List.range (xs.length / 16)).map (fun g =>
      encodeGroup (fmt == 5) ((xs.drop (16 * g)).take 16) (fun i => mode (16 * g + i)))
    gs.flatMap (fun g => if fmt = 5 then g.2.map (fun (x : Nat) => BitVec.ofNat 8 x) else packNibbles g.2) ++
    gs.map (fun g => BitVec.ofNat 8 g.1)
  else xs.zipIdx.flatMap (fun (p : Word × Nat) => encodeElem fmt (if fmt = 0 then .rne else mode p.2) p.1)

/-- The parameters of an update (Table 6-7). -/
structure UpdParams where
  lr : Word
  beta2 : Word
  eps1 : Word
  eps2 : Word
  decay : Word
  clip : Word
  step : Nat
  dim : Nat
  norm : Nat
deriving DecidableEq, Repr

/-- A parameter block's fields. -/
def updParams (b : List Byte) : UpdParams :=
  ⟨BitVec.ofNat 32 (u32 b 0), BitVec.ofNat 32 (u32 b 4), BitVec.ofNat 32 (u32 b 8), BitVec.ofNat 32 (u32 b 12),
    BitVec.ofNat 32 (u32 b 16), BitVec.ofNat 32 (u32 b 20), u32 b 24, u16 b 28, u16 b 30⟩

/-- One element of an update: new value, with su and sq carried on (R132). -/
def updElem (p : UpdParams) (r : Word) (acc : Word × Word) (n g x : Word) : Word × Word × Word :=
  let v := f32mul r n
  let den := f32max (f32sqrt v) p.eps2
  let u := f32div g den
  let x := f32sub x (f32mul p.lr (f32add (f32mul p.clip u) (f32mul p.decay x)))
  (f32min (f32max x (fp32max ^^^ 0x80000000#32)) fp32max, f32fma u u acc.1, f32fma g g acc.2)

/-- All elements in order: new values, su, sq. -/
def updElems (p : UpdParams) (r : Word) : List (Word × Word × Word) → Word × Word → List Word → List Word × Word × Word
  | [], acc, out => (out.reverse, acc.1, acc.2)
  | (n, g, x) :: rest, acc, out =>
    let e := updElem p r acc n g x
    updElems p r rest (e.2.1, e.2.2) (e.1 :: out)

/-- The row statistic of step t (R132). -/
def updStat (p : UpdParams) (r sq : Word) : Word :=
  f32min (f32add (f32mul p.beta2 r)
    (f32mul (f32sub one32 p.beta2) (f32add (f32div sq (int32toF32 .rne (BitVec.ofNat 32 p.dim))) p.eps1))) fp32max

/-- A record updated (R131, R132): the record, and su. -/
def updRecord (fmt table row : Nat) (p : UpdParams) (n g : List Word) (r : List Byte) : List Byte × Word :=
  let d := p.dim
  let reads := [fmt, table, row, p.step] ++ [p.lr, p.beta2, p.eps1, p.eps2, p.decay, p.clip].map BitVec.toNat ++ n.map BitVec.toNat ++
    g.map BitVec.toNat ++ r.map BitVec.toNat
  let stat := BitVec.ofNat 32 (u32 r 4)
  let scale := BitVec.ofNat 32 (u32 r 0)
  let es := updElems p stat ((List.range d).map (fun j => (n.getD j 0#32, g.getD j 0#32, recVal fmt d r j))) (0#32, 0#32) []
  let key := genKey p.step table 0
  let qs := es.1.zipIdx.map (fun (q : Word × Nat) => quotient fmt reads q.2 scale q.1)
  let area := encodeArea fmt (fun j => .stoch (draw16 (genDraw key row j))) qs
  let body := r.take 4 ++ bytesOf (tame reads d (updStat p stat es.2.2)).toNat 4 ++ bytesOf p.step 2 ++ slice r 10 22 ++ area ++
    r.drop (32 + area.length)
  (withCheck body, es.2.1)

/-- FUPD. -/
def execFupd (r : Fin 1048576) (s : State) : Result :=
  s.runRoom r 0x2A anyWord (fun c w =>
    let o := c.num (iD w)
    let pb := c.num (iA w)
    let ci := iB w
    let fmt := iF w / 2048
    let st := r.val / 65536
    let p := updParams (s.storeBytes r pb 32)
    let wing := (s.plan.wingOf c.home).getD []
    let table := wOwner wing % 4096
    let dim := match s.plan.table table with | some t => tDim t | none => 0
    let l := recLen fmt p.dim
    if c.call.update = false then roomFault 1
    else if pb % 16 ≠ 0 ∨ pb < 0xC000 ∨ 65536 < pb + 32 then roomFault 4
    else if p.dim ≠ dim ∨ dim < 16 ∨ 1024 < dim then roomFault 11
    else if p.norm % 16 ≠ 0 ∨ p.norm < 0xC000 ∨ 65536 < p.norm + 4 * dim then roomFault 4
    else if c.call.payload.length < c.ppos + 4 * dim then roomFault 6
    else if o % 64 ≠ 0 ∨ 1048576 < o + l then roomFault 5
    else if c.recv.isSome then .stall
    else s.dramGate c (
      let c := { c with rc := max c.rc (c.evAt.getD 4 0) }
      let rec' := s.dram c o l
      let cost := 20 + l / 4 + s.rowCost r c o
      let s' := s.opened c.home o l
      if !s.dramEcc c o l then .whole ((s'.logRow c.home true).endCall r c stCheck (some 7))
      else if !rowCheckOk rec' then .whole ((s'.logRow c.home false).endCall r c stCheck (some 7))
      else
        let c' := { c with ppos := c.ppos + 4 * dim }
        if bit (u8 rec' 10) 0 then
          let c' := (c'.setReg ci 7#32).setReg (ci + 1) 0#32
          .whole ((s'.mapIo (fun io => io.inc .RM_FROZEN st)).setCore r { c' with pc := c.pc + 1, rc := c.rc + cost })
        else
          let words := fun (b : List Byte) => (List.range dim).map (fun j => BitVec.ofNat 32 (u32 b (4 * j)))
          let out := updRecord fmt table (c.num ci) p (words (s.storeBytes r p.norm (4 * dim)))
            (words (slice c.call.payload c.ppos (4 * dim))) rec'
          let c' := (c'.setReg ci 0#32).setReg (ci + 1) out.2
          let s' := s'.mapIo (fun io => io.inc .RM_UPDATES st)
          .whole (s'.dramWrite r { c' with pc := c.pc + 1, rc := c.rc + cost + dim / 2 + l / 4 } false o out.1)))

/-! ### RECV and SEND (R136, R137) -/

/-- RECV: the next payload bytes to scratch b. -/
def execRecv (r : Fin 1048576) (s : State) : Result :=
  s.runRoom r 0x2D anyWord (fun c w =>
    let b := c.num (iA w)
    let n := c.num (iB w)
    if n % 16 ≠ 0 ∨ n < 16 ∨ 2048 < n then roomFault 11
    else if 2048 < b + n then roomFault 3
    else if c.call.payload.length < c.ppos + n then roomFault 6
    else if c.recv.isSome then .stall
    else
      let c := { c with rc := max c.rc (c.evAt.getD 4 0) }
      let c' := (c.race s.free b n true).clearEvent 4 (c.rc + 2 + n / 16)
      .next { c' with recv := some (b, slice c.call.payload c.ppos n), ppos := c.ppos + n } 1)

/-- RECV_DONE: the payload bytes reach scratch and set E4. -/
def execRecvDone (r : Fin 1048576) (s : State) : Result :=
  match s.rooms.cores.at r with
  | none => ignored s
  | some c =>
    match c.recv with
    | none => ignored s
    | some (b, bs) => .next (s.wake r ({ c.poke b bs with recv := none }.setEvent 4))

/-- SEND: scratch to the landing, of a kind; at most four are outstanding. -/
def execSend (r : Fin 1048576) (s : State) : Result :=
  s.runRoom r 0x2E anyWord (fun c w =>
    let a := c.num (iD w)
    let n := c.num (iB w)
    if n % 16 ≠ 0 ∨ n < 16 ∨ 2048 < n then roomFault 11
    else if 2048 < a + n then roomFault 3
    else if 4 ≤ c.sends.length then .stall
    else
      let c := { c with rc := max c.rc (c.sendAt.getD 3 0) }
      let at' := max (c.rc + 2 + n / 16) (c.sendAt.headD 0)
      let c' := (c.race s.free a n false).clearEvent 5 at'
      .next { c' with sendAt := (at' :: c.sendAt).take 4, sends := c'.sends ++ [⟨iF w / 4096, a, c'.peek a n, []⟩] } 1)

/-- SEND_DONE: the oldest SEND has left scratch; E5 is set when every SEND issued so far has. -/
def execSendDone (r : Fin 1048576) (s : State) : Result :=
  match s.rooms.cores.at r with
  | none => ignored s
  | some c =>
    match c.sends with
    | [] => ignored s
    | o :: rest =>
      let c' := { c with sends := rest, sent := c.sent ++ [(o.kind, c.carried s.free o.scratch o.data o.raced)] }
      let c' := if rest.isEmpty then c'.setEvent 5 else c'
      .next ((s.drew (if o.raced.isEmpty then 0 else 128)).wake r c')

end Sys2Proof.Machine
end

