-- ==== Sys2Proof/Machine/Dispatch.lean ====
section
/-! DEFINITION. Machine/Dispatch.lean: one arm per constructor of Instr, each a direct call of its meaning. -/

namespace Sys2Proof.Machine

def exec (i : Instr) (s : State) : Host.Outcome State Fault Refusal :=
  match i with
  | .registerWrite addr wide v => Sys2Proof.Machine.execRegisterWrite addr wide v s
  | .merCountLoRead => Sys2Proof.Machine.execMerCountLoRead s
  | .merFrameStartLoRead => Sys2Proof.Machine.execMerFrameStartLoRead s
  | .wgRowsLoRead st => Sys2Proof.Machine.execWgRowsLoRead st s
  | .wgBatchStepLoRead st => Sys2Proof.Machine.execWgBatchStepLoRead st s
  | .mxFeedLoRead a => Sys2Proof.Machine.execMxFeedLoRead a s
  | .mxAtticHitsLoRead => Sys2Proof.Machine.execMxAtticHitsLoRead s
  | .veBusyLoRead a => Sys2Proof.Machine.execVeBusyLoRead a s
  | .upContribLoRead st => Sys2Proof.Machine.execUpContribLoRead st s
  | .upCloseLoRead => Sys2Proof.Machine.execUpCloseLoRead s
  | .fbFecCorrLoRead p => Sys2Proof.Machine.execFbFecCorrLoRead p s
  | .fbTxFlitsLoRead p => Sys2Proof.Machine.execFbTxFlitsLoRead p s
  | .fbRxFlitsLoRead p => Sys2Proof.Machine.execFbRxFlitsLoRead p s
  | .hcLbAcceptedLoRead => Sys2Proof.Machine.execHcLbAcceptedLoRead s
  | .xlHitsLoRead => Sys2Proof.Machine.execXlHitsLoRead s
  | .cfCommandsLoRead => Sys2Proof.Machine.execCfCommandsLoRead s
  | .cfCapCountLoRead => Sys2Proof.Machine.execCfCapCountLoRead s
  | .scGrpEngineLoRead => Sys2Proof.Machine.execScGrpEngineLoRead s
  | .scGrpGrantsLoRead => Sys2Proof.Machine.execScGrpGrantsLoRead s
  | .scGrpFlitsLoRead => Sys2Proof.Machine.execScGrpFlitsLoRead s
  | .scGrpDmaLoRead => Sys2Proof.Machine.execScGrpDmaLoRead s
  | .rlEccCorrLoRead => Sys2Proof.Machine.execRlEccCorrLoRead s
  | .rlLogCountLoRead => Sys2Proof.Machine.execRlLogCountLoRead s
  | .trLatchLoRead => Sys2Proof.Machine.execTrLatchLoRead s
  | .fpFetch => Sys2Proof.Machine.execFpFetch s
  | .fpVerify => Sys2Proof.Machine.execFpVerify s
  | .fpApply => Sys2Proof.Machine.execFpApply s
  | .fpAmend => Sys2Proof.Machine.execFpAmend s
  | .fpAbort => Sys2Proof.Machine.execFpAbort s
  | .fpDiscard => Sys2Proof.Machine.execFpDiscard s
  | .fpBadCommand cmd => Sys2Proof.Machine.execFpBadCommand cmd s
  | .stagingWrite off wide v => Sys2Proof.Machine.execStagingWrite off wide v s
  | .fpLenWrite v => Sys2Proof.Machine.execFpLenWrite v s
  | .fetchReadCompletion off bytes ok => Sys2Proof.Machine.execFetchReadCompletion off bytes ok s
  | .verifyComplete => Sys2Proof.Machine.execVerifyComplete s
  | .applicationComplete fault => Sys2Proof.Machine.execApplicationComplete fault s
  | .amendmentEffect => Sys2Proof.Machine.execAmendmentEffect s
  | .fpDrainWrite k v => Sys2Proof.Machine.execFpDrainWrite k v s
  | .unitDrained kind n => Sys2Proof.Machine.execUnitDrained kind n s
  | .pulseEdge falling => Sys2Proof.Machine.execPulseEdge falling s
  | .refLost noEdges => Sys2Proof.Machine.execRefLost noEdges s
  | .holdoverAlarm => Sys2Proof.Machine.execHoldoverAlarm s
  | .masterChange => Sys2Proof.Machine.execMasterChange s
  | .merCtrlStep v => Sys2Proof.Machine.execMerCtrlStep v s
  | .countStep => Sys2Proof.Machine.execCountStep s
  | .slotBoundary => Sys2Proof.Machine.execSlotBoundary s
  | .epochClose => Sys2Proof.Machine.execEpochClose s
  | .flip => Sys2Proof.Machine.execFlip s
  | .digestComparison g => Sys2Proof.Machine.execDigestComparison g s
  | .watchdogExpiry launch id => Sys2Proof.Machine.execWatchdogExpiry launch id s
  | .plannedRetrain st ph => Sys2Proof.Machine.execPlannedRetrain st ph s
  | .unplannedRetrain st ph => Sys2Proof.Machine.execUnplannedRetrain st ph s
  | .retrainDone st ph ok => Sys2Proof.Machine.execRetrainDone st ph ok s
  | .channelFail st ph => Sys2Proof.Machine.execChannelFail st ph s
  | .burnRow st => Sys2Proof.Machine.execBurnRow st s
  | .burnColumn st => Sys2Proof.Machine.execBurnColumn st s
  | .burnRoom st => Sys2Proof.Machine.execBurnRoom st s
  | .repairBadArg st => Sys2Proof.Machine.execRepairBadArg st s
  | .burnDone st ok => Sys2Proof.Machine.execBurnDone st ok s
  | .softRowSpare st => Sys2Proof.Machine.execSoftRowSpare st s
  | .refresh st ph storey => Sys2Proof.Machine.execRefresh st ph storey s
  | .scrubWindow k => Sys2Proof.Machine.execScrubWindow k s
  | .scrubBlock st corrected raced unc => Sys2Proof.Machine.execScrubBlock st corrected raced unc s
  | .scrubWindowEnd => Sys2Proof.Machine.execScrubWindowEnd s
  | .calibrateWindow k => Sys2Proof.Machine.execCalibrateWindow k s
  | .calibrationStep st => Sys2Proof.Machine.execCalibrationStep st s
  | .calWindowEnd => Sys2Proof.Machine.execCalWindowEnd s
  | .contentAccept st => Sys2Proof.Machine.execContentAccept st s
  | .contentClear st => Sys2Proof.Machine.execContentClear st s
  | .contentVerifyDone st => Sys2Proof.Machine.execContentVerifyDone st s
  | .contentClearDone st => Sys2Proof.Machine.execContentClearDone st s
  | .roomCall wk => Sys2Proof.Machine.execRoomCall wk s
  | .directRead r o => Sys2Proof.Machine.execDirectRead r o s
  | .illegal r => Sys2Proof.Machine.execIllegal r s
  | .nop r => Sys2Proof.Machine.execNop r s
  | .add r => Sys2Proof.Machine.execAdd r s
  | .sub r => Sys2Proof.Machine.execSub r s
  | .and r => Sys2Proof.Machine.execAnd r s
  | .or r => Sys2Proof.Machine.execOr r s
  | .xor r => Sys2Proof.Machine.execXor r s
  | .shl r => Sys2Proof.Machine.execShl r s
  | .shr r => Sys2Proof.Machine.execShr r s
  | .sra r => Sys2Proof.Machine.execSra r s
  | .mul r => Sys2Proof.Machine.execMul r s
  | .slt r => Sys2Proof.Machine.execSlt r s
  | .addi r => Sys2Proof.Machine.execAddi r s
  | .lui r => Sys2Proof.Machine.execLui r s
  | .beq r => Sys2Proof.Machine.execBeq r s
  | .bne r => Sys2Proof.Machine.execBne r s
  | .blt r => Sys2Proof.Machine.execBlt r s
  | .bge r => Sys2Proof.Machine.execBge r s
  | .jal r => Sys2Proof.Machine.execJal r s
  | .jr r => Sys2Proof.Machine.execJr r s
  | .loop r => Sys2Proof.Machine.execLoop r s
  | .lds r => Sys2Proof.Machine.execLds r s
  | .sts r => Sys2Proof.Machine.execSts r s
  | .ldsv r => Sys2Proof.Machine.execLdsv r s
  | .stsv r => Sys2Proof.Machine.execStsv r s
  | .ldc r => Sys2Proof.Machine.execLdc r s
  | .ldcv r => Sys2Proof.Machine.execLdcv r s
  | .fadd r => Sys2Proof.Machine.execFadd r s
  | .fsub r => Sys2Proof.Machine.execFsub r s
  | .fmul r => Sys2Proof.Machine.execFmul r s
  | .fdiv r => Sys2Proof.Machine.execFdiv r s
  | .fsqrt r => Sys2Proof.Machine.execFsqrt r s
  | .frsq r => Sys2Proof.Machine.execFrsq r s
  | .fmin r => Sys2Proof.Machine.execFmin r s
  | .fmax r => Sys2Proof.Machine.execFmax r s
  | .itof r => Sys2Proof.Machine.execItof r s
  | .ftoi r => Sys2Proof.Machine.execFtoi r s
  | .flt r => Sys2Proof.Machine.execFlt r s
  | .vadd r => Sys2Proof.Machine.execVadd r s
  | .vmul r => Sys2Proof.Machine.execVmul r s
  | .vfma r => Sys2Proof.Machine.execVfma r s
  | .vmax r => Sys2Proof.Machine.execVmax r s
  | .vcvt r => Sys2Proof.Machine.execVcvt r s
  | .vsplat r => Sys2Proof.Machine.execVsplat r s
  | .vsum r => Sys2Proof.Machine.execVsum r s
  | .vmovGet r => Sys2Proof.Machine.execVmovGet r s
  | .vmovPut r => Sys2Proof.Machine.execVmovPut r s
  | .rfetch r => Sys2Proof.Machine.execRfetch r s
  | .rput r => Sys2Proof.Machine.execRput r s
  | .rfetchDone r slot => Sys2Proof.Machine.execRfetchDone r slot s
  | .rputDone r slot => Sys2Proof.Machine.execRputDone r slot s
  | .rcheck r => Sys2Proof.Machine.execRcheck r s
  | .dqaccAssign r => Sys2Proof.Machine.execDqaccAssign r s
  | .dqaccAdd r => Sys2Proof.Machine.execDqaccAdd r s
  | .dqaccMax r => Sys2Proof.Machine.execDqaccMax r s
  | .scale r => Sys2Proof.Machine.execScale r s
  | .pack r => Sys2Proof.Machine.execPack r s
  | .fupd r => Sys2Proof.Machine.execFupd r s
  | .rseed r => Sys2Proof.Machine.execRseed r s
  | .rand r => Sys2Proof.Machine.execRand r s
  | .recv r => Sys2Proof.Machine.execRecv r s
  | .recvDone r => Sys2Proof.Machine.execRecvDone r s
  | .send r => Sys2Proof.Machine.execSend r s
  | .sendDone r => Sys2Proof.Machine.execSendDone r s
  | .wait r => Sys2Proof.Machine.execWait r s
  | .evt r => Sys2Proof.Machine.execEvt r s
  | .fence r => Sys2Proof.Machine.execFence r s
  | .gets r => Sys2Proof.Machine.execGets r s
  | .endCall r => Sys2Proof.Machine.execEndCall r s
  | .trap r => Sys2Proof.Machine.execTrap r s
  | .limit r => Sys2Proof.Machine.execLimit r s
  | .callCancel r => Sys2Proof.Machine.execCallCancel r s
  | .rmFlogClear st v => Sys2Proof.Machine.execRmFlogClear st v s
  | .batchBoundary b => Sys2Proof.Machine.execBatchBoundary b s
  | .tileAccept a => Sys2Proof.Machine.execTileAccept a s
  | .tileFinish a => Sys2Proof.Machine.execTileFinish a s
  | .atticFillDone line => Sys2Proof.Machine.execAtticFillDone line s
  | .chainStart a => Sys2Proof.Machine.execChainStart a s
  | .chainComplete a => Sys2Proof.Machine.execChainComplete a s
  | .chainLoadApply a => Sys2Proof.Machine.execChainLoadApply a s
  | .engineRun a => Sys2Proof.Machine.execEngineRun a s
  | .engineGather a => Sys2Proof.Machine.execEngineGather a s
  | .engineMerge a => Sys2Proof.Machine.execEngineMerge a s
  | .engineScatter a => Sys2Proof.Machine.execEngineScatter a s
  | .engineDescriptorDone a => Sys2Proof.Machine.execEngineDescriptorDone a s
  | .scanComplete st => Sys2Proof.Machine.execScanComplete st s
  | .scanDeadline => Sys2Proof.Machine.execScanDeadline s
  | .verdictDeadline => Sys2Proof.Machine.execVerdictDeadline s
  | .gradientContribution l n => Sys2Proof.Machine.execGradientContribution l n s
  | .paramBlockWrite wing => Sys2Proof.Machine.execParamBlockWrite wing s
  | .denseWritesComplete => Sys2Proof.Machine.execDenseWritesComplete s
  | .denseDeadline => Sys2Proof.Machine.execDenseDeadline s
  | .stateLoadEffect wing => Sys2Proof.Machine.execStateLoadEffect wing s
  | .portDisable p => Sys2Proof.Machine.execPortDisable p s
  | .portEnable p => Sys2Proof.Machine.execPortEnable p s
  | .requalify p => Sys2Proof.Machine.execRequalify p s
  | .fecLock p => Sys2Proof.Machine.execFecLock p s
  | .trainingRetry p => Sys2Proof.Machine.execTrainingRetry p s
  | .rxDataFlit p b => Sys2Proof.Machine.execRxDataFlit p b s
  | .rxIdle p b => Sys2Proof.Machine.execRxIdle p b s
  | .rxNack p b => Sys2Proof.Machine.execRxNack p b s
  | .rxCtrl p b => Sys2Proof.Machine.execRxCtrl p b s
  | .nackRepeat p => Sys2Proof.Machine.execNackRepeat p s
  | .laneFail p lane => Sys2Proof.Machine.execLaneFail p lane s
  | .helloSend p => Sys2Proof.Machine.execHelloSend p s
  | .rxHello p h => Sys2Proof.Machine.execRxHello p h s
  | .helloMiss p => Sys2Proof.Machine.execHelloMiss p s
  | .timeSend => Sys2Proof.Machine.execTimeSend s
  | .rxTime p far err rtt => Sys2Proof.Machine.execRxTime p far err rtt s
  | .rxRoute p es => Sys2Proof.Machine.execRxRoute p es s
  | .routeRefresh => Sys2Proof.Machine.execRouteRefresh s
  | .routeRecompute => Sys2Proof.Machine.execRouteRecompute s
  | .rxDepart p origin seq effective reason => Sys2Proof.Machine.execRxDepart p origin seq effective reason s
  | .departEffective ref => Sys2Proof.Machine.execDepartEffective ref s
  | .rxMaster p origin seq eligible locked holdover => Sys2Proof.Machine.execRxMaster p origin seq eligible locked holdover s
  | .masterSend => Sys2Proof.Machine.execMasterSend s
  | .rxOpen p m => Sys2Proof.Machine.execRxOpen p m s
  | .rxAccept p m => Sys2Proof.Machine.execRxAccept p m s
  | .rxClose p m => Sys2Proof.Machine.execRxClose p m s
  | .rxAck p m => Sys2Proof.Machine.execRxAck p m s
  | .rxWrite p m => Sys2Proof.Machine.execRxWrite p m s
  | .rxSublist p m => Sys2Proof.Machine.execRxSublist p m s
  | .rxPartial p m => Sys2Proof.Machine.execRxPartial p m s
  | .rxGradlist p m => Sys2Proof.Machine.execRxGradlist p m s
  | .rxColl p m => Sys2Proof.Machine.execRxColl p m s
  | .rxDgram p m => Sys2Proof.Machine.execRxDgram p m s
  | .rxMcast p m => Sys2Proof.Machine.execRxMcast p m s
  | .rxPrune p m => Sys2Proof.Machine.execRxPrune p m s
  | .rxPull p m => Sys2Proof.Machine.execRxPull p m s
  | .rxGraft p m => Sys2Proof.Machine.execRxGraft p m s
  | .rxTreeSetup p dest m => Sys2Proof.Machine.execRxTreeSetup p dest m s
  | .rxVtree p child count => Sys2Proof.Machine.execRxVtree p child count s
  | .vtreeSend => Sys2Proof.Machine.execVtreeSend s
  | .rxVerdictUp p flip raised step count => Sys2Proof.Machine.execRxVerdictUp p flip raised step count s
  | .rxVerdictDown p flip raised step count => Sys2Proof.Machine.execRxVerdictDown p flip raised step count s
  | .verdictRootDeadline flip => Sys2Proof.Machine.execVerdictRootDeadline flip s
  | .rxMark p origin seq id m => Sys2Proof.Machine.execRxMark p origin seq id m s
  | .rxBadKind p kind => Sys2Proof.Machine.execRxBadKind p kind s
  | .retransmit k => Sys2Proof.Machine.execRetransmit k s
  | .connBreak k => Sys2Proof.Machine.execConnBreak k s
  | .connectTimeout k => Sys2Proof.Machine.execConnectTimeout k s
  | .treeSetupTimeout tr => Sys2Proof.Machine.execTreeSetupTimeout tr s
  | .branchPrune tr p => Sys2Proof.Machine.execBranchPrune tr p s
  | .branchRebuild tr p => Sys2Proof.Machine.execBranchRebuild tr p s
  | .linkUp lanes rate flit => Sys2Proof.Machine.execLinkUp lanes rate flit s
  | .linkDown => Sys2Proof.Machine.execLinkDown s
  | .linkRecovery done => Sys2Proof.Machine.execLinkRecovery done s
  | .hostGraceExpiry => Sys2Proof.Machine.execHostGraceExpiry s
  | .hotReset => Sys2Proof.Machine.execHotReset s
  | .functionLevelReset => Sys2Proof.Machine.execFunctionLevelReset s
  | .resetComplete => Sys2Proof.Machine.execResetComplete s
  | .perstAssert => Sys2Proof.Machine.execPerstAssert s
  | .perstDeassert => Sys2Proof.Machine.execPerstDeassert s
  | .configRequest d w => Sys2Proof.Machine.execConfigRequest d w s
  | .powerStateChange d3 => Sys2Proof.Machine.execPowerStateChange d3 s
  | .doeRequest vendor type bytes => Sys2Proof.Machine.execDoeRequest vendor type bytes s
  | .writebackInvalidate => Sys2Proof.Machine.execWritebackInvalidate s
  | .snoop addr => Sys2Proof.Machine.execSnoop addr s
  | .msixUnmask v => Sys2Proof.Machine.execMsixUnmask v s
  | .regionValidate n v hi => Sys2Proof.Machine.execRegionValidate n v hi s
  | .regionEnd n v hi => Sys2Proof.Machine.execRegionEnd n v hi s
  | .letterboxWrite off bytes req poisoned => Sys2Proof.Machine.execLetterboxWrite off bytes req poisoned s
  | .bar2Read off req => Sys2Proof.Machine.execBar2Read off req s
  | .hcLbFence v => Sys2Proof.Machine.execHcLbFence v s
  | .lbFenceDone => Sys2Proof.Machine.execLbFenceDone s
  | .dmaReadCompletion k off bytes ok => Sys2Proof.Machine.execDmaReadCompletion k off bytes ok s
  | .asEnable => Sys2Proof.Machine.execAsEnable s
  | .asDisable => Sys2Proof.Machine.execAsDisable s
  | .asRootWrite high v => Sys2Proof.Machine.execAsRootWrite high v s
  | .translateUnit k => Sys2Proof.Machine.execTranslateUnit k s
  | .walkEntryReturn k bytes ok => Sys2Proof.Machine.execWalkEntryReturn k bytes ok s
  | .prqRetry req => Sys2Proof.Machine.execPrqRetry req s
  | .prqFail req => Sys2Proof.Machine.execPrqFail req s
  | .xlRingHeadWrite v => Sys2Proof.Machine.execXlRingHeadWrite v s
  | .xlInvGo => Sys2Proof.Machine.execXlInvGo s
  | .invalidationDone n => Sys2Proof.Machine.execInvalidationDone n s
  | .xlCwCountWrite v => Sys2Proof.Machine.execXlCwCountWrite v s
  | .xlCntClear => Sys2Proof.Machine.execXlCntClear s
  | .dbSqWrite q v => Sys2Proof.Machine.execDbSqWrite q v s
  | .dbCqWrite q v => Sys2Proof.Machine.execDbCqWrite q v s
  | .qEnable q => Sys2Proof.Machine.execQEnable q s
  | .qDisable q => Sys2Proof.Machine.execQDisable q s
  | .qReset q => Sys2Proof.Machine.execQReset q s
  | .queueResetDone q => Sys2Proof.Machine.execQueueResetDone q s
  | .cqAck q => Sys2Proof.Machine.execCqAck q s
  | .qResume q => Sys2Proof.Machine.execQResume q s
  | .entryFetchReturn k bytes ok => Sys2Proof.Machine.execEntryFetchReturn k bytes ok s
  | .cmdNop id => Sys2Proof.Machine.execCmdNop id s
  | .cmdDmaIn id => Sys2Proof.Machine.execCmdDmaIn id s
  | .cmdDmaOut id => Sys2Proof.Machine.execCmdDmaOut id s
  | .cmdWriteInline id => Sys2Proof.Machine.execCmdWriteInline id s
  | .cmdLaunch id => Sys2Proof.Machine.execCmdLaunch id s
  | .cmdItinLoad id => Sys2Proof.Machine.execCmdItinLoad id s
  | .cmdBuffer id => Sys2Proof.Machine.execCmdBuffer id s
  | .cmdAbort id => Sys2Proof.Machine.execCmdAbort id s
  | .cmdLookup id => Sys2Proof.Machine.execCmdLookup id s
  | .cmdGradient id => Sys2Proof.Machine.execCmdGradient id s
  | .cmdProgramLoad id => Sys2Proof.Machine.execCmdProgramLoad id s
  | .cmdChainLoad id => Sys2Proof.Machine.execCmdChainLoad id s
  | .cmdRowFlag id => Sys2Proof.Machine.execCmdRowFlag id s
  | .cmdJoin id => Sys2Proof.Machine.execCmdJoin id s
  | .cmdLeave id => Sys2Proof.Machine.execCmdLeave id s
  | .cmdUpdateParam id => Sys2Proof.Machine.execCmdUpdateParam id s
  | .cmdStateLoad id => Sys2Proof.Machine.execCmdStateLoad id s
  | .cmdStateRead id => Sys2Proof.Machine.execCmdStateRead id s
  | .cmdConnect id => Sys2Proof.Machine.execCmdConnect id s
  | .cmdClose id => Sys2Proof.Machine.execCmdClose id s
  | .cmdTree id => Sys2Proof.Machine.execCmdTree id s
  | .cmdGroup id => Sys2Proof.Machine.execCmdGroup id s
  | .cmdCollective id => Sys2Proof.Machine.execCmdCollective id s
  | .cmdSend id => Sys2Proof.Machine.execCmdSend id s
  | .cmdDatagram id => Sys2Proof.Machine.execCmdDatagram id s
  | .cmdMcast id => Sys2Proof.Machine.execCmdMcast id s
  | .cmdInvalidate id => Sys2Proof.Machine.execCmdInvalidate id s
  | .cmdMigrate id => Sys2Proof.Machine.execCmdMigrate id s
  | .cmdReturn id => Sys2Proof.Machine.execCmdReturn id s
  | .cmdStream id => Sys2Proof.Machine.execCmdStream id s
  | .cmdMark id => Sys2Proof.Machine.execCmdMark id s
  | .cmdInvalid id => Sys2Proof.Machine.execCmdInvalid id s
  | .itinNodeDispatch l n => Sys2Proof.Machine.execItinNodeDispatch l n s
  | .launchStart l => Sys2Proof.Machine.execLaunchStart l s
  | .unitTile ctx => Sys2Proof.Machine.execUnitTile ctx s
  | .unitEngine ctx => Sys2Proof.Machine.execUnitEngine ctx s
  | .unitFetch ctx => Sys2Proof.Machine.execUnitFetch ctx s
  | .unitHostIn ctx => Sys2Proof.Machine.execUnitHostIn ctx s
  | .unitHostOut ctx => Sys2Proof.Machine.execUnitHostOut ctx s
  | .unitCopy ctx => Sys2Proof.Machine.execUnitCopy ctx s
  | .unitLookup ctx => Sys2Proof.Machine.execUnitLookup ctx s
  | .unitGradient ctx => Sys2Proof.Machine.execUnitGradient ctx s
  | .unitNop ctx => Sys2Proof.Machine.execUnitNop ctx s
  | .unitRetire ctx iter unit => Sys2Proof.Machine.execUnitRetire ctx iter unit s
  | .preemptRequest a => Sys2Proof.Machine.execPreemptRequest a s
  | .quantumExpiry a => Sys2Proof.Machine.execQuantumExpiry a s
  | .preemptSaveDone a => Sys2Proof.Machine.execPreemptSaveDone a s
  | .preemptResume a => Sys2Proof.Machine.execPreemptResume a s
  | .shadowCompare k sig => Sys2Proof.Machine.execShadowCompare k sig s
  | .arbiterDone k sig unit => Sys2Proof.Machine.execArbiterDone k sig unit s
  | .twinCompare k agree first second => Sys2Proof.Machine.execTwinCompare k agree first second s
  | .digestDecide g => Sys2Proof.Machine.execDigestDecide g s
  | .rejoinCopyDone g => Sys2Proof.Machine.execRejoinCopyDone g s
  | .rlRestartWrite v => Sys2Proof.Machine.execRlRestartWrite v s
  | .rlCkptGo => Sys2Proof.Machine.execRlCkptGo s
  | .rlLogClear v => Sys2Proof.Machine.execRlLogClear v s
  | .pwShutter => Sys2Proof.Machine.execPwShutter s
  | .pwWake => Sys2Proof.Machine.execPwWake s
  | .shutterEntry => Sys2Proof.Machine.execShutterEntry s
  | .wakeAt => Sys2Proof.Machine.execWakeAt s
  | .wakeComplete => Sys2Proof.Machine.execWakeComplete s
  | .powerProjection watts => Sys2Proof.Machine.execPowerProjection watts s
  | .powerWindow watts => Sys2Proof.Machine.execPowerWindow watts s
  | .sensorSample c v => Sys2Proof.Machine.execSensorSample c v s
  | .railOutOfRegulation rail => Sys2Proof.Machine.execRailOutOfRegulation rail s
  | .poTripClear v => Sys2Proof.Machine.execPoTripClear v s
  | .poRuleClear v => Sys2Proof.Machine.execPoRuleClear v s
  | .heartbeatLost core => Sys2Proof.Machine.execHeartbeatLost core s
  | .inputApplied => Sys2Proof.Machine.execInputApplied s
  | .inputLost => Sys2Proof.Machine.execInputLost s
  | .bootStage read => Sys2Proof.Machine.execBootStage read s
  | .bootComplete => Sys2Proof.Machine.execBootComplete s
  | .seSubmit => Sys2Proof.Machine.execSeSubmit s
  | .advanceFw => Sys2Proof.Machine.execAdvanceFw s
  | .advancePlan => Sys2Proof.Machine.execAdvancePlan s
  | .program => Sys2Proof.Machine.execProgram s
  | .revoke => Sys2Proof.Machine.execRevoke s
  | .setPlanKey => Sys2Proof.Machine.execSetPlanKey s
  | .debugUnlock => Sys2Proof.Machine.execDebugUnlock s
  | .raiseLock => Sys2Proof.Machine.execRaiseLock s
  | .getVersion doe => Sys2Proof.Machine.execGetVersion doe s
  | .getCapabilities doe => Sys2Proof.Machine.execGetCapabilities doe s
  | .negotiateAlgorithms doe sm2 sm3 => Sys2Proof.Machine.execNegotiateAlgorithms doe sm2 sm3 s
  | .getDigests doe => Sys2Proof.Machine.execGetDigests doe s
  | .getCertificate doe slot off len => Sys2Proof.Machine.execGetCertificate doe slot off len s
  | .challenge doe slot nonce => Sys2Proof.Machine.execChallenge doe slot nonce s
  | .getMeasurements doe index sign nonce => Sys2Proof.Machine.execGetMeasurements doe index sign nonce s
  | .setCertificate doe slot chain => Sys2Proof.Machine.execSetCertificate doe slot chain s
  | .chunkSend doe last bytes => Sys2Proof.Machine.execChunkSend doe last bytes s
  | .chunkGet doe n => Sys2Proof.Machine.execChunkGet doe n s
  | .setEndpointId id => Sys2Proof.Machine.execSetEndpointId id s
  | .getEndpointId => Sys2Proof.Machine.execGetEndpointId s
  | .getMctpVersionSupport type => Sys2Proof.Machine.execGetMctpVersionSupport type s
  | .getMessageTypeSupport => Sys2Proof.Machine.execGetMessageTypeSupport s
  | .getEndpointUuid => Sys2Proof.Machine.execGetEndpointUuid s
  | .gettid => Sys2Proof.Machine.execGettid s
  | .getpldmversion type => Sys2Proof.Machine.execGetpldmversion type s
  | .getpldmtypes => Sys2Proof.Machine.execGetpldmtypes s
  | .getpldmcommands type => Sys2Proof.Machine.execGetpldmcommands type s
  | .querydeviceidentifiers => Sys2Proof.Machine.execQuerydeviceidentifiers s
  | .pldmSensorRead c => Sys2Proof.Machine.execPldmSensorRead c s
  | .stateSetWake => Sys2Proof.Machine.execStateSetWake s
  | .stateSetShutter => Sys2Proof.Machine.execStateSetShutter s
  | .pldmComponentTransfer id off bytes last => Sys2Proof.Machine.execPldmComponentTransfer id off bytes last s
  | .pldmVerify => Sys2Proof.Machine.execPldmVerify s
  | .activatefirmware => Sys2Proof.Machine.execActivatefirmware s
  | .debugMessage bytes => Sys2Proof.Machine.execDebugMessage bytes s
  | .markLatch => Sys2Proof.Machine.execMarkLatch s
  | .markInstant k => Sys2Proof.Machine.execMarkInstant k s
  | .trMark id => Sys2Proof.Machine.execTrMark id s
  | .trRelease => Sys2Proof.Machine.execTrRelease s
  | .trDump => Sys2Proof.Machine.execTrDump s
  | .dumpDone => Sys2Proof.Machine.execDumpDone s
  | .telemetryWindow k => Sys2Proof.Machine.execTelemetryWindow k s
  | .snapshotDone => Sys2Proof.Machine.execSnapshotDone s
  | .telemetryWindowEnd => Sys2Proof.Machine.execTelemetryWindowEnd s
  | .merRefEdgesDetected => Sys2Proof.Machine.execMerRefEdgesDetected s
  | .xlRingCtrlEnable => Sys2Proof.Machine.execXlRingCtrlEnable s
  | .oldRuleCapsExpiry => Sys2Proof.Machine.execOldRuleCapsExpiry s
  | .departureForwardingEnd => Sys2Proof.Machine.execDepartureForwardingEnd s

end Sys2Proof.Machine
end

