-- ==== Sys2Proof/Machine/Step.lean ====
section
/-! DEFINITION. Machine/Step.lean: one step takes the command at the front of the queue; where none waits, one mt passes. -/

namespace Sys2Proof.Machine

/-- One step: the front command runs with the queue's rest. On an empty queue the module's clock advances by one mt (R54; log
entry 10). -/
def step (s : State) : Host.Outcome State Fault Refusal :=
  match s.pending with
  | [] => .next s.clock
  | c :: cs => exec c { s with pending := cs }

/-- The state with the command that a word spells at the front of its queue. The table gives no row any bits, so no word spells
one (log entry 1). -/
def State.withFetchWord (s : State) (nbits w : Nat) : State :=
  match decodeTableWord nbits w with
  | some c => { s with pending := c :: s.pending }
  | none => s

end Sys2Proof.Machine
end

