-- ==== Sys2Proof/Safety.lean ====
section
/-! DEFINITION. Safety.lean: what a run must never do to the fuses: no minimum, level, key or slot returns to an earlier
state (R443, R445), and the fuses stay within what can be burned. -/

namespace Sys2Proof.Machine

/-- How far an owner slot has gone: EMPTY, then ACTIVE, then REVOKED (R444). -/
def SlotState.rank : SlotState → Nat
  | .empty => 0
  | .active => 1
  | .revoked => 2

/-- What can be burned: four owner slots, four banks of plan keys, a level of at most LOCKED, and at most 64 advances of each
minimum (R443, R444, Table 19-5). -/
def Fuses.legal (f : Fuses) : Prop :=
  f.slots.length = 4 ∧ f.keys.length ≤ 4 ∧ f.lock ≤ 2 ∧ f.fwAdvances ≤ 64 ∧ f.planAdvances ≤ 64

/-- `g` is `f`, or `f` with more burned: the identity is the same, no minimum is lower, the lock level is not lower, the plan
keys are those of `f` and perhaps more, and every owner slot has gone as far or further (R443, R445). -/
def Fuses.le (f g : Fuses) : Prop :=
  g.part = f.part ∧ g.device = f.device ∧ g.rootHash = f.rootHash ∧ f.minFw ≤ g.minFw ∧ f.minPlan ≤ g.minPlan ∧
  f.lock ≤ g.lock ∧ f.keys <+: g.keys ∧ ∀ i, (f.slot i).1.rank ≤ (g.slot i).1.rank

/-- What every step keeps. -/
def State.inv (s : State) : Prop := s.se.fuses.legal

end Sys2Proof.Machine
end

