-- ==== Sys2Proof/Certificates/Slice0/Obligations.lean ====
section
/-! DEFINITION. Certificates/Slice0/Obligations.lean: the statements for the provers. Every command answers a next state, so each
statement about a command says which: the equation for it, or what it holds. -/

open Sys2Proof Sys2Proof.Machine

namespace Sys2Proof.Claims

/-- The command `i`, executed in `s`, answers the next state `t`. -/
def Goes (i : Instr) (s t : State) : Prop := exec i s = Host.Outcome.next t

end Sys2Proof.Claims

open Sys2Proof.Claims

namespace Sys2Proof.Claims

/-- The _LO registers whose reads latch the high half (R63), each with the read of it and its instance. -/
def loReads (st : Fin 16) (a p : Fin 64) : List (Instr × Reg × Nat) :=
  [(.merCountLoRead, .MER_COUNT_LO, 0), (.merFrameStartLoRead, .MER_FRAME_START_LO, 0), (.wgRowsLoRead st, .WG_ROWS_LO, st),
   (.wgBatchStepLoRead st, .WG_BATCH_STEP_LO, st), (.mxFeedLoRead a, .MX_FEED_LO, a), (.mxAtticHitsLoRead, .MX_ATTIC_HITS_LO, 0),
   (.veBusyLoRead a, .VE_BUSY_LO, a), (.upContribLoRead st, .UP_CONTRIB_LO, st), (.upCloseLoRead, .UP_CLOSE_LO, 0),
   (.fbFecCorrLoRead p, .FB_FEC_CORR_LO, p), (.fbTxFlitsLoRead p, .FB_TX_FLITS_LO, p), (.fbRxFlitsLoRead p, .FB_RX_FLITS_LO, p),
   (.hcLbAcceptedLoRead, .HC_LB_ACCEPTED_LO, 0), (.xlHitsLoRead, .XL_HITS_LO, 0), (.cfCommandsLoRead, .CF_COMMANDS_LO, 0),
   (.cfCapCountLoRead, .CF_CAP_COUNT_LO, 0), (.scGrpEngineLoRead, .SC_GRP_ENGINE_LO, 0), (.scGrpGrantsLoRead, .SC_GRP_GRANTS_LO, 0),
   (.scGrpFlitsLoRead, .SC_GRP_FLITS_LO, 0), (.scGrpDmaLoRead, .SC_GRP_DMA_LO, 0), (.rlEccCorrLoRead, .RL_ECC_CORR_LO, 0),
   (.rlLogCountLoRead, .RL_LOG_COUNT_LO, 0), (.trLatchLoRead, .TR_LATCH_LO, 0)]

/-- A loader command that is not executed: its code in FP_ERROR, and FP_EVENT.ERROR set (R33, R53). -/
def fpRefused (s : State) (code : Nat) : State := { s with io := (s.io.putN .FP_ERROR 0 code).event .FP_EVENT 0 1 }

end Sys2Proof.Claims

namespace Sys2Proof.Claims

/-- Room `r`'s core `c` issues the word `w`, of opcode `op`, with no Reserved bit set. -/
def Issues (s : State) (r op : Nat) (c : Core) (w : Nat) : Prop := s.issues r = some (c, w) ∧ iOp w = op ∧ wordOk w = true

/-- Room `r`'s core goes on as `c` with the word after this one, `n` rc later. -/
def roomNext (s : State) (r : Nat) (c : Core) (n : Nat) : State :=
  (s.drew (if c.racy then 128 else 0)).setCore r { c with pc := c.pc + 1, rc := c.rc + n }

/-- Room `r`'s core goes on as `c` at the word `pc`, `n` rc later. -/
def roomGoes (s : State) (r : Nat) (c : Core) (pc n : Nat) : State := s.setCore r { c with pc := pc, rc := c.rc + n }

end Sys2Proof.Claims

namespace Sys2Proof.Claims

/-- A BAR0 word that no window (the letterbox region table, the MSI-X table, the pending-bit array, the telemetry pages, the key-record window)
holds. -/
def noWindow (off : Nat) : Prop :=
  ¬ (0x1000000 ≤ off ∧ off < 0x1200000) ∧ ¬ (0x48000 ≤ off ∧ off < 0x50100) ∧ ¬ (0x201000 ≤ off ∧ off < 0x203000) ∧
  ¬ (0x1C0100 ≤ off ∧ off < 0x1C0210)

/-- Commands that may burn fuses (R443, R445). -/
def burners : List Instr := [.advanceFw, .advancePlan, .program, .revoke, .setPlanKey, .raiseLock]

/-- Scalar, floating-point and lane instructions of a room core that take no exception. -/
def quietRoom (r : Fin 1048576) : List Instr :=
  [.nop r, .add r, .sub r, .and r, .or r, .xor r, .shl r, .shr r, .sra r, .mul r, .slt r, .addi r, .lui r, .fadd r, .fsub r, .fmul r,
   .fdiv r, .fsqrt r, .frsq r, .fmin r, .fmax r, .itof r, .ftoi r, .flt r, .vmovGet r, .vmovPut r, .rseed r, .rand r, .evt r]

end Sys2Proof.Claims

/-- R63: a read of a _LO register answers the low half of the 64-bit value and latches its high half in the _HI register that
follows, both of the same instant; nothing else changes. -/
def Obligations.LowReadLatchesHigh : Prop :=
  ∀ (s : State) (st : Fin 16) (a p : Fin 64), s.barShut = false → ∀ e ∈ loReads st a p,
    ∃ hi lo : Word, hi ++ lo = s.wideView e.2.1 e.2.2 ∧
      Goes e.1 s { s with io := (s.io.put e.2.1.high e.2.2 hi).send (.readData lo.toNat) }

/-- R10, R313: a REGISTER_WRITE of 4 bytes at a multiple of 4 is one word of BAR0 written, one of 8 bytes at a multiple of 8 is two words
in address order, and a misaligned write changes nothing. -/
def Obligations.RegisterWriteByWords : Prop :=
  ∀ (s : State) (addr : BitVec 25) (v : BitVec 64), s.barGone = false → s.se.result ≠ 3 →
    (addr.toNat % 4 = 0 → Goes (.registerWrite addr false v) s (s.barWrite addr.toNat (v.setWidth 32))) ∧
    (addr.toNat % 8 = 0 → Goes (.registerWrite addr true v) s
      ((s.barWrite addr.toNat (v.setWidth 32)).barWrite (addr.toNat + 4) ((v >>> 32).setWidth 32))) ∧
    (addr.toNat % 4 ≠ 0 → Goes (.registerWrite addr false v) s s) ∧ (addr.toNat % 8 ≠ 0 → Goes (.registerWrite addr true v) s s)

/-- The loader's commands where the store and the loader let them run (R32, R33, R34, R52): FETCH asks the host for the image, or
is complete at once with a length of 0; VERIFY, APPLY and AMEND of a loaded image start the verification; FP_LEN is stored; a
write through the aperture lands in the store; ABORT fails a load; DISCARD empties the store; an unknown command is refused. -/
def Obligations.LoaderCommandsRun : Prop :=
  ∀ s : State, s.barShut = false → s.se.result ≠ 3 →
    (s.fp.st = .empty → (s.fp.source = 0 ∨ s.fp.source = 2) → s.io.val .FP_SRC_LO % 16 = 0 →
      (s.io.val .FP_LEN = 0 → Goes .fpFetch s { s with fp := { s.fp with source := 2, st := .loaded, len := 0 } }) ∧
      (0 < s.io.val .FP_LEN → s.io.val .FP_LEN ≤ 4194304 → Goes .fpFetch s { s with
        io := s.io.send (.hostRead (s.io.val .FP_SRC_LO + s.io.val .FP_SRC_HI * 2 ^ 32) (s.io.val .FP_LEN))
        fp := { s.fp with source := 2, st := .loading, want := s.io.val .FP_LEN, landed := [] } })) ∧
    (s.fp.st = .loaded →
      Goes .fpVerify s { s with fp := { s.fp with st := .verifying, cmd := .verify, amendAt := s.mer.count } } ∧
      (s.imageKind ≠ 2 → Goes .fpApply s { s with fp := { s.fp with st := .verifying, cmd := .apply, amendAt := s.mer.count } }) ∧
      (s.imageKind ≠ 1 → Goes .fpAmend s { s with fp := { s.fp with st := .verifying, cmd := .amend, amendAt := s.mer.count } }) ∧
      Goes .fpDiscard s { s with
        fp := Loader.reset, ram := s.ram.noImage, io := (s.io.putN .FP_DROPPED 0 0).putN .FP_ERROR 0 0 }) ∧
    (s.fp.st = .verified → s.fp.pending = false →
      (s.imageKind ≠ 2 → Goes .fpApply s s.applyVerified) ∧
      (s.imageKind ≠ 1 → s.fp.sections.lookup 0x21 = none →
        Goes .fpAmend s { s with fp := { s.fp with pending := true } })) ∧
    (s.fp.st = .loading → Goes .fpAbort s { s with
      fp := { s.fp with st := .failed, pending := false }
      io := ((s.io.putN .FP_ERROR 0 0x15).putN .FP_ERR_DETAIL 0 0).event .FP_EVENT 0 1 }) ∧
    (∀ v, ¬ (s.fp.st = .loading ∧ s.fp.source = 1) → Goes (.fpLenWrite v) s { s with io := s.io.put .FP_LEN 0 v }) ∧
    (∀ v, s.fp.st = .loading → s.fp.source = 1 → Goes (.fpLenWrite v) s { s with
      io := s.io.put .FP_LEN 0 v, fp := { s.fp with st := .loaded, len := v.toNat } }) ∧
    (∀ cmd : Fin 16, (cmd.val = 0 ∨ 6 < cmd.val) → s.fp.busy = false → Goes (.fpBadCommand cmd) s (fpRefused s 0x16)) ∧
    (∀ (off : Fin 32768) (v : BitVec 64), off.val % 4 = 0 → s.io.val .FP_STAGE_BASE + off + 4 ≤ 4194304 →
      (s.fp.st = .empty ∨ (s.fp.st = .loading ∧ s.fp.source = 1)) → Goes (.stagingWrite off false v) s { s with
        ram := s.ram.poke (imageAddr (s.io.val .FP_STAGE_BASE + off)) (bytesOf v.toNat 4)
        fp := { s.fp with st := .loading, source := 1 } })

/-- R53: a command written while BUSY is 1, other than ABORT, is not executed: code 0x13, FP_EVENT.ERROR, and nothing else. -/
def Obligations.BusyLoaderRefuses : Prop :=
  ∀ s : State, s.barShut = false → s.se.result ≠ 3 → s.fp.busy = true →
    (∀ i ∈ ([.fpFetch, .fpVerify, .fpApply, .fpAmend, .fpDiscard] : List Instr), Goes i s (fpRefused s 0x13)) ∧
    ∀ cmd : Fin 16, cmd.val = 0 ∨ 6 < cmd.val → Goes (.fpBadCommand cmd) s (fpRefused s 0x13)

/-- What follows the loader's commands (R32 to R38, R44, R47): bytes of a fetch land, the last of them completing the load; a
verification that passes leaves its sections in the store and starts the application under APPLY; an application installs; an
amendment replaces the sections it carries at its instant; a drain register is written and a drained unit answers. -/
def Obligations.LoaderEventsRun : Prop :=
  ∀ s : State,
    (∀ off bytes, s.fp.st = .loading → s.fp.source = 2 → bytes ≠ [] → off + bytes.length ≤ s.fp.want →
      runMeets off bytes.length s.fp.landed = false → Goes (.fetchReadCompletion off bytes true) s { s with
        ram := s.ram.poke (imageAddr off) bytes
        fp := { s.fp with
          landed := addRun off bytes.length s.fp.landed, len := s.fp.want
          st := if runBytes (addRun off bytes.length s.fp.landed) = s.fp.want then .loaded else .loading } }) ∧
    (s.fp.st = .verifying → ∀ r, r = s.verify s.image' (if s.fp.cmd = .verify then none else some s.fp.amendAt) →
      (∀ b, r = .inr b → Goes .verifyComplete s { s with
        fp := { s.fp with st := .failed, pending := false }
        io := ((s.io.putN .FP_ERROR 0 (b.code + 256 * b.sec)).putN .FP_ERR_DETAIL 0 b.detail).event .FP_EVENT 0 1 }) ∧
      (∀ secs e, r = .inl (secs, e) →
        (s.fp.cmd = .verify → Goes .verifyComplete s { s with
          fp := { s.fp with st := .verified, sections := secs, effective := e } }) ∧
        (s.fp.cmd = .amend → Goes .verifyComplete s { s with
          fp := { s.fp with st := .verified, sections := secs, effective := e, pending := true } }) ∧
        (s.fp.cmd = .apply → s.drainBad secs = none → ∃ t, Goes .verifyComplete s t ∧
          t.fp = { s.fp with st := .applying, sections := secs, effective := e, step := 1, pending := false } ∧
          t.plan = s.plan ∧ t.io = s.io ∧ t.ram = s.ram))) ∧
    (∀ fault, s.fp.st = .applying → Goes (.applicationComplete fault) s (s.install fault)) ∧
    (s.amendDue = true → s.plan.active = true → s.comesFirst s.fp.effective 2 = true →
      ∃ t, Goes .amendmentEffect s t ∧ t.fp = Loader.reset ∧
        t.plan = { s.plan with sections := mergeSecs s.plan.sections s.fp.sections }) ∧
    (∀ k v, s.barShut = false → s.se.result ≠ 3 → Goes (.fpDrainWrite k v) s { s with
      io := (s.io.put (drainRegs k).1 0 (v &&& (drainRegs k).1.spec.mask)).put (drainRegs k).2 0
        (s.io.reg (drainRegs k).2 &&& (v &&& (drainRegs k).1.spec.mask)) }) ∧
    (∀ (kind : Fin 3) (i : Fin 64) (k : Nat), (kind.val = 0 → i.val < 16) →
      k = (if kind.val = 0 then 0 else 2 * kind.val - 1 + i.val / 32) →
      (s.io.reg (drainRegs k).1).getLsbD (i.val % 32) = true → s.unitIdle kind i = true →
      Goes (.unitDrained kind i) s { s with io := s.io.setBit (drainRegs k).2 0 (i.val % 32) true })

/-- Meridian time (R55 to R64, R487), what each event does where it applies. The selected edge of MER_PULSE aligns a FREE device
whose spacing rule it meets, is counted by a device that runs on its local inputs, or is rejected; a loss of MER_REF, or three
rejected pulses in a row, lose the source; the alarm sounds once; a master takes effect at its frame boundary and a report of
one is noted; TIME leaves every linked port once per frame, and one that arrives measures its link; a step is asked for by
MER_CTRL and done at its boundary; a slot begins. -/
def Obligations.MeridianEventsRun : Prop :=
  ∀ s : State,
    (∀ f, s.mer.st ≠ .off → f = s.plan.pulseFalls → s.useFabric = false → s.useLocal = true →
      (s.mer.st = .free → s.spacingOk = true → Goes (.pulseEdge f) s (s.setMer (fun m =>
        { ({ m with lastPulse := some m.now } : Mer).stepTo (s.plan.preset + s.plan.cableDelay) with
          st := .acquiring, use := 1, lost := false, good := 0, rejected := 0, slew := 0, error := 0 }))) ∧
      (s.mer.st = .free → s.spacingOk = false → Goes (.pulseEdge f) s (s.setMer (fun m => { m with lastPulse := some m.now }))) ∧
      (s.mer.st = .acquiring → s.mer.spaced = false → s.pulseErr.natAbs ≤ 8 * s.plan.lockWindow →
        s.plan.lockWindow < s.pulseErr.natAbs → 0 < s.plan.lockFrames → ∃ t, Goes (.pulseEdge f) s t ∧
          t.mer.slew = s.pulseErr ∧ t.mer.good = 0 ∧ t.mer.rejected = 0 ∧ t.mer.lost = false ∧
          t.io = s.io.putN .MER_PHASE_ERR 0 (sat32 s.pulseErr)) ∧
      ((s.mer.st = .acquiring ∨ s.mer.st = .locked) → s.mer.spaced = false → 8 * s.plan.lockWindow < s.pulseErr.natAbs →
        Goes (.pulseEdge f) s (s.setMer (fun m =>
          { m with lastPulse := some m.now, rejected := m.rejected + 1, good := 0 })))) ∧
    (∀ f, (s.mer.st = .off ∨ f ≠ s.plan.pulseFalls) → Goes (.pulseEdge f) s s) ∧
    (s.mer.st = .off → Goes (.refLost true) s (s.setMer (fun m => { m with refPresent := false }))) ∧
    (∀ b : Bool, s.useFabric = false → (b = true ∨ 3 ≤ s.mer.rejected) →
      (s.mer.st = .acquiring → Goes (.refLost b) s { s with
        mer := { s.mer with
          refPresent := s.mer.refPresent && !b, lost := true, spaced := true, good := 0, rejected := 0
          stepNeeded := false, stepAsked := false }
        io := if s.mer.lost then s.io else s.io.event .MER_EVENT 0 1 }) ∧
      (s.mer.st = .locked → ∃ t, Goes (.refLost b) s t ∧ t.mer.st = .holdover ∧ t.mer.lost = true ∧
        t.mer.holdSince = s.mer.now ∧ t.mer.alarmed = false ∧ t.io = s.io.event .MER_EVENT 0 1)) ∧
    Goes .merRefEdgesDetected s (s.setMer (fun m => { m with refPresent := true })) ∧
    (s.mer.st = .holdover → s.mer.alarmed = false → s.plan.holdAlarm ≠ 0 → s.mer.holdSince + s.plan.holdAlarm ≤ s.mer.now →
      Goes .holdoverAlarm s { s with mer := { s.mer with alarmed := true }, io := s.io.event .MER_EVENT 0 4 }) ∧
    (∀ v self ref, s.mer.nextMaster = some (v, self, ref) → s.mer.reached s.mer.nextFrom = true →
      ∃ t, Goes .masterChange s t ∧ t.mer.master = ref ∧ t.mer.masterValid = v ∧ t.mer.masterSelf = self) ∧
    (∀ (p : Fin 64) (origin : Fin 16384) (seq : BitVec 32) (e l h : Bool), (s.port p.val).linked = true →
      (s.newer origin.val seq.toNat).isSome = true → ∃ t, Goes (.rxMaster p origin seq e l h) s t ∧
        t.fab.masters = s.fab.masters.filter (fun (m : MasterInfo) => m.ref != origin.val) ++
          [(⟨origin.val, e, l, h⟩ : MasterInfo)]) ∧
    (∀ (p : Fin 64) (origin : Fin 16384) (seq : BitVec 32) (e l h : Bool), (s.port p.val).linked = true →
      s.newer origin.val seq.toNat = none → Goes (.rxMaster p origin seq e l h) s s) ∧
    (s.plan.hasGrid = true → s.mer.st ≠ .off → s.mer.timeFrame ≠ s.mer.count / s.plan.frameLen + 1 →
      Goes .timeSend s (s.linkedPorts.foldl (fun (u : State) p =>
        u.sendLocal p 2 (bytesOf u.mer.count 8 ++ bytesOf (if u.useFabric then u.mer.error else 0) 4))
        (s.setMer (fun m => { m with timeFrame := m.count / s.plan.frameLen + 1 })))) ∧
    (∀ p far err rtt, (s.port p.val).linked = true →
      ((s.mer.st = .off ∨ s.useFabric = false) → Goes (.rxTime p far err rtt) s { s with
        io := s.io.putN .FB_LINK_DELAY p (rtt / 2) }) ∧
      (∀ off : Int, off = ((far + rtt / 2 : Nat) : Int) - (s.mer.count : Int) → s.mer.st = .acquiring → s.useFabric = true →
        s.route s.mer.master 3 0 = some p.val → off.natAbs ≤ s.plan.frameLen → ∃ t, Goes (.rxTime p far err rtt) s t ∧
          t.mer.slew = off ∧ t.mer.error = err + 4 ∧ t.mer.use = 2 ∧ t.mer.port = p.val ∧ t.mer.lost = false)) ∧
    (∀ v : BitVec 32, s.barShut = false → v.getLsbD 0 = true → s.mer.stepNeeded = true → Goes (.merCtrlStep v) s s.askStep) ∧
    (s.mer.stepAsked = true → s.mer.st ≠ .off → s.mer.stepAt ≤ (s.mer.count : Int) + s.mer.offset →
      Goes .countStep s (s.setMer (fun m => { m.stepTo (((m.count : Int) + m.offset).toNat % 2 ^ 64) with
        st := if m.st = .free then .acquiring else m.st
        use := 2, stepAsked := false, stepNeeded := false, offset := 0, slew := 0, lost := false
        good := if m.st = .free ∨ m.st = .acquiring then 0 else m.good }))) ∧
    (∀ fr i c, s.nextSlot = some (fr, i, c) → s.mer.reached c = true → s.asleep = false → s.comesFirst c 3 = true →
      Goes .slotBoundary s (s.enterSlot fr i c))

/-- Power and the porch (R426 to R439, R456, R460): what each event does where it applies. -/
def Obligations.PowerEventsRun : Prop :=
  ∀ s : State,
    (∀ r, s.pw.input = true → s.pw.st ≠ .tripped → Goes (.railOutOfRegulation r) s (s.trip 3 (196 + 2 * r))) ∧
    (s.pw.input = false → s.pw.perst = true → Goes .inputApplied s { s with pw := { s.pw with input := true } }) ∧
    (s.pw.input = false → s.pw.perst = false → Goes .inputApplied s { s with
      pw := { s.pw with input := true }, se := s.se.startBoot }) ∧
    (s.pw.input = true → ∃ t, Goes .inputLost s t ∧ t.pw = { Power.reset with input := false, perst := s.pw.perst } ∧
      t.po = Porch.reset ∧ t.se.fuses = s.se.fuses) ∧
    (∀ v : BitVec 32, s.barGone = false → v.getLsbD 0 = true → s.pw.st = .tripped → s.pw.perst = true →
      (∀ c t, c < 192 → tripAt c = some t → f32lt (degrees ((t : Int) - 10)) (s.po.sensor c).raw = false) →
      Goes (.poTripClear v) s { s with pw := { s.pw with st := .noPlan, therm := false } }) ∧
    (s.barGone = false → Goes .pwShutter s s.requestShutter ∧ Goes .pwWake s s.requestWake) ∧
    (s.pw.st = .departing → s.mer.reached (s.pw.effective + 100000) = true → s.committing = false →
      Goes .shutterEntry s s.shutter) ∧
    (s.pw.st = .shuttered → s.io.wakeAt ≠ 0 → s.mer.reached s.io.wakeAt = true → Goes .wakeAt s { s with
      pw := { s.pw with st := .waking, wakeSince := s.mer.now, wakeAsked := false } }) ∧
    (s.pw.st = .waking → ∃ t, Goes .wakeComplete s t ∧ t.pw.st = .running) ∧
    (∀ d, s.fab.departs.find? (fun d => d.ref == s.plan.ref) = some d → s.mer.reached (d.effective + 100000) = true →
      Goes .departureForwardingEnd s ((List.range 64).foldl (fun (u : State) p =>
        if (u.port p).st = .dark then u else (u.portLost p .dark).setPort p (fun x => { x with cause := 0, failed := 0 }))
        { s with fab := { s.fab with
          departs := s.fab.departs.filter (fun (e : Depart) => e.ref != s.plan.ref) } })) ∧
    (∀ watts, s.plan.active = true → s.asleep = false → s.pw.lastProjection + 10000 ≤ s.mer.now → watts + 50 ≤ s.envelope →
      s.envelope ≤ watts + 150 → Goes (.powerProjection watts) s { s with
        pw := { s.pw with lastProjection := s.mer.now, lowSince := none } }) ∧
    (∀ w : Fin 65536, w.val ≤ s.drawLimit → s.enabledArrays = [] → s.underFloor = false → Goes (.powerWindow w) s { s with
      io := s.io.putN .PW_POWER 0 (max (s.io.val .PW_POWER / 65536) w * 65536 + w) }) ∧
    (∀ c v, s.pw.input = true → channelReserved c.val = false → s.pw.st = .tripped → Goes (.sensorSample c v) s { s with
      po := { s.po with sensors := SMap.set sensorDflt s.po.sensors c (filterSample s.po c v) } }) ∧
    (∀ v : BitVec 32, s.barGone = false → v.getLsbD 0 = true → Goes (.poRuleClear v) s
      ({ s with po := { s.po with
        rules := SMap.set ruleDflt s.po.rules (s.io.val .PO_RULE_SEL % 128)
          ({ s.po.rule (s.io.val .PO_RULE_SEL % 128) with
            active := false, latched := false, beyond := 0, back := 0 } : RuleState) } }.recap.realert)) ∧
    (s.po.oldCaps ≠ [] → s.po.oldUntil ≤ s.mer.now → Goes .oldRuleCapsExpiry s
      ({ s with po := { s.po with oldCaps := [] } }.recap.realert)) ∧
    (∀ k : Fin 4, bit s.po.keepers k = true → Goes (.heartbeatLost k) s { s with
      po := { s.po with keepers := s.po.keepers - 2 ^ k.val }, io := s.io.event .PO_EVENT 0 1 })

/-- Resets (R332, R460 to R462): PERST_N, the function-level reset, the hot reset and the end of a reset, where they apply. -/
def Obligations.ResetsRun : Prop :=
  ∀ s : State,
    (s.pw.input = true → s.pw.perst = false → s.pw.st ≠ .tripped → Goes .perstAssert s s.perst) ∧
    (s.pw.input = true → s.pw.perst = false → s.pw.st = .tripped → Goes .perstAssert s { s with
      pw := { s.pw with perst := true } }) ∧
    (s.pw.perst = true → s.pw.input = true → s.pw.st ≠ .tripped → Goes .perstDeassert s { s with
      pw := { s.pw with perst := false }, se := s.se.startBoot, io := { s.io with link := 1 } }) ∧
    (s.resettable = true → ∃ t, Goes .functionLevelReset s t ∧ t.host.resetting = 1 ∧ t.host.regions = [] ∧ t.io.msixOn = false ∧
      t.xl = Xl.reset ∧ t.se.fuses = s.se.fuses) ∧
    (s.resettable = true → ∃ t, Goes .hotReset s t ∧ t.host.resetting = 2 ∧ t.host.regions = [] ∧ t.io.msixOn = false ∧
      t.xl = Xl.reset ∧ t.se.fuses = s.se.fuses) ∧
    (s.host.resetting ≠ 0 → Goes .resetComplete s { s with host := { s.host with resetting := 0 } })

/-- The letterbox (R313, R315 to R318): a region is made valid and ended by the write of its first dword; a write that finds no
cause of rejection lands in the region's sheet as one sheet write; a read through BAR2 is rejected; a fence waits and ends. -/
def Obligations.LetterboxCommandsRun : Prop :=
  ∀ s : State,
    (∀ i (v : BitVec 32) hi, s.barShut = false → v.getLsbD 0 = true → Goes (.regionValidate i v hi) s (s.regionFirst i v hi)) ∧
    (∀ i (v : BitVec 32) hi, s.barShut = false → v.getLsbD 0 = false → Goes (.regionEnd i v hi) s (s.regionFirst i v hi)) ∧
    (∀ off req, s.hostReaches = true → Goes (.bar2Read off req) s (s.lbReject 5 off.toNat req.toNat)) ∧
    (∀ (off : BitVec 36) bytes req p i, s.hostReaches = true → bytes ≠ [] →
      s.lbCause off.toNat bytes.length req.toNat p = (0, i) → rgFlag (s.host.entry i) = 0xFFFFFFFF →
      s.chanHeld ((rgBase (s.host.entry i) + (off.toNat - i * 2 ^ 20)) / 2 ^ 30) = false →
      s.chanHeld ((rgBase (s.host.entry i) + (off.toNat - i * 2 ^ 20) + bytes.length - 1) / 2 ^ 30) = false →
      Goes (.letterboxWrite off bytes req p) s ({ s with io := s.io.addWide .HC_LB_ACCEPTED_LO 0 1 }.sheetWrite .host
        (rgBase (s.host.entry i) + (off.toNat - i * 2 ^ 20)) bytes)) ∧
    (∀ (off : BitVec 36) bytes req p c i, s.hostReaches = true → bytes ≠ [] →
      s.lbCause off.toNat bytes.length req.toNat p = (c, i) → c ≠ 0 →
      Goes (.letterboxWrite off bytes req p) s (s.lbReject c off.toNat req.toNat)) ∧
    (∀ v : BitVec 32, s.barShut = false → Goes (.hcLbFence v) s { s with
      host := { s.host with fence := some (v.toNat % 65536) }, io := s.io.putN .HC_LB_FENCE_STATUS 0 1 }) ∧
    (∀ i, s.host.fence = some i → s.flagsHeld i = 0 → Goes .lbFenceDone s { s with
      host := { s.host with fence := none }, io := s.io.putN .HC_LB_FENCE_STATUS 0 0 })

/-- The host link and its neighbours (R306, R310, R311, R314, R329, R330, R333, R457): the link goes down, up and through
recovery; the grace period ends in a parked device; D3hot; a vector is unmasked; configuration space answers; caches and the DOE
mailbox. -/
def Obligations.HostLinkEventsRun : Prop :=
  ∀ s : State,
    (s.linkUp = true → Goes .linkDown s (({ s.hostLost 0 false with io := (s.hostLost 0 false).io.inc .HC_LINK_DOWNS }).hcEvent 0)) ∧
    (∀ lanes rate flit, s.linkUp = false → s.pw.perst = false → s.pw.input = true → s.pw.st ≠ .tripped → s.host.driverBack = false →
      Goes (.linkUp lanes rate flit) s { s with
        io := ({ s.io.putN .HC_LINK 0 (lanes.val + 16 * rate.val + fieldIf flit 8) with link := 2 } : Io).event .HC_EVENT 0 1 }) ∧
    (s.io.link = 3 → Goes (.linkRecovery true) s { s with io := { s.io with link := 2 } }) ∧
    (s.io.link = 2 → Goes (.linkRecovery false) s { s with
      io := ({ s.io.inc .HC_RETRAINS with link := 3 } : Io).event .HC_EVENT 0 2 }) ∧
    (∀ t, s.host.graceEnd = some t → t ≤ s.mer.now → Goes .hostGraceExpiry s
      (({ s with free := s.free + 1, host := { s.host with graceEnd := none, parked := true }
                 io := s.io.event .HC_EVENT 0 4 }).announceDepart (Config.freeValue s.free % 2 ^ 64) 2)) ∧
    (∀ d3, Goes (.powerStateChange d3) s { s with host := { s.host with d3 := d3 } }) ∧
    (∀ v : Fin 2048, s.barShut = false → Goes (.msixUnmask v) s ({ s with io := s.io.msixPut (4 * v + 3) 0#32 }.flushMsix)) ∧
    (∀ d w, s.linkUp = true → s.se.result = 0 → Goes (.configRequest d w) s { s with io := s.io.send (.config false 0) }) ∧
    (∀ d, s.linkUp = true → s.se.result ≠ 0 → s.host.resetting = 0 → Goes (.configRequest d none) s { s with
      io := s.io.send (.config true (s.configRead d)) }) ∧
    Goes .writebackInvalidate s { s with xl := { s.xl with lines := [] } } ∧
    (∀ a : BitVec 64, Goes (.snoop a) s { s with
      xl := { s.xl with lines := s.xl.lines.filter (fun l => l.1 != a.toNat / 64 * 64) }, io := s.io.send (.snoopAck a.toNat) }) ∧
    (∀ bytes : List Byte, s.linkUp = true → s.se.result ≠ 0 → s.host.resetting = 0 → bytes.length ≤ 16384 →
      Goes (.doeRequest 1 1 bytes) s { s with host := { s.host with doe := bytes } })

/-- Tracing and telemetry (R305, R451 to R455): a mark waits for its instant and latches; the bank is released and dumped; a
snapshot opens into the page that is not current, completes into it, or is abandoned at its window's end. -/
def Obligations.TracingCommandsRun : Prop :=
  ∀ s : State,
    (∀ id c, s.readyCmd id 0x1F = some c → u8 c.entry 0x11 = 0 → s.mer.count ≤ u64 c.entry 0x18 → u64 c.entry 0x18 ≠ 0 →
      Goes (.cmdMark id) s ((s.runCmd id 1).addMark (u8 c.entry 0x10) (u64 c.entry 0x18) 2 false (some id) s.plan.ref)) ∧
    (∀ (p : Fin 64) (origin : Fin 16384) (seq : BitVec 32) (id : Fin 256) (m : BitVec 64) (t u : State),
      (s.port p.val).linked = true → s.newer origin seq.toNat = some t →
      u = t.floodFrom p 0x8000 0x23 origin (markBytes origin seq.toNat id m.toNat) →
      (u.mer.count < m.toNat → Goes (.rxMark p origin seq id m) s (u.addMark id m.toNat 3 true none origin)) ∧
      (m.toNat ≤ u.mer.count → Goes (.rxMark p origin seq id m) s
        ((u.addMark id u.mer.count 3 true none origin).mapIo (fun io => io.event .FB_TRAFFIC_EVENT 0 6)))) ∧
    (∀ k i c, s.dueInstant k = some (i, c) → i.kind = 3 →
      Goes (.markInstant k) s ((s.fired k c).addMark i.arg c 1 false none (s.fired k c).plan.ref)) ∧
    (∀ id : Fin 256, s.barShut = false → Goes (.trMark id) s (s.markNow id 5)) ∧
    Goes .markLatch s (((s.tr.marks.filter s.latches).foldl (fun l m => insertMark m l) []).foldl
      State.latch { s with tr := { s.tr with marks := s.tr.marks.filter (fun m => !s.latches m) } }) ∧
    (s.barShut = false → s.tr.dumping = true → Goes .trRelease s { s with tr := { s.tr with releaseAsked := true } }) ∧
    (s.barShut = false → s.tr.dumping = false → Goes .trRelease s { s with
      tr := { s.tr with mark := { s.tr.mark with held := false } } }) ∧
    (s.barShut = false → s.tr.mark.held = true → s.tr.dumping = false → s.io.dumpAddr % 256 = 0 →
      s.plan.dpaOk s.io.dumpAddr s.tr.mark.dumpLen = true → Goes .trDump s { s with
        tr := { s.tr with dumping := true, dumpAt := s.io.dumpAddr } }) ∧
    (s.tr.dumping = true → s.plan.dpaOk s.tr.dumpAt s.tr.mark.dumpLen = true → s.tr.releaseAsked = false →
      Goes .dumpDone s (({ s.sheetWrite .device s.tr.dumpAt s.tr.mark.dump with
        tr := { s.tr with dumping := false } } : State).trEvent 2)) ∧
    (∀ k i c, s.dueInstant k = some (i, c) → i.kind = 6 → s.tr.snapshot = none → Goes (.telemetryWindow k) s { s.fired k c with
      tr := { s.tr with snapshot := some (c + i.len, 1 - s.tr.cur, s.tr.seq + 1, c) } }) ∧
    (∀ ends page seq at', s.tr.snapshot = some (ends, page, seq, at') → s.mer.count < ends → Goes .snapshotDone s { s with
      ram := s.ram.poke (telemAddr page 0) (s.telemetry seq at')
      tr := { s.tr with snapshot := none, cur := page, seq := seq } }) ∧
    (∀ ends page seq at', s.tr.snapshot = some (ends, page, seq, at') → ends ≤ s.mer.count → Goes .telemetryWindowEnd s
      ({ s with tr := { s.tr with snapshot := none } }.trEvent 5))

/-- Firmware, keys and the fuses (R442 to R445): a boot stage ends, boot completes, a minimum advances, a record is submitted, and a
processed record has its effect: PROGRAM fills an EMPTY slot, REVOKE revokes, SET_PLAN_KEY burns a bank, RAISE_LOCK raises the
level, DEBUG_UNLOCK opens debug. -/
def Obligations.KeyCommandsRun : Prop :=
  ∀ s : State,
    (∀ read, s.pw.input = true → s.pw.perst = false → s.pw.st ≠ .tripped →
      Goes (.bootStage read) s { s with se := s.se.stage read }) ∧
    (s.se.boot = .done → s.se.result = 0 → ∃ t, Goes .bootComplete s t ∧ t.se.result = (if s.se.retry then 2 else 1) ∧
      t.se.nonce = s.freeBytes 16 ∧ t.free = s.free + 16) ∧
    (s.barShut = false → s.se.result = 1 → s.se.fuses.minFw < u16 s.se.bank.keeper 0x10 → s.se.fuses.fwAdvances < 64 →
      ∃ t, Goes .advanceFw s t ∧ t.se.fuses = { s.se.fuses with
        minFw := u16 s.se.bank.keeper 0x10, fwAdvances := s.se.fuses.fwAdvances + 1 } ∧ t.io = s.io.putN .SE_RESULT 0 0) ∧
    (s.barShut = false → s.plan.active = true → s.se.fuses.minPlan < s.plan.version → s.se.fuses.planAdvances < 64 →
      ∃ t, Goes .advancePlan s t ∧ t.se.fuses = { s.se.fuses with
        minPlan := s.plan.version, planAdvances := s.se.fuses.planAdvances + 1 } ∧ t.io = s.io.putN .SE_RESULT 0 0) ∧
    (s.barShut = false → s.plan.active = true → ∃ t, Goes .seSubmit s t ∧ t.se.nonce = s.freeBytes 16 ∧
      t.se.record = (if s.se.recordCode (s.ram.read (keyrecAddr 0) 272) = 0 then some (s.ram.read (keyrecAddr 0) 272)
        else s.se.record)) ∧
    (∀ r, s.se.processing 1 = some r → (s.se.fuses.slot (krSlot r)).1 = .empty → ∃ t, Goes .program s t ∧
      t.se.fuses = s.se.fuses.setSlot (krSlot r) (.active, (krPayload r).take 32) ∧ t.se.record = none) ∧
    (∀ r, s.se.processing 2 = some r → (∃ k < 4, k ≠ krSlot r ∧ (s.se.fuses.slot k).1 = .active) → ∃ t, Goes .revoke s t ∧
      t.se.fuses = s.se.fuses.setSlot (krSlot r) (.revoked, (s.se.fuses.slot (krSlot r)).2) ∧ t.se.record = none) ∧
    (∀ r, s.se.processing 3 = some r → s.se.fuses.keys.length < 4 → ∃ t, Goes .setPlanKey s t ∧ t.se.record = none ∧
      t.se.fuses = (match sm2Decrypt Config.deviceKey (krPayload r) with
        | some k => { s.se.fuses with keys := s.se.fuses.keys ++ [k] }
        | none => s.se.fuses)) ∧
    (∀ r, s.se.processing 4 = some r → ∃ t, Goes .debugUnlock s t ∧ t.se.debug = true ∧ t.se.record = none ∧
      t.se.fuses = s.se.fuses) ∧
    (∀ r, s.se.processing 5 = some r → s.se.fuses.lock < u8 r 2 → u8 r 2 ≤ 2 → ∃ t, Goes .raiseLock s t ∧
      t.se.fuses = { s.se.fuses with lock := u8 r 2 } ∧ t.se.record = none)

/-- SPDM (R448): each request that is served and in its place is answered with what the spec lists. -/
def Obligations.SpdmRequestsAnswered : Prop :=
  ∀ (s : State) (doe : Bool), s.spdmOn doe 1 = true → s.spdmOn doe 2 = true → s.spdmOn doe 3 = true →
    Goes (.getVersion doe) s ({ s with se := { s.se with version := true, agreed := false } }.spdm 0 [0x12] []) ∧
    (s.se.version = true → Goes (.getCapabilities doe) s (s.spdm 0 [1, 1, 2, 1] []) ∧
      Goes (.negotiateAlgorithms doe true true) s ({ s with se := { s.se with agreed := true } }.spdm 0 [1, 1, 1] [])) ∧
    (s.se.agreed = true →
      Goes (.getDigests doe) s (s.spdm 0 ((List.range 4).filter (fun i => s.chain i != []))
        (((List.range 4).filter (fun i => s.chain i != [])).flatMap (fun i => sm3 (s.chain i)))) ∧
      (∀ (slot : Fin 4) (off len : BitVec 16), s.chain slot ≠ [] → off.toNat ≤ (s.chain slot).length →
        Goes (.getCertificate doe slot off len) s (s.spdm 0 [slot, (slice (s.chain slot) off.toNat len.toNat).length,
          (s.chain slot).length - off.toNat - (slice (s.chain slot) off.toNat len.toNat).length]
          (slice (s.chain slot) off.toNat len.toNat))) ∧
      (∀ (slot : Fin 4) nonce, s.chain slot ≠ [] → Goes (.challenge doe slot nonce) s
        ({ s with free := s.free + 32 }.spdm 0 [slot]
          (s.signed nonce (sm3 (s.chain slot) ++ s.freeBytes 32)))) ∧
      (∀ (i : Fin 256) nonce, 1 ≤ i.val → i.val ≤ 6 → Goes (.getMeasurements doe i false nonce) s
        (s.spdm 0 [i] (s.measurement i))) ∧
      (∀ (slot : Fin 4) chain, slot.val ≠ 0 → Goes (.setCertificate doe slot chain) s (if Config.endsInDevice chain = true then
          { s with se := { s.se with certs := SMap.set (fun _ => []) s.se.certs slot chain } }.spdm 0 [slot] []
        else s.spdm 1 [] [])) ∧
      (∀ bytes, Goes (.chunkSend doe false bytes) s
        ({ s with se := { s.se with chunkIn := s.se.chunkIn ++ bytes } }.spdm 0 [(s.se.chunkIn ++ bytes).length] [])) ∧
      (∀ i, slice s.se.chunkOut (4096 * i) 4096 ≠ [] → 4096 * (i + 1) < s.se.chunkOut.length → Goes (.chunkGet doe i) s
        (s.spdm 0 [i, 0] (slice s.se.chunkOut (4096 * i) 4096))))

/-- MCTP control and PLDM (R440, R443, R449, R450): with the whole bus served, each command is answered with what the spec lists and
has its effect. -/
def Obligations.ManagementCommandsAnswered : Prop :=
  ∀ s : State, s.mgmtLevel = 3 →
    (∀ id : Fin 256, Goes (.setEndpointId id) s { s with
      se := { s.se with eid := id }, io := s.io.send (.mgmt 0 0 [id] []) }) ∧
    Goes .getEndpointId s (s.answer 0 0 [s.se.eid] []) ∧
    (∀ t : Fin 256, Goes (.getMctpVersionSupport t) s (s.answer 0 0 [t, Config.mctpVersion t % 2 ^ 32] [])) ∧
    Goes .getMessageTypeSupport s (s.answer 0 0 [0, 1, 5, 0x7E] []) ∧
    Goes .getEndpointUuid s (s.answer 0 0 [] Config.endpointUuid) ∧
    Goes .gettid s (s.answer 2 0 [0] []) ∧
    (∀ t : Fin 64, t.val = 0 ∨ t.val = 2 ∨ t.val = 5 → Goes (.getpldmversion t) s (s.answer 2 0 [t, Config.pldmVersion t % 2 ^ 32] [])) ∧
    Goes .getpldmtypes s (s.answer 2 0 [0x25] []) ∧
    Goes (.getpldmcommands 2) s (s.answer 2 0 [0x11, 0x21, 0x39, 0x51] []) ∧
    Goes .querydeviceidentifiers s (s.answer 2 0 [] s.identity) ∧
    (∀ c : Fin 256, channelReserved c = false →
      Goes (.pldmSensorRead (some c)) s (s.answer 2 0 [] (bytesOf (s.po.sensor c).value.toNat 4))) ∧
    Goes (.pldmSensorRead none) s (s.answer 2 0 [s.pw.st.code] []) ∧
    Goes .stateSetWake s (s.requestWake.answer 2 0 [] []) ∧ Goes .stateSetShutter s (s.requestShutter.answer 2 0 [] []) ∧
    (∀ bytes last, Goes (.pldmComponentTransfer 1 0 bytes last) s ({ s with
      se := { s.se with comp := 1, compBytes := putBytes [] 0 bytes, verified := false } }.answer 2 0 [] [])) ∧
    (s.se.comp = 0x20 ∨ (s.se.comp = 1 ∧ fwBad s.se.fuses s.se.compBytes = none) → Goes .pldmVerify s
      ({ s with se := { s.se with verified := true } }.answer 2 0 [] [])) ∧
    (s.se.comp = 1 → s.se.verified = true → Goes .activatefirmware s ({ s with se := s.se.newFirmware }.answer 2 0 [] [])) ∧
    (∀ bytes, s.se.debugOpen = true → Goes (.debugMessage bytes) s (s.answer 4 0 [] (Config.debugAnswer bytes)))

/-- Channels (R97 to R104): a planned retraining starts in a maintenance slot with the time it needs; a loss of margin starts an
unplanned one, and the third within 1,000 frames fails the channel; a retraining ends in time or fails the channel; a soft row
spare is taken; a storey is refreshed. -/
def Obligations.ChannelEventsRun : Prop :=
  ∀ (s : State) (st : Fin 16) (ph : Fin 64),
    ((s.liveChan st ph).isSome = true → ((s.stack st).chan ph).st = .ready → s.retrainDue st ph = true → s.inMaintenance = true →
      s.mer.count + 25000 ≤ s.slotEnd → (∀ p < 64, ((s.stack st).chan p).st ≠ .planned) →
      Goes (.plannedRetrain st ph) s { s with
        stk := setStack s.stk st (fun k => k.setChan ph (fun c => { c with st := .planned, since := s.mer.now }))
        io := s.io.incHi .ST_RETRAIN_COUNT st }) ∧
    ((s.liveChan st ph).isSome = true → (s.recentLosses st ph).length < 2 → ∃ t, Goes (.unplannedRetrain st ph) s t ∧
      t.stk = setStack (s.abandonPlanned st ph).stk st (fun k => k.setChan ph (fun c => { c with
        st := .unplanned, losses := s.recentLosses st ph ++ [(s.abandonPlanned st ph).frameNow]
        since := (s.abandonPlanned st ph).mer.now }))) ∧
    ((s.liveChan st ph).isSome = true → 2 ≤ (s.recentLosses st ph).length →
      Goes (.unplannedRetrain st ph) s (s.failChannel st ph) ∧ Goes (.channelFail st ph) s (s.failChannel st ph)) ∧
    (∀ ok, ((s.stack st).chan ph).st = .planned → ok = false ∨ ((s.stack st).chan ph).since + 30000 < s.mer.now →
      Goes (.retrainDone st ph ok) s (s.failChannel st ph)) ∧
    (((s.stack st).chan ph).st = .planned → s.mer.now ≤ ((s.stack st).chan ph).since + 30000 → s.plan.logicalOf st ph = none →
      Goes (.retrainDone st ph true) s { s with
        stk := setStack s.stk st (fun k => k.setChan ph (fun c => { c with st := .ready, temps := k.temps, frame := s.frameNow })) }) ∧
    (∀ r rest, (s.stack st).spareDue = r :: rest → s.plan.inService st = true → s.inMaintenance = true →
      s.mer.count + 2000 ≤ s.slotEnd → ∃ t, Goes (.softRowSpare st) s t ∧
      (0 < (({ s with stk := setStack s.stk st (fun k => { k with spareDue := rest }) } : State).stack st).rowsLeft r.channel r.storey →
        t.stk = setStack (setStack s.stk st (fun k => { k with spareDue := rest })) st (fun k => { k with soft := k.soft ++ [r] }))) ∧
    (∀ storey : Fin 8, s.plan.inService st = true → (s.stack st).selfRefresh = false → ∃ t, Goes (.refresh st ph storey) s t ∧
      t.stk = setStack s.stk st (fun k => { k with
        refreshed := SMap.set (fun _ => 0) k.refreshed (8 * ph + storey) s.mer.now }) ∧
      (∀ l, s.plan.logicalOf st ph = some l → t.rooms.openRow =
        SMap.drop (fun k => k / 8 / 1024 == 64 * st.val + l && k % 8 == storey.val) s.rooms.openRow))

/-- Repairs, scrubbing, calibration and content (R101, R105 to R107, R465, R466). -/
def Obligations.StackCommandsRun : Prop :=
  ∀ (s : State) (st : Fin 16),
    (s.barShut = false → Goes (.burnRow st) s (s.burn st 1) ∧ Goes (.burnColumn st) s (s.burn st 2) ∧
      Goes (.burnRoom st) s (s.burn st 3) ∧ Goes (.repairBadArg st) s (s.repairStatus st 4 (s.stack st).burn.isSome)) ∧
    (∀ r, (s.stack st).burn = some r → (s.stack st).burnLost = false → Goes (.burnDone st false) s
      ((({ s with stk := setStack s.stk st (fun k => { k with burn := none, burnLost := false }) } : State).repairStatus st 3
        false).stEvent st 5)) ∧
    (∀ k i c, s.dueInstant k = some (i, c) → i.kind = 4 → Goes (.scrubWindow k) s (s.serving.foldl (fun (u : State) q =>
      (u.endScrub q).setStk q (fun x => { x with
        scrub := some ⟨c + i.len, (u.endScrub q).plan.scrubQuota q + x.scrubCarry⟩, scrubCarry := 0 })) (s.fired k c))) ∧
    (∀ w, (s.stack st).scrub = some w → s.plan.inService st = true → w.quota ≠ 0 → s.mer.count < w.ends → s.plan.blocks st ≠ 0 →
      (s.ram.blk (st * 2 ^ 36 + 256 * (s.io.val .ST_SCRUB_POS st % s.plan.blocks st))).unc = 0 → ∃ t, Goes (.scrubBlock st false false 0) s t ∧
        t.io = s.io.putN .ST_SCRUB_POS st (if s.io.val .ST_SCRUB_POS st % s.plan.blocks st + 1 = s.plan.blocks st then 0
          else s.io.val .ST_SCRUB_POS st % s.plan.blocks st + 1) ∧ t.ram = s.ram) ∧
    Goes .scrubWindowEnd s ((List.range 16).foldl (fun (u : State) q =>
      match (u.stack q).scrub with | some w => if w.ends ≤ u.mer.count then u.endScrub q else u | none => u) s) ∧
    (∀ k i c, s.dueInstant k = some (i, c) → i.kind = 5 → Goes (.calibrateWindow k) s (s.serving.foldl (fun (u : State) q =>
      (u.endCal q).setStk q (fun x => { x with cal := some ⟨c + i.len, 1 + x.calCarry⟩, calCarry := 0 })) (s.fired k c))) ∧
    (∀ w, (s.stack st).cal = some w → s.plan.inService st = true → w.quota ≠ 0 → s.mer.count < w.ends →
      ∃ t, Goes (.calibrationStep st) s t ∧ t.stk = setStack s.stk st (fun k =>
        if k.calStep < 7 then { k with calStep := k.calStep + 1 }
        else { k with
          calStep := 0, calChannel := (k.calChannel + 1) % s.plan.channels st, cal := some { w with quota := w.quota - 1 } })) ∧
    Goes .calWindowEnd s ((List.range 16).foldl (fun (u : State) q =>
      match (u.stack q).cal with | some w => if w.ends ≤ u.mer.count then u.endCal q else u | none => u) s) ∧
    (∀ p, s.barShut = false → (s.stack st).clearing = false → (s.stack st).verifying = false → (s.stack st).preserve = some p →
      (s.stack st).content = .preserved → p.continuous = true → p.mapMatch = true → ∃ t, Goes (.contentAccept st) s t ∧
        t.stk = (({ s with stk := setStack s.stk st (fun k => { k with verifying := true }) } : State).refusedBit st false).stk) ∧
    (s.barShut = false → (s.stack st).content ≠ .none → Goes (.contentClear st) s
      (({ s with stk := setStack s.stk st (fun k => { k with verifying := false, clearing := true }) } : State).refusedBit st false)) ∧
    ((s.stack st).verifying = true → (s.badBlocks st).1 = [] → s.plan.tableWings = [] → Goes (.contentVerifyDone st) s { s with
      stk := setStack s.stk st (fun k => { k with verifying := false, content := .live, preserve := none })
      io := (s.io.putN .ST_VERIFY st (min (s.badBlocks st).2 65535)).add .RL_BCV_FAILS 0 0 }) ∧
    ((s.stack st).clearing = true → ∃ t, Goes (.contentClearDone st) s t ∧ t.ram = s.ram.clearSheet st (s.plan.channels st) ∧
      t.stk = setStack s.stk st (fun k => { k with clearing := false, content := .live, preserve := none }))

/-- Duplicated computation and digests (R404, R409, R414, R418 to R423): samples that agree end, a mismatch goes to an arbiter and
charges the unit that is wrong; digests are gathered and decided; a rejoin ends; a layer is restarted; a cut is asked for. -/
def Obligations.ReliabilityCommandsRun : Prop :=
  ∀ s : State,
    (∀ k x (sig : BitVec 64), s.rl.samples.at k = some x → x.twin = false → x.arbiter = none → s.comparable x = true →
      (sig = x.signature → Goes (.shadowCompare k sig) s (s.sampleStands k x)) ∧
      (∀ b, x.tile = false → sig ≠ x.signature → (s.mismatch x).roomUp x.shadow [x.origin, x.shadow] = some b →
        Goes (.shadowCompare k sig) s { s.mismatch x with rl := { (s.mismatch x).rl with
          samples := (s.mismatch x).rl.samples.put k { x with arbiter := some b, other := sig } } })) ∧
    (∀ k x b (sig : BitVec 64), s.rl.samples.at k = some x → x.arbiter = some b →
      (sig = x.signature → Goes (.arbiterDone k sig b) s ((s.sampleStands k x).chargeIn x.tile x.shadow)) ∧
      (sig ≠ x.signature → sig = x.other → x.tile = true →
        Goes (.arbiterDone k sig b) s ((s.sampleFails k x).chargeIn x.tile x.origin)) ∧
      (sig ≠ x.signature → sig ≠ x.other → Goes (.arbiterDone k sig b) s
        ((((s.sampleFails k x).chargeIn x.tile x.origin).chargeIn x.tile x.shadow).chargeIn x.tile b))) ∧
    (∀ k x, s.rl.samples.at k = some x → x.twin = true → x.tile = false → x.ended.isSome = true →
      ∀ f g, Goes (.twinCompare k true f g) s ((((s.dropSample k).release x x.origin).release x x.shadow).callOver x)) ∧
    (∀ (g : Fin 4096) (d : Digest), s.rl.comparing.find? (fun (d : Digest) => d.group == g.val && !d.issued) = some d →
      s.plan.digestArea + 2 ^ 20 < s.digestAt g + s.digestSpan g → Goes (.digestComparison g) s { s with
        rl := { s.rl with comparing := s.rl.comparing.filter (fun (e : Digest) => e != d) }, io := s.io.inc .RL_DIGEST_LATE }) ∧
    (∀ (g : Fin 4096) (d : Digest), s.rl.comparing.find? (fun (d : Digest) => d.group == g.val && !d.issued) = some d →
      s.digestAt g + s.digestSpan g ≤ s.plan.digestArea + 2 ^ 20 → ∃ u : State, Goes (.digestComparison g) s (u.collIssue
        ⟨g, s.digestCall d.step, 3, 0, 8 * (s.groupLayers g).length,
          s.digestAt g + (s.groupOf g).idxOf s.plan.ref * (32 * (s.groupLayers g).length), s.digestAt g, 0, false, 0, 0, 0, 2, none,
          true, false, [], false, none⟩) ∧
        u.rl.comparing = s.rl.comparing.map (fun (e : Digest) => if e = d then { e with issued := true } else e)) ∧
    (∀ (g : Fin 4096) (d : Digest) t st, s.rl.comparing.find? (fun (d : Digest) => d.group == g.val && d.issued) = some d →
      s.takeColl g (s.digestCall d.step) = some (t, st) → st ≠ stDone → Goes (.digestDecide g) s { t with
        rl := { t.rl with comparing := t.rl.comparing.filter (fun (e : Digest) => e != d) }, io := t.io.inc .RL_DIGEST_LATE }) ∧
    (∀ (g : Fin 4096) (d : Digest) t, s.rl.comparing.find? (fun (d : Digest) => d.group == g.val && d.issued) = some d →
      s.takeColl g (s.digestCall d.step) = some (t, stDone) → Goes (.digestDecide g) s
        ((((s.groupLayers g).map (·.1)).foldl (fun (u : State) id =>
          u.decideLayer d (s.digestAt g) (s.groupLayers g).length id) { t with
            rl := { t.rl with comparing := t.rl.comparing.filter (fun (e : Digest) => e != d) }, io := t.io.inc .RL_DIGESTS }).pumpRejoin g)) ∧
    (∀ (g : Fin 4096) (r : Rejoin) t, s.rl.rejoin.find? (fun (r : Rejoin) => r.group == g.val) = some r → r.issued = true → r.late = false →
      r.own = false → s.takeColl g (s.rejoinCall r.step) = some (t, stDone) → Goes (.rejoinCopyDone g) s
        ({ t with rl := { t.rl with rejoin := t.rl.rejoin.erase r } }.pumpRejoin g)) ∧
    (∀ v : BitVec 32, s.barShut = false → (s.entryNow (layerKey (v.toNat % 4096))).isSome = true →
      Goes (.rlRestartWrite v) s (s.restartLayer (v.toNat % 4096))) ∧
    (s.barShut = false → s.rl.ckpt = none → Goes .rlCkptGo s { s with
      rl := { s.rl with ckpt := some ⟨s.io.val .RL_CKPT_LIST_LO / 16 * 16 + s.io.val .RL_CKPT_LIST_HI * 2 ^ 32,
        s.io.val .RL_CKPT_COUNT % 2048, s.io.val .RL_CKPT_DEST_LO / 16 * 16 + s.io.val .RL_CKPT_DEST_HI * 2 ^ 32⟩ }
      io := s.io.putN .RL_CKPT_STATUS 0 (2 ^ 31) }) ∧
    (∀ v : BitVec 32, s.barShut = false → v.getLsbD 0 = true → Goes (.rlLogClear v) s { s with rl := { s.rl with log := [] } })

/-- Scalar instructions of a room core (Table 6-5, R121): the destination takes the result, the core goes on with the next word
after one rc, and nothing else of the machine changes. -/
def Obligations.RoomArithmeticRuns : Prop :=
  ∀ (s : State) (r : Fin 1048576) (c : Core) (w : Nat),
    (Issues s r 0x01 c w → Goes (.nop r) s (roomNext s r c 1)) ∧
    (Issues s r 0x02 c w → Goes (.add r) s (roomNext s r (c.setReg (iD w) (c.reg (iA w) + c.reg (iB w))) 1)) ∧
    (Issues s r 0x03 c w → Goes (.sub r) s (roomNext s r (c.setReg (iD w) (c.reg (iA w) - c.reg (iB w))) 1)) ∧
    (Issues s r 0x04 c w → Goes (.and r) s (roomNext s r (c.setReg (iD w) (c.reg (iA w) &&& c.reg (iB w))) 1)) ∧
    (Issues s r 0x05 c w → Goes (.or r) s (roomNext s r (c.setReg (iD w) (c.reg (iA w) ||| c.reg (iB w))) 1)) ∧
    (Issues s r 0x06 c w → Goes (.xor r) s (roomNext s r (c.setReg (iD w) (c.reg (iA w) ^^^ c.reg (iB w))) 1)) ∧
    (Issues s r 0x07 c w → Goes (.shl r) s (roomNext s r (c.setReg (iD w) (c.reg (iA w) <<< shiftAmount c w)) 1)) ∧
    (Issues s r 0x08 c w → Goes (.shr r) s (roomNext s r (c.setReg (iD w) (c.reg (iA w) >>> shiftAmount c w)) 1)) ∧
    (Issues s r 0x09 c w → Goes (.sra r) s (roomNext s r (c.setReg (iD w) ((c.reg (iA w)).sshiftRight (shiftAmount c w))) 1)) ∧
    (Issues s r 0x0A c w → Goes (.mul r) s (roomNext s r (c.setReg (iD w) (c.reg (iA w) * c.reg (iB w))) 1)) ∧
    (Issues s r 0x0B c w → w % 2 = 0 → Goes (.slt r) s
      (roomNext s r (c.setReg (iD w) (if (c.reg (iA w)).slt (c.reg (iB w)) then 1#32 else 0#32)) 1)) ∧
    (Issues s r 0x0B c w → w % 2 = 1 → Goes (.slt r) s
      (roomNext s r (c.setReg (iD w) (if (c.reg (iA w)).ult (c.reg (iB w)) then 1#32 else 0#32)) 1)) ∧
    (Issues s r 0x0C c w → Goes (.addi r) s
      (roomNext s r (c.setReg (iD w) (c.reg (iA w) + BitVec.ofInt 32 (BitVec.ofNat 18 w).toInt)) 1)) ∧
    (Issues s r 0x0D c w → Goes (.lui r) s (roomNext s r (c.setReg (iD w) (BitVec.ofNat 32 (w % 2 ^ 22 * 2 ^ 10))) 1)) ∧
    (Issues s r 0x32 c w → w % 16 ≠ 5 → w % 16 ≠ 6 → Goes (.gets r) s
      (roomNext s r (c.setReg (iD w) (BitVec.ofNat 32 (s.special c (w % 16)))) 1)) ∧
    (Issues s r 0x32 c w → c.sample = none → (w % 16 = 5 ∨ w % 16 = 6) → Goes (.gets r) s
      (s.setCore r { c.setReg (iD w) (BitVec.ofNat 32 (s.special c (w % 16))) with pc := c.pc + 1, rc := c.rc + 1 })) ∧
    (Issues s r 0x2B c w → Goes (.rseed r) s (roomNext s r { c with
      key := genKey (c.num (iD w)) (c.num (iA w) % 4096) (w % 16), row := c.num (iB w), ctr := 0 } 2)) ∧
    (Issues s r 0x2C c w → Goes (.rand r) s (roomNext s r { c.setReg (iD w) ((genDraw c.key c.row c.ctr >>> 32).setWidth 32) with
      ctr := (c.ctr + 1) % 2 ^ 32 } 4))

/-- Floating-point instructions of a room core (Table 6-6, R122): each writes its function of a and b and takes its cost in rc. -/
def Obligations.RoomFloatRuns : Prop :=
  ∀ (s : State) (r : Fin 1048576) (c : Core) (w : Nat), Issues s r 0x1B c w →
    (∀ e ∈ ([(.fadd r, 0, 1, f32add), (.fsub r, 1, 1, f32sub), (.fmul r, 2, 1, f32mul), (.fdiv r, 3, 8, f32div),
        (.fsqrt r, 4, 8, fun x _ => f32sqrt x), (.fmin r, 6, 1, f32min), (.fmax r, 7, 1, f32max),
        (.itof r, 8, 1, fun x _ => int32toF32 .rne x), (.ftoi r, 9, 1, fun x _ => f32toInt32 .rne x),
        (.flt r, 10, 1, fun x y => if f32lt x y then 1#32 else 0#32)] : List (Instr × Nat × Nat × (Word → Word → Word))),
      iF w = e.2.1 → Goes e.1 s (roomNext s r (c.setReg (iD w) (e.2.2.2 (c.reg (iA w)) (c.reg (iB w)))) e.2.2.1)) ∧
    (iF w = 5 → c.reg (iA w) = 0x80000000#32 → Goes (.frsq r) s (roomNext s r (c.setReg (iD w) 0xFF800000#32) 4)) ∧
    (iF w = 5 → c.reg (iA w) ≠ 0x80000000#32 → Goes (.frsq r) s
      (roomNext s r (c.setReg (iD w) (within 1 9 (c.reg (iA w)) (f32rsqrtExact (c.reg (iA w))))) 4))

/-- Branches and jumps (R119): a target is a word index computed without wrapping; one in the code area is where the core goes
on, one outside it ends the call with PC_RANGE, and a branch not taken goes on with the next word. -/
def Obligations.RoomBranchesRun : Prop :=
  ∀ (s : State) (r : Fin 1048576) (c : Core) (w : Nat) (a b : Word) (target : Int), a = c.reg (iD w) → b = c.reg (iA w) →
    target = c.pc + (BitVec.ofNat 18 w).toInt →
    (∀ e ∈ ([(.beq r, 0x0E, a == b), (.bne r, 0x0F, a != b), (.blt r, 0x10, a.slt b), (.bge r, 0x11, !a.slt b)] :
        List (Instr × Nat × Bool)), Issues s r e.2.1 c w →
      (e.2.2 = false → Goes e.1 s (roomNext s r c 1)) ∧
      (e.2.2 = true → 0 ≤ target → target ≤ 12287 → Goes e.1 s (roomGoes s r c target.toNat 2)) ∧
      (e.2.2 = true → (target < 0 ∨ 12287 < target) → Goes e.1 s (s.endCall r c stInvalid (some 2)))) ∧
    (Issues s r 0x12 c w → ∀ t : Int, t = c.pc + (BitVec.ofNat 22 w).toInt →
      (0 ≤ t → t ≤ 12287 → Goes (.jal r) s (roomGoes s r (c.setReg (iD w) (BitVec.ofNat 32 (c.pc + 1))) t.toNat 2)) ∧
      ((t < 0 ∨ 12287 < t) → Goes (.jal r) s (s.endCall r c stInvalid (some 2)))) ∧
    (Issues s r 0x13 c w → ∀ t : Int, t = b.toNat + (BitVec.ofNat 18 w).toInt →
      (0 ≤ t → t ≤ 12287 → Goes (.jr r) s (roomGoes s r c t.toNat 2)) ∧
      ((t < 0 ∨ 12287 < t) → Goes (.jr r) s (s.endCall r c stInvalid (some 2)))) ∧
    (Issues s r 0x14 c w →
      (a = 1#32 → 0 ≤ target → target ≤ 12287 → Goes (.loop r) s (roomNext s r (c.setReg (iD w) 0#32) 1)) ∧
      (a ≠ 1#32 → 0 ≤ target → target ≤ 12287 → Goes (.loop r) s (roomGoes s r (c.setReg (iD w) (a - 1#32)) target.toNat 2)) ∧
      ((target < 0 ∨ 12287 < target) → Goes (.loop r) s (s.endCall r c stInvalid (some 2))))

/-- Loads and stores of a room core (Table 6-5, R126): an aligned access of scratch or of the code
store moves its bytes; a misaligned one, or one that reaches outside, ends the call with SCRATCH or STORE. -/
def Obligations.RoomMemoryRuns : Prop :=
  ∀ (s : State) (r : Fin 1048576) (c : Core) (w a : Nat), a = (c.reg (iA w) + BitVec.ofInt 32 (BitVec.ofNat 18 w).toInt).toNat →
    (∀ e ∈ ([(.lds r, 0x15, 4), (.sts r, 0x16, 4), (.ldsv r, 0x17, 16), (.stsv r, 0x18, 16)] : List (Instr × Nat × Nat)),
      Issues s r e.2.1 c w → (a % e.2.2 ≠ 0 ∨ 2048 < a + e.2.2) → Goes e.1 s (s.endCall r c stInvalid (some 3))) ∧
    (∀ e ∈ ([(.ldc r, 0x19, 4), (.ldcv r, 0x1A, 16)] : List (Instr × Nat × Nat)),
      Issues s r e.2.1 c w → (a % e.2.2 ≠ 0 ∨ 65536 < a + e.2.2) → Goes e.1 s (s.endCall r c stInvalid (some 4))) ∧
    (∀ c' : Core, c' = c.race s.free a 4 false → Issues s r 0x15 c w → a % 4 = 0 → a + 4 ≤ 2048 →
      Goes (.lds r) s (roomNext s r (c'.setReg (iD w) (c'.word a)) 1)) ∧
    (Issues s r 0x16 c w → a % 4 = 0 → a + 4 ≤ 2048 → Goes (.sts r) s
      (roomNext s r ((c.race s.free a 4 true).poke a (bytesOf (c.reg (iD w)).toNat 4)) 1)) ∧
    (∀ c' : Core, c' = c.race s.free a 16 false → Issues s r 0x17 c w → a % 16 = 0 → a + 16 ≤ 2048 → Goes (.ldsv r) s
      (roomNext s r (c'.setVec (iD w) (BitVec.ofNat 128 (le (c'.peek a 16) 0 16))) 1)) ∧
    (Issues s r 0x18 c w → a % 16 = 0 → a + 16 ≤ 2048 → Goes (.stsv r) s
      (roomNext s r ((c.race s.free a 16 true).poke a (bytesOf (c.vec (iD w)).toNat 16)) 1)) ∧
    (Issues s r 0x19 c w → a % 4 = 0 → a + 4 ≤ 65536 → Goes (.ldc r) s
      (roomNext s r (c.setReg (iD w) (BitVec.ofNat 32 (le (s.ram.read (progAddr (r / 65536) (r / 1024 % 64) a) 4) 0 4))) 2)) ∧
    (Issues s r 0x1A c w → a % 16 = 0 → a + 16 ≤ 65536 → Goes (.ldcv r) s
      (roomNext s r (c.setVec (iD w) (BitVec.ofNat 128 (le (s.ram.read (progAddr (r / 65536) (r / 1024 % 64) a) 16) 0 16))) 2))

/-- Vector instructions of a room core (R123): lanes of FP32, BF16 or INT32 by the word's lane type, each rounded once; a
Reserved lane type ends the call with FORMAT. -/
def Obligations.RoomVectorsRun : Prop :=
  ∀ (s : State) (r : Fin 1048576) (c : Core) (w : Nat),
    (∀ e ∈ ([(.vadd r, 0x1C, fun x y _ => x.add y, fun x y _ => x + y), (.vmul r, 0x1D, fun x y _ => x.mul y, fun x y _ => x * y),
        (.vfma r, 0x1E, fun x y z => x.fma y z, fun x y z => z + x * y),
        (.vmax r, 0x1F, fun x y _ => x.max y, fun x y _ => if x.slt y then y else x)] :
        List (Instr × Nat × (Val → Val → Val → Val) × (Word → Word → Word → Word))), Issues s r e.2.1 c w →
      (2 < iLt w → Goes e.1 s (s.endCall r c stInvalid (some 11))) ∧
      (iLt w ≤ 2 → Goes e.1 s (roomNext s r (c.setVec (iVd w) (ofLanes (iLt w) ((List.range (128 / laneBits (iLt w))).map (fun i =>
        laneOp (iLt w) e.2.2.1 e.2.2.2 ((lanesOf (c.vec (iVa w)) (iLt w)).getD i 0) ((lanesOf (c.vec (iVb w)) (iLt w)).getD i 0)
          ((lanesOf (c.vec (iVd w)) (iLt w)).getD i 0))))) 1))) ∧
    (Issues s r 0x20 c w → (2 < iLt w ∨ 2 < iF w % 8) → Goes (.vcvt r) s (s.endCall r c stInvalid (some 11))) ∧
    (Issues s r 0x20 c w → iLt w = 2 → iF w % 8 = 0 → bit (iF w) 4 = false → Goes (.vcvt r) s (roomNext s r ((c.setVec (iVd w)
      (ofLanes 0 (((lanesOf (c.vec (iVa w)) 2).zipIdx).map (fun p => cvtLane 2 0 .rne p.1)))).drawn 0) 1)) ∧
    (Issues s r 0x21 c w → iF w % 8 ≤ 2 → Goes (.vsplat r) s (roomNext s r (c.setVec (iD w % 8)
      (ofLanes (iF w % 8) (List.replicate (128 / laneBits (iF w % 8)) (c.num (iA w))))) 1)) ∧
    (Issues s r 0x22 c w → iF w % 8 ≤ 1 → Goes (.vsum r) s (roomNext s r (c.setReg (iD w)
      (treeSum (if iF w % 8 = 1 then 3 else 2) ((lanesOf (c.vec (iA w % 8)) (iF w % 8)).map (fun (x : Nat) =>
        vf ((laneFp (iF w % 8)).decode x))))) 2)) ∧
    (Issues s r 0x22 c w → 1 < iF w % 8 → Goes (.vsum r) s (s.endCall r c stInvalid (some 11))) ∧
    (Issues s r 0x23 c w → bit (iF w) 13 = false → Goes (.vmovGet r) s (roomNext s r (c.setReg (iD w)
      (BitVec.ofNat 32 ((lanesOf (c.vec (iA w % 8)) 0).getD (iF w % 4) 0))) 1)) ∧
    (Issues s r 0x23 c w → bit (iF w) 13 = true → Goes (.vmovPut r) s (roomNext s r (c.setVec (iD w % 8)
      (ofLanes 0 ((lanesOf (c.vec (iD w % 8)) 0).set (iF w % 4) (c.num (iA w))))) 1))

/-- Waiting, events and the end of a call (R124, R137, R138): a wait whose event is set goes on, one whose event is not waits; a
FENCE or an END with nothing outstanding goes on or ends the call; TRAP ends it with TRAPPED. -/
def Obligations.RoomWaitsRun : Prop :=
  ∀ (s : State) (r : Fin 1048576) (c : Core) (w : Nat),
    (Issues s r 0x2F c w → c.failedIn (w % 256) = false → c.ready (w % 256) (bit w 8) = false →
      Goes (.wait r) s (s.setCore r { c with wait := .events (w % 256) (bit w 8) })) ∧
    (Issues s r 0x2F c w → c.failedIn (w % 256) = false → c.ready (w % 256) (bit w 8) = true →
      (c.readyAt (w % 256) (bit w 8) < s.callLimit (r / 65536) + c.paused → Goes (.wait r) s (s.setCore r { c with
        wait := .run, pc := c.pc + 1, rc := max c.rc (c.readyAt (w % 256) (bit w 8)) + 1 })) ∧
      (s.callLimit (r / 65536) + c.paused ≤ c.readyAt (w % 256) (bit w 8) → Goes (.wait r) s
        (s.endCall r { c with wait := .events (w % 256) (bit w 8) } stWatchdog (some 9)))) ∧
    (Issues s r 0x31 c w → c.failedIn 15 = false → c.idle = true → c.lastAt < s.callLimit (r / 65536) + c.paused →
      Goes (.fence r) s (s.setCore r { c with wait := .run, pc := c.pc + 1, rc := max c.rc c.lastAt + 1 })) ∧
    (Issues s r 0x31 c w → c.failedIn 15 = false → c.idle = false → Goes (.fence r) s (s.setCore r { c with wait := .fence })) ∧
    (Issues s r 0x33 c w → c.failedIn 15 = false → c.idle = true → c.lastAt < s.callLimit (r / 65536) + c.paused →
      Goes (.endCall r) s (s.endCall r
        { c with wait := .endOf (endStatus (c.num (iA w) % 256)), rc := max c.rc c.lastAt + 2 }
        (endStatus (c.num (iA w) % 256)) none)) ∧
    (Issues s r 0x30 c w → Goes (.evt r) s (roomNext s r
      ({ c with events := c.events &&& (255 - w % 64) }.setReg (iD w) (BitVec.ofNat 32 c.events)) 1)) ∧
    (Issues s r 0x34 c w → Goes (.trap r) s (s.endCall r c (if w % 256 ≤ 0x0F then w % 256 else stInvalid) (some 10))) ∧
    (∀ c, s.rooms.cores.at r = some c → c.wait = .run → c.cancelled = false → s.limitRc c < s.callLimit (r / 65536) →
      (c.pc < 12288 → wordOk (s.progWord r c.pc) = false → Goes (.illegal r) s (s.endCall r c stInvalid (some 1))) ∧
      (12288 ≤ c.pc → Goes (.illegal r) s (s.endCall r c stInvalid (some 2)))) ∧
    (∀ c, s.rooms.cores.at r = some c → c.cancelled = false → s.callLimit (r / 65536) ≤ s.limitRc c →
      Goes (.limit r) s (s.endCall r c stWatchdog (some 9))) ∧
    (∀ c u, s.rooms.cores.at r = some c → c.cancelled = true →
      u = c.held.foldl (fun (u : State) h => u.roomWrite (coreWriter h.1) c.home h.2.1 h.2.2) s →
      ∃ t, Goes (.callCancel r) s t ∧ t.rooms.cores = u.rooms.cores.del r ∧ t.ram = u.ram)

/-- The DRAM, record and message instructions of a room core (R124, R126, R129, R131, R136): what each does where its checks
pass, and the exception it takes where its range or its count is wrong. -/
def Obligations.RoomRowsRun : Prop :=
  ∀ (s : State) (r : Fin 1048576) (c c0 c1 : Core) (w o a n g slot : Nat), o = c.num (iD w) → a = c.num (iA w) → n = c.num (iB w) →
    slot = iF w % 4 → (g = if bit (iF w) 2 then 256 else 64) →
    c0 = { c with rc := max c.rc (c.evAt.getD slot 0) } →
    (Issues s r 0x24 c w → o % g = 0 → n % g = 0 → 64 ≤ n → n ≤ 2048 → o + n ≤ 1048576 → a % 16 = 0 → a + n ≤ 2048 →
      c.slots.at slot = none → s.roomChan c.home = .ready →
      c1 = (c0.race s.free a n true).clearEvent slot (c0.rc + 16 + 16 * (n / 64 - 1) + s.rowCost r c o) →
      Goes (.rfetch r) s (((s.drew (if c.racy then 128 else 0)).opened c.home o n).setCore r { c1 with
        pc := c.pc + 1, rc := c0.rc + 1
        slots := c1.slots.put slot ⟨false, a, o, s.dram c o n, bit (iF w) 2,
          !s.dramEcc c o n || (bit (iF w) 2 && !s.dramBcv c o n), false, []⟩ })) ∧
    (Issues s r 0x25 c w → o % g = 0 → n % g = 0 → 64 ≤ n → n ≤ 2048 → o + n ≤ 1048576 → a % 16 = 0 → a + n ≤ 2048 →
      c.slots.at slot = none → s.roomChan c.home = .ready →
      c1 = (c0.race s.free a n false).clearEvent slot (c0.rc + 16 * (n / 64) + s.rowCost r c o) →
      Goes (.rput r) s (((s.drew (if c.racy then 128 else 0)).opened c.home o n).dramWrite r { c1 with
        pc := c.pc + 1, rc := c0.rc + 1
        slots := c1.slots.put slot ⟨true, a, o, c1.peek a n, bit (iF w) 2, false, false, []⟩ } (bit (iF w) 2) o (c1.peek a n))) ∧
    ((o % g ≠ 0 ∨ n % g ≠ 0 ∨ n < 64 ∨ 2048 < n ∨ 1048576 < o + n) →
      (Issues s r 0x24 c w → Goes (.rfetch r) s (s.endCall r c stInvalid (some 5))) ∧
      (Issues s r 0x25 c w → Goes (.rput r) s (s.endCall r c stInvalid (some 5)))) ∧
    (Issues s r 0x26 c w → n % 64 = 0 → 64 ≤ n → n ≤ 2048 → o % 16 = 0 → o + n ≤ 2048 → c1 = c.race s.free o n false →
      Goes (.rcheck r) s (roomNext s r (c1.setReg (iA w) (if rowCheckOk (c1.peek o n) then 0#32 else 1#32)) (2 + n / 16))) ∧
    (Issues s r 0x28 c w → a % 4 = 0 → a + 4 * n ≤ 2048 → c1 = c.race s.free a (4 * n) true →
      Goes (.scale r) s (roomNext s r (c1.poke a ((List.range n).flatMap (fun i =>
        bytesOf (f32mul (c1.word (a + 4 * i)) (c.reg (iD w))).toNat 4))) (2 + (n + 3) / 4))) ∧
    (∀ z, z = fmtBits (iF w / 2048) / 8 → Issues s r 0x29 c w → iF w / 2048 ≤ 3 → o % 4 = 0 → a % z = 0 → o + 4 * n ≤ 2048 →
      a + z * n ≤ 2048 → (a = o ∨ a + z * n ≤ o ∨ o + 4 * n ≤ a) →
      c1 = (c.race s.free o (4 * n) false).race s.free a (z * n) true →
      Goes (.pack r) s (roomNext s r ((c1.poke a ((List.range n).flatMap (fun i =>
        encodeElem (iF w / 2048) (c.rnd (bit (iF w) 0) i) (c1.word (o + 4 * i))))).drawn (if bit (iF w) 0 then n else 0))
        (2 + (n + 3) / 4))) ∧
    (Issues s r 0x29 c w → 3 < iF w / 2048 → Goes (.pack r) s (s.endCall r c stInvalid (some 11))) ∧
    (Issues s r 0x2D c w → n % 16 = 0 → 16 ≤ n → n ≤ 2048 → a + n ≤ 2048 → c.recv = none →
      (c.ppos + n ≤ c.call.payload.length → ∀ q, q = max c.rc (c.evAt.getD 4 0) → Goes (.recv r) s (roomNext s r
        { ((({ c with rc := q } : Core).race s.free a n true).clearEvent 4 (q + 2 + n / 16)) with
          recv := some (a, slice c.call.payload c.ppos n), ppos := c.ppos + n } 1)) ∧
      (c.call.payload.length < c.ppos + n → Goes (.recv r) s (s.endCall r c stInvalid (some 6)))) ∧
    (Issues s r 0x2E c w → n % 16 = 0 → 16 ≤ n → n ≤ 2048 → o + n ≤ 2048 → c.sends.length < 4 →
      ∀ q e, q = max c.rc (c.sendAt.getD 3 0) → e = max (q + 2 + n / 16) (c.sendAt.headD 0) →
      c1 = (({ c with rc := q } : Core).race s.free o n false).clearEvent 5 e →
      Goes (.send r) s (roomNext s r { c1 with
        sendAt := (e :: c.sendAt).take 4, sends := c1.sends ++ [⟨iF w / 4096, o, c1.peek o n, []⟩] } 1))

/-- Records (R127, R128, R130): DQACC adds, assigns or takes the maximum of a sound record's elements in scratch, and both it
and FUPD end the call with CHECK on a record whose row check fails; FUPD outside an update call is ILLEGAL. -/
def Obligations.RoomRecordsRun : Prop :=
  ∀ (s : State) (r : Fin 1048576) (c : Core) (w o b sl fmt j0 k d : Nat), o = c.num (iD w) → b = c.num (iA w) → sl = c.num (iB w) →
    fmt = iF w / 2048 → j0 = sl % 1024 → k = sl / 1024 % 256 + 1 → d = sl / 2 ^ 18 % 2048 →
    (∀ e ∈ ([(.dqaccAssign r, 0, fun x v _ => f32mul x v), (.dqaccAdd r, 1, fun x v acc => f32fma x v acc),
        (.dqaccMax r, 2, fun _ v acc => f32max acc v)] : List (Instr × Nat × (Word → Word → Word → Word))),
      Issues s r 0x27 c w → iF w / 512 % 4 = e.2.1 → sl / 2 ^ 29 = 0 → 16 ≤ d → d ≤ 1024 → d % 16 = 0 → j0 + k ≤ d → b % 16 = 0 →
      b + 4 * k ≤ 2048 → o % 64 = 0 → o + recLen fmt d ≤ 1048576 → s.roomChan c.home = .ready →
      s.dramEcc c o (recLen fmt d) = true →
      (rowCheckOk (s.dram c o (recLen fmt d)) = true → ∀ c1, c1 = c.race s.free b (4 * k) true →
        Goes e.1 s (((s.opened c.home o (recLen fmt d)).drew (if c.racy then 128 else 0)).setCore r { c1.poke b ((List.range k).flatMap (fun m =>
          bytesOf (e.2.2 (c.reg (iF w / 32 % 16)) (recVal fmt d (s.dram c o (recLen fmt d)) (j0 + m)) (c1.word (b + 4 * m))).toNat 4)) with
          pc := c.pc + 1, rc := c.rc + (16 + max (recLen fmt d / 4) ((k + 3) / 4) + s.rowCost r c o) })) ∧
      (rowCheckOk (s.dram c o (recLen fmt d)) = false →
        Goes e.1 s (((s.opened c.home o (recLen fmt d)).logRow c.home false).endCall r c stCheck (some 7)))) ∧
    (Issues s r 0x2A c w → c.call.update = false → Goes (.fupd r) s (s.endCall r c stInvalid (some 1))) ∧
    (∀ (p : UpdParams) (l : Nat) (wing t rec : List Byte), Issues s r 0x2A c w → c.call.update = true →
      p = updParams (s.ram.read (progAddr (r / 65536) (r / 1024 % 64) b) 32) → s.plan.wingOf c.home = some wing →
      s.plan.table (wOwner wing % 4096) = some t → tDim t = p.dim → 16 ≤ p.dim → p.dim ≤ 1024 → l = recLen fmt p.dim →
      b % 16 = 0 → 0xC000 ≤ b → b + 32 ≤ 65536 → p.norm % 16 = 0 → 0xC000 ≤ p.norm → p.norm + 4 * p.dim ≤ 65536 →
      c.ppos + 4 * p.dim ≤ c.call.payload.length → o % 64 = 0 → o + l ≤ 1048576 → c.recv = none → s.roomChan c.home = .ready →
      s.dramEcc c o l = true → rec = s.dram c o l → rowCheckOk rec = true →
      ∀ q, q = max c.rc (c.evAt.getD 4 0) →
      (bit (u8 rec 10) 0 = true → ∃ u : State, u.ram = s.ram ∧ Goes (.fupd r) s (u.setCore r
        { ((({ c with rc := q, ppos := c.ppos + 4 * p.dim } : Core).setReg (iB w) 7#32).setReg (iB w + 1) 0#32) with
          pc := c.pc + 1, rc := q + (20 + l / 4 + s.rowCost r c o) })) ∧
      (bit (u8 rec 10) 0 = false → ∀ out, out = updRecord fmt (wOwner wing % 4096) (c.num (iB w)) p
          ((List.range p.dim).map (fun j => BitVec.ofNat 32 (u32 (s.ram.read (progAddr (r / 65536) (r / 1024 % 64) p.norm) (4 * p.dim)) (4 * j))))
          ((List.range p.dim).map (fun j => BitVec.ofNat 32 (u32 (slice c.call.payload c.ppos (4 * p.dim)) (4 * j)))) rec →
        ∃ u : State, u.ram = s.ram ∧ Goes (.fupd r) s (u.dramWrite r
          { ((({ c with rc := q, ppos := c.ppos + 4 * p.dim } : Core).setReg (iB w) 0#32).setReg (iB w + 1) out.2) with
            pc := c.pc + 1, rc := q + (20 + l / 4 + s.rowCost r c o) + p.dim / 2 + l / 4 } false o out.1)))

/-- What completes for a room (R109, R115, R124, R126, R140, R142): data lands, events are set and SENDs leave; a room-call starts
in an idle room; a program is loaded; a landing reads a line; the fault log is cleared. -/
def Obligations.RoomEventsRun : Prop :=
  ∀ (s : State) (r : Fin 1048576) (slot : Fin 4),
    (∀ c op, s.rooms.cores.at r = some c → c.slots.at slot = some op → op.put = false → op.known = false → op.fail = false →
      op.raced = [] → Goes (.rfetchDone r slot) s ((s.drew 0).wake r ((c.poke op.scratch op.data).doneSlot slot))) ∧
    (∀ c op, s.rooms.cores.at r = some c → c.slots.at slot = some op → op.put = true → op.raced = [] →
      Goes (.rputDone r slot) s (((s.drew 0).setCore r (c.doneSlot slot)).wakeRoom r)) ∧
    (∀ c b bs, s.rooms.cores.at r = some c → c.recv = some (b, bs) → Goes (.recvDone r) s
      (s.wake r { c.poke b bs with recv := none, events := c.events ||| 16 })) ∧
    (∀ c o rest, s.rooms.cores.at r = some c → c.sends = o :: rest → rest ≠ [] → o.raced = [] → Goes (.sendDone r) s
      ((s.drew 0).wake r { c with sends := rest, sent := c.sent ++ [(o.kind, o.data)] })) ∧
    (∀ l i t, s.callPart l i = some t → Goes (.roomCall (.lookup l i)) s t) ∧
    (∀ wing row p t, s.callRow wing row p = some t → Goes (.roomCall (.update wing row p)) s t) ∧
    (∀ (st : Fin 16) (v : BitVec 32), s.barShut = false → v.getLsbD 0 = true → Goes (.rmFlogClear st v) s { s with
      rooms := { s.rooms with flog := SMap.set (fun _ => []) s.rooms.flog st [] } }) ∧
    (∀ (o : Fin 16384) a, a = roomDpa r (64 * o) → s.plan.inService (r / 65536) = true → s.roomChan r ≠ .failed →
      s.dpaHeld a 64 = false → Goes (.directRead r o) s ((if s.ram.eccOk a 64 then s else s.logCheck a r).opened r (64 * o) 64)) ∧
    (∀ id c, s.readyCmd id 11 = some c → u64 c.entry 0x18 = 0 → cLen c.entry < cCount c.entry →
      Goes (.cmdProgramLoad id) s ((s.unlockStores (.load id)).finish id stInvalid 0)) ∧
    (∀ id c chans, s.readyCmd id 11 = some c → s.plan.inService (u8 c.entry 0x10) = true → 0 < u8 c.entry 0x12 →
      u8 c.entry 0x11 + u8 c.entry 0x12 ≤ s.plan.channels (u8 c.entry 0x10) → u32 c.entry 0x14 % 16 = 0 →
      cCount c.entry % 16 = 0 → u32 c.entry 0x14 + cCount c.entry ≤ 65536 → u64 c.entry 0x18 = 0 → cCount c.entry ≤ cLen c.entry →
      s.stackHeld (u8 c.entry 0x10) = false →
      chans = (List.range (u8 c.entry 0x12)).map (fun i => 64 * u8 c.entry 0x10 + u8 c.entry 0x11 + i) →
      chans.any s.rooms.busyChan = false → ∃ u : State, Goes (.cmdProgramLoad id) s
        ((u.touch id 0 (2 ^ u8 c.entry 0x10)).finish id stDone 0) ∧
        u.ram = chans.foldl (fun m ch => m.poke (progAddr (ch / 64) (ch % 64) (u32 c.entry 0x14))
          ((cInline c.entry).take (cCount c.entry))) s.ram)

/-- Queues (R355, R356, R369, R370, R374, R375): a doorbell below the ring size is taken and one at or above it sets
BAD_DOORBELL; a queue is enabled with aligned bases, disabled, reset, acknowledged and resumed. -/
def Obligations.QueueCommandsRun : Prop :=
  ∀ (s : State) (q : Fin 4096) (d : List Byte) (v : BitVec 32), s.plan.queue q = some d →
    (s.barGone = false →
      (ringSize d ≤ v.toNat % 65536 → Goes (.dbSqWrite q v) s (s.cause q 6)) ∧
      (v.toNat % 65536 < ringSize d → Goes (.dbSqWrite q v) s
        ((s.setQueue q (fun x => { x with prod := v.toNat % 65536, pending := true })).examine q))) ∧
    (s.barShut = false →
      (∀ used, used = (v.toNat % 65536 + ringSize d - (s.cf.queue q).cqHead) % ringSize d →
        (ringSize d ≤ v.toNat % 65536 ∨ (s.cf.queue q).unread < used → Goes (.dbCqWrite q v) s (s.cause q 6)) ∧
        (v.toNat % 65536 < ringSize d → used ≤ (s.cf.queue q).unread → Goes (.dbCqWrite q v) s
          (((s.setQueue q (fun x => { x with cqHead := v.toNat % 65536, unread := x.unread - used })).pumpCq q cqFuel).examine q))) ∧
      ((s.cf.queue q).st = .disabled → baseOk (s.io.sqSlot q 0) (128 * ringSize d) = true →
        baseOk (s.io.cqSlot q 0) (32 * ringSize d) = true → Goes (.qEnable q) s
          ((s.setQueue q (fun x => { x with st := .enabled, disabling := false })).examine q)) ∧
      ((s.cf.queue q).st ≠ .disabled ∨ baseOk (s.io.sqSlot q 0) (128 * ringSize d) = false → Goes (.qEnable q) s (s.cause q 7)) ∧
      ((s.cf.queue q).st = .enabled → Goes (.qDisable q) s
        ((({ s with xl := s.xl.dropUnits (fun o => o == Owner.sq q) } : State).setQueue q (fun x => { x with
          disabling := true, fetching := 0, fetchNext := x.sqHead, partialBytes := [], sqFault := false })).settleQueue q)) ∧
      Goes (.qReset q) s (s.emptyQueue q .resetting) ∧
      ((s.cf.queue q).cqStall = true → Goes (.cqAck q) s
        (((s.setQueue q (fun x => { x with cqStall := false })).pumpCq q cqFuel).examine q)) ∧
      ((s.cf.queue q).st = .halted → Goes (.qResume q) s
        (((s.freeCaptures q).setQueue q (fun x => { x with st := .enabled, pending := true })).examine q))) ∧
    ((s.cf.queue q).st = .resetting → Goes (.queueResetDone q) s
      ({ s.setQueue q (fun _ => Queue.reset) with host := { s.host with driverBack := true } }.unpark)) ∧
    (∀ k u bytes, s.xl.units.at k = some u → u.st = .accessing → u.owner = .sq q → Goes (.entryFetchReturn k bytes false) s
      ((s.dropUnit k).sqFail q (u.len / 128))) ∧
    (∀ k u bytes v, s.xl.units.at k = some u → u.st = .accessing → u.owner = .sq q →
      v = ((chunks (s.unitBytes u bytes) 128 (u.len / 128)).foldl (fun (t : State) e => t.takeSlot q d e) (s.dropUnit k)).setQueue q
        (fun x => { x with fetching := 0 }) →
      Goes (.entryFetchReturn k bytes true) s (((v.dispatchQueue q).settleQueue q).examine q))

/-- Commands that a queue, a buffer or an itinerary gives (R358, R363, R364, R366, R372, R348, R350, R322, R323): what each does
once it is ready. -/
def Obligations.RingCommandsRun : Prop :=
  ∀ (s : State) (id : Nat) (c : Cmd),
    (s.readyCmd id 0x01 = some c → Goes (.cmdNop id) s (s.finish id stDone 0)) ∧
    (s.cf.cmds.at id = some c → c.phase = .ready → cmdBad (c.queue.bind s.plan.queue) c.origin c.entry = true →
      Goes (.cmdInvalid id) s (s.finish id stInvalid 0)) ∧
    (∀ e ∈ ([(.cmdDmaIn id, 2), (.cmdDmaOut id, 3)] : List (Instr × Nat)), s.readyCmd id e.2 = some c →
      (cCount c.entry = 0 ∨ s.plan.dpaOk (u64 c.entry 0x18) (cCount c.entry) = false ∨ c.queue = none →
        Goes e.1 s (s.finish id stInvalid 0)) ∧
      (cCount c.entry ≠ 0 → s.plan.dpaOk (u64 c.entry 0x18) (cCount c.entry) = true → c.queue ≠ none →
        s.dpaHeld (u64 c.entry 0x18) (cCount c.entry) = false →
        Goes e.1 s (((s.runCmd id 0).touch id 0 (2 ^ dpaStack (u64 c.entry 0x18))).nextSegment id))) ∧
    (s.readyCmd id 0x04 = some c → s.plan.dpaOk (u64 c.entry 0x10) (cLen c.entry) = true →
      s.dpaHeld (u64 c.entry 0x10) (cLen c.entry) = false →
      Goes (.cmdWriteInline id) s (((s.touch id 0 (2 ^ dpaStack (u64 c.entry 0x10))).sheetWrite .host (u64 c.entry 0x10)
        (cInline c.entry)).finish id (if s.ram.goneIn (u64 c.entry 0x10) (cLen c.entry) then stCheck else stDone) 0)) ∧
    (s.readyCmd id 0x06 = some c → u16 c.entry 0x10 < 1024 → s.cf.runningOf (u16 c.entry 0x10) = 0 → u64 c.entry 0x18 = 0 →
      Goes (.cmdItinLoad id) s (({ s with cf := { s.cf with
        itins := (s.cf.itins.upd (u16 c.entry 0x10) (fun i => { i with loading := none })).del (u16 c.entry 0x10) } } : State).finish
        id stDone 0xFFFFFFFF)) ∧
    (s.readyCmd id 0x06 = some c → u16 c.entry 0x10 < 1024 → 0 < s.cf.runningOf (u16 c.entry 0x10) →
      Goes (.cmdItinLoad id) s (s.setItins (fun t => t.upd (u16 c.entry 0x10) (fun i => { i with loading := some id })))) ∧
    (∀ b size, s.readyCmd id 0x06 = some c → u16 c.entry 0x10 < 1024 → s.cf.runningOf (u16 c.entry 0x10) = 0 → u64 c.entry 0x18 ≠ 0 →
      s.imageHeld (u64 c.entry 0x18) = false → s.plan.dpaOk (u64 c.entry 0x18) 64 = true →
      s.ram.consumerOk (u64 c.entry 0x18) 64 = true → b = s.ram.read (u64 c.entry 0x18) 64 → size = 64 + imParam b + 144 * imNodes b →
      s.plan.dpaOk (u64 c.entry 0x18) size = true → s.ram.consumerOk (u64 c.entry 0x18) size = true →
      imageBad b (chunks (s.ram.read (u64 c.entry 0x18 + 64 + imParam b) (144 * imNodes b)) 144 (imNodes b)) = none →
      Goes (.cmdItinLoad id) s (({ s with cf := { s.cf with
        itins := (s.cf.itins.upd (u16 c.entry 0x10) (fun i => { i with loading := none })).put (u16 c.entry 0x10)
          ⟨u64 c.entry 0x18, imNodes b, none⟩ } } : State).finish id stDone 0xFFFFFFFF)) ∧
    (s.readyCmd id 0x07 = some c → (cCount c.entry = 0 ∨ 65536 < cCount c.entry) →
      Goes (.cmdBuffer id) s (s.finish id stInvalid 0)) ∧
    (s.readyCmd id 0x07 = some c → cCount c.entry ≠ 0 → cCount c.entry ≤ 65536 → ∀ t, (s.runCmd id 0).pumpBuffer id = (t, none) →
      Goes (.cmdBuffer id) s t) ∧
    (∀ d v t, s.readyCmd id 0x08 = some c → s.plan.queue (u16 c.entry 0x10) = some d → u16 c.entry 0x12 < ringSize d →
      (s.cf.queue (u16 c.entry 0x10)).unfetched (ringSize d) (u16 c.entry 0x12) = false →
      v = SMap.get (fun _ => 0) (s.cf.queue (u16 c.entry 0x10)).slots (u16 c.entry 0x12) → 2 ≤ v →
      s.cf.cmds.at (v - 2) = some t → cOp t.entry ≠ 8 →
      Goes (.cmdAbort id) s ((s.stopCmd (v - 2) stAborted).finish id stDone 0)) ∧
    (s.readyCmd id 0x1B = some c → u8 c.entry 0x11 = 0 → u64 c.entry 0x18 % 4096 = 0 → ∃ t, Goes (.cmdInvalidate id) s t ∧
      t.xl.invs = s.xl.invs ++ [⟨some (u8 c.entry 0x10), u64 c.entry 0x18, cCount c.entry, some id, false, false⟩] ∧
      ∀ e ∈ t.xl.tlb, e.overlaps (some (u8 c.entry 0x10)) (u64 c.entry 0x18) (cCount c.entry) = false) ∧
    (s.readyCmd id 0x1C = some c → pageCopyOk s c.entry = true → s.dpaHeld (u64 c.entry 0x18) (cCount c.entry) = false →
      Goes (.cmdMigrate id) s (((s.runCmd id 0).touch id 0 (2 ^ dpaStack (u64 c.entry 0x18))).nextSegment id)) ∧
    (∀ (i : Instr) (op : Nat), (i, op) ∈ ([(.cmdMigrate id, 0x1C), (.cmdReturn id, 0x1D)] : List (Instr × Nat)) →
      s.readyCmd id op = some c → pageCopyOk s c.entry = false → Goes i s (s.finish id stInvalid 0)) ∧
    (∀ offs, offs = (List.range (cCount c.entry / 256)).map (fun i => 256 * i) → s.readyCmd id 0x1D = some c →
      pageCopyOk s c.entry = true → s.dpaHeld (u64 c.entry 0x18) (cCount c.entry) = false → s.linkUp = true →
      (∀ o ∈ offs, (s.ram.blk (u64 c.entry 0x18 + o)).moverOk = true) → ∀ u, u = offs.foldl (fun (v : State) o =>
        v.hostPost (u64 c.entry 0x10 + o) (v.ram.read (u64 c.entry 0x18 + o) 256)) (s.touch id 0 (2 ^ dpaStack (u64 c.entry 0x18))) →
      Goes (.cmdReturn id) s (u.finish id stDone 0)) ∧
    (∀ v, s.cf.cmds.at id = some c → c.expiry = some v → s.mer.reached v = true → c.phase ≠ .fetched →
      Goes (.watchdogExpiry false id) s (s.stopCmd id stWatchdog)) ∧
    (∀ x v, s.cf.launches.at id = some x → x.expiry = some v → s.mer.reached v = true →
      Goes (.watchdogExpiry true id) s (s.stopLaunch id stWatchdog))

/-- Launches and batches (R366 to R368, R167, R168): a launch that starts, waits or is refused; a node that is dispatched; and a
request that a batch takes. -/
def Obligations.LaunchCommandsRun : Prop :=
  ∀ (s : State) (id : Nat) (c : Cmd),
    (s.readyCmd id 0x05 = some c → s.cf.itins.at (u16 c.entry 0x10) = none → Goes (.cmdLaunch id) s (s.finish id stInvalid 0)) ∧
    (∀ i, s.readyCmd id 0x05 = some c → s.cf.itins.at (u16 c.entry 0x10) = some i → u16 c.entry 0x12 % 8 = 0 →
      u16 c.entry 0x12 + cLen c.entry ≤ imParam (s.image i) → s.plan.launchArea ≠ 0 → u16 c.entry 0x10 < 1024 →
      s.launchLevel c = 1 → s.plan.enqDepth ≠ 0 → s.launchWaits (u16 c.entry 0x10) = true → ∃ t, Goes (.cmdLaunch id) s t ∧
        t.cf.launches.at s.cf.nextLaunch = some ⟨u16 c.entry 0x10, .cmd id, 1, c.cls, c.share, (u16 c.entry 0x12, cInline c.entry),
          none, true, [], 0, 0, stDone, 0, s.mer.count, none, [], 0⟩ ∧ t.cf.nextLaunch = s.cf.nextLaunch + 1 ∧ t.ram = s.ram) ∧
    (∀ i k u, s.readyCmd id 0x05 = some c → s.cf.itins.at (u16 c.entry 0x10) = some i → u16 c.entry 0x12 % 8 = 0 →
      u16 c.entry 0x12 + cLen c.entry ≤ imParam (s.image i) → s.plan.launchArea ≠ 0 → u16 c.entry 0x10 < 1024 →
      s.launchLevel c = 1 → s.plan.enqDepth ≠ 0 → s.launchWaits (u16 c.entry 0x10) = false → u = { s.runCmd id 1 with cf :=
        { (s.runCmd id 1).cf with
          launches := (s.runCmd id 1).cf.launches.put s.cf.nextLaunch ⟨u16 c.entry 0x10, .cmd id, 1, c.cls, c.share,
            (u16 c.entry 0x12, cInline c.entry), none, true, [], 0, 0, stDone, 0, s.mer.count, none, [], 0⟩
          nextLaunch := s.cf.nextLaunch + 1 } } → u.cf.freeSlot = some k → u.launchHeld i k = false →
      Goes (.cmdLaunch id) s (u.startLaunch s.cf.nextLaunch k)) ∧
    (∀ l k x i, s.cf.launches.at l = some x → x.slot = none → x.admitted = true → s.cf.itins.at x.itin = some i →
      i.loading = none → (∀ w, x.source ≠ .update w) → s.batchHeld x.itin = false → x.level ≠ 1 → s.cf.freeSlot = some k →
      s.launchHeld i k = false →
      Goes (.launchStart l) s (s.startLaunch l k)) ∧
    (∀ l k x i a (n : Fin 4096), s.cf.launches.at l = some x → x.slot = some k → s.cf.itins.at x.itin = some i →
      x.waits[n.val]? = some 0 → x.status = stDone → a = nodeAt i (s.image i) n → s.chanHeld (a / 2 ^ 30) = false →
      s.chanHeld (s.plan.launchArea / 2 ^ 30) = false → s.ram.consumerOk a 144 = true →
      s.ram.consumerOk (s.plan.launchArea + 4096 * k) (imParam (s.image i)) = true → ∃ t, Goes (.itinNodeDispatch l n) s t ∧
        t.cf.nextCmd = s.cf.nextCmd + 1 ∧ (t.cf.cmds.at s.cf.nextCmd).isSome = true ∧
        t.cf.launches.at l = some { x with waits := x.waits.set n nodeGone, running := x.running + 1 }) ∧
    (∀ (b : Fin 64) e l, s.plan.batch b = some e → (s.batch b).running = some l → s.cf.launches.at l = none →
      Goes (.batchBoundary b) s (s.boundary b e)) ∧
    (∀ e ∈ ([(.cmdJoin id, 0x0E, true), (.cmdLeave id, 0x0F, false)] : List (Instr × Nat × Bool)),
      s.readyCmd id e.2.1 = some c →
      (s.plan.batch (u8 c.entry 0x10) = none → Goes e.1 s (s.finish id stInvalid 0)) ∧
      (∀ b l, s.plan.batch (u8 c.entry 0x10) = some b → (s.batch (u8 c.entry 0x10)).running = some l →
        Goes e.1 s ((s.runCmd id 1).setBatch (u8 c.entry 0x10) (fun x =>
          { x with reqs := x.reqs ++ [⟨id, e.2.2, u32 c.entry 0x14⟩] }))))

/-- Address translation (R335 to R348): roots and enables, units that translate, requests answered, the fault ring's head,
invalidations, counter windows, and bytes that a read brings. -/
def Obligations.TranslationRuns : Prop :=
  ∀ s : State,
    (s.barShut = false →
      (∀ w, s.plan.walker = some w → s.io.asSel < u16 w 0x28 → Goes .asEnable s { s with
        xl := { s.xl with enabled := SMap.set (fun _ => false) s.xl.enabled s.io.asSel true } }) ∧
      (s.xl.on s.io.asSel = true → ∃ t, Goes .asDisable s t ∧
        t.xl.enabled = SMap.set (fun _ => false) s.xl.enabled s.io.asSel false ∧
        t.xl.invs = s.xl.invs ++ [⟨some s.io.asSel, 0, 0, none, true, false⟩]) ∧
      (∀ high v, s.xl.on s.io.asSel = false → Goes (.asRootWrite high v) s { s with xl := { s.xl with
        roots := SMap.set (fun _ => 0) s.xl.roots s.io.asSel (rootWith (s.xl.root s.io.asSel) high v.toNat) } }) ∧
      (∀ high v, s.xl.on s.io.asSel = true → Goes (.asRootWrite high v) s s) ∧
      (∀ (req : Fin 1024), s.xl.reqs.at req = none →
        Goes (.prqRetry req) s { s with io := s.io.inc .XL_BAD_RESP } ∧ Goes (.prqFail req) s { s with io := s.io.inc .XL_BAD_RESP }) ∧
      (∀ (req : Fin 1024) r, s.xl.reqs.at req = some r →
        Goes (.prqRetry req) s (({ s with xl := { s.xl with reqs := s.xl.reqs.del req } } : State).retryUnits (r.waiting ++ s.xl.parked)) ∧
        Goes (.prqFail req) s (r.waiting.foldl State.failUnit
          (({ s with xl := { s.xl with reqs := s.xl.reqs.del req } } : State).retryUnits s.xl.parked))) ∧
      (∀ v : BitVec 32, s.xl.held = [] → Goes (.xlRingHeadWrite v) s { s with io := s.io.putN .XL_RING_HEAD 0 (v.toNat % 4096) }) ∧
      (s.xl.held = [] → Goes .xlRingCtrlEnable s { s with io := s.io.putN .XL_RING_CTRL 0 1 }) ∧
      (s.xl.invs.any (·.reg) = false → bit (s.io.val .XL_INV_AS) 8 = true → ∃ t, Goes .xlInvGo s t ∧
        t.xl.invs = s.xl.invs ++ [⟨none, s.io.val .XL_INV_VA_LO / 4096 * 4096 + s.io.val .XL_INV_VA_HI * 2 ^ 32,
          s.io.val .XL_INV_PAGES, none, false, true⟩]) ∧
      (s.xl.invs.any (·.reg) = true → Goes .xlInvGo s s) ∧
      (∀ v : BitVec 32, s.xl.windows.list = [] → v.toNat % 2 ^ 17 ≤ 65536 → ∃ t, Goes (.xlCwCountWrite v) s t ∧
        t.xl.cwErr = s.xl.cwErr ∧ (t.xl.windows.at (s.io.val .XL_CW_SEL % 16)).map (·.count) = some (v.toNat % 2 ^ 17)) ∧
      (∀ v : BitVec 32, 65536 < v.toNat % 2 ^ 17 → Goes (.xlCwCountWrite v) s { s with xl := { s.xl with cwErr := true } }) ∧
      Goes .xlCntClear s { s with xl := { s.xl with
        counters := SMap.set (fun _ => 0) s.xl.counters (s.io.val .XL_CNT_SEL % 65536) 0 } }) ∧
    (∀ i v, s.xl.invs[i]? = some v → s.xl.invDone v = true → v.cmd = none → Goes (.invalidationDone i) s { s with
      xl := { s.xl with invs := s.xl.invs.eraseIdx i }, io := s.io.event .XL_EVENT 0 3 }) ∧
    (∀ k u, s.xl.units.at k = some u → s.unitReady k u = true →
      (s.dmaClass u = none → Goes (.translateUnit k) s (s.goUnit k)) ∧
      (∀ c, s.dmaClass u = some c → s.dmaFirst k c = true → Goes (.translateUnit k) s ((s.dmaBegin k u c).goUnit k))) ∧
    (∀ k u w bytes, s.xl.units.at k = some u → s.xl.walks.at k = some w → u.st = .walking → s.linkUp = false →
      Goes (.walkEntryReturn k bytes false) s (s.unitOver k u stHostLost)) ∧
    (∀ k u w p bytes ea, s.xl.units.at k = some u → s.xl.walks.at k = some w → u.st = .walking → s.plan.walker = some p →
      bytes.length = 128 → ea = w.table + w.va / 2 ^ wpShift p w.level % 2 ^ wpWidth p w.level * wpEntry p →
      Goes (.walkEntryReturn k bytes true) s (({ s with xl := s.xl.putSpan ea bytes } : State).goUnit k)) ∧
    (∀ k u off bytes ctx iter unit, s.xl.units.at k = some u → u.owner = .stream ctx iter unit → u.st = .accessing → u.write = false →
      s.unitHeld u = false → bytes ≠ [] → off + bytes.length ≤ u.len → runMeets off bytes.length u.landed = false →
      s.ram.goneIn (u.dev + off) bytes.length = false → runBytes (addRun off bytes.length u.landed) ≠ u.len →
      Goes (.dmaReadCompletion k off bytes true) s (((s.devWrite (u.dev + off) bytes).dmaBytes
        ((s.devWrite (u.dev + off) bytes).sc.classOf ctx).2 bytes.length).setUnit k
        { u with landed := addRun off bytes.length u.landed }))

/-- Streams (R377 to R395): a stream is taken up, its next unit is sent to its engine once its barrier is met, a unit retires, and
a pair is asked for, saved, handed over and given back. -/
def Obligations.StreamCommandsRun : Prop :=
  ∀ (s : State) (ctx : Fin 262144) (x : Stream) (e : List Byte) (a : Nat),
    (∀ id c, s.readyCmd id 0x1E = some c → Goes (.cmdStream id) s (s.streamTake c id (u64 c.entry 0x10) (u32 c.entry 0x18))) ∧
    (∀ id c, s.readyCmd id 0x1E = some c → 2 ^ 18 ≤ u32 c.entry 0x18 → Goes (.cmdStream id) s (s.finish id stInvalid 0)) ∧
    (∀ i ∈ ([(.unitTile ctx, 1), (.unitEngine ctx, 2), (.unitFetch ctx, 3), (.unitHostIn ctx, 4), (.unitHostOut ctx, 5),
        (.unitCopy ctx, 6), (.unitLookup ctx, 7), (.unitGradient ctx, 8), (.unitNop ctx, 9)] : List (Instr × Nat)),
      (∀ st, s.nextUnit ctx i.2 = .stop st → Goes i.1 s (s.stopStream ctx st)) ∧
      (s.nextUnit ctx i.2 = .go x e → x.barrierOk e (s.unitTarget x e) = false → Goes i.1 s s) ∧
      (s.nextUnit ctx i.2 = .go x e → x.barrierOk e (s.unitTarget x e) = true → s.unitTarget x e < 64 →
        s.arrDraining (s.unitTarget x e) = false → (s.arr (s.unitTarget x e)).quarantined = true →
        Goes i.1 s (s.standby ctx (s.unitTarget x e)))) ∧
    (a = s.unitTarget x e → x.barrierOk e a = true → a < 64 → s.arrDraining a = false → (s.arr a).quarantined = false →
      ∀ (s1 : State) (mark : State → State), s1 = s.passFull ctx x e →
        (mark = fun t => t.setCmd x.cmd (fun c => { c with arrMask := c.arrMask ||| 2 ^ a })) →
      (s.nextUnit ctx 9 = .go x e → Goes (.unitNop ctx) s (mark (s1.passUnit ctx))) ∧
      (∀ src d m, src = unSrc x.desc e x.iter → s1.mayUse ctx x a = true → s1.plan.dpaOk src 64 = true →
        s1.dpaHeld src 64 = false → s1.ram.consumerOk src 64 = true → d = s1.ram.read src 64 →
        unFlag e 4 = false → patchedM s1 e d = .inl m →
        (s.nextUnit ctx 1 = .go x e → Goes (.unitTile ctx) s (mark ((s1.setArr a (fun r =>
          { r with inbox := r.inbox ++ [⟨tileSent x e d m, ctx, x.iter, x.unit, 0⟩] })).sent ctx 1 a none))) ∧
        (s.nextUnit ctx 2 = .go x e → u8 d 0 ≠ 1 → Goes (.unitEngine ctx) s (mark ((s1.setArr a (fun r =>
          { r with edescs := r.edescs ++ [⟨d, ctx, x.iter, x.unit, r.seq + r.inbox.length⟩] })).sent ctx 2 a none)))) ∧
      (∀ src dst n, src = unSrc x.desc e x.iter → dst = unDst x.desc e x.iter → n = unLen e →
        (∀ f, f = s1.denseSrc x src → s.nextUnit ctx 3 = .go x e → s1.sideOk true a dst n = true → s1.plan.dpaOk f n = true →
          f % 256 = 0 → dst % 256 = 0 →
          s1.dpaHeld f n = false → Goes (.unitFetch ctx) s (mark (((s1.sent ctx 3 a none).setStream ctx (fun y =>
            { y with fetched := (f, n) :: y.fetched })).beginFetch ⟨ctx, x.iter, x.unit, a, f, dst, n, fetchLines f n, false⟩
            (!x.fetched.contains (f, n))))) ∧
        (s.nextUnit ctx 3 = .go x e → s1.denseSrc x src % 256 ≠ 0 → Goes (.unitFetch ctx) s (mark (s1.sent ctx 3 a (some stInvalid)))) ∧
        (∀ t ok, s.nextUnit ctx 6 = .go x e → s1.sideOk (unSrcStore e) a src n = true → s1.sideOk (unDstStore e) a dst n = true →
          src % 256 = 0 → dst % 256 = 0 → s1.sideHeld (unSrcStore e) src n = false → s1.sideHeld (unDstStore e) dst n = false →
          s1.carryBlocks (sideAddr (unSrcStore e) a src) (unDstStore e) a dst n = (t, ok) →
          Goes (.unitCopy ctx) s (mark (t.sent ctx 6 a (some (if ok then stDone else stCheck))))) ∧
        (∀ q d, x.queue = some q → s1.plan.queue q = some d →
          (s.nextUnit ctx 4 = .go x e → s1.sideOk (unDstStore e) a dst n = true → oneSegment src n = true →
            s1.sideHeld (unDstStore e) dst n = false → Goes (.unitHostIn ctx) s (mark ((s1.sent ctx 4 a none).newUnit
              ⟨.stream ctx x.iter x.unit, q, u8 d 3, src, n, false, sideAddr (unDstStore e) a dst, 0, .waiting, [], [], false⟩))) ∧
          (s.nextUnit ctx 5 = .go x e → s1.sideOk (unSrcStore e) a src n = true → oneSegment dst n = true →
            s1.sideHeld (unSrcStore e) src n = false → Goes (.unitHostOut ctx) s (mark ((s1.sent ctx 5 a none).newUnit
              ⟨.stream ctx x.iter x.unit, q, u8 d 3, dst, n, true, sideAddr (unSrcStore e) a src, 0, .waiting, [], [], false⟩)))))) ∧
    (a = s.unitTarget x e → x.barrierOk e a = true → 64 ≤ a → ∀ s1, s1 = s.passFull ctx x e →
      (∀ st, s.nextUnit ctx 7 = .go x e → s1.readList (.unit ctx x.iter x.unit) (unSrc x.desc e x.iter) x.cls = .over st →
        st ≠ stCheck → ∃ t, Goes (.unitLookup ctx) s t ∧ t.sc = (s1.sent ctx 7 a (some st)).sc) ∧
      (∀ l oor, s.nextUnit ctx 7 = .go x e → s1.readList (.unit ctx x.iter x.unit) (unSrc x.desc e x.iter) x.cls = .go l oor →
        (s1.remoteUnits ctx).length < 16 → ∃ t, Goes (.unitLookup ctx) s t ∧ t.sc = ((s1.sent ctx 7 a none).beginList l oor).sc) ∧
      (∀ g, s.nextUnit ctx 8 = .go x e → s1.readGrad (.unit ctx x.iter x.unit) (unSrc x.desc e x.iter) = .go g →
        (s1.remoteUnits ctx).length < 16 → ∃ t, Goes (.unitGradient ctx) s t ∧ t.sc = ((s1.sent ctx 8 a none).beginGrad g).sc)) ∧
    (∀ iter unit r st, s.sc.streams.at ctx = some x → x.runs.find? (fun r => r.iter == iter && r.unit == unit) = some r →
      r.status = some st → s.sampled ctx iter unit = false → x.st ≠ .halted →
      Goes (.unitRetire ctx iter unit) s ((s.setStream ctx (fun x => x.retired r st)).settleStream ctx))

/-- Preemption (R391 to R394): a save is asked for by class 0 or when the quantum is over, ends in its slot with the pair handed
over, and is read back. -/
def Obligations.PreemptionRuns : Prop :=
  ∀ (s : State) (a : Fin 64) (p : Pair), s.sc.pairs.at a = some p →
    (∀ w, (s.sc.waiters a).find? (fun c => (s.sc.classOf c).1 == 0) = some w → p.cls ≠ 0 → p.wanted = none →
      s.plan.has 0x23 = true → s.sc.reserved.at a = none → s.arrTesting a = false → ∃ t, Goes (.preemptRequest a) s t ∧
        t.io = s.io.inc .SC_PREEMPT_C0 ∧ t.sc.pairs.at a = some { p with wanted := some (w, a.val), asked := s.mer.count }) ∧
    (∀ w, (s.sc.waiters a).find? (fun c => (s.sc.classOf c).1 != 0 &&
        !((s.sc.classOf c).1 == p.cls && (s.sc.classOf c).2 == p.group)) = some w → p.cls ≠ 0 → p.wanted = none →
      s.plan.has 0x23 = true → s.plan.quantum ≤ s.mer.count - p.since →
      (s.freePool = none → Goes (.quantumExpiry a) s { s with io := s.io.event .SC_EVENT 0 3 }) ∧
      (∀ k, s.freePool = some k → ∃ t, Goes (.quantumExpiry a) s t ∧ t.io = s.io.inc .SC_PREEMPT_QUANTUM ∧
        t.sc.pairs.at a = some { p with wanted := some (w, k), asked := s.mer.count })) ∧
    (∀ w slot x, p.wanted = some (w, slot) → s.sc.streams.at p.ctx = some x → s.tileMode a x = false →
      (slot < 64 ∨ x.st = .halted → Goes (.preemptSaveDone a) s (s.saveDone a p x ((s.sc.streams.at w).getD x) slot)) ∧
      (64 ≤ slot → x.st ≠ .halted → Goes (.preemptSaveDone a) s
        (((s.saveDone a p x ((s.sc.streams.at w).getD x) slot).waitAgain a p.ctx).grantPair a))) ∧
    (∀ x slot v, s.sc.streams.at p.ctx = some x → x.saves.find? (fun v => v.1 == a.val) = some (a.val, slot) →
      s.mx.saves.at slot = some v → (s.arr a).busy = false → s.dpaHeld (s.plan.saveSlot slot) saveBytes = false →
      s.ram.consumerOk (s.plan.saveSlot slot) saveBytes = true → ∀ s1 s2 : State, s1 = (s.charge v.cmd v.group (s.mer.count - p.since)).freeSave p.ctx a slot →
      s2 = s1.setArr a (fun r => { v.state with
        quarantined := r.quarantined, loads := r.loads }) →
      Goes (.preemptResume a) s ((({ s2 with
        sc := { s2.sc with pairs := s2.sc.pairs.put a { p with since := s.mer.count } } } : State).setStream p.ctx (fun x =>
        { x with st := if x.st = .preempted ∧ x.saves = [] then .running else x.st })).readLanding p.ctx))

/-- Arrays (R191, R189, R198, R199, R204, R209): a delivered tile is taken up, a finished one drains into the tile queue or stops
on its first failing check, a fill of the attic is delivered or reissued, and a chain-load is accepted and applied. -/
def Obligations.ArrayEventsRun : Prop :=
  ∀ (s : State) (a : Fin 64),
    (∀ t rest, (s.arr a).inbox = t :: rest → (s.arr a).next = none → (s.arr a).quarantined = false →
      Goes (.tileAccept a) s (acceptTile s a t rest)) ∧
    (∀ t, (s.arr a).running = some t → (s.arr a).slots < 4 → (s.arr a).loads = [] →
      (tileStop t.desc (tileBlk s a) (storeBlkOk s a) = none → Goes (.tileFinish a) s (finishTile s a t)) ∧
      (∀ w, tileStop t.desc (tileBlk s a) (storeBlkOk s a) = some w → Goes (.tileFinish a) s (stopTile s a t w))) ∧
    (∀ t, (s.arr a).running = some t → 4 ≤ (s.arr a).slots → Goes (.tileFinish a) s s) ∧
    (∀ line l, s.mx.attic.find? (fun (l : AtticLine) => l.line == line * 4096) = some l → l.filling = true → s.chanHeld (line / 262144) = false →
      (l.spoiled = true → Goes (.atticFillDone line) s { s with mx := { s.mx with
        attic := s.mx.attic.map (fun (x : AtticLine) => if x.line = line * 4096 then { x with spoiled := false } else x) } }) ∧
      (l.spoiled = false → Goes (.atticFillDone line) s (({ s with
        mx := { s.mx with attic := ⟨line * 4096, false, false, s.ram.read (line * 4096) 4096,
            (List.range 16).map (fun i => s.ram.blk (line * 4096 + 256 * i))⟩ ::
          s.mx.attic.filter (fun (x : AtticLine) => x.line != line * 4096) }
        io := s.io.inc .MX_ATTIC_MISSES } : State).deliver (line * 4096)).startFills)) ∧
    (∀ q rest, (s.arr a).queue = q :: rest → (s.arr a).chain = none → (s.arr a).descBefore q.seq = false →
      Goes (.chainStart a) s (startTile s a q rest)) ∧
    (∀ q, (s.arr a).chain = some q → Goes (.chainComplete a) s (completeChain s a q)) ∧
    (∀ id c bs, s.readyCmd id 0x0C = some c → u64 c.entry 0x18 = 0 → 128 ≤ cLen c.entry → cCount c.entry = 128 →
      bs = (cInline c.entry).take 128 → (s.plan.fab (u8 c.entry 0x10)).isSome = true → s.arrDraining (u8 c.entry 0x10) = false →
      (chainOk bs = false → Goes (.cmdChainLoad id) s (s.finish id stInvalid 0)) ∧
      (chainOk bs = true → Goes (.cmdChainLoad id) s (((s.runCmd id 1).touch id (2 ^ u8 c.entry 0x10) 0).setArr (u8 c.entry 0x10)
        (fun r => { r with loads := r.loads ++ [⟨u8 c.entry 0x11, bs, id⟩] })))) ∧
    (∀ l rest, (s.arr a).loads = l :: rest → (s.arr a).queue = [] → (s.arr a).chain = none → Goes (.chainLoadApply a) s
      (({ s.setArr a (fun r => { r with loads := rest }) with ram := s.ram.poke (chainAddr a l.entry 0) l.bytes } : State).finish
        l.cmd stDone 0))

/-- Engine descriptors (R223 to R230): a descriptor whose turn has come runs its operation, and its end reports its status. -/
def Obligations.EngineDescriptorsRun : Prop :=
  ∀ (s : State) (a : Fin 64),
    (∀ d, s.frontDesc a 1 = some d → Goes (.engineRun a) s (runDesc s a d.1 d.2)) ∧
    (∀ d, s.frontDesc a 2 = some d → Goes (.engineGather a) s (gatherDesc s a d.1 d.2)) ∧
    (∀ d, s.frontDesc a 3 = some d → Goes (.engineMerge a) s (mergeDesc s a d.1 d.2)) ∧
    (∀ d, s.frontDesc a 4 = some d → Goes (.engineScatter a) s (scatterDesc s a d.1 d.2)) ∧
    (∀ d st, (s.arr a).eact = some (d, some st) → Goes (.engineDescriptorDone a) s
      (({ s.setArr a (fun r => { r with eact := none }) with io := s.io.inc .VE_CHAINS a } : State).unitStatus d.ctx d.iter d.unit st)) ∧
    (∀ d rest, (s.arr a).eact = none → (s.arr a).edescs = d :: rest → (s.arr a).descReady d = true →
      (u8 d.desc 0 = 0 ∨ 4 < u8 d.desc 0 ∨ s.plan.fab a = none) → Goes (.engineDescriptorDone a) s
        ((s.setArr a (fun r => { r with edescs := rest })).unitStatus d.ctx d.iter d.unit stInvalid))

/-- Lookups and row flags (R152 to R163): a list that cannot be read or is refused ends with its status, one that is taken up is
split; a sublist is served or refused; a remote answer ends its part. -/
def Obligations.LookupCommandsRun : Prop :=
  ∀ (s : State) (p : Fin 64) (m : Msg),
    (∀ id c st, s.readyCmd id 9 = some c → s.readList (.cmd id) (u64 c.entry 0x10) c.cls = .over st →
      (st ≠ stCheck → Goes (.cmdLookup id) s (s.finish id st 0)) ∧
      (st = stCheck → Goes (.cmdLookup id) s
        ((s.logCheck (u64 c.entry 0x10) (dpaRoom (u64 c.entry 0x10))).finish id stCheck 0))) ∧
    (∀ id c x oor, s.readyCmd id 9 = some c → s.readList (.cmd id) (u64 c.entry 0x10) c.cls = .go x oor → ∃ arr stk,
      Goes (.cmdLookup id) s (((s.runCmd id 1).touch id arr stk).beginList x oor)) ∧
    (∀ k, (s.port p).linked = true → s.connTakes m = some (k, false) →
      (s.host.parked = false → Goes (.rxSublist p m) s (s.ackAgain k)) ∧ Goes (.rxPartial p m) s (s.ackAgain k)) ∧
    (∀ k, (s.port p).linked = true → s.host.parked = false → s.connTakes m = some (k, true) →
      (s.accepted k 0).plan.table (u16 m.payload 0) = none → Goes (.rxSublist p m) s ((s.accepted k 0).connSend k 0x16
        { Msg.blank with tag := m.tag, arg := m.arg, payload := bytesOf stInvalid 4 } none none none)) ∧
    (∀ k t w ws bags, (s.port p).linked = true → s.host.parked = false → s.connTakes m = some (k, true) →
      (s.accepted k 0).plan.table (u16 m.payload 0) = some t → (s.accepted k 0).plan.wing (u16 m.payload 2) = some w →
      ws = (List.range (u32 m.payload 8)).map (fun i => u32 m.payload (16 + 4 * i)) →
      bags = bagEntries m.payload (16 + 4 * u32 m.payload 8) 0 (ws.map (· % 2 ^ 31)) →
      wKind w = 1 → wOwner w % 4096 = tId t → u8 m.payload 4 ≤ 5 → u8 m.payload 7 = 0 →
      endsOk 0 (ws.map (· % 2 ^ 31)) (u32 m.payload 12) = true →
      bags.all (fun es => es.all (fun e => e.2.1 % tShards t == wParam w && decide (e.2.1 < tRows t))) = true →
      Goes (.rxSublist p m) s (({ s.accepted k 0 with io := (s.accepted k 0).io.inc .WG_REMOTE_IN (wStack w) } : State).beginList
        ⟨.remote k m.arg, tId t, u8 m.payload 4, u8 m.payload 6, u8 m.payload 5, 0, 0, 0, 0, m.cls,
          bags.map (fun es => es.map (fun e => (e.1, e.2.1, e.2.2, true))), ws.map (fun e => bit e 31),
          bags.zipIdx.flatMap (fun g => localParts t w (u8 m.payload 4) g.2 (wParam w)
            (if u8 m.payload 4 = 4 then g.1.take (u8 m.payload 5) else g.1)), wStack w, none⟩ 0)) ∧
    (∀ k d, (s.port p).linked = true → s.connTakes m = some (k, true) → endStatus (u32 m.payload 0) = stDone →
      d = (match (s.accepted k 0).wings.lookups.at (m.arg / 2 ^ 20) with
        | some x => (((s.accepted k 0).plan.table x.table).map tDim).getD 16
        | none => 16) →
      Goes (.rxPartial p m) s (((s.accepted k 0).setList (m.arg / 2 ^ 20) (fun x => x.takeAnswer d (m.arg % 2 ^ 20) m.payload)).settleList
        (m.arg / 2 ^ 20))) ∧
    (∀ id c, s.readyCmd id 13 = some c → s.plan.table (u16 c.entry 0x10) = none → Goes (.cmdRowFlag id) s (s.finish id stInvalid 0)) ∧
    (∀ id c t w row room o bytes, s.readyCmd id 13 = some c → s.plan.table (u16 c.entry 0x10) = some t → u8 c.entry 0x12 ≤ 1 →
      row = u32 c.entry 0x14 → row < tRows t → s.plan.shardWings (tId t) (row % tShards t) = [w] → s.stackHeld (wStack w) = false →
      room = wingRoom w (row / tShards t % wRooms w) → o = row / tShards t / wRooms w * tRecLen t → s.roomChan room = .ready →
      bytes = (List.range (tRecLen t / 64)).flatMap (fun i => s.ram.read (roomDpa room (o + 64 * i)) 64) →
      ((List.range (tRecLen t / 64)).all (fun i => s.ram.eccOk (roomDpa room (o + 64 * i)) 64)) = true → rowCheckOk bytes = true →
      Goes (.cmdRowFlag id) s ((((List.range (tRecLen t / 64)).foldl (fun (u : State) i => u.sheetWrite .row (roomDpa room (o + 64 * i))
        (slice (withCheck (bytes.take 10 ++ [BitVec.ofNat 8 (u8 bytes 10 / 2 * 2 + u8 c.entry 0x12)] ++ bytes.drop 11)) (64 * i) 64)) s).touch
        id 0 (0 ||| 2 ^ wStack w)).finish id stDone 0))

/-- Gradients and the epoch (R237 to R247, R301 to R303): contributions are combined, answered or refused; the epoch closes, scans
end, deadlines and verdicts act, and a parameter block is written. -/
def Obligations.UpdateEventsRun : Prop :=
  ∀ (s : State) (p : Fin 64),
    (∀ l i g w t v shard row weight, s.upd.lists.at l = some g → g.todo[i]? = some (w, shard, row, weight, v) →
      s.plan.table g.table = some t → ∀ s1, s1 = s.setGrad l (fun g => { g with todo := g.todo.eraseIdx i }) →
      (∀ wing, s1.ownerOf t shard = .here wing → s.landingHeld wing = false → ∀ b u, s1.contribute t wing row weight v = (b, u) →
        Goes (.gradientContribution l i) s ((u.setGrad l (fun g =>
          if b then { g with rejected := true } else { g with openEpoch := true })).settleGrad l)) ∧
      (s1.ownerOf t shard = .unread → Goes (.gradientContribution l i) s ((s1.setGrad l (fun g => { g with unreach := true })).settleGrad l)) ∧
      (s1.ownerOf t shard = .bad → Goes (.gradientContribution l i) s ((s1.setGrad l (fun g => { g with invalid := true })).settleGrad l))) ∧
    (∀ id c g, s.readyCmd id 10 = some c → s.readGrad (.cmd id) (u64 c.entry 0x10) = .go g →
      Goes (.cmdGradient id) s ((s.runCmd id 1).beginGrad g)) ∧
    (∀ id c st, s.readyCmd id 10 = some c → s.readGrad (.cmd id) (u64 c.entry 0x10) = .over st → st ≠ stCheck → st ≠ stFrozen →
      Goes (.cmdGradient id) s (s.finish id st 0)) ∧
    (∀ m k, (s.port p).linked = true → s.host.parked = false → s.connTakes m = some (k, true) →
      s.plan.table (u16 m.payload 0) = none → Goes (.rxGradlist p m) s (s.accepted k stInvalid)) ∧
    (∀ m k, (s.port p).linked = true → s.host.parked = false → s.connTakes m = some (k, false) →
      Goes (.rxGradlist p m) s (s.ackAgain k)) ∧
    (∀ m k t w b u, (s.port p).linked = true → s.host.parked = false → s.connTakes m = some (k, true) →
      s.plan.table (u16 m.payload 0) = some t → s.plan.wing (u16 m.payload 2) = some w → wKind w = 1 → wOwner w % 4096 = tId t →
      u32 m.payload 4 % tShards t = wParam w → u32 m.payload 4 < tRows t → m.payload.length = 12 + 4 * tDim t → s.landingHeld w = false →
      s.contribute t w (u32 m.payload 4) (BitVec.ofNat 32 (u32 m.payload 8))
        ((List.range (tDim t)).map (fun j => BitVec.ofNat 32 (u32 m.payload (12 + 4 * j)))) = (b, u) →
      Goes (.rxGradlist p m) s (u.accepted k (if b then stRejected else stDone))) ∧
    (∀ (count : Fin 32768), (s.port p).linked = true → Goes (.rxVtree p true count) s
      (s.setPort p (fun x => { x with child := true, childCount := count, childAt := s.mer.count }))) ∧
    (∀ (count : Fin 32768) u, (s.port p).linked = true →
      u = s.setPort p (fun x => { x with child := false, childCount := count, childAt := s.mer.count }) → Goes (.rxVtree p false count) s
        { u with fab := { u.fab with commit := u.fab.commit.dropPort p, flip := u.fab.flip.dropPort p } }) ∧
    (s.plan.hasGrid = true → s.fab.commit.close = none → s.fab.flip.close = none → s.linkedPorts = [] → Goes .vtreeSend s s) ∧
    (∀ parent n u, s.plan.hasGrid = true → parent = s.parentPort → n = s.subtree → u = s.linkedPorts.foldl (fun (s : State) p =>
        s.sendNear p 0x20 { Msg.blank with cls := 3, payload := bytesOf (if parent = some p then 1 else 0) 1 ++ zeros 1 ++ bytesOf n 2 }) s →
      u.fab.commit.close = none → u.fab.flip.close = none → Goes .vtreeSend s u) ∧
    (∀ flip raised step count, (s.port p).linked = true → s.childPorts.contains p.val = true → (s.fab.verdict flip).close.isNone = false →
      (s.fab.verdict flip).decided = false → Goes (.rxVerdictUp p flip raised step count) s ((s.setVerdict flip (fun v =>
        { v with kids := v.kids.filter (fun (k : Aggregate) => k.port != p) ++ [(⟨p, raised, step, count⟩ : Aggregate)] })).pushVerdict flip)) ∧
    (∀ flip raised step count, (s.port p).linked = true → (s.fab.verdict flip).close.isNone = false → (s.fab.verdict flip).decided = false →
      Goes (.rxVerdictDown p flip raised step count) s ((((s.setVerdict flip (fun v => { v with decided := true })).verdictDown flip raised
        step count).reportVerdict flip raised step count).actOn flip raised step)) ∧
    (∀ flip, (s.fab.verdict flip).close.isSome = true → (s.fab.verdict flip).root = true → (s.fab.verdict flip).decided = false →
      s.mer.reached (s.upd.close + (if flip then s.plan.epochF - s.plan.epochF / 16 else 3 * s.plan.epochF / 8)) = true →
      Goes (.verdictRootDeadline flip) s (s.decideRoot flip)) ∧
    (∀ k i c, s.plan.instantOf 1 = some k → s.dueInstant k = some (i, c) → s.plan.hasGrid = false → ∃ t, Goes .epochClose s t ∧
      t.upd.phase = .scanning ∧ t.upd.close = c) ∧
    (∀ st : Fin 16, s.upd.phase = .scanning → (s.comb st).scanned = false → s.plan.inService st = true → (s.comb st).go = true →
      ∃ u : State, u.upd.phase = .scanning ∧ u.wings = s.wings ∧ u.plan = s.plan ∧ Goes (.scanComplete st) s (if u.scansDone = true then u.contributeScan
        else u)) ∧
    (s.upd.phase = .scanning → s.mer.reached (s.upd.close + s.plan.epochF / 4) = true → Goes .scanDeadline s
      ((({ s with io := s.io.setBit .UP_CAUSE 0 3 true } : State).setUpd (fun u => { u with
        phase := .await, commitSent := true })).contributeBit false true)) ∧
    ((s.upd.phase = .scanning ∨ s.upd.phase = .await) → s.mer.reached (s.upd.close + s.plan.epochF / 2) = true →
      Goes .verdictDeadline s (((s.setVerdict false (fun v => { v with decided := true })).mapIo (fun io =>
        io.event .UP_EVENT 0 2)).skipStep.staleAll)) ∧
    (∀ (wing : Fin 1024), s.upd.blocks.contains wing.val = true → ∀ w t e chans,
      s.plan.wing wing = some w → s.plan.table (wOwner w % 4096) = some t →
      s.entryFor (tableKey (wOwner w % 4096)) (s.blockStep wing) = some e →
      chans = wingChans w ++ (match s.plan.twin w with | some v => wingChans v | none => []) →
      s.rowsOut w = false → (match s.plan.twin w with | some v => s.rowsOut v | none => false) = false →
      (chans.any s.rooms.busyChan = true → Goes (.paramBlockWrite wing) s (s.lockStores (.block wing) chans)) ∧
      (chans.any s.rooms.busyChan = false → Goes (.paramBlockWrite wing) s { s.unlockStores (.block wing) with
        ram := chans.foldl (fun m c => m.poke (progAddr (c / 64) (c % 64) 0xC000) (s.paramBlock w t e (s.blockStep wing))) s.ram
        upd := { s.upd with blocks := s.upd.blocks.filter (· != wing.val) } })) ∧
    (s.upd.phase = .applying → s.denseMissing = false →
      (s.mer.count ≤ s.upd.close + s.plan.epochF - s.plan.epochF / 8 → Goes .denseWritesComplete s (s.contributeFlip s.denseBit)) ∧
      (s.upd.close + s.plan.epochF - s.plan.epochF / 8 < s.mer.count →
        Goes .denseWritesComplete s ((s.denseProblem 10).contributeFlip true))) ∧
    (s.upd.phase = .applying → s.mer.reached (s.upd.close + s.plan.epochF - s.plan.epochF / 8) = true →
      (s.denseMissing = true → Goes .denseDeadline s ((s.denseProblem 10).contributeFlip true)) ∧
      (s.denseMissing = false → Goes .denseDeadline s (s.contributeFlip s.denseBit)))

/-- The flip and the state of shards (R235, R240, R241): without an update under way the instant changes nothing but its firing; a
clear flip verdict flips every layer with an entry; parameters, loads and reads of a shard's state. -/
def Obligations.FlipAndStateRun : Prop :=
  ∀ s : State,
    (∀ k i c, s.plan.instantOf 2 = some k → s.dueInstant k = some (i, c) → s.upd.phase = .collecting →
      (s.fired k c).upd.phase = .collecting → Goes .flip s (s.fired k c)) ∧
    (∀ k i c, s.plan.instantOf 2 = some k → s.dueInstant k = some (i, c) → (s.fired k c).upd.phase = .awaitFlip →
      ∀ t u, t = (s.fired k c).upd.deciding → u = (((s.fired k c).dueDigests (s.fired k c).upd.deciding).setUpd (fun x => { x with
        phase := .collecting, lastFlipSkipped := ((s.fired k c).dueDigests (s.fired k c).upd.deciding).upd.flipVerdict != some false })).setVerdict
          true (fun v => { v with decided := true }) →
      (((s.fired k c).dueDigests (s.fired k c).upd.deciding).upd.flipVerdict = some false →
        Goes .flip s (u.layerEntries.foldl (fun (s : State) q => s.flipLayer t q) u))) ∧
    (∀ id c e, s.readyCmd id 16 = some c → e = (cInline c.entry).take 64 →
      (e.length ≠ 64 ∨ entryOk e = false → Goes (.cmdUpdateParam id) s (s.finish id stInvalid 0)) ∧
      (e.length = 64 → entryOk e = true → u8 e 0 ≠ 1 → Goes (.cmdUpdateParam id) s ((s.setUpd (fun u => { u with
        params := SMap.set paramDflt u.params (layerKey (u16 e 2)) ⟨(SMap.get paramDflt u.params (layerKey (u16 e 2))).now, some e⟩
        blocks := u.blocks ++ [] })).finish id stDone 0))) ∧
    (∀ id c, s.readyCmd id 17 = some c → stateTarget s c.entry = none → Goes (.cmdStateLoad id) s (s.finish id stInvalid 0)) ∧
    (∀ id c w t a r, s.readyCmd id 17 = some c → stateTarget s c.entry = some (w, t) → a = u64 c.entry 0x18 →
      s.plan.dpaOk a (32 + 4 * tDim t) = true → (s.shard (wId w)).stale = true → (s.shard (wId w)).load = none →
      s.dpaHeld a (32 + 4 * tDim t) = false → s.ram.consumerOk a (32 + 4 * tDim t) = true → r = s.ram.read a (32 + 4 * tDim t) →
      u16 r 0 = tId t → u16 r 2 = wId w → Goes (.cmdStateLoad id) s
        ((s.runCmd id 1).setShard (wId w) (fun x => { x with load := some (id, r) }))) ∧
    (∀ (wing : Fin 1024) id r, (s.shard wing).load = some (id, r) → s.upd.phase = .collecting → (s.shard wing).running = [] →
      (u32 r 4 ≠ s.upStep → Goes (.stateLoadEffect wing) s ((s.setShard wing (fun x => { x with load := none })).finish id stRejected 0)) ∧
      (u32 r 4 = s.upStep → Goes (.stateLoadEffect wing) s (((s.setShard wing (fun x => { x with
        load := none, stale := false, step := u32 r 4, q := f32At r 8, cmean := f32At r 0xC, fresh := false
        c := (List.range ((r.length - 32) / 4)).map (fun j => f32At r (0x20 + 4 * j)) })).setUpd (fun u => { u with
          blocks := u.blocks.filter (· != wing.val) ++ [wing.val] })).finish id stDone 0))) ∧
    (∀ id c w t a, s.readyCmd id 18 = some c → stateTarget s c.entry = some (w, t) → a = u64 c.entry 0x18 →
      s.plan.dpaOk a (32 + 4 * tDim t) = true → s.dpaHeld a (32 + 4 * tDim t) = false →
      Goes (.cmdStateRead id) s ((s.sheetWrite .device a ((s.shard (wId w)).record (tId t) (wId w))).finish id
        (if s.ram.goneIn a (32 + 4 * tDim t) then stCheck else stDone) 0))

/-- Ports (R256, R260, R264, R265, R267, R268): a laser turned off or on, locks, retries, lanes that fail, HELLOs sent, heard and
missed, and the flits that a port takes or refuses. -/
def Obligations.PortEventsRun : Prop :=
  ∀ (s : State) (p : Fin 64) (x : Port), x = s.port p →
    (s.barShut = false →
      (x.st = .dark → Goes (.portDisable p) s (s.setPort p (fun y => { y with disabled := true, cause := 0, failed := 0 }))) ∧
      (x.st ≠ .dark → Goes (.portDisable p) s
        ((s.portLost p .dark).setPort p (fun y => { y with disabled := true, cause := 0, failed := 0 })))) ∧
    (∀ u, u = s.setPort p (fun y => { y with disabled := false }) → s.barShut = false →
      (s.plan.portOn p = true → (x.st = .dark ∨ x.st = .down) → Goes (.portEnable p) s (u.trainPort p)) ∧
      (s.plan.portOn p = false ∨ (x.st ≠ .dark ∧ x.st ≠ .down) → Goes (.portEnable p) s u)) ∧
    (x.st = .training → x.since ≤ s.mer.now → s.mer.now - x.since ≤ 5000000 → Goes (.fecLock p) s (s.setPort p (fun y => { y with
      st := .survey, inUse := 255, failed := 0, helloAt := s.mer.now - s.plan.helloMt, heard := s.mer.now }))) ∧
    (x.st = .training → 5000000 < s.mer.now - x.since → Goes (.fecLock p) s s) ∧
    (x.st = .training → x.since + 100000000 ≤ s.mer.now → Goes (.trainingRetry p) s
      (s.setPort p (fun y => { y with since := s.mer.now }))) ∧
    (s.barShut = false → x.st = .degraded → s.inMaintenance = true → Goes (.requalify p) s
      ((s.setPort p (fun y => { y with st := .up, inUse := 255, failed := 0 })).pump p)) ∧
    (∀ lane : Fin 8, x.sends = true → Goes (.laneFail p lane) s (s.degrade p (x.failed ||| 2 ^ lane.val) true)) ∧
    (∀ t, x.nacked = some t → x.sends = true → t + 2000 ≤ s.mer.now → Goes (.nackRepeat p) s (s.nack p)) ∧
    (x.sends = true → x.helloAt + s.plan.helloMt ≤ s.mer.now → Goes (.helloSend p) s
      ((s.setPort p (fun y => { y with helloAt := s.mer.now })).sendLocal p 1 (s.helloBytes p))) ∧
    (x.sends = true → x.heard + s.plan.deadHellos * s.plan.helloMt ≤ s.mer.now → 0 < s.plan.helloMt →
      Goes (.helloMiss p) s (s.portDown p)) ∧
    (∀ (h : Hello) (u v : State), x.sends = true → u = s.setPort p (fun y => { y with
        heard := s.mer.now, nbrState := h.merState, nbrEligible := h.eligible }) →
      v = u.setPort p (fun y => { y with nbr := some (h.grid, h.port) }) →
      (x.st ≠ .survey → Goes (.rxHello p h) s u) ∧
      (x.st = .survey → u.miswire p h = 0 → Goes (.rxHello p h) s
        (({ v.setPort p (fun y => { y with st := .up, credits := [512, 640, 768, 128] }) with
          fab := { (v.setPort p (fun y => { y with st := .up, credits := [512, 640, 768, 128] })).fab with
            heard := SMap.set (fun _ => 255) s.fab.heard (16384 * p + h.grid) 0 }
          io := s.io.event .FB_EVENT p 0 } : State).pump p)) ∧
      (x.st = .survey → u.miswire p h ≠ 0 → Goes (.rxHello p h) s
        { v.setPort p (fun y => { y with st := .miswired, cause := u.miswire p h }) with
          io := s.io.event .FB_EVENT p (match u.miswire p h with | 1 => 3 | 2 => 6 | 3 => 4 | _ => 5) })) ∧
    (∀ b : List Byte, x.sends = true → b.length = 256 → flitOk b = false →
      Goes (.rxDataFlit p b) s (s.badFlit p b) ∧ Goes (.rxIdle p b) s (s.badFlit p b) ∧ Goes (.rxNack p b) s (s.badFlit p b) ∧
      Goes (.rxCtrl p b) s (s.badFlit p b)) ∧
    (∀ (b : List Byte) (u : State), x.sends = true → b.length = 256 → flitOk b = true → u = s.takeLink p (flitLink b) →
      (flitType b = 0 → Goes (.rxIdle p b) s u) ∧
      (∀ v, v = { u.setPort p (fun y => { y with rxSeq := (y.rxSeq + 1) % 4096, nacked := none }) with
          io := u.io.addWide .FB_RX_FLITS_LO p 1 } → flitType b = 1 → (flitOf b).seq = (u.port p).rxSeq →
        (x.st ≠ .miswired ∨ (flitOf b).kind = 1 → Goes (.rxDataFlit p b) s ((v.acceptFlit p (flitOf b)).sendLink p 0 [])) ∧
        (x.st = .miswired → (flitOf b).kind ≠ 1 → Goes (.rxDataFlit p b) s
          ((v.owe (some p.val) (flitOf b).cls).sendLink p 0 []))) ∧
      (flitType b = 1 → (flitOf b).seq ≠ (u.port p).rxSeq → (u.port p).nacked = none → Goes (.rxDataFlit p b) s (u.nack p)) ∧
      (flitType b = 1 → (flitOf b).seq ≠ (u.port p).rxSeq → (u.port p).nacked.isSome = true → Goes (.rxDataFlit p b) s u) ∧
      (∀ v : State, v = { u with io := u.io.inc .FB_NACK_RX p } → flitType b = 2 →
        ((u.port p).replay = [] → Goes (.rxNack p b) s v) ∧
        ((u.port p).replay ≠ [] → (u.port p).resent < 8 → Goes (.rxNack p b) s
          ((v.setPort p (fun y => { y with resent := y.resent + 1 })).resend p)) ∧
        ((u.port p).replay ≠ [] → 8 ≤ (u.port p).resent → Goes (.rxNack p b) s
          (({ v with io := v.io.event .FB_EVENT p 7 } : State).portDown p))) ∧
      (flitType b = 3 → u8 b 16 = 1 → Goes (.rxCtrl p b) s (u.degrade p ((u.port p).failed ||| u8 b 17) false)) ∧
      (flitType b = 3 → u8 b 16 ≠ 1 → Goes (.rxCtrl p b) s u))

/-- Routing (R267, R269, R270): distances heard, advertised and recomputed, a departure noted and made effective, the master's
message, and a message of a Reserved kind. -/
def Obligations.RoutingEventsRun : Prop :=
  ∀ (s : State) (p : Fin 64),
    (∀ es, (s.port p).linked = true → Goes (.rxRoute p es) s { s with fab := { s.fab with
      heard := (es.take 58).foldl (fun m e => SMap.set (fun _ => 255) m (16384 * p + e.1 % 16384) (e.2 % 256)) s.fab.heard } }) ∧
    (s.plan.hasGrid = true → 0 < s.plan.frameLen → s.mer.count / s.plan.frameLen % 1000 = 0 → Goes .routeRefresh s
      (s.linkedPorts.foldl (fun u q => u.sendRoutes q (u.plan.ref :: u.fab.dests.filter (· != u.plan.ref))) s)) ∧
    (s.plan.hasGrid = true → s.fab.dests = [] → s.fab.dist = [] → Goes .routeRecompute s
      ({ s with io := s.io.inc .FB_ROUTE_EPOCH } : State).electMaster) ∧
    (∀ (origin seq effective reason : Nat) (u : State), (s.port p).linked = true →
      s.newer (origin % 16384) (seq % 2 ^ 32) = some u →
        Goes (.rxDepart p origin seq effective reason) s (({ u with
          fab := { u.fab with departs := u.fab.departs.filter (fun (d : Depart) => d.ref != origin % 16384) ++
            [(⟨origin % 16384, effective, reason⟩ : Depart)] }
          io := u.io.event .FB_EVENT_GLOBAL 0 2 } : State).floodFrom p 0 4 (origin % 16384)
            (departBytes (origin % 16384) (seq % 2 ^ 32) effective reason))) ∧
    (∀ (origin seq effective reason : Nat), (s.port p).linked = true → s.newer (origin % 16384) (seq % 2 ^ 32) = none →
      Goes (.rxDepart p origin seq effective reason) s s) ∧
    (∀ (ref : Fin 16384) d, s.fab.departs.find? (fun d => d.ref == ref.val) = some d → ref.val ≠ s.plan.ref →
      s.mer.reached d.effective = true → (∀ q : Nat, ((s.port q).nbr).map (·.1) ≠ some ref.val) → Goes (.departEffective ref) s
        ({ s with fab := { s.fab with
          departs := s.fab.departs.filter (fun (e : Depart) => e.ref != ref.val)
          masters := s.fab.masters.filter (fun (m : MasterInfo) => m.ref != ref.val) } } : State).electMaster) ∧
    (∀ q u, s.plan.hasGrid = true → s.mer.st ≠ .off → 0 < s.plan.frameLen → s.mer.said ≠ some s.masterSays →
      State.nextSeq { s with mer := { s.mer with saidFrame := s.mer.count / s.plan.frameLen + 1, said := some s.masterSays } } = (q, u) →
      Goes .masterSend s (u.floodOn 0 5 (masterBytes u.plan.ref q u.plan.eligible u.mer.ownLock u.mer.ownHold))) ∧
    (s.mer.said = some s.masterSays → s.mer.saidFrame = s.mer.count / s.plan.frameLen + 1 → Goes .masterSend s s) ∧
    (∀ kind : Fin 256, (s.port p).linked = true →
      (kind.val = 0 ∨ (0x06 ≤ kind.val ∧ kind.val < 0x10) ∨ (0x1F ≤ kind.val ∧ kindKnown kind.val = false)) →
      Goes (.rxBadKind p kind) s { s with io := s.io.inc .FB_BAD_KIND })

/-- Connections and messages (R280 to R287): a connection is opened, accepted, answered again, times out, breaks and closes; a WRITE
or a DATAGRAM goes out, and one that arrives lands in its window or is refused. -/
def Obligations.ConnectionCommandsRun : Prop :=
  ∀ (s : State) (p : Fin 64) (m : Msg) (id : Nat) (c : Cmd),
    (∀ k ep, s.readyCmd id 0x13 = some c → s.fab.conns.list.find? (fun e => e.2.st == .broken && e.2.remote == u16 c.entry 0x10 &&
        e.2.cls == u8 c.entry 0x12 && e.2.path == u8 c.entry 0x13) = none → s.fab.freeConn = some k → u8 c.entry 0x12 ≤ 2 →
      u8 c.entry 0x13 ≤ 3 → u16 c.entry 0x10 < 16384 → s.plan.hasGrid = true → ep = s.fab.nextEpoch → Goes (.cmdConnect id) s
        (({ s.runCmd id 1 with fab := { s.fab with
          conns := s.fab.conns.put k (freshConn (u16 c.entry 0x10) (u8 c.entry 0x12) (u8 c.entry 0x13) ep s.mer.now (some id))
          nextEpoch := (ep + 1) % 65536 } } : State).sendTo none (u16 c.entry 0x10) 3 (u8 c.entry 0x13) 0x10 { Msg.blank with
            cls := 3, epoch := ep, arg := k + 2 ^ 16 * u8 c.entry 0x12 + 2 ^ 18 * u8 c.entry 0x13 }).2) ∧
    (∀ k x, (s.port p).linked = true → s.host.parked = false → s.fab.conns.list.find? (fun e => e.2.mirror && e.2.remote == m.src &&
        e.2.partner == m.arg % 4096) = some (k, x) →
      (x.epoch = m.epoch → Goes (.rxOpen p m) s (s.accept m.src (m.arg / 2 ^ 18 % 4) (m.arg % 4096) m.epoch k 0)) ∧
      (x.epoch ≠ m.epoch → ∀ u, u = (s.setConn k (fun y => { y with st := .broken })).failConn k x → Goes (.rxOpen p m) s
        (({ u with fab := { u.fab with conns := u.fab.conns.put k { freshConn m.src (m.arg / 2 ^ 16 % 4) (m.arg / 2 ^ 18 % 4) m.epoch
          s.mer.now none with st := .opened, partner := m.arg % 4096, mirror := true } } } : State).accept m.src (m.arg / 2 ^ 18 % 4)
          (m.arg % 4096) m.epoch k 0))) ∧
    ((s.port p).linked = true → s.host.parked = false → s.fab.conns.list.find? (fun e => e.2.mirror && e.2.remote == m.src &&
        e.2.partner == m.arg % 4096) = none →
      (s.fab.freeConn = none → Goes (.rxOpen p m) s (({ s with io := s.io.inc .FB_CONN_REFUSED } : State).accept m.src
        (m.arg / 2 ^ 18 % 4) (m.arg % 4096) m.epoch 0 1)) ∧
      (∀ k, s.fab.freeConn = some k → ∃ u : State, Goes (.rxOpen p m) s (u.accept m.src (m.arg / 2 ^ 18 % 4) (m.arg % 4096) m.epoch k 0) ∧
        u.fab.conns = s.fab.conns.put k { freshConn m.src (m.arg / 2 ^ 16 % 4) (m.arg / 2 ^ 18 % 4) m.epoch s.mer.now none with
          st := .opened, partner := m.arg % 4096, mirror := true })) ∧
    (∀ x, (s.port p).linked = true → s.fab.conns.at m.conn = some x → x.epoch = m.epoch → x.remote = m.src →
      (x.st = .opening → m.arg % 256 = 0 → Goes (.rxAccept p m) s ((s.setConn m.conn (fun y => { y with
        st := .opened, partner := m.arg / 2 ^ 16 % 4096, cmd := none })).connCmd x.cmd stDone m.conn)) ∧
      (x.st = .opening → m.arg % 256 ≠ 0 → Goes (.rxAccept p m) s (({ s with
        fab := { s.fab with conns := s.fab.conns.del m.conn }, io := s.io.inc .FB_CONN_REFUSED } : State).connCmd x.cmd stUnreach 0)) ∧
      (x.st = .opened → x.outs.findIdx? (fun o => o.msg.mseq == m.mseq) = none → Goes (.rxAck p m) s s) ∧
      (∀ o, x.st = .opened → x.outs = [o] → o.msg.mseq = m.mseq → bit m.arg 8 = false → Goes (.rxAck p m) s
        (((s.setConn m.conn (fun y => { y with outs := y.outs.drop 1 })).outDone o (endStatus (m.arg % 256))).settleClose m.conn)) ∧
      (x.st = .opened → Goes (.rxClose p m) s (({ (s.setConn m.conn (fun y => { y with st := .broken })).failConn m.conn x with
        fab := { ((s.setConn m.conn (fun y => { y with st := .broken })).failConn m.conn x).fab with
          conns := ((s.setConn m.conn (fun y => { y with st := .broken })).failConn m.conn x).fab.conns.del m.conn } } : State).connCmd
            none stDone 0))) ∧
    (∀ (k : Fin 4096) x, s.fab.conns.at k = some x →
      (x.st = .opening → x.since + s.plan.connTimeout ≤ s.mer.now → Goes (.connectTimeout k) s
        (({ s with fab := { s.fab with conns := s.fab.conns.del k } } : State).connCmd x.cmd stUnreach 0)) ∧
      (∀ o rest, x.outs = o :: rest → x.st = .opened → o.lastAt + s.plan.rto ≤ s.mer.now → ∀ u, u = s.setConn k (fun y => { y with
          outs := y.outs.map (fun o => { o with lastAt := s.mer.now }), retx := min 0xFFFFFFFF (y.retx + y.outs.length) }) →
        Goes (.retransmit k) s (x.outs.foldl (fun (v : State) o =>
          (v.sendTo none x.remote o.msg.cls x.path o.kind (v.outAgain o)).2) u)) ∧
      (∀ o rest, x.outs = o :: rest → x.st = .opened → o.firstAt + s.plan.connTimeout ≤ s.mer.now → ∃ u : State,
        u.io = s.io.event .FB_TRAFFIC_EVENT 0 0 ∧ Goes (.connBreak k) s ((u.failConn k x).settleClose k))) ∧
    (∀ x, s.readyCmd id 0x14 = some c → s.fab.conns.at (u16 c.entry 0x10) = some x →
      (x.st = .opened ∨ x.st = .broken → Goes (.cmdClose id) s (((s.runCmd id 1).setConn (u16 c.entry 0x10) (fun y => { y with
        st := .closing, cmd := some id })).settleClose (u16 c.entry 0x10))) ∧
      (x.st = .opening ∨ x.st = .closing → Goes (.cmdClose id) s (s.finish id stInvalid 0))) ∧
    (∀ x, s.readyCmd id 0x18 = some c → s.fab.conns.at (u16 c.entry 0x10) = some x →
      (x.st = .broken → Goes (.cmdSend id) s (s.finish id stUnreach 0)) ∧
      (∀ b, x.st = .opened → s.sendPayload c = .inr (some b) → ∀ cls u, s.sendClass x.cls (c.cls = 0) = (cls, u) →
        Goes (.cmdSend id) s ((u.runCmd id 1).connSendIn (u16 c.entry 0x10) cls 0x14 { Msg.blank with
          window := u8 c.entry 0x12, arg := u64 c.entry 0x20, payload := b } (some (u64 c.entry 0x18)) (some id) (some c.share)))) ∧
    (∀ k, (s.port p).linked = true → s.connTakes m = some (k, true) →
      (s.windowOk m.window m.src m.arg m.payload.length = false → Goes (.rxWrite p m) s (s.windowRefused.accepted k stInvalid)) ∧
      (s.windowOk m.window m.src m.arg m.payload.length = true → s.windowHeld m.window m.arg m.payload.length = false →
        Goes (.rxWrite p m) s ((s.windowWrite m.window m.arg m.payload).accepted k
          (if s.windowGone m.window m.arg m.payload.length then stCheck else stDone)))) ∧
    (∀ k, (s.port p).linked = true → s.connTakes m = some (k, false) → Goes (.rxWrite p m) s (s.ackAgain k)) ∧
    (∀ b, s.readyCmd id 0x19 = some c → c.cls ≠ 0 → u8 c.entry 0x13 ≤ 3 → u16 c.entry 0x10 < 16384 → s.plan.hasGrid = true →
      s.sendPayload c = .inr (some b) →
      (s.distTo (u16 c.entry 0x10) = 255 → Goes (.cmdDatagram id) s (s.finish id stUnreach 0)) ∧
      (s.distTo (u16 c.entry 0x10) ≠ 255 → Goes (.cmdDatagram id) s ((s.runCmd id 1).sendTo (some c.share) (u16 c.entry 0x10)
        c.cls (u8 c.entry 0x13) 0x19 { Msg.blank with
          cls := c.cls, window := u8 c.entry 0x12, arg := u64 c.entry 0x20, payload := b } (some id)).2)) ∧
    ((s.port p).linked = true →
      (s.windowOk m.window m.src m.arg m.payload.length = false → Goes (.rxDgram p m) s s.windowRefused) ∧
      (s.windowOk m.window m.src m.arg m.payload.length = true → s.windowHeld m.window m.arg m.payload.length = false →
        Goes (.rxDgram p m) s (s.windowWrite m.window m.arg m.payload)))

/-- Multicast trees (R289 to R293): a tree is removed, set up along its routes or given up; a message leaves its root, is taken in
order, asked for again and answered; a branch is pruned, grafted and led anew. -/
def Obligations.TreeCommandsRun : Prop :=
  ∀ (s : State) (p : Fin 64) (m : Msg) (id : Nat) (c : Cmd) (t : Tree),
    (s.readyCmd id 0x15 = some c → u16 c.entry 0x10 < 4096 → s.plan.hasGrid = true → cCount c.entry = 0 →
      (s.fab.trees.at (u16 c.entry 0x10) = none → Goes (.cmdTree id) s (s.finish id stInvalid 0)) ∧
      (s.fab.trees.at (u16 c.entry 0x10) = some t → t.root = true → t.leaves = [] → Goes (.cmdTree id) s
        (({ s with fab := { s.fab with trees := s.fab.trees.del (u16 c.entry 0x10) } } : State).finish id stDone 0))) ∧
    (∀ dest, (s.port p).linked = true → Goes (.rxTreeSetup p dest m) s (s.treeSetup p dest (m.tag % 4096) (m.arg % 256)
      (m.arg / 2 ^ 8 % 256) (m.arg / 2 ^ 16 % 65536) (m.arg / 2 ^ 32 % 4) m.src)) ∧
    (∀ (tr : Fin 4096) k, s.fab.trees.at tr = some t → t.cmd = some k → t.since + s.plan.connTimeout ≤ s.mer.now → t.todo ≠ [] →
      Goes (.treeSetupTimeout tr) s ((s.setTree tr (fun y => { y with cmd := none })).finish k stUnreach t.reached)) ∧
    (s.readyCmd id 0x1A = some c → (s.fab.trees.at (u16 c.entry 0x10) = none → Goes (.cmdMcast id) s (s.finish id stInvalid 0)) ∧
      (∀ b cls u, s.fab.trees.at (u16 c.entry 0x10) = some t → t.root = true → t.member = false → s.sendPayload c = .inr (some b) →
        s.dpaHeld t.base t.size = false → s.sendClass t.cls (c.cls = 0) = (cls, u) → ∃ fs,
        Goes (.cmdMcast id) s ((({ u.keepReplay (u16 c.entry 0x10) (u8 c.entry 0x12) (u64 c.entry 0x20) b with
          io := (u.keepReplay (u16 c.entry 0x10) (u8 c.entry 0x12) (u64 c.entry 0x20) b).io.addWide .SC_GRP_FLITS_LO c.share
            fs.length } : State).runCmd id 1).treeSend (u16 c.entry 0x10) (ownTx fs c.share (some id))))) ∧
    ((s.port p).linked = true → s.fab.trees.at (m.tag % 4096) = some t →
      (t.member = true → s.windowHeld t.window m.arg m.payload.length = false → m.conn = 0xFFFF → m.mseq = t.next →
        Goes (.rxMcast p m) s (s.takeTree (m.tag % 4096) t m.arg m.payload)) ∧
      (t.member = true → s.windowHeld t.window m.arg m.payload.length = false → m.conn = 0xFFFF → m.mseq ≠ t.next →
        (m.mseq + 2 ^ 32 - t.next) % 2 ^ 32 < 2 ^ 31 → t.missing = none → Goes (.rxMcast p m) s
          ((s.setTree (m.tag % 4096) (fun y => { y with missing := some (t.next, s.plan.ref) })).pull (m.tag % 4096))) ∧
      (t.member = false → t.kids = 0 → Goes (.rxPrune p m) s (s.setTree (m.tag % 4096) (fun y => { y with mid := false }))) ∧
      (∀ l, t.leaves.find? (fun l => l.ref == m.src) = some l → ∃ u : State, Goes (.rxGraft p m) s
        (pumpTree u (m.tag % 4096) (t.queue.length + 1)) ∧ u.ram = s.ram ∧ u.io = s.io)) ∧
    (∀ k, (s.port p).linked = true → s.connTakes m = some (k, true) →
      (s.fab.trees.at (m.tag % 4096) = none → Goes (.rxPull p m) s (s.accepted k stInvalid)) ∧
      (s.fab.trees.at (m.tag % 4096) = some t → t.root = true → t.log = [] → m.arg % 2 ^ 32 ≠ t.next →
        Goes (.rxPull p m) s (({ s with io := s.io.inc .FB_PULLS } : State).accepted k stNoState)) ∧
      (s.fab.trees.at (m.tag % 4096) = some t → t.root = true → t.log = [] → m.arg % 2 ^ 32 = t.next →
        Goes (.rxPull p m) s ((({ s with io := s.io.inc .FB_PULLS } : State).accepted k stDone).connSend k 0x1A { Msg.blank with
          tag := m.tag % 4096, window := 0xFFFF, arg := 2 ^ 32 * t.next } none none none)) ∧
      (∀ r, s.fab.trees.at (m.tag % 4096) = some t → t.root = true → t.log = [r] → r.mseq = m.arg % 2 ^ 32 → ∀ u,
        u = ({ s with io := s.io.inc .FB_PULLS } : State).accepted k stDone →
        Goes (.rxPull p m) s (u.connSend k 0x1A { Msg.blank with
          tag := m.tag % 4096, window := r.window + 2 ^ 15, arg := r.arg + 2 ^ 32 * r.mseq
          payload := u.ram.read (t.base + r.offset) r.len } (some (t.base + r.offset)) none none))) ∧
    (∀ (tr : Fin 4096) f rest since u, s.fab.trees.at tr = some t → t.queue = f :: rest → t.waitSince = some since →
      t.open.contains p.val = true → (s.port p).takes f = false → t.open.all (fun q => q == p.val || (s.port q).takes f) = true →
      since + s.plan.pruneMt t.cls ≤ s.mer.now → u = s.pruneTree tr p → Goes (.branchPrune tr p) s (u.egress p
        (ownTx (flitsOf 3 0 (16384 + tr.val) u.plan.ref 0x1B u.plan.maxHops (u.pruneMsg tr t.unsent))))) ∧
    (∀ (tr : Fin 4096) q first, s.fab.trees.at tr = some t → t.pruned.find? (fun x => x.1 == p.val) = some (q, first) →
      (s.port p).linked = false → t.leaves.filter (fun l => l.port == p.val) = [] → Goes (.branchRebuild tr p) s
        (s.setTree tr (fun y => { y with
          kids := y.kids &&& (2 ^ 64 - 1 - 2 ^ p.val), pruned := y.pruned.filter (fun x => x.1 != p.val)
          leaves := y.leaves.filter (fun l => l.port != p.val) })))

/-- Groups and collectives (R294 to R300): a group is defined, deleted or refused; a call is issued or refused; a piece of a chunk
is acknowledged again, answered with RESEND, or taken. -/
def Obligations.CollectiveCommandsRun : Prop :=
  ∀ (s : State) (p : Fin 64) (m : Msg) (id : Nat) (c : Cmd),
    (∀ g ms gs, gs = (if cCount c.entry = 0 then s.fab.groups.del g else s.fab.groups.put g ms) → s.readyCmd id 0x16 = some c → g = u16 c.entry 0x10 →
      ms = (List.range (cCount c.entry)).map (fun i => u16 (cInline c.entry) (2 * i)) →
      (4096 ≤ g ∨ cCount c.entry = 1 ∨ 256 < cCount c.entry → Goes (.cmdGroup id) s (s.finish id stInvalid 0)) ∧
      (g < 4096 → cCount c.entry ≠ 1 → cCount c.entry ≤ 256 → 2 * cCount c.entry ≤ cLen c.entry →
        ms.any (fun m => decide (16384 ≤ m)) = false → rising ms = true → s.fab.colls = [] →
        Goes (.cmdGroup id) s (({ s with fab := { s.fab with groups := gs } } : State).finish id stDone 0))) ∧
    (s.readyCmd id 0x17 = some c →
      ((s.groupOf (u16 c.entry 0x10)).contains s.plan.ref = false → Goes (.cmdCollective id) s (s.finish id stInvalid 0)) ∧
      ((s.groupOf (u16 c.entry 0x10)).contains s.plan.ref = true → u8 c.entry 0x12 = 5 → u8 c.entry 0x13 = 0 →
        u32 c.entry 0x14 < 0xF0000000 → u8 c.entry 0x2B ≤ 3 → s.fab.coll (u16 c.entry 0x10) (u32 c.entry 0x14) = none → ∃ x : Coll,
        Goes (.cmdCollective id) s ((s.runCmd id 1).collIssue x) ∧ x.group = u16 c.entry 0x10 ∧ x.call = u32 c.entry 0x14 ∧ x.op = 5 ∧
          x.cmd = some id)) ∧
    ((s.port p).linked = true →
      (∀ k, s.connTakes m = some (k, false) → Goes (.rxColl p m) s (s.ackAgain k)) ∧
      (∀ k, s.connTakes m = some (k, true) → s.fab.coll (m.tag % 4096) (m.arg % 2 ^ 32) = none →
        (s.fab.dead.contains (m.tag % 4096, m.arg % 2 ^ 32) = true → Goes (.rxColl p m) s (s.accepted k 0)) ∧
        (s.fab.dead.contains (m.tag % 4096, m.arg % 2 ^ 32) = false → Goes (.rxColl p m) s s)) ∧
      (∀ k x h, h = m.payload.take 16 → s.connTakes m = some (k, true) → s.fab.coll (m.tag % 4096) (m.arg % 2 ^ 32) = some x → x.started = true →
        x.overWith = none → (s.groupOf (m.tag % 4096)).idxOf m.src < (s.groupOf (m.tag % 4096)).length →
        bit (u8 h 2) 1 = false → u8 h 0 = x.op → u8 h 1 = x.fmts → u32 h 4 = x.e →
        collDigest (m.tag % 4096) (m.arg % 2 ^ 32) (m.payload.drop 16) ≠ m.digest →
        (x.chunkOf ((s.groupOf (m.tag % 4096)).idxOf m.src) (bit (u8 h 2) 0)).retried.contains (u64 h 8) = false →
        ∃ u : State, Goes (.rxColl p m) s (u.accepted k 256) ∧ u.ram = s.ram ∧ u.io = s.io) ∧
      (∀ k x h, h = m.payload.take 16 → s.connTakes m = some (k, true) → s.fab.coll (m.tag % 4096) (m.arg % 2 ^ 32) = some x → x.started = true →
        x.overWith = none → (s.groupOf (m.tag % 4096)).idxOf m.src < (s.groupOf (m.tag % 4096)).length →
        bit (u8 h 2) 1 = false → u8 h 0 = x.op → u8 h 1 = x.fmts → u32 h 4 = x.e →
        collDigest (m.tag % 4096) (m.arg % 2 ^ 32) (m.payload.drop 16) = m.digest → ∃ u : State, Goes (.rxColl p m) s
          (((u.accepted k 0).collStep (m.tag % 4096) (m.arg % 2 ^ 32)).pumpAll) ∧ u.ram = s.ram ∧ u.io = s.io))

/-- A step takes the command at the front of the queue and executes it with the queue's rest; where none waits, one mt passes: the
clock advances, and the meridian count by one, with its oscillator's and its slew's correction, unless the block is OFF (R54); memory,
the plan and the queue stay as they are (that a tick stands for an empty queue is the model's choice, log entry 10). -/
def Obligations.StepRunsFrontCommand : Prop :=
  (∀ (c : Instr) (rest : List Instr) (s : State), step { s with pending := c :: rest } = exec c { s with pending := rest }) ∧
  (∀ s : State, s.pending = [] → step s = .next s.clock ∧ s.clock.pending = [] ∧ s.clock.ram = s.ram ∧ s.clock.plan = s.plan ∧
    s.clock.mer.now = s.mer.now + 1 ∧ (s.mer.st = .off → s.clock.mer.count = s.mer.count) ∧
    (s.mer.st ≠ .off → s.clock.mer.count =
      (s.mer.count + 1 + Mer.adjust { s.mer with now := s.mer.now + 1 } s.draw).toNat % 2 ^ 64) ∧
    (s.fab.ports = [] → s.serving = [] → s.clock = s.tick))

/-- Commands are taken first in, first out: executing a command leaves the queue as it is, so a step drops the front command and
nothing else of the queue. -/
def Obligations.QueueIsFirstInFirstOut : Prop :=
  (∀ (i : Instr) (s t : State), exec i s = .next t → t.pending = s.pending) ∧
  (∀ s t : State, step s = .next t → t.pending = s.pending.tail)

/-- What every step keeps: the fuses stay within what can be burned (four owner slots, at most four plan keys, a lock level of at
most 2, at most 64 advances of each minimum). -/
def Obligations.EveryStepKeepsInvariant : Prop := ∀ s t : State, s.inv → step s = .next t → t.inv

/-- The invariant holds of the state after reset. -/
def Obligations.ResetMeetsInvariant : Prop := State.reset.inv ∧ State.reset.ram.wf

/-- No step lowers a minimum or the lock level, removes a plan key, changes the identity, or takes an owner slot back (R443,
R445). -/
def Obligations.FusesNeverGoBack : Prop :=
  ∀ s t : State, s.inv → step s = .next t → s.se.fuses.le t.se.fuses

/-- Only ADVANCE_FW, ADVANCE_PLAN and the four key operations that burn change the fuses (R443, R445). -/
def Obligations.OnlyKeyCommandsBurn : Prop :=
  ∀ (i : Instr) (s t : State), i ∉ burners → exec i s = .next t → t.se.fuses = s.se.fuses

/-- The state after reset (Table 20-3): no command waits, the image store is EMPTY, no plan is in force, the meridian block is OFF and
its count 0, no room core runs, every array is disabled with empty queues, the update block's phase is OFF, every port is DARK, no
connection, tree or group is listed, MSI-X is disabled, no address space is enabled, every queue is DISABLED, no itinerary is
resident, no stream runs, the power state is NO_PLAN, and every register holds its reset value (those without one in the manual hold
the model's choice, log entry 5). -/
def Obligations.ResetLeaves : Prop :=
  State.reset.pending = [] ∧ State.reset.fp.st = .empty ∧ State.reset.plan.active = false ∧ State.reset.mer.st = .off ∧
  State.reset.mer.count = 0 ∧ State.reset.upd.phase = .off ∧ State.reset.pw.st = .noPlan ∧ State.reset.io.msixOn = false ∧
  (∀ q, (State.reset.cf.queue q).st = .disabled) ∧ (∀ p, (State.reset.port p).st = .dark) ∧ (∀ a, State.reset.xl.on a = false) ∧
  (∀ r, State.reset.rooms.cores.at r = none) ∧ (∀ a, (State.reset.arr a).running = none ∧ (State.reset.arr a).queue = []) ∧
  (∀ k, State.reset.fab.conns.at k = none ∧ State.reset.fab.trees.at k = none ∧ State.reset.fab.groups.at k = none) ∧
  (∀ k, State.reset.cf.itins.at k = none ∧ State.reset.sc.streams.at k = none) ∧ (∀ r i, State.reset.io.reg r i = r.spec.reset)

/-- R9: an offset that no register and no window holds reads as 0, and a write there changes nothing: no error, no interrupt. The
range 0x0150_0000 to 0x01FF_FFFF of BAR0 behaves the same way. -/
def Obligations.UnassignedOffsets : Prop :=
  ∀ (s : State) (off : Nat), off % 4 = 0 → noWindow off → (findReg off = none ∨ 0x1500000 ≤ off) →
    s.barRead off = 0#32 ∧ (∀ v, s.barWrite off v = s)

/-- A REGISTER_WRITE of one word by the register's access code (Table 0-5): a read-only register keeps its value, 1 clears the bits
of a W1C register, and a read-write register takes the bits that are not Reserved. -/
def Obligations.RegisterWriteRules : Prop :=
  ∀ (s : State) (addr : BitVec 25) (v : BitVec 64) (r : Reg) (i : Nat), s.barShut = false → s.se.result ≠ 3 → addr.toNat % 4 = 0 →
    noWindow addr.toNat → findReg addr.toNat = some (r, i) → r.ownWrite = false → s.noQueue r i = false →
    (r.spec.acc = .ro → Goes (.registerWrite addr false v) s s) ∧
    (r.spec.acc = .w1c → Goes (.registerWrite addr false v) s
      { s with io := s.io.put r i (s.io.reg r i &&& ~~~(clearMask r (v.setWidth 32))) }) ∧
    (r.spec.acc = .rw → r ∉ ([.XL_RING_CTRL, .XL_CW_AS, .XL_CW_BASE_LO, .XL_CW_BASE_HI] : List Reg) →
      Goes (.registerWrite addr false v) s { s with io := s.io.put r i (v.setWidth 32 &&& r.spec.mask) })

/-- R52: ABORT stops a FETCH, a VERIFY or a pending amendment and moves the store to FAILED with ABORTED; during APPLYING it is refused
with BUSY. DISCARD returns a LOADED, VERIFIED or FAILED store to EMPTY and clears FP_ERROR. -/
def Obligations.AbortAndDiscard : Prop :=
  ∀ s : State, s.barShut = false → s.se.result ≠ 3 →
    (s.fp.st = .loading ∨ s.fp.st = .verifying ∨ (s.fp.st = .verified ∧ s.fp.pending = true) → Goes .fpAbort s { s with
      fp := { s.fp with st := .failed, pending := false }
      io := ((s.io.putN .FP_ERROR 0 0x15).putN .FP_ERR_DETAIL 0 0).event .FP_EVENT 0 1 }) ∧
    (s.fp.st = .applying → Goes .fpAbort s { s with io := (s.io.putN .FP_ERROR 0 0x13).event .FP_EVENT 0 1 }) ∧
    (s.fp.st = .loaded ∨ s.fp.st = .verified ∨ s.fp.st = .failed → ∃ t, Goes .fpDiscard s t ∧ t.fp.st = .empty ∧
      t.io = (s.io.putN .FP_DROPPED 0 0).putN .FP_ERROR 0 0 ∧ t.plan = s.plan ∧ ∀ n < 4194304, t.ram.byte (imageAddr n) = 0)

/-- R121: ADD, SUB, ADDI and MUL wrap modulo 2^32, shift amounts are taken modulo 32, and a write to g0 has no effect while the
instruction's other effects still take place. -/
def Obligations.ScalarResultsAndZero : Prop :=
  ∀ (s : State) (r : Fin 1048576) (c : Core) (w k : Nat), k = (if bit (iF w) 13 then iF w else c.num (iB w)) % 32 →
    (∀ c' : Core, ∀ v, c' = c.setReg (iD w) v → (iD w = 0 → c' = c) ∧ (iD w ≠ 0 → c'.reg (iD w) = v) ∧ c'.reg 0 = 0#32) ∧
    (∀ e ∈ ([(.add r, 0x02, (c.num (iA w) + c.num (iB w)) % 2 ^ 32),
        (.sub r, 0x03, (2 ^ 32 + c.num (iA w) - c.num (iB w)) % 2 ^ 32), (.mul r, 0x0A, c.num (iA w) * c.num (iB w) % 2 ^ 32),
        (.addi r, 0x0C, (((c.num (iA w) : Int) + iImm w) % 2 ^ 32).toNat), (.shl r, 0x07, c.num (iA w) * 2 ^ k % 2 ^ 32),
        (.shr r, 0x08, c.num (iA w) / 2 ^ k), (.sra r, 0x09, (((c.reg (iA w)).toInt / 2 ^ k) % 2 ^ 32).toNat)] :
        List (Instr × Nat × Nat)),
      Issues s r e.2.1 c w → ∃ v : Word, v.toNat = e.2.2 ∧ Goes e.1 s (roomNext s r (c.setReg (iD w) v) 1))

/-- An exception enters the fault log while it holds fewer than 16 entries; with 16 it is counted and FLOG_FULL is set, and no entry
is overwritten (R142). -/
def Obligations.FaultLogHoldsSixteen : Prop :=
  ∀ (s : State) (r code : Nat) (c : Core) (log : List FaultEntry), log = SMap.get (fun _ => []) s.rooms.flog (r / 65536) →
    (log.length < 16 → SMap.get (fun _ => []) (s.faultLog r c code).rooms.flog (r / 65536) =
        log ++ [⟨r, code, c.call.cls, c.call.update, c.pc, c.call.entry, c.call.tag⟩] ∧
      (s.faultLog r c code).io = (s.io.inc .RM_FAULTS (r / 65536)).event .RM_EVENT (r / 65536) 0) ∧
    (16 ≤ log.length → (s.faultLog r c code).rooms.flog = s.rooms.flog ∧ (s.faultLog r c code).io =
      ((s.io.inc .RM_FAULTS (r / 65536)).event .RM_EVENT (r / 65536) 0).event .RM_EVENT (r / 65536) 1)

/-- R77: in a group whose block scale is 0xFF every element decodes as NaN with sign +, whatever its stored bits (in a row record, a
tensor block and a sparse block), and an FP8-E4 element 0x7F or 0xFF in a group with a valid scale decodes as NaN with its own sign. -/
def Obligations.NanGroups : Prop :=
  (∀ (fmt d j : Nat) (bs : List Byte), (fmt = 5 ∨ fmt = 6) →
    (u8 bs (32 + d * fmtBits fmt / 8 + j / 16) = 0xFF → recElem fmt d bs j = .nan false) ∧
    (u8 bs ((if fmt = 5 then 240 else 224) + j / 16) = 0xFF → blockElem fmt bs j = .nan false) ∧
    (u8 bs ((if fmt = 5 then 200 else 216) + j / 16) = 0xFF → (occupancy fmt bs j).testBit (j % 8) = true →
      sparseElem fmt bs j = .nan false)) ∧
  (∀ (d j : Nat) (bs : List Byte), u8 bs (32 + d + j / 16) ≠ 0xFF →
    (u8 bs (32 + j) = 0x7F → recElem 5 d bs j = .nan false) ∧ (u8 bs (32 + j) = 0xFF → recElem 5 d bs j = .nan true)) ∧
  (∀ (j : Nat) (bs : List Byte), u8 bs (240 + j / 16) ≠ 0xFF →
    (u8 bs j = 0x7F → blockElem 5 bs j = .nan false) ∧ (u8 bs j = 0xFF → blockElem 5 bs j = .nan true)) ∧
  (∀ (j k : Nat) (bs : List Byte), u8 bs (200 + j / 16) ≠ 0xFF → (occupancy 5 bs j).testBit (j % 8) = true →
    k = 8 * (j / 16) + 4 * (j / 8 % 2) + popBelow (occupancy 5 bs j) (j % 8) →
    (u8 bs k = 0x7F → sparseElem 5 bs j = .nan false) ∧ (u8 bs k = 0xFF → sparseElem 5 bs j = .nan true))

/-- R144: the wing room index of the room in logical channel c and logical room r is r × C + (c − c0); room w lies in channel
c0 + (w mod C) at logical room w div C; and GETS value 3 returns it. -/
def Obligations.WingRoomIndexes : Prop :=
  ∀ (w : List Byte) (c0 n st : Nat), c0 = wFirst w → n = wChans w → st = wStack w → 0 < n → c0 + n ≤ 64 →
    (∀ c r, c0 ≤ c → c < c0 + n → r < 1024 → roomIndex w (st * 65536 + c * 1024 + r) = r * n + (c - c0)) ∧
    (∀ i, i < 1024 * n → wingRoom w i = st * 65536 + (c0 + i % n) * 1024 + i / n ∧ roomIndex w (wingRoom w i) = i) ∧
    (∀ (s : State) (r : Fin 1048576) (c : Core) (x : Nat), Issues s r 0x32 c x → x % 16 = 3 → s.plan.wingOf c.ident = some w →
      Goes (.gets r) s (roomNext s r (c.setReg (iD x) (BitVec.ofNat 32 (roomIndex w c.ident))) 1))

/-- Memory: writes keep the canonical form, what was written is read, every other byte stays, and equal memories are equal data. -/
def Obligations.MemoryIsCanonical : Prop :=
  ∀ m : Ram, m.wf →
    (∀ a bs, (m.poke a bs).wf ∧ (m.poke a bs).read a bs.length = bs ∧
      ∀ j, (j < a ∨ a + bs.length ≤ j) → (m.poke a bs).byte j = m.byte j) ∧
    (∀ w fr a bs, (m.write w fr a bs).wf) ∧ (∀ src dst n, (m.carry src dst n).wf) ∧ (∀ a b, (m.setBlk a b).wf) ∧
    (∀ l : Ram, l.wf → l.dead = m.dead → l.lost = m.lost → (∀ a, l.byte a = m.byte a) →
      (∀ k, SMap.get l.blkD l.blks k = SMap.get m.blkD m.blks k) → l = m)

/-- Frame: a scalar, floating-point or lane instruction of a room core that takes no exception changes nothing of the machine but
that core (and the count of free values drawn): every other core, memory, the registers of BAR0 and the plan stay. -/
def Obligations.RoomInstructionFrame : Prop :=
  ∀ (r : Fin 1048576) (s t : State), ∀ i ∈ quietRoom r, exec i s = .next t →
    (∀ q : Nat, q ≠ r.val → t.rooms.cores.at q = s.rooms.cores.at q) ∧
    t = { s with rooms := { s.rooms with cores := t.rooms.cores }, free := t.free } ∧
    (∀ c c', s.rooms.cores.at r = some c → t.rooms.cores.at r = some c' → c'.scratch = c.scratch ∧ c'.call = c.call ∧
      c'.slots = c.slots ∧ c'.sends = c.sends ∧ c'.recv = c.recv ∧ c'.ppos = c.ppos ∧ c'.wait = c.wait)

/-- An access to scratch with nothing outstanding races with nothing: no line changes and no free value is drawn (R126). -/
def Obligations.NoRaceWithoutOperations : Prop :=
  ∀ (c : Core) (fr a n : Nat) (write : Bool), c.slots = [] → c.sends = [] → c.race fr a n write = c ∧ c.racy = false

/-- BAR0 does not answer while the function is in D3hot or a reset is in progress, nor, but for the power block, while the device is
SHUTTERED or TRIPPED: commands of BAR0 then change nothing (R330, R432). -/
def Obligations.ShutBar0ChangesNothing : Prop :=
  ∀ (s : State) (q : Fin 4096) (st : Fin 16) (v : BitVec 32), s.barShut = true →
    ∀ i ∈ ([.dbCqWrite q v, .qEnable q, .qDisable q, .qReset q, .qResume q, .cqAck q, .asEnable, .asDisable, .xlInvGo, .xlCntClear,
      .xlCwCountWrite v, .fpFetch, .fpVerify, .fpApply, .fpAmend, .fpAbort, .fpDiscard, .fpLenWrite v, .rlCkptGo, .rlLogClear v,
      .rmFlogClear st v, .burnRow st, .contentClear st, .merCtrlStep v] : List Instr), Goes i s s
end

