-- ==== Sys2Proof/Laws/Fixed.lean ====
section
/-! SUPPORT. Laws/Fixed.lean: what only the queue and the key records change, and how the operations that build a next state
keep it: record updates, conditions, folds. -/

namespace Sys2Proof.Machine

/-- The queue of waiting commands, and the fuses. -/
def State.fixed (s : State) : List Instr × Fuses := (s.pending, s.se.fuses)

theorem State.fixed_ext {s t : State} (h : s.pending = t.pending) (k : s.se.fuses = t.se.fuses) : s.fixed = t.fixed := by
  simp [State.fixed, h, k]

@[simp] theorem State.fixed_mk (pe io ra fr pl fp me xl ho cf sc st rl ro wi up mx fa pw po se tr) :
    (State.mk pe io ra fr pl fp me xl ho cf sc st rl ro wi up mx fa pw po se tr).fixed = (pe, se.fuses) := rfl

@[simp] theorem State.fixed_fold (s : State) : (s.pending, s.se.fuses) = s.fixed := rfl

@[simp] theorem fixed_ite (c : Prop) [Decidable c] (s t : State) :
    (if c then s else t).fixed = if c then s.fixed else t.fixed := by split <;> rfl

theorem fixed_if {x : List Instr × Fuses} {c : Prop} [Decidable c] {a b : State} (ha : a.fixed = x) (hb : b.fixed = x) :
    (if c then a else b).fixed = x := by split <;> assumption

theorem fixed_if_fst {x : List Instr × Fuses} {β : Type} {c : Prop} [Decidable c] {a b : State × β} (ha : a.1.fixed = x)
    (hb : b.1.fixed = x) : (if c then a else b).1.fixed = x := by split <;> assumption

@[simp] theorem fixed_ite_fst {β : Type} (c : Prop) [Decidable c] (a b : State × β) :
    (if c then a else b).1.fixed = if c then a.1.fixed else b.1.fixed := by split <;> rfl

@[simp] theorem fixed_ite_snd {β : Type} (c : Prop) [Decidable c] (a b : β × State) :
    (if c then a else b).2.fixed = if c then a.2.fixed else b.2.fixed := by split <;> rfl

@[simp] theorem foldl_fixed {α : Type} (f : State → α → State) (h : ∀ s x, (f s x).fixed = s.fixed) (l : List α) (s : State) :
    (l.foldl f s).fixed = s.fixed := by
  induction l generalizing s with
  | nil => rfl
  | cons x l ih => rw [List.foldl_cons, ih, h]

@[simp] theorem foldl_fixed_fst {α β : Type} (f : State × β → α → State × β) (h : ∀ p x, (f p x).1.fixed = p.1.fixed) (l : List α)
    (p : State × β) : (l.foldl f p).1.fixed = p.1.fixed := by
  induction l generalizing p with
  | nil => rfl
  | cons x l ih => rw [List.foldl_cons, ih, h]

/-- Every next state that an outcome holds has the queue and the fuses of `s`. -/
def Keeps (s : State) (r : Result) : Prop := ∀ t, r = .next t → t.fixed = s.fixed

@[simp] theorem keeps_next (s t : State) : Keeps s (.next t) ↔ t.fixed = s.fixed := by
  simp [Keeps, eq_comm]

@[simp] theorem keeps_ignored (s t : State) : Keeps s (ignored t) ↔ t.fixed = s.fixed := by simp [ignored]

@[simp] theorem keeps_ite (c : Prop) [Decidable c] (s : State) (a b : Result) :
    Keeps s (if c then a else b) ↔ if c then Keeps s a else Keeps s b := by split <;> rfl

/-- The same of a state that may not be there. -/
def KeepsO (s : State) (o : Option State) : Prop := ∀ t, o = some t → t.fixed = s.fixed

@[simp] theorem keepsO_some (s t : State) : KeepsO s (some t) ↔ t.fixed = s.fixed := by simp [KeepsO, eq_comm]

@[simp] theorem keepsO_none (s : State) : KeepsO s none := by simp [KeepsO]

theorem keepsO_ite {c : Prop} [Decidable c] {s : State} {a b : Option State} (ha : KeepsO s a) (hb : KeepsO s b) :
    KeepsO s (if c then a else b) := by split <;> assumption

end Sys2Proof.Machine
end

