-- ==== Sys2Proof/Laws/FxOps.lean ====
section
/-! SUPPORT. Laws/FxOps.lean: the operations and meanings of Machine/Ops.lean leave the queue and the fuses as they were. -/

namespace Sys2Proof.Machine

@[simp] theorem State.mapIo_fixed (s : State) (f : Io → Io) :
    (State.mapIo s f).fixed = s.fixed := by
  unfold State.mapIo
  simp

@[simp] theorem ignored_fixed (s : State) :
    Keeps s (ignored s) := by
  unfold ignored
  simp

@[simp] theorem State.drew_fixed (s : State) (n : Nat) :
    (State.drew s n).fixed = s.fixed := by
  unfold State.drew
  simp

end Sys2Proof.Machine
end

