-- ==== Sys2Proof/Laws/FxSheets.lean ====
section
/-! SUPPORT. Laws/FxSheets.lean: the operations and meanings of Machine/Sheets.lean leave the queue and the fuses as they were. -/

namespace Sys2Proof.Machine

@[simp] theorem State.forgetLines_fixed (s : State) (p : Nat → Bool) :
    (State.forgetLines s p).fixed = s.fixed := by
  unfold State.forgetLines
  simp

@[simp] theorem State.sheetWrite_fixed (s : State) (w : Writer) (a : Nat) (bs : List Byte) :
    (State.sheetWrite s w a bs).fixed = s.fixed := by
  unfold State.sheetWrite
  simp

@[simp] theorem State.sheetCarry_fixed (s : State) (src dst n : Nat) :
    (State.sheetCarry s src dst n).fixed = s.fixed := by
  unfold State.sheetCarry
  simp

@[simp] theorem State.storeWrite_fixed (s : State) (w : Writer) (a o : Nat) (bs : List Byte) :
    (State.storeWrite s w a o bs).fixed = s.fixed := by
  unfold State.storeWrite
  simp

@[simp] theorem State.storeCarry_fixed (s : State) (src a o n : Nat) :
    (State.storeCarry s src a o n).fixed = s.fixed := by
  unfold State.storeCarry
  simp

@[simp] theorem State.storePut_fixed (s : State) (a o : Nat) (bs : List Byte) (blks : List Blk) :
    (State.storePut s a o bs blks).fixed = s.fixed := by
  unfold State.storePut
  simp

@[simp] theorem State.logError_fixed (s : State) (kind status place : Nat) :
    (State.logError s kind status place).fixed = s.fixed := by
  unfold State.logError
  simp

@[simp] theorem State.logBlk_fixed (s : State) (b : Blk) (place : Nat) :
    (State.logBlk s b place).fixed = s.fixed := by
  unfold State.logBlk
  simp

@[simp] theorem State.logCheck_fixed (s : State) (a : Nat) (place : Nat) :
    (State.logCheck s a place).fixed = s.fixed := by
  unfold State.logCheck
  simp

end Sys2Proof.Machine
end

