-- ==== Sys2Proof/Laws/FxCycle.lean ====
section
/-! SUPPORT. Laws/FxCycle.lean: the operations and meanings of Machine/Cycle.lean leave the queue and the fuses as they were. -/

namespace Sys2Proof.Machine

@[simp] theorem State.fired_fixed (s : State) (k c : Nat) :
    (State.fired s k c).fixed = s.fixed := by
  unfold State.fired
  simp

@[simp] theorem State.admitHeld_fixed (s : State) :
    (State.admitHeld s).fixed = s.fixed := by
  unfold State.admitHeld
  simp

@[simp] theorem State.enterSlot_fixed (s : State) (fr i c : Nat) :
    (State.enterSlot s fr i c).fixed = s.fixed := by
  unfold State.enterSlot
  simp

@[simp] theorem State.enterSlots_fixed (n : Nat) (s : State) : (State.enterSlots n s).fixed = s.fixed := by
  induction n generalizing s with
  | zero => rfl
  | succ n ih =>
    unfold State.enterSlots
    split <;> simp [ih]

@[simp] theorem State.admitClass0_fixed (s : State) (k : Nat) :
    (State.admitClass0 s k).2.fixed = s.fixed := by
  unfold State.admitClass0
  simp

@[simp] theorem State.applyTick_fixed (s : State) :
    (State.applyTick s).fixed = s.fixed := by
  unfold State.applyTick
  simp

@[simp] theorem State.tickCount_fixed (s : State) :
    (State.tickCount s).fixed = s.fixed := by
  unfold State.tickCount
  simp

@[simp] theorem State.tick_fixed (s : State) :
    (State.tick s).fixed = s.fixed := by
  unfold State.tick
  simp

end Sys2Proof.Machine
end

