-- ==== Sys2Proof/Laws/FxChains.lean ====
section
/-! SUPPORT. Laws/FxChains.lean: the operations and meanings of Machine/Chains.lean leave the queue and the fuses as they were. -/

set_option linter.unusedSimpArgs false
set_option linter.unusedTactic false
set_option linter.unreachableTactic false
set_option linter.unnecessarySeqFocus false

namespace Sys2Proof.Machine

@[simp] theorem State.setRun_fixed (s : State) (ctx iter unit st : Nat) :
    (State.setRun s ctx iter unit st).fixed = s.fixed := by
  unfold State.setRun
  simp

@[simp] theorem State.unitStatus_fixed (s : State) (ctx iter unit st : Nat) :
    (State.unitStatus s ctx iter unit st).fixed = s.fixed := by
  unfold State.unitStatus
  (repeat' split) <;> simp

@[simp] theorem State.setArr_fixed (s : State) (a : Nat) (f : Arr → Arr) :
    (State.setArr s a f).fixed = s.fixed := by
  unfold State.setArr
  simp

@[simp] theorem State.denseProblem_fixed (s : State) (cause : Nat) :
    (State.denseProblem s cause).fixed = s.fixed := by
  unfold State.denseProblem
  simp

@[simp] theorem Place.write_fixed (p : Place) (s : State) (o : Nat) (bs : List Byte) :
    (Place.write p s o bs).fixed = s.fixed := by
  unfold Place.write
  (repeat' split) <;> simp

@[simp] theorem writePiece_fixed (p : Place) (fmt base : Nat) (mode : Nat → Rnd) (s : State) (pc : Nat × Nat × Nat × List Word) :
    (writePiece p fmt base mode s pc).1.fixed = s.fixed := by
  unfold writePiece
  simp

@[simp] theorem writeAll_fixed {α : Type} (f : State → α → State × Option Nat) (h : ∀ s x, (f s x).1.fixed = s.fixed)
    (s : State) (l : List α) : (writeAll f s l).1.fixed = s.fixed := by
  induction l generalizing s with
  | nil => rfl
  | cons x l ih =>
    have hx := h s x
    unfold writeAll
    generalize f s x = r at hx
    obtain ⟨s', _ | e⟩ := r <;> simp_all

@[simp] theorem writeRows_fixed (s : State) (c : List Byte) (arg t tag : Nat) (g : Stage) (x : Cells) :
    (writeRows s c arg t tag g x).1.fixed = s.fixed := by
  unfold writeRows
  simp

theorem storeMerge_piece_fixed (s : State) (a k : Nat) (x : Nat × List Byte) :
    (have off := x.1 - k
     if 2 ^ 23 < off + x.2.length then (s, some stInvalid)
     else if x.2.length ≠ 256 ∧ (s.ram.blk x.1).moverOk = false then (s, some stCheck)
     else (s.storeWrite .device a off x.2, none) : State × Option Nat).1.fixed = s.fixed := by
  simp only [fixed_ite_fst, State.storeWrite_fixed, ite_self]

@[simp] theorem storeMerge_fixed (s : State) (a o : Nat) (bs : List Byte) : (storeMerge s a o bs).1.fixed = s.fixed :=
  writeAll_fixed _ (fun s x => storeMerge_piece_fixed s a (storeAddr a 0) x) s _

end Sys2Proof.Machine
end

