-- ==== Sys2Proof/Laws/FxWalker.lean ====
section
/-! SUPPORT. Laws/FxWalker.lean: the operations and meanings of Machine/Walker.lean leave the queue and the fuses as they were. -/

set_option linter.unusedSimpArgs false
set_option linter.unusedTactic false
set_option linter.unreachableTactic false
set_option linter.unnecessarySeqFocus false

namespace Sys2Proof.Machine

@[simp] theorem State.hostPost_fixed (s : State) (a : Nat) (bs : List Byte) :
    (State.hostPost s a bs).fixed = s.fixed := by
  unfold State.hostPost
  simp

@[simp] theorem State.hostAsk_fixed (s : State) (a n : Nat) :
    (State.hostAsk s a n).fixed = s.fixed := by
  unfold State.hostAsk
  simp

@[simp] theorem State.ringWrite_fixed (s : State) (r : FaultRec) :
    (State.ringWrite s r).fixed = s.fixed := by
  unfold State.ringWrite
  simp

@[simp] theorem State.postRecord_fixed (s : State) (r : FaultRec) :
    (State.postRecord s r).fixed = s.fixed := by
  unfold State.postRecord
  simp

@[simp] theorem State.postHeld_fixed (s : State) :
    (State.postHeld s).fixed = s.fixed := by
  unfold State.postHeld
  simp

@[simp] theorem State.postHot_fixed (s : State) (as va : Nat) :
    (State.postHot s as va).fixed = s.fixed := by
  unfold State.postHot
  simp

@[simp] theorem State.pageFault_fixed (s : State) (k : Nat) (u : XUnit) (page : Nat) (cause entry level : Nat) :
    (State.pageFault s k u page cause entry level).fixed = s.fixed := by
  unfold State.pageFault
  first
    | (simp +contextual; done)
    | (repeat' split) <;> (try simp +contextual) <;>
      (repeat' first
        | (simp +contextual; done)
        | (simp only [Prod.ext_iff] at *; casesm* _ ∧ _; subst_vars; simp +contextual; done)
        | split
        | rw [foldl_fixed]
        | rw [foldl_fixed_fst]
        | intro _)

@[simp] theorem State.countPage_fixed (s : State) (as va : Nat) :
    (State.countPage s as va).fixed = s.fixed := by
  unfold State.countPage
  first
    | (simp +contextual; done)
    | (repeat' split) <;> (try simp +contextual) <;>
      (repeat' first
        | (simp +contextual; done)
        | (simp only [Prod.ext_iff] at *; casesm* _ ∧ _; subst_vars; simp +contextual; done)
        | split
        | rw [foldl_fixed]
        | rw [foldl_fixed_fst]
        | intro _)

@[simp] theorem State.countUnit_fixed (s : State) (u : XUnit) :
    (State.countUnit s u).fixed = s.fixed := by
  unfold State.countUnit
  simp

@[simp] theorem State.translate_fixed (s : State) (k n : Nat) : (State.translate s k n).fixed = s.fixed := by
  induction n generalizing s with
  | zero => rfl
  | succ n ih =>
    unfold State.translate
    first
      | (simp +contextual [ih]; done)
      | (repeat' split) <;> (try simp +contextual [ih]) <;>
        (repeat' first
          | (simp +contextual [ih]; done)
          | (simp only [Prod.ext_iff] at *; casesm* _ ∧ _; subst_vars; simp +contextual [ih]; done)
          | split
          | rw [foldl_fixed]
          | rw [foldl_fixed_fst]
          | intro _)

@[simp] theorem State.newUnit_fixed (s : State) (u : XUnit) :
    (State.newUnit s u).fixed = s.fixed := by
  unfold State.newUnit
  simp

end Sys2Proof.Machine
end

