-- ==== Sys2Proof/Laws/FxSched.lean ====
section
/-! SUPPORT. Laws/FxSched.lean: the operations and meanings of Machine/Sched.lean leave the queue and the fuses as they were. -/

set_option linter.unusedSimpArgs false
set_option linter.unusedTactic false
set_option linter.unreachableTactic false
set_option linter.unnecessarySeqFocus false

namespace Sys2Proof.Machine

@[simp] theorem State.serve_fixed (s : State) (a k t : Nat) :
    (State.serve s a k t).fixed = s.fixed := by
  unfold State.serve
  simp

@[simp] theorem State.charge_fixed (s : State) (cmd group t : Nat) :
    (State.charge s cmd group t).fixed = s.fixed := by
  unfold State.charge
  simp

@[simp] theorem State.takePair_fixed (s : State) (a ctx : Nat) :
    (State.takePair s a ctx).fixed = s.fixed := by
  unfold State.takePair
  simp

@[simp] theorem State.grantPair_fixed (s : State) (a : Nat) :
    (State.grantPair s a).fixed = s.fixed := by
  unfold State.grantPair
  (repeat' split) <;> simp

@[simp] theorem State.clearDue_fixed (s : State) (a : Nat) :
    (State.clearDue s a).fixed = s.fixed := by
  unfold State.clearDue
  simp

@[simp] theorem State.dmaServe_fixed (s : State) (qs : List Nat) (k len : Nat) :
    (State.dmaServe s qs k len).fixed = s.fixed := by
  unfold State.dmaServe
  simp

@[simp] theorem State.releasePair_fixed (s : State) (a : Nat) :
    (State.releasePair s a).fixed = s.fixed := by
  unfold State.releasePair
  (repeat' split) <;> simp

@[simp] theorem State.askSave_fixed (s : State) (a w slot : Nat) :
    (State.askSave s a w slot).fixed = s.fixed := by
  unfold State.askSave
  (repeat' split) <;> simp

@[simp] theorem State.haltPairs_fixed (s : State) (ctx : Nat) :
    (State.haltPairs s ctx).fixed = s.fixed := by
  unfold State.haltPairs
  first
    | (simp +contextual; done)
    | (repeat' split) <;> (try simp +contextual) <;>
      (repeat' first
        | (simp +contextual; done)
        | (simp only [Prod.ext_iff] at *; casesm* _ ∧ _; subst_vars; simp +contextual; done)
        | split
        | rw [foldl_fixed]
        | rw [foldl_fixed_fst]
        | intro _)

@[simp] theorem State.wantPair_fixed (s : State) (a ctx : Nat) :
    (State.wantPair s a ctx).fixed = s.fixed := by
  unfold State.wantPair
  (repeat' split) <;> simp

@[simp] theorem State.dropLookups_fixed (s : State) (p : ListOwner → Bool) :
    (State.dropLookups s p).fixed = s.fixed := by
  unfold State.dropLookups
  simp

@[simp] theorem State.dropGrads_fixed (s : State) (p : ListOwner → Bool) :
    (State.dropGrads s p).fixed = s.fixed := by
  unfold State.dropGrads
  simp

@[simp] theorem State.stopUnits_fixed (s : State) (ctx : Nat) :
    (State.stopUnits s ctx).fixed = s.fixed := by
  unfold State.stopUnits
  simp

@[simp] theorem State.nextDesc_fixed (s : State) (ctx : Nat) :
    (State.nextDesc s ctx).fixed = s.fixed := by
  unfold State.nextDesc
  first
    | (simp +contextual; done)
    | (repeat' split) <;> (try simp +contextual) <;>
      (repeat' first
        | (simp +contextual; done)
        | (simp only [Prod.ext_iff] at *; casesm* _ ∧ _; subst_vars; simp +contextual; done)
        | split
        | rw [foldl_fixed]
        | rw [foldl_fixed_fst]
        | intro _)

@[simp] theorem State.dropStream_fixed (s : State) (ctx : Nat) (p : Nat → Bool) :
    (State.dropStream s ctx p).fixed = s.fixed := by
  unfold State.dropStream
  (repeat' split) <;> simp

end Sys2Proof.Machine
end

