-- ==== Sys2Proof/Laws/FxFront.lean ====
section
/-! SUPPORT. Laws/FxFront.lean: the operations and meanings of Machine/Front.lean leave the queue and the fuses as they were. -/

set_option linter.unusedSimpArgs false
set_option linter.unusedTactic false
set_option linter.unreachableTactic false
set_option linter.unnecessarySeqFocus false

namespace Sys2Proof.Machine

@[simp] theorem State.setQueue_fixed (s : State) (q : Nat) (f : Queue → Queue) :
    (State.setQueue s q f).fixed = s.fixed := by
  unfold State.setQueue
  simp

@[simp] theorem State.setCmd_fixed (s : State) (id : Nat) (f : Cmd → Cmd) :
    (State.setCmd s id f).fixed = s.fixed := by
  unfold State.setCmd
  simp

@[simp] theorem State.cause_fixed (s : State) (q b : Nat) :
    (State.cause s q b).fixed = s.fixed := by
  unfold State.cause
  (repeat' split) <;> simp

@[simp] theorem State.devWrite_fixed (s : State) (a : Nat) (bs : List Byte) :
    (State.devWrite s a bs).fixed = s.fixed := by
  unfold State.devWrite
  simp

@[simp] theorem State.putCpl_fixed (s : State) (q : Nat) (d : List Byte) (dst : Bool × Nat) (c : Cpl) (late : Bool) :
    (State.putCpl s q d dst c late).fixed = s.fixed := by
  unfold State.putCpl
  simp

@[simp] theorem overflowCpls_fixed (s : State) (q n : Nat) : (overflowCpls s q n).fixed = s.fixed := by
  induction n generalizing s with
  | zero => rfl
  | succ n ih =>
    unfold overflowCpls
    first
      | (simp +contextual [ih]; done)
      | (repeat' split) <;> (try simp +contextual [ih]) <;>
        (repeat' first
          | (simp +contextual [ih]; done)
          | (simp only [Prod.ext_iff] at *; casesm* _ ∧ _; subst_vars; simp +contextual [ih]; done)
          | split
          | rw [foldl_fixed]
          | rw [foldl_fixed_fst]
          | intro _)

@[simp] theorem State.writeNext_fixed (s : State) (q : Nat) (dst : Bool × Nat) :
    (State.writeNext s q dst).fixed = s.fixed := by
  unfold State.writeNext
  (repeat' split) <;> simp

@[simp] theorem State.pumpCq_fixed (s : State) (q n : Nat) : (State.pumpCq s q n).fixed = s.fixed := by
  induction n generalizing s with
  | zero => rfl
  | succ n ih =>
    unfold State.pumpCq
    first
      | (simp +contextual [ih]; done)
      | (repeat' split) <;> (try simp +contextual [ih]) <;>
        (repeat' first
          | (simp +contextual [ih]; done)
          | (simp only [Prod.ext_iff] at *; casesm* _ ∧ _; subst_vars; simp +contextual [ih]; done)
          | split
          | rw [foldl_fixed]
          | rw [foldl_fixed_fst]
          | intro _)

@[simp] theorem State.pushCpl_fixed (s : State) (q : Nat) (c : Cpl) :
    (State.pushCpl s q c).fixed = s.fixed := by
  unfold State.pushCpl
  (repeat' split) <;> simp

@[simp] theorem State.notify_fixed (s : State) (q tag status result : Nat) (flag : Bool) (start engine : Nat) :
    (State.notify s q tag status result flag start engine).2.fixed = s.fixed := by
  unfold State.notify
  (repeat' split) <;> simp

@[simp] theorem State.setUnit_fixed (s : State) (k : Nat) (u : XUnit) :
    (State.setUnit s k u).fixed = s.fixed := by
  unfold State.setUnit
  simp

@[simp] theorem State.dropUnit_fixed (s : State) (k : Nat) :
    (State.dropUnit s k).fixed = s.fixed := by
  unfold State.dropUnit
  simp

@[simp] theorem State.askUnit_fixed (s : State) (k : Nat) (u : XUnit) :
    (State.askUnit s k u).fixed = s.fixed := by
  unfold State.askUnit
  simp

@[simp] theorem State.examine_fixed (s : State) (q : Nat) :
    (State.examine s q).fixed = s.fixed := by
  unfold State.examine
  (repeat' split) <;> simp

@[simp] theorem State.readBuffer_fixed (s : State) (id : Nat) :
    (State.readBuffer s id).fixed = s.fixed := by
  unfold State.readBuffer
  (repeat' split) <;> simp

@[simp] theorem State.dispatchCmd_fixed (s : State) (id : Nat) (c : Cmd) : (State.dispatchCmd s id c).fixed = s.fixed := by
  have h := s.admitClass0_fixed (2 * id)
  unfold State.dispatchCmd
  dsimp only
  split
  · split <;> (rename_i hm; rw [hm] at h; simpa using h)
  · simp

@[simp] theorem dispatchList_fixed (s : State) (q : Nat) (l : List (Nat × Cmd)) : (dispatchList s q l).fixed = s.fixed := by
  induction l generalizing s with
  | nil => rfl
  | cons x l ih =>
    unfold dispatchList
    first
      | (simp +contextual [ih]; done)
      | (repeat' split) <;> (try simp +contextual [ih]) <;>
        (repeat' first
          | (simp +contextual [ih]; done)
          | (simp only [Prod.ext_iff] at *; casesm* _ ∧ _; subst_vars; simp +contextual [ih]; done)
          | split
          | rw [foldl_fixed]
          | rw [foldl_fixed_fst]
          | intro _)

@[simp] theorem State.dispatchQueue_fixed (s : State) (q : Nat) :
    (State.dispatchQueue s q).fixed = s.fixed := by
  unfold State.dispatchQueue
  simp

@[simp] theorem State.settleQueue_fixed (s : State) (q : Nat) :
    (State.settleQueue s q).fixed = s.fixed := by
  unfold State.settleQueue
  first
    | (simp +contextual; done)
    | (repeat' split) <;> (try simp +contextual) <;>
      (repeat' first
        | (simp +contextual; done)
        | (simp only [Prod.ext_iff] at *; casesm* _ ∧ _; subst_vars; simp +contextual; done)
        | split
        | rw [foldl_fixed]
        | rw [foldl_fixed_fst]
        | intro _)

@[simp] theorem State.cancelWork_fixed (s : State) (p : Nat → Bool) :
    (State.cancelWork s p).fixed = s.fixed := by
  unfold State.cancelWork
  simp

@[simp] theorem State.cancelCmd_fixed (s : State) (id : Nat) :
    (State.cancelCmd s id).fixed = s.fixed := by
  unfold State.cancelCmd
  (repeat' split) <;> simp

@[simp] theorem State.makeGuilty_fixed (s : State) (q : Nat) :
    (State.makeGuilty s q).fixed = s.fixed := by
  unfold State.makeGuilty
  simp

@[simp] theorem State.captureCmd_fixed (s : State) (q id k : Nat) (c : Cmd) (st : Nat) :
    (State.captureCmd s q id k c st).fixed = s.fixed := by
  unfold State.captureCmd
  simp

@[simp] theorem State.finishRing_fixed (s : State) (q id : Nat) (c : Cmd) (st res : Nat) :
    (State.finishRing s q id c st res).fixed = s.fixed := by
  unfold State.finishRing
  (repeat' split) <;> simp

@[simp] theorem State.setBatch_fixed (s : State) (b : Nat) (f : Batch → Batch) :
    (State.setBatch s b f).fixed = s.fixed := by
  unfold State.setBatch
  simp

@[simp] theorem State.startLaunch_fixed (s : State) (l k : Nat) :
    (State.startLaunch s l k).fixed = s.fixed := by
  unfold State.startLaunch
  (repeat' split) <;> simp

@[simp] theorem State.orphanDone_fixed (s : State) (x : Launch) :
    (State.orphanDone s x).fixed = s.fixed := by
  unfold State.orphanDone
  first
    | (simp +contextual; done)
    | (repeat' split) <;> (try simp +contextual) <;>
      (repeat' first
        | (simp +contextual; done)
        | (simp only [Prod.ext_iff] at *; casesm* _ ∧ _; subst_vars; simp +contextual; done)
        | split
        | rw [foldl_fixed]
        | rw [foldl_fixed_fst]
        | intro _)

@[simp] theorem State.endLaunch_fixed (s : State) (l : Nat) (x : Launch) :
    (State.endLaunch s l x).1.fixed = s.fixed := by
  unfold State.endLaunch
  (repeat' split) <;> simp

@[simp] theorem State.nodeDone_fixed (s : State) (l n : Nat) (st res : Nat) :
    (State.nodeDone s l n st res).1.fixed = s.fixed := by
  unfold State.nodeDone
  (repeat' split) <;> simp

@[simp] theorem bufferDispatch_fixed (s : State) (id n : Nat) : (bufferDispatch s id n).fixed = s.fixed := by
  induction n generalizing s with
  | zero => rfl
  | succ n ih =>
    unfold bufferDispatch
    first
      | (simp +contextual [ih]; done)
      | (repeat' split) <;> (try simp +contextual [ih]) <;>
        (repeat' first
          | (simp +contextual [ih]; done)
          | (simp only [Prod.ext_iff] at *; casesm* _ ∧ _; subst_vars; simp +contextual [ih]; done)
          | split
          | rw [foldl_fixed]
          | rw [foldl_fixed_fst]
          | intro _)

@[simp] theorem State.pumpBuffer_fixed (s : State) (id : Nat) :
    (State.pumpBuffer s id).1.fixed = s.fixed := by
  unfold State.pumpBuffer
  first
    | (simp +contextual; done)
    | (repeat' split) <;> (try simp +contextual) <;>
      (repeat' first
        | (simp +contextual; done)
        | (simp only [Prod.ext_iff] at *; casesm* _ ∧ _; subst_vars; simp +contextual; done)
        | split
        | rw [foldl_fixed]
        | rw [foldl_fixed_fst]
        | intro _)

@[simp] theorem State.pumpBuffers_fixed (s : State) (q : Nat) :
    (State.pumpBuffers s q).fixed = s.fixed := by
  unfold State.pumpBuffers
  simp

@[simp] theorem State.entryDone_fixed (s : State) (id idx st : Nat) :
    (State.entryDone s id idx st).1.fixed = s.fixed := by
  unfold State.entryDone
  simp

@[simp] theorem State.finishOne_fixed (s : State) (id st res : Nat) :
    (State.finishOne s id st res).1.fixed = s.fixed := by
  unfold State.finishOne
  first
    | (simp +contextual; done)
    | (repeat' split) <;> (try simp +contextual) <;>
      (repeat' first
        | (simp +contextual; done)
        | (simp only [Prod.ext_iff] at *; casesm* _ ∧ _; subst_vars; simp +contextual; done)
        | split
        | rw [foldl_fixed]
        | rw [foldl_fixed_fst]
        | intro _)

@[simp] theorem State.finishFuel_fixed (s : State) (id st res n : Nat) : (State.finishFuel s id st res n).fixed = s.fixed := by
  induction n generalizing s id st res with
  | zero => rfl
  | succ n ih =>
    unfold State.finishFuel
    have h := State.finishOne_fixed s id st res
    generalize s.finishOne id st res = r at h
    obtain ⟨t, _ | ⟨p, a, b⟩⟩ := r <;> simp_all

@[simp] theorem State.finish_fixed (s : State) (id st res : Nat) :
    (State.finish s id st res).fixed = s.fixed := by
  unfold State.finish
  simp

@[simp] theorem State.stopCmd_fixed (s : State) (id st : Nat) :
    (State.stopCmd s id st).fixed = s.fixed := by
  unfold State.stopCmd
  simp

@[simp] theorem State.stopLaunch_fixed (s : State) (l st : Nat) :
    (State.stopLaunch s l st).fixed = s.fixed := by
  unfold State.stopLaunch
  (repeat' split) <;> simp

@[simp] theorem State.touch_fixed (s : State) (id arr stk : Nat) :
    (State.touch s id arr stk).fixed = s.fixed := by
  unfold State.touch
  simp

@[simp] theorem State.runCmd_fixed (s : State) (id parts : Nat) :
    (State.runCmd s id parts).fixed = s.fixed := by
  unfold State.runCmd
  simp

@[simp] theorem State.partDone_fixed (s : State) (id st res : Nat) :
    (State.partDone s id st res).fixed = s.fixed := by
  unfold State.partDone
  (repeat' split) <;> simp

@[simp] theorem State.nextSegment_fixed (s : State) (id : Nat) :
    (State.nextSegment s id).fixed = s.fixed := by
  unfold State.nextSegment
  (repeat' split) <;> simp

@[simp] theorem State.haltDma_fixed (s : State) (id : Nat) :
    (State.haltDma s id).fixed = s.fixed := by
  unfold State.haltDma
  first
    | (simp +contextual; done)
    | (repeat' split) <;> (try simp +contextual) <;>
      (repeat' first
        | (simp +contextual; done)
        | (simp only [Prod.ext_iff] at *; casesm* _ ∧ _; subst_vars; simp +contextual; done)
        | split
        | rw [foldl_fixed]
        | rw [foldl_fixed_fst]
        | intro _)

@[simp] theorem State.settleDma_fixed (s : State) (id : Nat) :
    (State.settleDma s id).fixed = s.fixed := by
  unfold State.settleDma
  first
    | (simp +contextual; done)
    | (repeat' split) <;> (try simp +contextual) <;>
      (repeat' first
        | (simp +contextual; done)
        | (simp only [Prod.ext_iff] at *; casesm* _ ∧ _; subst_vars; simp +contextual; done)
        | split
        | rw [foldl_fixed]
        | rw [foldl_fixed_fst]
        | intro _)

@[simp] theorem State.dmaBytes_fixed (s : State) (group n : Nat) :
    (State.dmaBytes s group n).fixed = s.fixed := by
  unfold State.dmaBytes
  simp

@[simp] theorem State.devCopy_fixed (s : State) (src dst n : Nat) :
    (State.devCopy s src dst n).1.fixed = s.fixed := by
  unfold State.devCopy
  (repeat' split) <;> simp

@[simp] theorem State.devSend_fixed (s : State) (src bus n : Nat) :
    (State.devSend s src bus n).1.fixed = s.fixed := by
  unfold State.devSend
  (repeat' split) <;> simp

@[simp] theorem pieceOut_fixed (s : State) (u : XUnit) (p : Nat × Nat × Bool × Nat) :
    (pieceOut s u p).1.fixed = s.fixed := by
  unfold pieceOut
  simp

@[simp] theorem State.unitOut_fixed (s : State) (u : XUnit) :
    (State.unitOut s u).1.fixed = s.fixed := by
  unfold State.unitOut
  simp

@[simp] theorem State.unitIn_fixed (s : State) (u : XUnit) :
    (State.unitIn s u).1.fixed = s.fixed := by
  unfold State.unitIn
  simp

@[simp] theorem State.unitOver_fixed (s : State) (k : Nat) (u : XUnit) (st : Nat) :
    (State.unitOver s k u st).fixed = s.fixed := by
  unfold State.unitOver
  (repeat' split) <;> simp

@[simp] theorem State.access_fixed (s : State) (k : Nat) :
    (State.access s k).fixed = s.fixed := by
  unfold State.access
  (repeat' split) <;> simp

@[simp] theorem State.haltOwner_fixed (s : State) (k : Nat) (u : XUnit) :
    (State.haltOwner s k u).fixed = s.fixed := by
  unfold State.haltOwner
  (repeat' split) <;> simp

@[simp] theorem State.goUnit_fixed (s : State) (k : Nat) :
    (State.goUnit s k).fixed = s.fixed := by
  unfold State.goUnit
  first
    | (simp +contextual; done)
    | (repeat' split) <;> (try simp +contextual) <;>
      (repeat' first
        | (simp +contextual; done)
        | (simp only [Prod.ext_iff] at *; casesm* _ ∧ _; subst_vars; simp +contextual; done)
        | split
        | rw [foldl_fixed]
        | rw [foldl_fixed_fst]
        | intro _)

end Sys2Proof.Machine
end

