-- ==== Sys2Proof/Laws/FxFabric.lean ====
section
/-! SUPPORT. Laws/FxFabric.lean: the operations and meanings of Machine/Fabric.lean leave the queue and the fuses as they were. -/

set_option linter.unusedSimpArgs false
set_option linter.unusedTactic false
set_option linter.unreachableTactic false
set_option linter.unnecessarySeqFocus false

namespace Sys2Proof.Machine

@[simp] theorem State.setPort_fixed (s : State) (p : Nat) (f : Port → Port) :
    (State.setPort s p f).fixed = s.fixed := by
  unfold State.setPort
  simp

@[simp] theorem State.sendFlit_fixed (s : State) (p : Nat) (b : List Byte) :
    (State.sendFlit s p b).fixed = s.fixed := by
  unfold State.sendFlit
  simp

@[simp] theorem State.sendLink_fixed (s : State) (p ty : Nat) (body : List Byte) :
    (State.sendLink s p ty body).fixed = s.fixed := by
  unfold State.sendLink
  simp

@[simp] theorem State.countC0_fixed (s : State) (p : Nat) : (s.countC0 p).fixed = s.fixed := by
  unfold State.countC0
  exact fixed_if (by simp) (by simp)

@[simp] theorem State.owe_fixed (s : State) (src : Option Nat) (c : Nat) :
    (State.owe s src c).fixed = s.fixed := by
  unfold State.owe
  (repeat' split) <;> simp

@[simp] theorem State.txLeft_fixed (s : State) (cmd : Option Nat) :
    (State.txLeft s cmd).fixed = s.fixed := by
  unfold State.txLeft
  (repeat' split) <;> simp

@[simp] theorem pumpPort_fixed (s : State) (p n : Nat) : (pumpPort s p n).fixed = s.fixed := by
  induction n generalizing s with
  | zero => rfl
  | succ n ih =>
    unfold pumpPort
    first
      | (simp +contextual [ih]; done)
      | (repeat' split) <;> (try simp +contextual [ih]) <;>
        (repeat' first
          | (simp +contextual [ih]; done)
          | (simp only [Prod.ext_iff] at *; casesm* _ ∧ _; subst_vars; simp +contextual [ih]; done)
          | split
          | rw [foldl_fixed]
          | rw [foldl_fixed_fst]
          | intro _)

@[simp] theorem State.pump_fixed (s : State) (p : Nat) :
    (State.pump s p).fixed = s.fixed := by
  unfold State.pump
  simp

@[simp] theorem State.egress_fixed (s : State) (p : Nat) (ts : List TxItem) :
    (State.egress s p ts).fixed = s.fixed := by
  unfold State.egress
  simp

@[simp] theorem pumpTree_fixed (s : State) (id n : Nat) : (pumpTree s id n).fixed = s.fixed := by
  induction n generalizing s with
  | zero => rfl
  | succ n ih =>
    unfold pumpTree
    first
      | (simp +contextual [ih]; done)
      | (repeat' split) <;> (try simp +contextual [ih]) <;>
        (repeat' first
          | (simp +contextual [ih]; done)
          | (simp only [Prod.ext_iff] at *; casesm* _ ∧ _; subst_vars; simp +contextual [ih]; done)
          | split
          | rw [foldl_fixed]
          | rw [foldl_fixed_fst]
          | intro _)

@[simp] theorem State.pumpTrees_fixed (s : State) :
    (State.pumpTrees s).fixed = s.fixed := by
  unfold State.pumpTrees
  simp

@[simp] theorem State.treeSend_fixed (s : State) (id : Nat) (ts : List TxItem) :
    (State.treeSend s id ts).fixed = s.fixed := by
  unfold State.treeSend
  first
    | (simp +contextual; done)
    | (repeat' split) <;> (try simp +contextual) <;>
      (repeat' first
        | (simp +contextual; done)
        | (simp only [Prod.ext_iff] at *; casesm* _ ∧ _; subst_vars; simp +contextual; done)
        | split
        | rw [foldl_fixed]
        | rw [foldl_fixed_fst]
        | intro _)

@[simp] theorem State.forward_fixed (s : State) (d c path : Nat) (ts : List TxItem) :
    (State.forward s d c path ts).fixed = s.fixed := by
  unfold State.forward
  (repeat' split) <;> simp

@[simp] theorem State.sendTo_fixed (s : State) (group : Option Nat) (d cls path kind : Nat) (m : Msg) (cmd : Option Nat) :
    (State.sendTo s group d cls path kind m cmd).2.fixed = s.fixed := by
  unfold State.sendTo
  (repeat' split) <;> simp

@[simp] theorem State.sendLocal_fixed (s : State) (p kind : Nat) (b : List Byte) :
    (State.sendLocal s p kind b).fixed = s.fixed := by
  unfold State.sendLocal
  simp

@[simp] theorem State.sendNear_fixed (s : State) (p kind : Nat) (m : Msg) :
    (State.sendNear s p kind m).fixed = s.fixed := by
  unfold State.sendNear
  simp

@[simp] theorem State.floodOn_fixed (s : State) (dest kind : Nat) (b : List Byte) :
    (State.floodOn s dest kind b).fixed = s.fixed := by
  unfold State.floodOn
  simp

@[simp] theorem State.floodFrom_fixed (s : State) (p dest kind origin : Nat) (b : List Byte) :
    (State.floodFrom s p dest kind origin b).fixed = s.fixed := by
  unfold State.floodFrom
  simp

@[simp] theorem State.nextSeq_fixed (s : State) :
    (State.nextSeq s).2.fixed = s.fixed := by
  unfold State.nextSeq
  simp

theorem State.newer_fixed (s : State) (origin seq : Nat) :
    ∀ t, State.newer s origin seq = some t → t.fixed = s.fixed := by
  unfold State.newer
  simp

@[simp] theorem State.announceDepart_fixed (s : State) (effective reason : Nat) :
    (State.announceDepart s effective reason).fixed = s.fixed := by
  unfold State.announceDepart
  simp

@[simp] theorem State.pruneTree_fixed (s : State) (id p : Nat) :
    (State.pruneTree s id p).fixed = s.fixed := by
  unfold State.pruneTree
  first
    | (simp +contextual; done)
    | (repeat' split) <;> (try simp +contextual) <;>
      (repeat' first
        | (simp +contextual; done)
        | (simp only [Prod.ext_iff] at *; casesm* _ ∧ _; subst_vars; simp +contextual; done)
        | split
        | rw [foldl_fixed]
        | rw [foldl_fixed_fst]
        | (apply State.newer_fixed; assumption)
        | intro _)

@[simp] theorem State.portLost_fixed (s : State) (p : Nat) (st : PortState) :
    (State.portLost s p st).fixed = s.fixed := by
  unfold State.portLost
  simp

@[simp] theorem State.portDown_fixed (s : State) (p : Nat) :
    (State.portDown s p).fixed = s.fixed := by
  unfold State.portDown
  simp

@[simp] theorem execPortDisable_fixed (p : Fin 64) (s : State) :
    Keeps s (execPortDisable p s) := by
  unfold execPortDisable
  simp

@[simp] theorem State.trainPort_fixed (s : State) (p : Nat) :
    (State.trainPort s p).fixed = s.fixed := by
  unfold State.trainPort
  simp

@[simp] theorem State.lightPort_fixed (s : State) (p : Nat) :
    (State.lightPort s p).fixed = s.fixed := by
  unfold State.lightPort
  simp

@[simp] theorem execPortEnable_fixed (p : Fin 64) (s : State) :
    Keeps s (execPortEnable p s) := by
  unfold execPortEnable
  simp

@[simp] theorem execFecLock_fixed (p : Fin 64) (s : State) :
    Keeps s (execFecLock p s) := by
  unfold execFecLock
  simp

@[simp] theorem execTrainingRetry_fixed (p : Fin 64) (s : State) :
    Keeps s (execTrainingRetry p s) := by
  unfold execTrainingRetry
  simp

@[simp] theorem execRequalify_fixed (p : Fin 64) (s : State) :
    Keeps s (execRequalify p s) := by
  unfold execRequalify
  simp

@[simp] theorem State.resend_fixed (s : State) (p : Nat) :
    (State.resend s p).fixed = s.fixed := by
  unfold State.resend
  simp

@[simp] theorem State.degrade_fixed (s : State) (p failed : Nat) (tell : Bool) :
    (State.degrade s p failed tell).fixed = s.fixed := by
  unfold State.degrade
  (repeat' split) <;> simp

@[simp] theorem execLaneFail_fixed (p : Fin 64) (lane : Fin 8) (s : State) :
    Keeps s (execLaneFail p lane s) := by
  unfold execLaneFail
  simp

@[simp] theorem State.takeLink_fixed (s : State) (p : Nat) (l : LinkInfo) :
    (State.takeLink s p l).fixed = s.fixed := by
  unfold State.takeLink
  simp

@[simp] theorem State.nack_fixed (s : State) (p : Nat) :
    (State.nack s p).fixed = s.fixed := by
  unfold State.nack
  simp

@[simp] theorem State.badFlit_fixed (s : State) (p : Nat) (b : List Byte) :
    (State.badFlit s p b).fixed = s.fixed := by
  unfold State.badFlit
  first
    | (simp +contextual; done)
    | (repeat' split) <;> (try simp +contextual) <;>
      (repeat' first
        | (simp +contextual; done)
        | (simp only [Prod.ext_iff] at *; casesm* _ ∧ _; subst_vars; simp +contextual; done)
        | split
        | rw [foldl_fixed]
        | rw [foldl_fixed_fst]
        | (apply State.newer_fixed; assumption)
        | intro _)

@[simp] theorem State.acceptFlit_fixed (s : State) (p : Nat) (f : Flit) :
    (State.acceptFlit s p f).fixed = s.fixed := by
  unfold State.acceptFlit
  (repeat' split) <;> simp

@[simp] theorem execRxDataFlit_fixed (p : Fin 64) (b : List Byte) (s : State) :
    Keeps s (execRxDataFlit p b s) := by
  unfold execRxDataFlit
  simp

@[simp] theorem execRxIdle_fixed (p : Fin 64) (b : List Byte) (s : State) :
    Keeps s (execRxIdle p b s) := by
  unfold execRxIdle
  simp

@[simp] theorem execRxNack_fixed (p : Fin 64) (b : List Byte) (s : State) :
    Keeps s (execRxNack p b s) := by
  unfold execRxNack
  simp

@[simp] theorem execRxCtrl_fixed (p : Fin 64) (b : List Byte) (s : State) :
    Keeps s (execRxCtrl p b s) := by
  unfold execRxCtrl
  simp

@[simp] theorem execNackRepeat_fixed (p : Fin 64) (s : State) :
    Keeps s (execNackRepeat p s) := by
  unfold execNackRepeat
  (repeat' split) <;> simp

@[simp] theorem execHelloSend_fixed (p : Fin 64) (s : State) :
    Keeps s (execHelloSend p s) := by
  unfold execHelloSend
  simp

@[simp] theorem execRxHello_fixed (p : Fin 64) (h : Hello) (s : State) :
    Keeps s (execRxHello p h s) := by
  unfold execRxHello
  simp

@[simp] theorem execHelloMiss_fixed (p : Fin 64) (s : State) :
    Keeps s (execHelloMiss p s) := by
  unfold execHelloMiss
  simp

@[simp] theorem State.sendRoutes_fixed (s : State) (p : Nat) (ds : List Nat) :
    (State.sendRoutes s p ds).fixed = s.fixed := by
  unfold State.sendRoutes
  simp

@[simp] theorem execRxRoute_fixed (p : Fin 64) (es : List (Nat × Nat)) (s : State) :
    Keeps s (execRxRoute p es s) := by
  unfold execRxRoute
  simp

@[simp] theorem execRouteRefresh_fixed (s : State) :
    Keeps s (execRouteRefresh s) := by
  unfold execRouteRefresh
  simp

@[simp] theorem State.electMaster_fixed (s : State) :
    (State.electMaster s).fixed = s.fixed := by
  unfold State.electMaster
  simp

@[simp] theorem execRouteRecompute_fixed (s : State) : Keeps s (execRouteRecompute s) := by
  unfold execRouteRecompute
  split
  · simp
  · intro t ht
    injection ht with ht
    subst ht
    rw [State.electMaster_fixed]
    generalize ((s.fab.dests ++ s.fab.dist.map (·.1)).eraseDups.filter (· != s.plan.ref)) = ds
    generalize ds.map (fun d => (d, s.bestRoute d)) = new
    simp

@[simp] theorem execRxDepart_fixed (p : Fin 64) (origin seq effective reason : Nat) (s : State) :
    Keeps s (execRxDepart p origin seq effective reason s) := by
  unfold execRxDepart
  first
    | (simp +contextual; done)
    | (repeat' split) <;> (try simp +contextual) <;>
      (repeat' first
        | (simp +contextual; done)
        | (simp only [Prod.ext_iff] at *; casesm* _ ∧ _; subst_vars; simp +contextual; done)
        | split
        | rw [foldl_fixed]
        | rw [foldl_fixed_fst]
        | (apply State.newer_fixed; assumption)
        | intro _)

@[simp] theorem execDepartEffective_fixed (ref : Fin 16384) (s : State) :
    Keeps s (execDepartEffective ref s) := by
  unfold execDepartEffective
  (repeat' split) <;> simp

@[simp] theorem execMasterSend_fixed (s : State) :
    Keeps s (execMasterSend s) := by
  unfold execMasterSend
  simp

@[simp] theorem execRxBadKind_fixed (p : Fin 64) (kind : Fin 256) (s : State) :
    Keeps s (execRxBadKind p kind s) := by
  unfold execRxBadKind
  simp

end Sys2Proof.Machine
end

