-- ==== Sys2Proof/Laws/FxConns.lean ====
section
/-! SUPPORT. Laws/FxConns.lean: the operations and meanings of Machine/Conns.lean leave the queue and the fuses as they were. -/

set_option linter.unusedSimpArgs false
set_option linter.unusedTactic false
set_option linter.unreachableTactic false
set_option linter.unnecessarySeqFocus false

namespace Sys2Proof.Machine

@[simp] theorem State.setConn_fixed (s : State) (k : Nat) (f : Conn → Conn) :
    (State.setConn s k f).fixed = s.fixed := by
  unfold State.setConn
  simp

@[simp] theorem State.connSendIn_fixed (s : State) (k cls kind : Nat) (m : Msg) (src cmd group : Option Nat) :
    (State.connSendIn s k cls kind m src cmd group).fixed = s.fixed := by
  unfold State.connSendIn
  (repeat' split) <;> simp

@[simp] theorem State.connSend_fixed (s : State) (k kind : Nat) (m : Msg) (src cmd group : Option Nat) :
    (State.connSend s k kind m src cmd group).fixed = s.fixed := by
  unfold State.connSend
  (repeat' split) <;> simp

@[simp] theorem State.connAck_fixed (s : State) (k arg : Nat) : (State.connAck s k arg).fixed = s.fixed := by
  unfold State.connAck
  split
  · rfl
  · exact State.sendTo_fixed ..

@[simp] theorem State.sendClass_fixed (s : State) (cls : Nat) (admitted : Bool) :
    (State.sendClass s cls admitted).2.fixed = s.fixed := by
  unfold State.sendClass
  simp

end Sys2Proof.Machine
end

