-- ==== Sys2Proof/Laws/FxWings.lean ====
section
/-! SUPPORT. Laws/FxWings.lean: the operations and meanings of Machine/Wings.lean leave the queue and the fuses as they were. -/

set_option linter.unusedSimpArgs false
set_option linter.unusedTactic false
set_option linter.unreachableTactic false
set_option linter.unnecessarySeqFocus false

namespace Sys2Proof.Machine

@[simp] theorem State.setList_fixed (s : State) (l : Nat) (f : Lookup → Lookup) :
    (State.setList s l f).fixed = s.fixed := by
  unfold State.setList
  simp

@[simp] theorem State.setPart_fixed (s : State) (l i : Nat) (f : Part → Part) :
    (State.setPart s l i f).fixed = s.fixed := by
  unfold State.setPart
  simp

@[simp] theorem State.listOver_fixed (s : State) (x : Lookup) (st : Nat) (answer : List Byte) :
    (State.listOver s x st answer).fixed = s.fixed := by
  unfold State.listOver
  (repeat' split) <;> simp

@[simp] theorem State.writeOutputs_fixed (s : State) (x : Lookup) (outs : List (List Byte)) :
    (State.writeOutputs s x outs).fixed = s.fixed := by
  unfold State.writeOutputs
  simp

@[simp] theorem State.settleList_fixed (s : State) (l : Nat) :
    (State.settleList s l).fixed = s.fixed := by
  unfold State.settleList
  (repeat' split) <;> simp

@[simp] theorem State.sweepList_fixed (s : State) (l : Nat) :
    (State.sweepList s l).fixed = s.fixed := by
  unfold State.sweepList
  simp

@[simp] theorem State.partEnded_fixed (s : State) (l i room st : Nat) (exc : Option Nat) (sends : List (Nat × List Byte)) :
    (State.partEnded s l i room st exc sends).fixed = s.fixed := by
  unfold State.partEnded
  (repeat' split) <;> simp

@[simp] theorem State.sendParts_fixed (s : State) (l : Nat) :
    (State.sendParts s l).fixed = s.fixed := by
  unfold State.sendParts
  first
    | (simp +contextual; done)
    | (repeat' split) <;> (try simp +contextual) <;>
      (repeat' first
        | (simp +contextual; done)
        | (simp only [Prod.ext_iff] at *; casesm* _ ∧ _; subst_vars; simp +contextual; done)
        | split
        | rw [foldl_fixed]
        | rw [foldl_fixed_fst]
        | (apply State.newer_fixed; assumption)
        | intro _)

@[simp] theorem State.countLists_fixed (s : State) (x : Lookup) :
    (State.countLists s x).fixed = s.fixed := by
  unfold State.countLists
  simp

@[simp] theorem State.beginList_fixed (s : State) (x : Lookup) (oor : Nat) :
    (State.beginList s x oor).fixed = s.fixed := by
  unfold State.beginList
  simp

@[simp] theorem execCmdLookup_fixed (id : Nat) (s : State) :
    Keeps s (execCmdLookup id s) := by
  unfold execCmdLookup
  first
    | (simp +contextual; done)
    | (repeat' split) <;> (try simp +contextual) <;>
      (repeat' first
        | (simp +contextual; done)
        | (simp only [Prod.ext_iff] at *; casesm* _ ∧ _; subst_vars; simp +contextual; done)
        | split
        | rw [foldl_fixed]
        | rw [foldl_fixed_fst]
        | (apply State.newer_fixed; assumption)
        | intro _)

@[simp] theorem State.accepted_fixed (s : State) (k arg : Nat) :
    (State.accepted s k arg).fixed = s.fixed := by
  unfold State.accepted
  simp

@[simp] theorem State.ackAgain_fixed (s : State) (k : Nat) :
    (State.ackAgain s k).fixed = s.fixed := by
  unfold State.ackAgain
  (repeat' split) <;> simp

@[simp] theorem execRxSublist_fixed (p : Fin 64) (m : Msg) (s : State) :
    Keeps s (execRxSublist p m s) := by
  unfold execRxSublist
  first
    | (simp +contextual; done)
    | (repeat' split) <;> (try simp +contextual) <;>
      (repeat' first
        | (simp +contextual; done)
        | (simp only [Prod.ext_iff] at *; casesm* _ ∧ _; subst_vars; simp +contextual; done)
        | split
        | rw [foldl_fixed]
        | rw [foldl_fixed_fst]
        | (apply State.newer_fixed; assumption)
        | intro _)

@[simp] theorem execRxPartial_fixed (p : Fin 64) (m : Msg) (s : State) :
    Keeps s (execRxPartial p m s) := by
  unfold execRxPartial
  (repeat' split) <;> simp

@[simp] theorem State.breakParts_fixed (s : State) (ref cls : Nat) :
    (State.breakParts s ref cls).fixed = s.fixed := by
  unfold State.breakParts
  simp

@[simp] theorem execCmdRowFlag_fixed (id : Nat) (s : State) :
    Keeps s (execCmdRowFlag id s) := by
  unfold execCmdRowFlag
  (repeat' split) <;> simp

end Sys2Proof.Machine
end

