-- ==== Sys2Proof/Laws/FxDupd.lean ====
section
/-! SUPPORT. Laws/FxDupd.lean: the operations and meanings of Machine/Dupd.lean leave the queue and the fuses as they were. -/

set_option linter.unusedSimpArgs false
set_option linter.unusedTactic false
set_option linter.unreachableTactic false
set_option linter.unnecessarySeqFocus false

namespace Sys2Proof.Machine

@[simp] theorem State.setLayer_fixed (s : State) (id : Nat) (f : Layer → Layer) :
    (State.setLayer s id f).fixed = s.fixed := by
  unfold State.setLayer
  simp

@[simp] theorem State.putDigest_fixed (s : State) (id b d : Nat) :
    (State.putDigest s id b d).fixed = s.fixed := by
  unfold State.putDigest
  simp

@[simp] theorem State.addDigest_fixed (s : State) (id : Nat) (e : List Byte) (b a : Nat) (bs : List Byte) :
    (State.addDigest s id e b a bs).fixed = s.fixed := by
  unfold State.addDigest
  simp

@[simp] theorem State.writeStep_fixed (s : State) (id : Nat) (e : List Byte) (t : Nat) :
    (State.writeStep s id e t).fixed = s.fixed := by
  unfold State.writeStep
  simp

@[simp] theorem sheetMerge_fixed (s : State) (a : Nat) (bs : List Byte) :
    (sheetMerge s a bs).1.fixed = s.fixed := by
  unfold sheetMerge
  simp

@[simp] theorem denseWrite_fixed (id : Nat) (e : List Byte) (s : State) (a : Nat) (bs : List Byte) :
    (denseWrite id e s a bs).1.fixed = s.fixed := by
  unfold denseWrite
  first
    | (simp +contextual; done)
    | (repeat' split) <;> (try simp +contextual) <;>
      (repeat' first
        | (simp +contextual; done)
        | (simp only [Prod.ext_iff] at *; casesm* _ ∧ _; subst_vars; simp +contextual; done)
        | split
        | rw [foldl_fixed]
        | rw [foldl_fixed_fst]
        | (apply State.newer_fixed; assumption)
        | intro _)

@[simp] theorem dupdEnd_fixed (s : State) (a id : Nat) (e : List Byte) (d : Dupd) (m n : Nat) :
    (dupdEnd s a id e d m n).1.fixed = s.fixed := by
  unfold dupdEnd
  first
    | (simp +contextual; done)
    | (repeat' split) <;> (try simp +contextual) <;>
      (repeat' first
        | (simp +contextual; done)
        | (simp only [Prod.ext_iff] at *; casesm* _ ∧ _; subst_vars; simp +contextual; done)
        | split
        | rw [foldl_fixed]
        | rw [foldl_fixed_fst]
        | (apply State.newer_fixed; assumption)
        | intro _)

@[simp] theorem dupdWork_fixed (s : State) (a id : Nat) (e b p : List Byte) (m n : Nat) :
    (dupdWork s a id e b p m n).1.fixed = s.fixed := by
  unfold dupdWork
  extract_lets fmt f rows cols old gs ux cacc0 tsu0 cacc tsu racc0 racc s1 s2 lim s3
  have h : s3.fixed = s.fixed := by simp only [s3, s2, s1, fixed_ite, State.denseProblem_fixed, State.setArr_fixed, ite_self]
  have k := dupdEnd_fixed s3 a id e ⟨b, p, rows, cols, cacc, tsu⟩ m n
  split
  · rename_i hx
    rw [hx] at k
    exact k.trans h
  · rename_i hx
    rw [hx] at k
    simpa using k.trans h

@[simp] theorem dupd_fixed (s : State) (a arg m n : Nat) (g : Stage) (wfmt : Nat) :
    (dupd s a arg m n g wfmt).1.fixed = s.fixed := by
  unfold dupd
  first
    | (simp +contextual; done)
    | (repeat' split) <;> (try simp +contextual) <;>
      (repeat' first
        | (simp +contextual; done)
        | (simp only [Prod.ext_iff] at *; casesm* _ ∧ _; subst_vars; simp +contextual; done)
        | split
        | rw [foldl_fixed]
        | rw [foldl_fixed_fst]
        | (apply State.newer_fixed; assumption)
        | intro _)

end Sys2Proof.Machine
end

