-- ==== Sys2Proof/Laws/FxUpdate.lean ====
section
/-! SUPPORT. Laws/FxUpdate.lean: the operations and meanings of Machine/Update.lean leave the queue and the fuses as they were. -/

set_option linter.unusedSimpArgs false
set_option linter.unusedTactic false
set_option linter.unreachableTactic false
set_option linter.unnecessarySeqFocus false

namespace Sys2Proof.Machine

@[simp] theorem State.setShard_fixed (s : State) (w : Nat) (f : Shard → Shard) :
    (State.setShard s w f).fixed = s.fixed := by
  unfold State.setShard
  simp

@[simp] theorem State.setComb_fixed (s : State) (k : Nat) (f : Combiner → Combiner) :
    (State.setComb s k f).fixed = s.fixed := by
  unfold State.setComb
  simp

@[simp] theorem State.setUpd_fixed (s : State) (f : Update → Update) :
    (State.setUpd s f).fixed = s.fixed := by
  unfold State.setUpd
  simp

@[simp] theorem State.staleShard_fixed (s : State) (w : Nat) :
    (State.staleShard s w).fixed = s.fixed := by
  unfold State.staleShard
  simp

@[simp] theorem State.staleLayer_fixed (s : State) (id : Nat) :
    (State.staleLayer s id).fixed = s.fixed := by
  unfold State.staleLayer
  simp

@[simp] theorem State.staleAll_fixed (s : State) :
    (State.staleAll s).fixed = s.fixed := by
  unfold State.staleAll
  simp

@[simp] theorem State.keepGrad_fixed (s : State) (ctx iter unit st : Nat) :
    (State.keepGrad s ctx iter unit st).fixed = s.fixed := by
  unfold State.keepGrad
  simp

@[simp] theorem State.settleGrad_fixed (s : State) (l : Nat) :
    (State.settleGrad s l).fixed = s.fixed := by
  unfold State.settleGrad
  (repeat' split) <;> simp

@[simp] theorem State.setGrad_fixed (s : State) (l : Nat) (f : GradList → GradList) :
    (State.setGrad s l f).fixed = s.fixed := by
  unfold State.setGrad
  simp

@[simp] theorem State.contribute_fixed (s : State) (t w : List Byte) (row : Nat) (weight : Word) (v : List Word) :
    (State.contribute s t w row weight v).2.fixed = s.fixed := by
  unfold State.contribute
  first
    | (simp +contextual; done)
    | (repeat' split) <;> (try simp +contextual) <;>
      (repeat' first
        | (simp +contextual; done)
        | (simp only [Prod.ext_iff] at *; casesm* _ ∧ _; subst_vars; simp +contextual; done)
        | split
        | rw [foldl_fixed]
        | rw [foldl_fixed_fst]
        | (apply State.newer_fixed; assumption)
        | intro _)

@[simp] theorem execGradientContribution_fixed (l i : Nat) (s : State) :
    Keeps s (execGradientContribution l i s) := by
  unfold execGradientContribution
  first
    | (simp +contextual; done)
    | (repeat' split) <;> (try simp +contextual) <;>
      (repeat' first
        | (simp +contextual; done)
        | (simp only [Prod.ext_iff] at *; casesm* _ ∧ _; subst_vars; simp +contextual; done)
        | split
        | rw [foldl_fixed]
        | rw [foldl_fixed_fst]
        | (apply State.newer_fixed; assumption)
        | intro _)

@[simp] theorem State.beginGrad_fixed (s : State) (g : GradList) :
    (State.beginGrad s g).fixed = s.fixed := by
  unfold State.beginGrad
  simp

@[simp] theorem execCmdGradient_fixed (id : Nat) (s : State) :
    Keeps s (execCmdGradient id s) := by
  unfold execCmdGradient
  first
    | (simp +contextual; done)
    | (repeat' split) <;> (try simp +contextual) <;>
      (repeat' first
        | (simp +contextual; done)
        | (simp only [Prod.ext_iff] at *; casesm* _ ∧ _; subst_vars; simp +contextual; done)
        | split
        | rw [foldl_fixed]
        | rw [foldl_fixed_fst]
        | (apply State.newer_fixed; assumption)
        | intro _)

@[simp] theorem execRxGradlist_fixed (p : Fin 64) (m : Msg) (s : State) :
    Keeps s (execRxGradlist p m s) := by
  unfold execRxGradlist
  first
    | (simp +contextual; done)
    | (repeat' split) <;> (try simp +contextual) <;>
      (repeat' first
        | (simp +contextual; done)
        | (simp only [Prod.ext_iff] at *; casesm* _ ∧ _; subst_vars; simp +contextual; done)
        | split
        | rw [foldl_fixed]
        | rw [foldl_fixed_fst]
        | (apply State.newer_fixed; assumption)
        | intro _)

@[simp] theorem State.gradAnswer_fixed (s : State) (l st : Nat) :
    (State.gradAnswer s l st).fixed = s.fixed := by
  unfold State.gradAnswer
  simp

@[simp] theorem State.launchDense_fixed (s : State) (t : Nat) :
    (State.launchDense s t).fixed = s.fixed := by
  unfold State.launchDense
  simp

@[simp] theorem State.decideLists_fixed (s : State) (skipped : Bool) :
    (State.decideLists s skipped).fixed = s.fixed := by
  unfold State.decideLists
  first
    | (simp +contextual; done)
    | (repeat' split) <;> (try simp +contextual) <;>
      (repeat' first
        | (simp +contextual; done)
        | (simp only [Prod.ext_iff] at *; casesm* _ ∧ _; subst_vars; simp +contextual; done)
        | split
        | rw [foldl_fixed]
        | rw [foldl_fixed_fst]
        | (apply State.newer_fixed; assumption)
        | intro _)

@[simp] theorem State.lateDigests_fixed (s : State) :
    (State.lateDigests s).fixed = s.fixed := by
  unfold State.lateDigests
  simp

@[simp] theorem State.dueDigests_fixed (s : State) (t : Nat) :
    (State.dueDigests s t).fixed = s.fixed := by
  unfold State.dueDigests
  simp

@[simp] theorem State.clearHalf_fixed (s : State) (wing half : Nat) :
    (State.clearHalf s wing half).fixed = s.fixed := by
  unfold State.clearHalf
  simp

@[simp] theorem State.cutCkpt_fixed (s : State) (t : Nat) :
    (State.cutCkpt s t).fixed = s.fixed := by
  unfold State.cutCkpt
  (repeat' split) <;> simp

@[simp] theorem State.skipStep_fixed (s : State) :
    (State.skipStep s).fixed = s.fixed := by
  unfold State.skipStep
  simp

@[simp] theorem State.settleShard_fixed (s : State) (w : List Byte) :
    (State.settleShard s w).fixed = s.fixed := by
  unfold State.settleShard
  first
    | (simp +contextual; done)
    | (repeat' split) <;> (try simp +contextual) <;>
      (repeat' first
        | (simp +contextual; done)
        | (simp only [Prod.ext_iff] at *; casesm* _ ∧ _; subst_vars; simp +contextual; done)
        | split
        | rw [foldl_fixed]
        | rw [foldl_fixed_fst]
        | (apply State.newer_fixed; assumption)
        | intro _)

@[simp] theorem State.commitLayer_fixed (s : State) (t id : Nat) (e : List Byte) :
    (State.commitLayer s t id e).fixed = s.fixed := by
  unfold State.commitLayer
  simp

@[simp] theorem State.commitStep_fixed (s : State) (t : Nat) :
    (State.commitStep s t).fixed = s.fixed := by
  unfold State.commitStep
  simp

@[simp] theorem State.setVerdict_fixed (s : State) (flip : Bool) (g : Verdict → Verdict) :
    (State.setVerdict s flip g).fixed = s.fixed := by
  unfold State.setVerdict
  simp

@[simp] theorem State.verdictDown_fixed (s : State) (flip raised : Bool) (t n : Nat) :
    (State.verdictDown s flip raised t n).fixed = s.fixed := by
  unfold State.verdictDown
  simp

@[simp] theorem State.reportVerdict_fixed (s : State) (flip raised : Bool) (t n : Nat) :
    (State.reportVerdict s flip raised t n).fixed = s.fixed := by
  unfold State.reportVerdict
  simp

@[simp] theorem State.openVerdict_fixed (s : State) (flip : Bool) (c : Nat) :
    (State.openVerdict s flip c).fixed = s.fixed := by
  unfold State.openVerdict
  simp

@[simp] theorem State.actOn_fixed (s : State) (flip raised : Bool) (t : Nat) :
    (State.actOn s flip raised t).fixed = s.fixed := by
  unfold State.actOn
  simp

@[simp] theorem State.decideRoot_fixed (s : State) (flip : Bool) :
    (State.decideRoot s flip).fixed = s.fixed := by
  unfold State.decideRoot
  simp

@[simp] theorem State.pushVerdict_fixed (s : State) (flip : Bool) :
    (State.pushVerdict s flip).fixed = s.fixed := by
  unfold State.pushVerdict
  (repeat' split) <;> simp

@[simp] theorem State.contributeBit_fixed (s : State) (flip raised : Bool) :
    (State.contributeBit s flip raised).fixed = s.fixed := by
  unfold State.contributeBit
  simp

@[simp] theorem execRxVtree_fixed (p : Fin 64) (child : Bool) (count : Fin 32768) (s : State) :
    Keeps s (execRxVtree p child count s) := by
  unfold execRxVtree
  simp

@[simp] theorem execVtreeSend_fixed (s : State) :
    Keeps s (execVtreeSend s) := by
  unfold execVtreeSend
  simp

@[simp] theorem execRxVerdictUp_fixed (p : Fin 64) (flip raised : Bool) (step count : Nat) (s : State) :
    Keeps s (execRxVerdictUp p flip raised step count s) := by
  unfold execRxVerdictUp
  simp

@[simp] theorem execRxVerdictDown_fixed (p : Fin 64) (flip raised : Bool) (step count : Nat) (s : State) :
    Keeps s (execRxVerdictDown p flip raised step count s) := by
  unfold execRxVerdictDown
  simp

@[simp] theorem execVerdictRootDeadline_fixed (flip : Bool) (s : State) :
    Keeps s (execVerdictRootDeadline flip s) := by
  unfold execVerdictRootDeadline
  simp

@[simp] theorem State.swapBank_fixed (s : State) (k : Nat) :
    (State.swapBank s k).fixed = s.fixed := by
  unfold State.swapBank
  simp

@[simp] theorem execEpochClose_fixed (s : State) :
    Keeps s (execEpochClose s) := by
  unfold execEpochClose
  (repeat' split) <;> simp

@[simp] theorem State.contributeScan_fixed (s : State) :
    (State.contributeScan s).fixed = s.fixed := by
  unfold State.contributeScan
  simp

@[simp] theorem execScanComplete_fixed (st : Fin 16) (s : State) :
    Keeps s (execScanComplete st s) := by
  unfold execScanComplete
  simp

@[simp] theorem execScanDeadline_fixed (s : State) :
    Keeps s (execScanDeadline s) := by
  unfold execScanDeadline
  simp

@[simp] theorem execVerdictDeadline_fixed (s : State) :
    Keeps s (execVerdictDeadline s) := by
  unfold execVerdictDeadline
  simp

@[simp] theorem State.rowEnded_fixed (s : State) (wing row : Nat) (primary : Bool) (room st : Nat) (exc : Option Nat) (sends : List (Nat × List Byte)) :
    (State.rowEnded s wing row primary room st exc sends).fixed = s.fixed := by
  unfold State.rowEnded
  first
    | (simp +contextual; done)
    | (repeat' split) <;> (try simp +contextual) <;>
      (repeat' first
        | (simp +contextual; done)
        | (simp only [Prod.ext_iff] at *; casesm* _ ∧ _; subst_vars; simp +contextual; done)
        | split
        | rw [foldl_fixed]
        | rw [foldl_fixed_fst]
        | (apply State.newer_fixed; assumption)
        | intro _)

@[simp] theorem State.lockStores_fixed (s : State) (o : StoreWriter) (chans : List Nat) :
    (State.lockStores s o chans).fixed = s.fixed := by
  unfold State.lockStores
  simp

@[simp] theorem State.unlockStores_fixed (s : State) (o : StoreWriter) :
    (State.unlockStores s o).fixed = s.fixed := by
  unfold State.unlockStores
  simp

@[simp] theorem execParamBlockWrite_fixed (wing : Fin 1024) (s : State) :
    Keeps s (execParamBlockWrite wing s) := by
  unfold execParamBlockWrite
  first
    | (simp +contextual; done)
    | (repeat' split) <;> (try simp +contextual) <;>
      (repeat' first
        | (simp +contextual; done)
        | (simp only [Prod.ext_iff] at *; casesm* _ ∧ _; subst_vars; simp +contextual; done)
        | split
        | rw [foldl_fixed]
        | rw [foldl_fixed_fst]
        | (apply State.newer_fixed; assumption)
        | intro _)

@[simp] theorem State.contributeFlip_fixed (s : State) (raised : Bool) :
    (State.contributeFlip s raised).fixed = s.fixed := by
  unfold State.contributeFlip
  simp

@[simp] theorem execDenseWritesComplete_fixed (s : State) :
    Keeps s (execDenseWritesComplete s) := by
  unfold execDenseWritesComplete
  simp

@[simp] theorem execDenseDeadline_fixed (s : State) :
    Keeps s (execDenseDeadline s) := by
  unfold execDenseDeadline
  simp

@[simp] theorem State.flipLayer_fixed (s : State) (t : Nat) (p : Nat × List Byte) :
    (State.flipLayer s t p).fixed = s.fixed := by
  unfold State.flipLayer
  simp

@[simp] theorem execFlip_fixed (s : State) :
    Keeps s (execFlip s) := by
  unfold execFlip
  first
    | (simp +contextual; done)
    | (repeat' split) <;> (try simp +contextual) <;>
      (repeat' first
        | (simp +contextual; done)
        | (simp only [Prod.ext_iff] at *; casesm* _ ∧ _; subst_vars; simp +contextual; done)
        | split
        | rw [foldl_fixed]
        | rw [foldl_fixed_fst]
        | (apply State.newer_fixed; assumption)
        | intro _)

@[simp] theorem execCmdUpdateParam_fixed (id : Nat) (s : State) :
    Keeps s (execCmdUpdateParam id s) := by
  unfold execCmdUpdateParam
  (repeat' split) <;> simp

@[simp] theorem execCmdStateLoad_fixed (id : Nat) (s : State) :
    Keeps s (execCmdStateLoad id s) := by
  unfold execCmdStateLoad
  (repeat' split) <;> simp

@[simp] theorem execStateLoadEffect_fixed (wing : Fin 1024) (s : State) :
    Keeps s (execStateLoadEffect wing s) := by
  unfold execStateLoadEffect
  first
    | (simp +contextual; done)
    | (repeat' split) <;> (try simp +contextual) <;>
      (repeat' first
        | (simp +contextual; done)
        | (simp only [Prod.ext_iff] at *; casesm* _ ∧ _; subst_vars; simp +contextual; done)
        | split
        | rw [foldl_fixed]
        | rw [foldl_fixed_fst]
        | (apply State.newer_fixed; assumption)
        | intro _)

@[simp] theorem execCmdStateRead_fixed (id : Nat) (s : State) :
    Keeps s (execCmdStateRead id s) := by
  unfold execCmdStateRead
  (repeat' split) <;> simp

end Sys2Proof.Machine
end

