-- ==== Sys2Proof/Laws/FxRoomCore.lean ====
section
/-! SUPPORT. Laws/FxRoomCore.lean: the operations and meanings of Machine/RoomCore.lean leave the queue and the fuses as they were. -/

set_option linter.unusedSimpArgs false
set_option linter.unusedTactic false
set_option linter.unreachableTactic false
set_option linter.unnecessarySeqFocus false

namespace Sys2Proof.Machine

@[simp] theorem State.setCore_fixed (s : State) (r : Nat) (c : Core) :
    (State.setCore s r c).fixed = s.fixed := by
  unfold State.setCore
  simp

@[simp] theorem State.faultLog_fixed (s : State) (r : Nat) (c : Core) (code : Nat) :
    (State.faultLog s r c code).fixed = s.fixed := by
  unfold State.faultLog
  simp

@[simp] theorem State.report_fixed (s : State) (wk : Work) (room st : Nat) (exc : Option Nat) (sends : List (Nat × List Byte)) :
    (State.report s wk room st exc sends).fixed = s.fixed := by
  unfold State.report
  (repeat' split) <;> simp

@[simp] theorem State.endCall_fixed (s : State) (r : Nat) (c : Core) (st : Nat) (exc : Option Nat) :
    (State.endCall s r c st exc).fixed = s.fixed := by
  unfold State.endCall
  (repeat' split) <;> simp

@[simp] theorem State.roomWrite_fixed (s : State) (w : Writer) (room o : Nat) (bs : List Byte) :
    (State.roomWrite s w room o bs).fixed = s.fixed := by
  unfold State.roomWrite
  simp

@[simp] theorem State.voidSample_fixed (s : State) (r : Nat) (c : Core) :
    (State.voidSample s r c).fixed = s.fixed := by
  unfold State.voidSample
  (repeat' split) <;> simp

@[simp] theorem State.dramWrite_fixed (s : State) (r : Nat) (c : Core) (bcv : Bool) (o : Nat) (bs : List Byte) :
    (State.dramWrite s r c bcv o bs).fixed = s.fixed := by
  unfold State.dramWrite
  (repeat' split) <;> simp

@[simp] theorem State.opened_fixed (s : State) (room o n : Nat) :
    (State.opened s room o n).fixed = s.fixed := by
  unfold State.opened
  simp

/-- An instruction's effect, where it is a whole state, leaves the queue and the fuses as `s` has them. -/
def RoomEff.keeps (s : State) (e : RoomEff) : Prop := ∀ t, e = .whole t → t.fixed = s.fixed

@[simp] theorem RoomEff.keeps_next (s : State) (c : Core) (n : Nat) : (RoomEff.next c n).keeps s := by simp [RoomEff.keeps]
@[simp] theorem RoomEff.keeps_go (s : State) (c : Core) (pc n : Nat) : (RoomEff.go c pc n).keeps s := by simp [RoomEff.keeps]
@[simp] theorem RoomEff.keeps_stall (s : State) : RoomEff.stall.keeps s := by simp [RoomEff.keeps]
@[simp] theorem RoomEff.keeps_fault (s : State) (code st : Nat) : (RoomEff.fault code st).keeps s := by simp [RoomEff.keeps]
@[simp] theorem RoomEff.keeps_whole (s t : State) : (RoomEff.whole t).keeps s ↔ t.fixed = s.fixed := by
  simp [RoomEff.keeps, eq_comm]
@[simp] theorem RoomEff.keeps_ite (s : State) (c : Prop) [Decidable c] (a b : RoomEff) :
    (if c then a else b).keeps s ↔ if c then a.keeps s else b.keeps s := by split <;> rfl
theorem RoomEff.keeps_if {s : State} {c : Prop} [Decidable c] {a b : RoomEff} (ha : a.keeps s) (hb : b.keeps s) :
    (if c then a else b).keeps s := by split <;> assumption
@[simp] theorem roomFault_keeps (s : State) (code : Nat) : (roomFault code).keeps s := by simp [roomFault]
@[simp] theorem jump_keeps (s : State) (c : Core) (t : Int) (n : Nat) : (jump c t n).keeps s := by simp [jump]

@[simp] theorem State.runRoom_fixed (s : State) (r op : Nat) (p : Nat → Bool) (f : Core → Nat → RoomEff)
    (h : ∀ c w, (f c w).keeps s) : Keeps s (State.runRoom s r op p f) := by
  unfold State.runRoom
  split
  · simp
  · rename_i c w _
    split
    · have hk := h c w
      generalize f c w = e at hk
      cases e <;> simp at hk ⊢
      exact hk
    · simp

@[simp] theorem State.waitOver_fixed (s : State) (r : Nat) (c : Core) (mask : Nat) (done : Bool) (at' : Nat) (go : State)
    (h : go.fixed = s.fixed) : (State.waitOver s r c mask done at' go).fixed = s.fixed := by
  unfold State.waitOver
  (repeat' split) <;> simp [h]

@[simp] theorem State.wake_fixed (s : State) (r : Nat) (c : Core) :
    (State.wake s r c).fixed = s.fixed := by
  unfold State.wake
  (repeat' split) <;> simp

@[simp] theorem State.startCore_fixed (s : State) (home run : Nat) (pair : Option Nat) (call : Call) (table : Nat) :
    (State.startCore s home run pair call table).fixed = s.fixed := by
  unfold State.startCore
  first
    | (simp +contextual; done)
    | (repeat' split) <;> (try simp +contextual) <;>
      (repeat' first
        | (simp +contextual; done)
        | (simp only [Prod.ext_iff] at *; casesm* _ ∧ _; subst_vars; simp +contextual; done)
        | split
        | rw [foldl_fixed]
        | rw [foldl_fixed_fst]
        | (apply State.newer_fixed; assumption)
        | intro _)

theorem State.callPart_fixed (s : State) (l i : Nat) :
    ∀ t, State.callPart s l i = some t → t.fixed = s.fixed := by
  unfold State.callPart
  first
    | (simp +contextual; done)
    | (repeat' split) <;> (try simp +contextual) <;>
      (repeat' first
        | (simp +contextual; done)
        | (simp only [Prod.ext_iff] at *; casesm* _ ∧ _; subst_vars; simp +contextual; done)
        | split
        | rw [foldl_fixed]
        | rw [foldl_fixed_fst]
        | (apply State.newer_fixed; assumption)
        | intro _)

theorem State.callRow_fixed (s : State) (wing row : Nat) (primary : Bool) :
    ∀ t, State.callRow s wing row primary = some t → t.fixed = s.fixed := by
  unfold State.callRow
  first
    | (simp +contextual; done)
    | (repeat' split) <;> (try simp +contextual) <;>
      (repeat' first
        | (simp +contextual; done)
        | (simp only [Prod.ext_iff] at *; casesm* _ ∧ _; subst_vars; simp +contextual; done)
        | split
        | rw [foldl_fixed]
        | rw [foldl_fixed_fst]
        | (apply State.newer_fixed; assumption)
        | (apply State.callPart_fixed; assumption)
        | intro _)

@[simp] theorem execRoomCall_fixed (wk : Work) (s : State) : Keeps s (execRoomCall wk s) := by
  cases wk with
  | lookup l i =>
    simp only [execRoomCall]
    cases h : s.callPart l i with
    | none => simp
    | some t => simpa using State.callPart_fixed s l i t h
  | update w row primary =>
    simp only [execRoomCall]
    cases h : s.callRow w row primary with
    | none => simp
    | some t => simpa using State.callRow_fixed s w row primary t h

@[simp] theorem execCallCancel_fixed (r : Fin 1048576) (s : State) :
    Keeps s (execCallCancel r s) := by
  unfold execCallCancel
  (repeat' split) <;> simp

@[simp] theorem execLimit_fixed (r : Fin 1048576) (s : State) :
    Keeps s (execLimit r s) := by
  unfold execLimit
  (repeat' split) <;> simp

@[simp] theorem execRmFlogClear_fixed (st : Fin 16) (v : BitVec 32) (s : State) :
    Keeps s (execRmFlogClear st v s) := by
  unfold execRmFlogClear
  simp

@[simp] theorem execDirectRead_fixed (r : Fin 1048576) (o : Fin 16384) (s : State) :
    Keeps s (execDirectRead r o s) := by
  unfold execDirectRead
  simp

@[simp] theorem execCmdProgramLoad_fixed (id : Nat) (s : State) :
    Keeps s (execCmdProgramLoad id s) := by
  unfold execCmdProgramLoad
  (repeat' split) <;> simp

end Sys2Proof.Machine
end

