-- ==== Sys2Proof/Laws/FxRoomIns.lean ====
section
/-! SUPPORT. Laws/FxRoomIns.lean: the operations and meanings of Machine/RoomIns.lean leave the queue and the fuses as they were. -/

set_option linter.unusedSimpArgs false
set_option linter.unusedTactic false
set_option linter.unreachableTactic false
set_option linter.unnecessarySeqFocus false

namespace Sys2Proof.Machine

@[simp] theorem scratchAt_keeps (s : State) (a n al : Nat) (k : RoomEff) (h : k.keeps s) : (scratchAt a n al k).keeps s := by
  simp [scratchAt, h]

@[simp] theorem execIllegal_fixed (r : Fin 1048576) (s : State) :
    Keeps s (execIllegal r s) := by
  unfold execIllegal
  (repeat' split) <;> simp

@[simp] theorem State.alu_fixed (s : State) (r op : Nat) (g : Word → Word → Word) :
    Keeps s (State.alu s r op g) := by
  unfold State.alu
  simp

@[simp] theorem execNop_fixed (r : Fin 1048576) (s : State) :
    Keeps s (execNop r s) := by
  unfold execNop
  simp

@[simp] theorem execAdd_fixed (r : Fin 1048576) (s : State) :
    Keeps s (execAdd r s) := by
  unfold execAdd
  simp

@[simp] theorem execSub_fixed (r : Fin 1048576) (s : State) :
    Keeps s (execSub r s) := by
  unfold execSub
  simp

@[simp] theorem execAnd_fixed (r : Fin 1048576) (s : State) :
    Keeps s (execAnd r s) := by
  unfold execAnd
  simp

@[simp] theorem execOr_fixed (r : Fin 1048576) (s : State) :
    Keeps s (execOr r s) := by
  unfold execOr
  simp

@[simp] theorem execXor_fixed (r : Fin 1048576) (s : State) :
    Keeps s (execXor r s) := by
  unfold execXor
  simp

@[simp] theorem execMul_fixed (r : Fin 1048576) (s : State) :
    Keeps s (execMul r s) := by
  unfold execMul
  simp

@[simp] theorem execShl_fixed (r : Fin 1048576) (s : State) :
    Keeps s (execShl r s) := by
  unfold execShl
  simp

@[simp] theorem execShr_fixed (r : Fin 1048576) (s : State) :
    Keeps s (execShr r s) := by
  unfold execShr
  simp

@[simp] theorem execSra_fixed (r : Fin 1048576) (s : State) :
    Keeps s (execSra r s) := by
  unfold execSra
  simp

@[simp] theorem execSlt_fixed (r : Fin 1048576) (s : State) :
    Keeps s (execSlt r s) := by
  unfold execSlt
  simp

@[simp] theorem execAddi_fixed (r : Fin 1048576) (s : State) :
    Keeps s (execAddi r s) := by
  unfold execAddi
  simp

@[simp] theorem execLui_fixed (r : Fin 1048576) (s : State) :
    Keeps s (execLui r s) := by
  unfold execLui
  simp

@[simp] theorem State.branch_fixed (s : State) (r op : Nat) (p : Word → Word → Bool) :
    Keeps s (State.branch s r op p) := by
  unfold State.branch
  simp

@[simp] theorem execBeq_fixed (r : Fin 1048576) (s : State) :
    Keeps s (execBeq r s) := by
  unfold execBeq
  simp

@[simp] theorem execBne_fixed (r : Fin 1048576) (s : State) :
    Keeps s (execBne r s) := by
  unfold execBne
  simp

@[simp] theorem execBlt_fixed (r : Fin 1048576) (s : State) :
    Keeps s (execBlt r s) := by
  unfold execBlt
  simp

@[simp] theorem execBge_fixed (r : Fin 1048576) (s : State) :
    Keeps s (execBge r s) := by
  unfold execBge
  simp

@[simp] theorem execJal_fixed (r : Fin 1048576) (s : State) :
    Keeps s (execJal r s) := by
  unfold execJal
  simp

@[simp] theorem execJr_fixed (r : Fin 1048576) (s : State) :
    Keeps s (execJr r s) := by
  unfold execJr
  simp

@[simp] theorem execLoop_fixed (r : Fin 1048576) (s : State) :
    Keeps s (execLoop r s) := by
  unfold execLoop
  simp

@[simp] theorem execLds_fixed (r : Fin 1048576) (s : State) :
    Keeps s (execLds r s) := by
  unfold execLds
  simp

@[simp] theorem execSts_fixed (r : Fin 1048576) (s : State) :
    Keeps s (execSts r s) := by
  unfold execSts
  simp

@[simp] theorem execLdsv_fixed (r : Fin 1048576) (s : State) :
    Keeps s (execLdsv r s) := by
  unfold execLdsv
  simp

@[simp] theorem execStsv_fixed (r : Fin 1048576) (s : State) :
    Keeps s (execStsv r s) := by
  unfold execStsv
  simp

@[simp] theorem execLdc_fixed (r : Fin 1048576) (s : State) :
    Keeps s (execLdc r s) := by
  unfold execLdc
  simp

@[simp] theorem execLdcv_fixed (r : Fin 1048576) (s : State) :
    Keeps s (execLdcv r s) := by
  unfold execLdcv
  simp

@[simp] theorem State.fop_fixed (s : State) (r f cost : Nat) (g : Word → Word → Word) :
    Keeps s (State.fop s r f cost g) := by
  unfold State.fop
  simp

@[simp] theorem execFadd_fixed (r : Fin 1048576) (s : State) :
    Keeps s (execFadd r s) := by
  unfold execFadd
  simp

@[simp] theorem execFsub_fixed (r : Fin 1048576) (s : State) :
    Keeps s (execFsub r s) := by
  unfold execFsub
  simp

@[simp] theorem execFmul_fixed (r : Fin 1048576) (s : State) :
    Keeps s (execFmul r s) := by
  unfold execFmul
  simp

@[simp] theorem execFdiv_fixed (r : Fin 1048576) (s : State) :
    Keeps s (execFdiv r s) := by
  unfold execFdiv
  simp

@[simp] theorem execFsqrt_fixed (r : Fin 1048576) (s : State) :
    Keeps s (execFsqrt r s) := by
  unfold execFsqrt
  simp

@[simp] theorem execFrsq_fixed (r : Fin 1048576) (s : State) :
    Keeps s (execFrsq r s) := by
  unfold execFrsq
  simp

@[simp] theorem execFmin_fixed (r : Fin 1048576) (s : State) :
    Keeps s (execFmin r s) := by
  unfold execFmin
  simp

@[simp] theorem execFmax_fixed (r : Fin 1048576) (s : State) :
    Keeps s (execFmax r s) := by
  unfold execFmax
  simp

@[simp] theorem execItof_fixed (r : Fin 1048576) (s : State) :
    Keeps s (execItof r s) := by
  unfold execItof
  simp

@[simp] theorem execFtoi_fixed (r : Fin 1048576) (s : State) :
    Keeps s (execFtoi r s) := by
  unfold execFtoi
  simp

@[simp] theorem execFlt_fixed (r : Fin 1048576) (s : State) :
    Keeps s (execFlt r s) := by
  unfold execFlt
  simp

@[simp] theorem State.vop_fixed (s : State) (r op : Nat) (fl : Val → Val → Val → Val) (ig : Word → Word → Word → Word) :
    Keeps s (State.vop s r op fl ig) := by
  unfold State.vop
  simp

@[simp] theorem execVadd_fixed (r : Fin 1048576) (s : State) :
    Keeps s (execVadd r s) := by
  unfold execVadd
  simp

@[simp] theorem execVmul_fixed (r : Fin 1048576) (s : State) :
    Keeps s (execVmul r s) := by
  unfold execVmul
  simp

@[simp] theorem execVfma_fixed (r : Fin 1048576) (s : State) :
    Keeps s (execVfma r s) := by
  unfold execVfma
  simp

@[simp] theorem execVmax_fixed (r : Fin 1048576) (s : State) :
    Keeps s (execVmax r s) := by
  unfold execVmax
  simp

@[simp] theorem execVcvt_fixed (r : Fin 1048576) (s : State) :
    Keeps s (execVcvt r s) := by
  unfold execVcvt
  simp

@[simp] theorem execVsplat_fixed (r : Fin 1048576) (s : State) :
    Keeps s (execVsplat r s) := by
  unfold execVsplat
  simp

@[simp] theorem execVsum_fixed (r : Fin 1048576) (s : State) :
    Keeps s (execVsum r s) := by
  unfold execVsum
  simp

@[simp] theorem execVmovGet_fixed (r : Fin 1048576) (s : State) :
    Keeps s (execVmovGet r s) := by
  unfold execVmovGet
  simp

@[simp] theorem execVmovPut_fixed (r : Fin 1048576) (s : State) :
    Keeps s (execVmovPut r s) := by
  unfold execVmovPut
  simp

@[simp] theorem execRseed_fixed (r : Fin 1048576) (s : State) :
    Keeps s (execRseed r s) := by
  unfold execRseed
  simp

@[simp] theorem execRand_fixed (r : Fin 1048576) (s : State) :
    Keeps s (execRand r s) := by
  unfold execRand
  simp

@[simp] theorem State.await_fixed (s : State) (r op : Nat) (f : Core → Nat → RoomWait) :
    Keeps s (State.await s r op f) := by
  unfold State.await
  simp

@[simp] theorem execWait_fixed (r : Fin 1048576) (s : State) :
    Keeps s (execWait r s) := by
  unfold execWait
  simp

@[simp] theorem execFence_fixed (r : Fin 1048576) (s : State) :
    Keeps s (execFence r s) := by
  unfold execFence
  simp

@[simp] theorem execEndCall_fixed (r : Fin 1048576) (s : State) :
    Keeps s (execEndCall r s) := by
  unfold execEndCall
  simp

@[simp] theorem execEvt_fixed (r : Fin 1048576) (s : State) :
    Keeps s (execEvt r s) := by
  unfold execEvt
  simp

@[simp] theorem execTrap_fixed (r : Fin 1048576) (s : State) :
    Keeps s (execTrap r s) := by
  unfold execTrap
  simp

@[simp] theorem execGets_fixed (r : Fin 1048576) (s : State) :
    Keeps s (execGets r s) := by
  unfold execGets
  simp

end Sys2Proof.Machine
end

