-- ==== Sys2Proof/Laws/FxRoomRow.lean ====
section
/-! SUPPORT. Laws/FxRoomRow.lean: the operations and meanings of Machine/RoomRow.lean leave the queue and the fuses as they were. -/

set_option linter.unusedSimpArgs false
set_option linter.unusedTactic false
set_option linter.unreachableTactic false
set_option linter.unnecessarySeqFocus false

namespace Sys2Proof.Machine

@[simp] theorem State.dramGate_keeps (s : State) (c : Core) (k : RoomEff) (h : k.keeps s) : (s.dramGate c k).keeps s := by
  unfold State.dramGate
  (repeat' split) <;> simp [h]

@[simp] theorem moveChecks_keeps (s : State) (c : Core) (w : Nat) (k : Core → RoomEff) (h : ∀ c, (k c).keeps s) :
    (moveChecks c w k).keeps s := by
  unfold moveChecks
  (repeat' split) <;> simp [h]

@[simp] theorem State.logRow_fixed (s : State) (room : Nat) (unc : Bool) :
    (State.logRow s room unc).fixed = s.fixed := by
  unfold State.logRow
  simp

@[simp] theorem execRfetch_fixed (r : Fin 1048576) (s : State) :
    Keeps s (execRfetch r s) := by
  unfold execRfetch
  first
    | (simp +contextual; done)
    | (repeat' split) <;> (try simp +contextual) <;>
      (repeat' first
        | (simp +contextual; done)
        | (simp only [Prod.ext_iff] at *; casesm* _ ∧ _; subst_vars; simp +contextual; done)
        | split
        | rw [foldl_fixed]
        | rw [foldl_fixed_fst]
        | (apply State.newer_fixed; assumption)
        | (apply State.callPart_fixed; assumption)
        | (apply State.callRow_fixed; assumption)
        | (apply State.runRoom_fixed; intro c w)
        | apply moveChecks_keeps
        | apply State.dramGate_keeps
        | apply scratchAt_keeps
        | intro _)

@[simp] theorem execRput_fixed (r : Fin 1048576) (s : State) :
    Keeps s (execRput r s) := by
  unfold execRput
  first
    | (simp +contextual; done)
    | (repeat' split) <;> (try simp +contextual) <;>
      (repeat' first
        | (simp +contextual; done)
        | (simp only [Prod.ext_iff] at *; casesm* _ ∧ _; subst_vars; simp +contextual; done)
        | split
        | rw [foldl_fixed]
        | rw [foldl_fixed_fst]
        | (apply State.newer_fixed; assumption)
        | (apply State.callPart_fixed; assumption)
        | (apply State.callRow_fixed; assumption)
        | (apply State.runRoom_fixed; intro c w)
        | apply moveChecks_keeps
        | apply State.dramGate_keeps
        | apply scratchAt_keeps
        | intro _)

@[simp] theorem execRfetchDone_fixed (r : Fin 1048576) (slot : Fin 4) (s : State) :
    Keeps s (execRfetchDone r slot s) := by
  unfold execRfetchDone
  first
    | (simp +contextual; done)
    | (repeat' split) <;> (try simp +contextual) <;>
      (repeat' first
        | (simp +contextual; done)
        | (simp only [Prod.ext_iff] at *; casesm* _ ∧ _; subst_vars; simp +contextual; done)
        | split
        | rw [foldl_fixed]
        | rw [foldl_fixed_fst]
        | (apply State.newer_fixed; assumption)
        | (apply State.callPart_fixed; assumption)
        | (apply State.callRow_fixed; assumption)
        | (apply State.runRoom_fixed; intro c w)
        | apply moveChecks_keeps
        | apply State.dramGate_keeps
        | apply scratchAt_keeps
        | intro _)

@[simp] theorem State.lateLine_fixed (s : State) (r : Nat) (op : SlotOp) (l : Nat) :
    (State.lateLine s r op l).fixed = s.fixed := by
  unfold State.lateLine
  (repeat' split) <;> simp

@[simp] theorem State.wakeRoom_fixed (s : State) (r : Nat) :
    (State.wakeRoom s r).fixed = s.fixed := by
  unfold State.wakeRoom
  (repeat' split) <;> simp

@[simp] theorem execRputDone_fixed (r : Fin 1048576) (slot : Fin 4) (s : State) :
    Keeps s (execRputDone r slot s) := by
  unfold execRputDone
  (repeat' split) <;> simp

@[simp] theorem execRcheck_fixed (r : Fin 1048576) (s : State) :
    Keeps s (execRcheck r s) := by
  unfold execRcheck
  simp

@[simp] theorem State.dqacc_fixed (s : State) (r mode : Nat) (f : Word → Word → Word → Word) :
    Keeps s (State.dqacc s r mode f) := by
  unfold State.dqacc
  simp

@[simp] theorem execDqaccAssign_fixed (r : Fin 1048576) (s : State) :
    Keeps s (execDqaccAssign r s) := by
  unfold execDqaccAssign
  simp

@[simp] theorem execDqaccAdd_fixed (r : Fin 1048576) (s : State) :
    Keeps s (execDqaccAdd r s) := by
  unfold execDqaccAdd
  simp

@[simp] theorem execDqaccMax_fixed (r : Fin 1048576) (s : State) :
    Keeps s (execDqaccMax r s) := by
  unfold execDqaccMax
  simp

@[simp] theorem execScale_fixed (r : Fin 1048576) (s : State) :
    Keeps s (execScale r s) := by
  unfold execScale
  simp

@[simp] theorem execPack_fixed (r : Fin 1048576) (s : State) :
    Keeps s (execPack r s) := by
  unfold execPack
  simp

@[simp] theorem execFupd_fixed (r : Fin 1048576) (s : State) : Keeps s (execFupd r s) := by
  unfold execFupd
  refine State.runRoom_fixed _ _ _ _ _ (fun c w => ?_)
  extract_lets
  refine RoomEff.keeps_if (by simp) (RoomEff.keeps_if (by simp) (RoomEff.keeps_if (by simp) (RoomEff.keeps_if (by simp)
    (RoomEff.keeps_if (by simp) (RoomEff.keeps_if (by simp) (RoomEff.keeps_if (by simp) (State.dramGate_keeps _ _ _ ?_)))))))
  refine RoomEff.keeps_if ?_ (RoomEff.keeps_if ?_ (RoomEff.keeps_if ?_ ?_)) <;> (rw [RoomEff.keeps_whole]; simp +zetaDelta)

@[simp] theorem execRecv_fixed (r : Fin 1048576) (s : State) :
    Keeps s (execRecv r s) := by
  unfold execRecv
  simp

@[simp] theorem execRecvDone_fixed (r : Fin 1048576) (s : State) :
    Keeps s (execRecvDone r s) := by
  unfold execRecvDone
  (repeat' split) <;> simp

@[simp] theorem execSend_fixed (r : Fin 1048576) (s : State) :
    Keeps s (execSend r s) := by
  unfold execSend
  simp

@[simp] theorem execSendDone_fixed (r : Fin 1048576) (s : State) :
    Keeps s (execSendDone r s) := by
  unfold execSendDone
  (repeat' split) <;> simp

end Sys2Proof.Machine
end

