-- ==== Sys2Proof/Laws/FxQueues.lean ====
section
/-! SUPPORT. Laws/FxQueues.lean: the operations and meanings of Machine/Queues.lean leave the queue and the fuses as they were. -/

set_option linter.unusedSimpArgs false
set_option linter.unusedTactic false
set_option linter.unreachableTactic false
set_option linter.unnecessarySeqFocus false

namespace Sys2Proof.Machine

@[simp] theorem execDbSqWrite_fixed (q : Fin 4096) (v : BitVec 32) (s : State) :
    Keeps s (execDbSqWrite q v s) := by
  unfold execDbSqWrite
  (repeat' split) <;> simp

@[simp] theorem execDbCqWrite_fixed (q : Fin 4096) (v : BitVec 32) (s : State) :
    Keeps s (execDbCqWrite q v s) := by
  unfold execDbCqWrite
  (repeat' split) <;> simp

@[simp] theorem execQEnable_fixed (q : Fin 4096) (s : State) :
    Keeps s (execQEnable q s) := by
  unfold execQEnable
  (repeat' split) <;> simp

@[simp] theorem execQDisable_fixed (q : Fin 4096) (s : State) :
    Keeps s (execQDisable q s) := by
  unfold execQDisable
  simp

@[simp] theorem State.freeCaptures_fixed (s : State) (q : Nat) :
    (State.freeCaptures s q).fixed = s.fixed := by
  unfold State.freeCaptures
  simp

@[simp] theorem State.dropAborts_fixed (s : State) (q : Nat) :
    (State.dropAborts s q).fixed = s.fixed := by
  unfold State.dropAborts
  simp

@[simp] theorem State.emptyQueue_fixed (s : State) (q : Nat) (st : QState) :
    (State.emptyQueue s q st).fixed = s.fixed := by
  unfold State.emptyQueue
  simp

@[simp] theorem execQReset_fixed (q : Fin 4096) (s : State) :
    Keeps s (execQReset q s) := by
  unfold execQReset
  simp

@[simp] theorem State.unpark_fixed (s : State) :
    (State.unpark s).fixed = s.fixed := by
  unfold State.unpark
  simp

@[simp] theorem execQueueResetDone_fixed (q : Fin 4096) (s : State) :
    Keeps s (execQueueResetDone q s) := by
  unfold execQueueResetDone
  simp

@[simp] theorem execCqAck_fixed (q : Fin 4096) (s : State) :
    Keeps s (execCqAck q s) := by
  unfold execCqAck
  simp

@[simp] theorem execQResume_fixed (q : Fin 4096) (s : State) :
    Keeps s (execQResume q s) := by
  unfold execQResume
  simp

@[simp] theorem State.newCmd_fixed (s : State) (q : Nat) (d : List Byte) (slot : Nat) (e : List Byte) :
    (State.newCmd s q d slot e).fixed = s.fixed := by
  unfold State.newCmd
  simp

@[simp] theorem State.abortFetched_fixed (s : State) (id : Nat) (e : List Byte) (abs : List Nat) :
    (State.abortFetched s id e abs).fixed = s.fixed := by
  unfold State.abortFetched
  (repeat' split) <;> simp

@[simp] theorem State.takeSlot_fixed (s : State) (q : Nat) (d : List Byte) (bs : List Byte) :
    (State.takeSlot s q d bs).fixed = s.fixed := by
  unfold State.takeSlot
  first
    | (simp +contextual; done)
    | (repeat' split) <;> (try simp +contextual) <;>
      (repeat' first
        | (simp +contextual; done)
        | (simp only [Prod.ext_iff] at *; casesm* _ ∧ _; subst_vars; simp +contextual; done)
        | split
        | rw [foldl_fixed]
        | rw [foldl_fixed_fst]
        | (apply State.newer_fixed; assumption)
        | (apply State.callPart_fixed; assumption)
        | (apply State.callRow_fixed; assumption)
        | intro _)

@[simp] theorem State.sqFail_fixed (s : State) (q n : Nat) :
    (State.sqFail s q n).fixed = s.fixed := by
  unfold State.sqFail
  (repeat' split) <;> simp

@[simp] theorem execEntryFetchReturn_fixed (k : Nat) (bytes : List Byte) (ok : Bool) (s : State) :
    Keeps s (execEntryFetchReturn k bytes ok s) := by
  unfold execEntryFetchReturn
  first
    | (simp +contextual; done)
    | (repeat' split) <;> (try simp +contextual) <;>
      (repeat' first
        | (simp +contextual; done)
        | (simp only [Prod.ext_iff] at *; casesm* _ ∧ _; subst_vars; simp +contextual; done)
        | split
        | rw [foldl_fixed]
        | rw [foldl_fixed_fst]
        | (apply State.newer_fixed; assumption)
        | (apply State.callPart_fixed; assumption)
        | (apply State.callRow_fixed; assumption)
        | intro _)

@[simp] theorem execWatchdogExpiry_fixed (launch : Bool) (id : Nat) (s : State) :
    Keeps s (execWatchdogExpiry launch id s) := by
  unfold execWatchdogExpiry
  (repeat' split) <;> simp

@[simp] theorem execCmdNop_fixed (id : Nat) (s : State) :
    Keeps s (execCmdNop id s) := by
  unfold execCmdNop
  (repeat' split) <;> simp

@[simp] theorem execCmdInvalid_fixed (id : Nat) (s : State) :
    Keeps s (execCmdInvalid id s) := by
  unfold execCmdInvalid
  (repeat' split) <;> simp

@[simp] theorem startDma_fixed (s : State) (id : Nat) (c : Cmd) :
    Keeps s (startDma s id c) := by
  unfold startDma
  simp

@[simp] theorem execCmdDmaIn_fixed (id : Nat) (s : State) :
    Keeps s (execCmdDmaIn id s) := by
  unfold execCmdDmaIn
  (repeat' split) <;> simp

@[simp] theorem execCmdDmaOut_fixed (id : Nat) (s : State) :
    Keeps s (execCmdDmaOut id s) := by
  unfold execCmdDmaOut
  (repeat' split) <;> simp

@[simp] theorem execCmdWriteInline_fixed (id : Nat) (s : State) :
    Keeps s (execCmdWriteInline id s) := by
  unfold execCmdWriteInline
  (repeat' split) <;> simp

@[simp] theorem State.launchIn_fixed (s : State) (l k : Nat) (i : Itin) :
    (State.launchIn s l k i).fixed = s.fixed := by
  unfold State.launchIn
  simp

@[simp] theorem execCmdLaunch_fixed (id : Nat) (s : State) :
    Keeps s (execCmdLaunch id s) := by
  unfold execCmdLaunch
  first
    | (simp +contextual; done)
    | (repeat' split) <;> (try simp +contextual) <;>
      (repeat' first
        | (simp +contextual; done)
        | (simp only [Prod.ext_iff] at *; casesm* _ ∧ _; subst_vars; simp +contextual; done)
        | split
        | rw [foldl_fixed]
        | rw [foldl_fixed_fst]
        | (apply State.newer_fixed; assumption)
        | (apply State.callPart_fixed; assumption)
        | (apply State.callRow_fixed; assumption)
        | intro _)

@[simp] theorem State.refuseLaunch_fixed (s : State) (l : Nat) (x : Launch) :
    (State.refuseLaunch s l x).fixed = s.fixed := by
  unfold State.refuseLaunch
  first
    | (simp +contextual; done)
    | (repeat' split) <;> (try simp +contextual) <;>
      (repeat' first
        | (simp +contextual; done)
        | (simp only [Prod.ext_iff] at *; casesm* _ ∧ _; subst_vars; simp +contextual; done)
        | split
        | rw [foldl_fixed]
        | rw [foldl_fixed_fst]
        | (apply State.newer_fixed; assumption)
        | (apply State.callPart_fixed; assumption)
        | (apply State.callRow_fixed; assumption)
        | intro _)

@[simp] theorem execLaunchStart_fixed (l : Nat) (s : State) :
    Keeps s (execLaunchStart l s) := by
  unfold execLaunchStart
  first
    | (simp +contextual; done)
    | (repeat' split) <;> (try simp +contextual) <;>
      (repeat' first
        | (simp +contextual; done)
        | (simp only [Prod.ext_iff] at *; casesm* _ ∧ _; subst_vars; simp +contextual; done)
        | split
        | rw [foldl_fixed]
        | rw [foldl_fixed_fst]
        | (apply State.newer_fixed; assumption)
        | (apply State.callPart_fixed; assumption)
        | (apply State.callRow_fixed; assumption)
        | intro _)

@[simp] theorem State.setItins_fixed (s : State) (f : Tab Itin → Tab Itin) :
    (State.setItins s f).fixed = s.fixed := by
  unfold State.setItins
  simp

@[simp] theorem execCmdItinLoad_fixed (id : Nat) (s : State) : Keeps s (execCmdItinLoad id s) := by
  unfold execCmdItinLoad
  split
  · simp
  · dsimp only
    (repeat' split) <;> simp

@[simp] theorem execCmdBuffer_fixed (id : Nat) (s : State) :
    Keeps s (execCmdBuffer id s) := by
  unfold execCmdBuffer
  first
    | (simp +contextual; done)
    | (repeat' split) <;> (try simp +contextual) <;>
      (repeat' first
        | (simp +contextual; done)
        | (simp only [Prod.ext_iff] at *; casesm* _ ∧ _; subst_vars; simp +contextual; done)
        | split
        | rw [foldl_fixed]
        | rw [foldl_fixed_fst]
        | (apply State.newer_fixed; assumption)
        | (apply State.callPart_fixed; assumption)
        | (apply State.callRow_fixed; assumption)
        | intro _)

@[simp] theorem execCmdAbort_fixed (id : Nat) (s : State) :
    Keeps s (execCmdAbort id s) := by
  unfold execCmdAbort
  first
    | (simp +contextual; done)
    | (repeat' split) <;> (try simp +contextual) <;>
      (repeat' first
        | (simp +contextual; done)
        | (simp only [Prod.ext_iff] at *; casesm* _ ∧ _; subst_vars; simp +contextual; done)
        | split
        | rw [foldl_fixed]
        | rw [foldl_fixed_fst]
        | (apply State.newer_fixed; assumption)
        | (apply State.callPart_fixed; assumption)
        | (apply State.callRow_fixed; assumption)
        | intro _)

@[simp] theorem execCmdInvalidate_fixed (id : Nat) (s : State) :
    Keeps s (execCmdInvalidate id s) := by
  unfold execCmdInvalidate
  (repeat' split) <;> simp

@[simp] theorem execCmdMigrate_fixed (id : Nat) (s : State) :
    Keeps s (execCmdMigrate id s) := by
  unfold execCmdMigrate
  (repeat' split) <;> simp

@[simp] theorem execCmdReturn_fixed (id : Nat) (s : State) :
    Keeps s (execCmdReturn id s) := by
  unfold execCmdReturn
  first
    | (simp +contextual; done)
    | (repeat' split) <;> (try simp +contextual) <;>
      (repeat' first
        | (simp +contextual; done)
        | (simp only [Prod.ext_iff] at *; casesm* _ ∧ _; subst_vars; simp +contextual; done)
        | split
        | rw [foldl_fixed]
        | rw [foldl_fixed_fst]
        | (apply State.newer_fixed; assumption)
        | (apply State.callPart_fixed; assumption)
        | (apply State.callRow_fixed; assumption)
        | intro _)

@[simp] theorem execItinNodeDispatch_fixed (l : Nat) (n : Fin 4096) (s : State) :
    Keeps s (execItinNodeDispatch l n s) := by
  unfold execItinNodeDispatch
  first
    | (simp +contextual; done)
    | (repeat' split) <;> (try simp +contextual) <;>
      (repeat' first
        | (simp +contextual; done)
        | (simp only [Prod.ext_iff] at *; casesm* _ ∧ _; subst_vars; simp +contextual; done)
        | split
        | rw [foldl_fixed]
        | rw [foldl_fixed_fst]
        | (apply State.newer_fixed; assumption)
        | (apply State.callPart_fixed; assumption)
        | (apply State.callRow_fixed; assumption)
        | intro _)

end Sys2Proof.Machine
end

