-- ==== Sys2Proof/Laws/FxTransl.lean ====
section
/-! SUPPORT. Laws/FxTransl.lean: the operations and meanings of Machine/Transl.lean leave the queue and the fuses as they were. -/

set_option linter.unusedSimpArgs false
set_option linter.unusedTactic false
set_option linter.unreachableTactic false
set_option linter.unnecessarySeqFocus false

namespace Sys2Proof.Machine

@[simp] theorem execAsEnable_fixed (s : State) :
    Keeps s (execAsEnable s) := by
  unfold execAsEnable
  (repeat' split) <;> simp

@[simp] theorem execAsDisable_fixed (s : State) :
    Keeps s (execAsDisable s) := by
  unfold execAsDisable
  simp

@[simp] theorem execAsRootWrite_fixed (high : Bool) (v : BitVec 32) (s : State) :
    Keeps s (execAsRootWrite high v s) := by
  unfold execAsRootWrite
  simp

@[simp] theorem State.dmaBegin_fixed (s : State) (k : Nat) (u : XUnit) (c : Nat × Nat) :
    (State.dmaBegin s k u c).fixed = s.fixed := by
  unfold State.dmaBegin
  simp

@[simp] theorem execTranslateUnit_fixed (k : Nat) (s : State) :
    Keeps s (execTranslateUnit k s) := by
  unfold execTranslateUnit
  (repeat' split) <;> simp

@[simp] theorem execWalkEntryReturn_fixed (k : Nat) (bytes : List Byte) (ok : Bool) (s : State) :
    Keeps s (execWalkEntryReturn k bytes ok s) := by
  unfold execWalkEntryReturn
  first
    | (simp +contextual; done)
    | (repeat' split) <;> (try simp +contextual) <;>
      (repeat' first
        | (simp +contextual; done)
        | (simp only [Prod.ext_iff] at *; casesm* _ ∧ _; subst_vars; simp +contextual; done)
        | split
        | rw [foldl_fixed]
        | rw [foldl_fixed_fst]
        | (apply State.newer_fixed; assumption)
        | (apply State.callPart_fixed; assumption)
        | (apply State.callRow_fixed; assumption)
        | intro _)

@[simp] theorem State.retryUnits_fixed (s : State) (ks : List Nat) :
    (State.retryUnits s ks).fixed = s.fixed := by
  unfold State.retryUnits
  first
    | (simp +contextual; done)
    | (repeat' split) <;> (try simp +contextual) <;>
      (repeat' first
        | (simp +contextual; done)
        | (simp only [Prod.ext_iff] at *; casesm* _ ∧ _; subst_vars; simp +contextual; done)
        | split
        | rw [foldl_fixed]
        | rw [foldl_fixed_fst]
        | (apply State.newer_fixed; assumption)
        | (apply State.callPart_fixed; assumption)
        | (apply State.callRow_fixed; assumption)
        | intro _)

@[simp] theorem execPrqRetry_fixed (req : Fin 1024) (s : State) :
    Keeps s (execPrqRetry req s) := by
  unfold execPrqRetry
  (repeat' split) <;> simp

@[simp] theorem State.failUnit_fixed (s : State) (k : Nat) :
    (State.failUnit s k).fixed = s.fixed := by
  unfold State.failUnit
  first
    | (simp +contextual; done)
    | (repeat' split) <;> (try simp +contextual) <;>
      (repeat' first
        | (simp +contextual; done)
        | (simp only [Prod.ext_iff] at *; casesm* _ ∧ _; subst_vars; simp +contextual; done)
        | split
        | rw [foldl_fixed]
        | rw [foldl_fixed_fst]
        | (apply State.newer_fixed; assumption)
        | (apply State.callPart_fixed; assumption)
        | (apply State.callRow_fixed; assumption)
        | intro _)

@[simp] theorem execPrqFail_fixed (req : Fin 1024) (s : State) :
    Keeps s (execPrqFail req s) := by
  unfold execPrqFail
  (repeat' split) <;> simp

@[simp] theorem execXlRingHeadWrite_fixed (v : BitVec 32) (s : State) :
    Keeps s (execXlRingHeadWrite v s) := by
  unfold execXlRingHeadWrite
  simp

@[simp] theorem execXlRingCtrlEnable_fixed (s : State) :
    Keeps s (execXlRingCtrlEnable s) := by
  unfold execXlRingCtrlEnable
  simp

@[simp] theorem execXlInvGo_fixed (s : State) :
    Keeps s (execXlInvGo s) := by
  unfold execXlInvGo
  simp

@[simp] theorem execInvalidationDone_fixed (i : Nat) (s : State) :
    Keeps s (execInvalidationDone i s) := by
  unfold execInvalidationDone
  (repeat' split) <;> simp

@[simp] theorem execXlCwCountWrite_fixed (v : BitVec 32) (s : State) :
    Keeps s (execXlCwCountWrite v s) := by
  unfold execXlCwCountWrite
  simp

@[simp] theorem execXlCntClear_fixed (s : State) :
    Keeps s (execXlCntClear s) := by
  unfold execXlCntClear
  simp

@[simp] theorem landBytes_fixed (s : State) (k : Nat) (u : XUnit) (off : Nat) (bs : List Byte) (ok : Bool) :
    (landBytes s k u off bs ok).fixed = s.fixed := by
  unfold landBytes
  first
    | (simp +contextual; done)
    | (repeat' split) <;> (try simp +contextual) <;>
      (repeat' first
        | (simp +contextual; done)
        | (simp only [Prod.ext_iff] at *; casesm* _ ∧ _; subst_vars; simp +contextual; done)
        | split
        | rw [foldl_fixed]
        | rw [foldl_fixed_fst]
        | (apply State.newer_fixed; assumption)
        | (apply State.callPart_fixed; assumption)
        | (apply State.callRow_fixed; assumption)
        | intro _)

@[simp] theorem execDmaReadCompletion_fixed (k off : Nat) (bytes : List Byte) (ok : Bool) (s : State) :
    Keeps s (execDmaReadCompletion k off bytes ok s) := by
  unfold execDmaReadCompletion
  (repeat' split) <;> simp

end Sys2Proof.Machine
end

