-- ==== Sys2Proof/Laws/FxArrays.lean ====
section
/-! SUPPORT. Laws/FxArrays.lean: the operations and meanings of Machine/Arrays.lean leave the queue and the fuses as they were. -/

set_option linter.unusedSimpArgs false
set_option linter.unusedTactic false
set_option linter.unreachableTactic false
set_option linter.unnecessarySeqFocus false

namespace Sys2Proof.Machine

@[simp] theorem State.sampleTile_fixed (s : State) (a : Nat) (t : Tile) :
    (State.sampleTile s a t).fixed = s.fixed := by
  unfold State.sampleTile
  first
    | (simp +contextual; done)
    | (repeat' split) <;> (try simp +contextual) <;>
      (repeat' first
        | (simp +contextual; done)
        | (simp only [Prod.ext_iff] at *; casesm* _ ∧ _; subst_vars; simp +contextual; done)
        | split
        | rw [foldl_fixed]
        | rw [foldl_fixed_fst]
        | (apply State.newer_fixed; assumption)
        | (apply State.callPart_fixed; assumption)
        | (apply State.callRow_fixed; assumption)
        | intro _)

@[simp] theorem State.abandon_fixed (s : State) (a : Nat) :
    (State.abandon s a).fixed = s.fixed := by
  unfold State.abandon
  (repeat' split) <;> simp

@[simp] theorem State.veCheck_fixed (s : State) (a chain : Nat) :
    (State.veCheck s a chain).fixed = s.fixed := by
  unfold State.veCheck
  simp

@[simp] theorem State.veStop_fixed (s : State) (a chain st : Nat) :
    (State.veStop s a chain st).fixed = s.fixed := by
  unfold State.veStop
  simp

@[simp] theorem acceptTile_fixed (s : State) (a : Nat) (t : Tile) (rest : List Tile) :
    (acceptTile s a t rest).fixed = s.fixed := by
  unfold acceptTile
  simp

@[simp] theorem execTileAccept_fixed (a : Fin 64) (s : State) :
    Keeps s (execTileAccept a s) := by
  unfold execTileAccept
  first
    | (simp +contextual; done)
    | (repeat' split) <;> (try simp +contextual) <;>
      (repeat' first
        | (simp +contextual; done)
        | (simp only [Prod.ext_iff] at *; casesm* _ ∧ _; subst_vars; simp +contextual; done)
        | split
        | rw [foldl_fixed]
        | rw [foldl_fixed_fst]
        | (apply State.newer_fixed; assumption)
        | (apply State.callPart_fixed; assumption)
        | (apply State.callRow_fixed; assumption)
        | intro _)

@[simp] theorem State.stalled_fixed (s : State) (a : Nat) (rs : List Reg) :
    (State.stalled s a rs).fixed = s.fixed := by
  unfold State.stalled
  first
    | (simp +contextual; done)
    | (repeat' split) <;> (try simp +contextual) <;>
      (repeat' first
        | (simp +contextual; done)
        | (simp only [Prod.ext_iff] at *; casesm* _ ∧ _; subst_vars; simp +contextual; done)
        | split
        | rw [foldl_fixed]
        | rw [foldl_fixed_fst]
        | (apply State.newer_fixed; assumption)
        | (apply State.callPart_fixed; assumption)
        | (apply State.callRow_fixed; assumption)
        | intro _)

@[simp] theorem State.addSig_fixed (s : State) (q : QTile) (v : DWord) :
    (State.addSig s q v).fixed = s.fixed := by
  unfold State.addSig
  simp

@[simp] theorem finishTile_fixed (s : State) (a : Nat) (t : Tile) : (finishTile s a t).fixed = s.fixed := by
  have h (f : Arr → Arr) (q : QTile) (v : DWord) :
      ((((s.setArr a f).drew 32768).stalled a tileStalls).addSig q v).fixed = s.fixed := by
    rw [State.addSig_fixed, State.stalled_fixed, State.drew_fixed, State.setArr_fixed]
  have w (u : State) (o : Io) : ({ u with io := o } : State).fixed = u.fixed := rfl
  delta finishTile
  exact (w _ _).trans (h ..)

@[simp] theorem stopTile_fixed (s : State) (a : Nat) (t : Tile) (w : TileStop) :
    (stopTile s a t w).fixed = s.fixed := by
  unfold stopTile
  (repeat' split) <;> simp

@[simp] theorem execTileFinish_fixed (a : Fin 64) (s : State) :
    Keeps s (execTileFinish a s) := by
  unfold execTileFinish
  first
    | (simp +contextual; done)
    | (repeat' split) <;> (try simp +contextual) <;>
      (repeat' first
        | (simp +contextual; done)
        | (simp only [Prod.ext_iff] at *; casesm* _ ∧ _; subst_vars; simp +contextual; done)
        | split
        | rw [foldl_fixed]
        | rw [foldl_fixed_fst]
        | (apply State.newer_fixed; assumption)
        | (apply State.callPart_fixed; assumption)
        | (apply State.callRow_fixed; assumption)
        | intro _)

@[simp] theorem deliverLine_fixed (s : State) (k : Nat) (f : Fetch) (line : Nat) : (deliverLine s k f line).fixed = s.fixed := by
  unfold deliverLine
  extract_lets lo n ls bs ok s1 s2 g
  have h1 : s1.fixed = s.fixed := by
    simp only [s1]
    split
    · split
      · rfl
      · exact State.logBlk_fixed ..
    · rfl
  have h : s2.fixed = s.fixed := (State.storePut_fixed ..).trans h1
  exact fixed_if ((State.unitStatus_fixed ..).trans h) h

@[simp] theorem State.deliver_fixed (s : State) (line : Nat) :
    (State.deliver s line).fixed = s.fixed := by
  unfold State.deliver
  simp

@[simp] theorem State.startFills_fixed (s : State) :
    (State.startFills s).fixed = s.fixed := by
  unfold State.startFills
  simp

@[simp] theorem State.beginFetch_fixed (s : State) (f : Fetch) (first : Bool) :
    (State.beginFetch s f first).fixed = s.fixed := by
  unfold State.beginFetch
  first
    | (simp +contextual; done)
    | (repeat' split) <;> (try simp +contextual) <;>
      (repeat' first
        | (simp +contextual; done)
        | (simp only [Prod.ext_iff] at *; casesm* _ ∧ _; subst_vars; simp +contextual; done)
        | split
        | rw [foldl_fixed]
        | rw [foldl_fixed_fst]
        | (apply State.newer_fixed; assumption)
        | (apply State.callPart_fixed; assumption)
        | (apply State.callRow_fixed; assumption)
        | intro _)

@[simp] theorem execAtticFillDone_fixed (line : Nat) (s : State) :
    Keeps s (execAtticFillDone line s) := by
  unfold execAtticFillDone
  first
    | (simp +contextual; done)
    | (repeat' split) <;> (try simp +contextual) <;>
      (repeat' first
        | (simp +contextual; done)
        | (simp only [Prod.ext_iff] at *; casesm* _ ∧ _; subst_vars; simp +contextual; done)
        | split
        | rw [foldl_fixed]
        | rw [foldl_fixed_fst]
        | (apply State.newer_fixed; assumption)
        | (apply State.callPart_fixed; assumption)
        | (apply State.callRow_fixed; assumption)
        | intro _)

@[simp] theorem beginChain_fixed (s : State) (a : Nat) (q : QTile) :
    (beginChain s a q).fixed = s.fixed := by
  unfold beginChain
  simp

@[simp] theorem startTile_fixed (s : State) (a : Nat) (q : QTile) (rest : List QTile) :
    (startTile s a q rest).fixed = s.fixed := by
  unfold startTile
  (repeat' split) <;> simp

@[simp] theorem execChainStart_fixed (a : Fin 64) (s : State) :
    Keeps s (execChainStart a s) := by
  unfold execChainStart
  first
    | (simp +contextual; done)
    | (repeat' split) <;> (try simp +contextual) <;>
      (repeat' first
        | (simp +contextual; done)
        | (simp only [Prod.ext_iff] at *; casesm* _ ∧ _; subst_vars; simp +contextual; done)
        | split
        | rw [foldl_fixed]
        | rw [foldl_fixed_fst]
        | (apply State.newer_fixed; assumption)
        | (apply State.callPart_fixed; assumption)
        | (apply State.callRow_fixed; assumption)
        | intro _)

@[simp] theorem digestRows_fixed (s : State) (id : Nat) (e : List Byte) (c : List Byte) (arg fmt m n : Nat) :
    (digestRows s id e c arg fmt m n).fixed = s.fixed := by
  unfold digestRows
  first
    | (simp +contextual; done)
    | (repeat' split) <;> (try simp +contextual) <;>
      (repeat' first
        | (simp +contextual; done)
        | (simp only [Prod.ext_iff] at *; casesm* _ ∧ _; subst_vars; simp +contextual; done)
        | split
        | rw [foldl_fixed]
        | rw [foldl_fixed_fst]
        | (apply State.newer_fixed; assumption)
        | (apply State.callPart_fixed; assumption)
        | (apply State.callRow_fixed; assumption)
        | intro _)

@[simp] theorem runStages_fixed (s : State) (a : Nat) (q : QTile) (c : List Byte) :
    (runStages s a q c).1.fixed = s.fixed := by
  unfold runStages
  first
    | (simp +contextual; done)
    | (repeat' split) <;> (try simp +contextual) <;>
      (repeat' first
        | (simp +contextual; done)
        | (simp only [Prod.ext_iff] at *; casesm* _ ∧ _; subst_vars; simp +contextual; done)
        | split
        | rw [foldl_fixed]
        | rw [foldl_fixed_fst]
        | (apply State.newer_fixed; assumption)
        | (apply State.callPart_fixed; assumption)
        | (apply State.callRow_fixed; assumption)
        | intro _)

@[simp] theorem writeQs_fixed (s : State) (a : Nat) (c : List Byte) (arg : Nat) (r : Run) : (writeQs s a c arg r).1.fixed = s.fixed := by
  unfold writeQs
  apply writeAll_fixed
  intro s x
  split
  · exact fixed_if_fst (storeMerge_fixed ..) rfl
  · rfl

@[simp] theorem chainRows_fixed (s : State) (a : Nat) (q : QTile) (c : List Byte) (r : Run) : (chainRows s a q c r).1.fixed = s.fixed := by
  unfold chainRows
  split
  · rename_i g _
    have h := writeRows_fixed s c (q.chain / 256 % 256) (s.io.val .UP_STEP) q.tag g r.x
    generalize writeRows s c (q.chain / 256 % 256) (s.io.val .UP_STEP) q.tag g r.x = w at h
    obtain ⟨t, _ | st⟩ := w
    · dsimp only
      (repeat' split) <;> simp_all
    · exact h
  · rfl

@[simp] theorem chainWrites_fixed (s : State) (a : Nat) (q : QTile) (c : List Byte) (r : Run) :
    (chainWrites s a q c r).1.fixed = s.fixed := by
  unfold chainWrites
  have h := chainRows_fixed s a q c r
  generalize chainRows s a q c r = w at h
  obtain ⟨t, _ | st⟩ := w
  · have k := writeQs_fixed t a c (q.chain / 256 % 256) r
    dsimp only
    generalize writeQs t a c (q.chain / 256 % 256) r = w at k
    obtain ⟨u, _ | st⟩ := w
    · dsimp only
      split
      · exact fixed_if_fst ((storeMerge_fixed ..).trans (k.trans h)) (k.trans h)
      · exact k.trans h
    · exact k.trans h
  · exact h

@[simp] theorem State.signChain_fixed (s : State) (q : QTile) (c : List Byte) :
    (State.signChain s q c).fixed = s.fixed := by
  unfold State.signChain
  (repeat' split) <;> simp

@[simp] theorem chainEnded_fixed (s : State) (a : Nat) (q : QTile) (st : Nat) :
    (chainEnded s a q st).fixed = s.fixed := by
  unfold chainEnded
  simp

@[simp] theorem completeChain_fixed (s : State) (a : Nat) (q : QTile) :
    (completeChain s a q).fixed = s.fixed := by
  unfold completeChain
  first
    | (simp +contextual; done)
    | (repeat' split) <;> (try simp +contextual) <;>
      (repeat' first
        | (simp +contextual; done)
        | (simp only [Prod.ext_iff] at *; casesm* _ ∧ _; subst_vars; simp +contextual; done)
        | split
        | rw [foldl_fixed]
        | rw [foldl_fixed_fst]
        | (apply State.newer_fixed; assumption)
        | (apply State.callPart_fixed; assumption)
        | (apply State.callRow_fixed; assumption)
        | intro _)

@[simp] theorem State.cutChain_fixed (s : State) (a : Nat) :
    (State.cutChain s a).fixed = s.fixed := by
  unfold State.cutChain
  first
    | (simp +contextual; done)
    | (repeat' split) <;> (try simp +contextual) <;>
      (repeat' first
        | (simp +contextual; done)
        | (simp only [Prod.ext_iff] at *; casesm* _ ∧ _; subst_vars; simp +contextual; done)
        | split
        | rw [foldl_fixed]
        | rw [foldl_fixed_fst]
        | (apply State.newer_fixed; assumption)
        | (apply State.callPart_fixed; assumption)
        | (apply State.callRow_fixed; assumption)
        | intro _)

@[simp] theorem execChainComplete_fixed (a : Fin 64) (s : State) :
    Keeps s (execChainComplete a s) := by
  unfold execChainComplete
  (repeat' split) <;> simp

@[simp] theorem execCmdChainLoad_fixed (id : Nat) (s : State) :
    Keeps s (execCmdChainLoad id s) := by
  unfold execCmdChainLoad
  (repeat' split) <;> simp

@[simp] theorem execChainLoadApply_fixed (a : Fin 64) (s : State) :
    Keeps s (execChainLoadApply a s) := by
  unfold execChainLoadApply
  first
    | (simp +contextual; done)
    | (repeat' split) <;> (try simp +contextual) <;>
      (repeat' first
        | (simp +contextual; done)
        | (simp only [Prod.ext_iff] at *; casesm* _ ∧ _; subst_vars; simp +contextual; done)
        | split
        | rw [foldl_fixed]
        | rw [foldl_fixed_fst]
        | (apply State.newer_fixed; assumption)
        | (apply State.callPart_fixed; assumption)
        | (apply State.callRow_fixed; assumption)
        | intro _)

@[simp] theorem takeDesc_fixed (s : State) (a : Nat) (d : EDesc) (rest : List EDesc) (st : Option Nat) :
    (takeDesc s a d rest st).fixed = s.fixed := by
  unfold takeDesc
  simp

@[simp] theorem endDesc_fixed (s : State) (a : Nat) (d : EDesc) (rest : List EDesc) (st : Nat) :
    (endDesc s a d rest st).fixed = s.fixed := by
  unfold endDesc
  simp

@[simp] theorem runDesc_fixed (s : State) (a : Nat) (d : EDesc) (rest : List EDesc) :
    (runDesc s a d rest).fixed = s.fixed := by
  unfold runDesc
  first
    | (simp +contextual; done)
    | (repeat' split) <;> (try simp +contextual) <;>
      (repeat' first
        | (simp +contextual; done)
        | (simp only [Prod.ext_iff] at *; casesm* _ ∧ _; subst_vars; simp +contextual; done)
        | split
        | rw [foldl_fixed]
        | rw [foldl_fixed_fst]
        | (apply State.newer_fixed; assumption)
        | (apply State.callPart_fixed; assumption)
        | (apply State.callRow_fixed; assumption)
        | intro _)

@[simp] theorem execEngineRun_fixed (a : Fin 64) (s : State) :
    Keeps s (execEngineRun a s) := by
  unfold execEngineRun
  (repeat' split) <;> simp

@[simp] theorem copyRow_fixed (src dst : Place) (s : State) (from' to' row : Nat) :
    (copyRow src dst s from' to' row).1.fixed = s.fixed := by
  unfold copyRow
  (repeat' split) <;> simp

@[simp] theorem gatherDone_fixed (s : State) (a : Nat) (d : EDesc) (rest : List EDesc) (n k : Nat) (es : List (Nat × Word)) :
    (gatherDone s a d rest n k es).fixed = s.fixed := by
  unfold gatherDone
  extract_lets b
  have h : (if u32 b 0x34 = 0xFFFFFFFF then (s, none) else storeMerge s a (u32 b 0x34) (bytesOf k 4) : State × Option Nat).1.fixed
      = s.fixed := fixed_if_fst rfl (storeMerge_fixed ..)
  generalize (if u32 b 0x34 = 0xFFFFFFFF then (s, none) else storeMerge s a (u32 b 0x34) (bytesOf k 4) : State × Option Nat) = w at h
  obtain ⟨t, _ | st⟩ := w
  · dsimp only
    have h2 : (if bit (u8 b 3) 0 then storeMerge t a (u32 b 0x38) (wordsBytes (es.map (·.2))) else (t, none) :
        State × Option Nat).1.fixed = t.fixed := fixed_if_fst (storeMerge_fixed ..) rfl
    generalize (if bit (u8 b 3) 0 then storeMerge t a (u32 b 0x38) (wordsBytes (es.map (·.2))) else (t, none) :
        State × Option Nat) = w at h2
    obtain ⟨u, _ | st⟩ := w
    · exact (endDesc_fixed ..).trans (fixed_if (h2.trans h) (h2.trans h))
    · exact (endDesc_fixed ..).trans (h2.trans h)
  · exact (endDesc_fixed ..).trans h

@[simp] theorem gatherDesc_fixed (s : State) (a : Nat) (d : EDesc) (rest : List EDesc) : (gatherDesc s a d rest).fixed = s.fixed := by
  unfold gatherDesc
  extract_lets b n k es rows src dst
  refine fixed_if (endDesc_fixed ..) (fixed_if (endDesc_fixed ..) ?_)
  refine fixed_if (endDesc_fixed ..) ?_
  have h := writeAll_fixed (fun s r => copyRow src dst s (u64 b 0x10 + r.1 * u32 b 0x18) (u64 b 0x20 + r.2 * u32 b 0x28)
          (u32 b 0x2C)) (fun s x => copyRow_fixed ..) s rows.zipIdx
  generalize writeAll (fun s r => copyRow src dst s (u64 b 0x10 + r.1 * u32 b 0x18) (u64 b 0x20 + r.2 * u32 b 0x28)
          (u32 b 0x2C)) s rows.zipIdx = w at h
  obtain ⟨t, _ | st⟩ := w
  · exact (gatherDone_fixed ..).trans h
  · exact (endDesc_fixed ..).trans h

@[simp] theorem execEngineGather_fixed (a : Fin 64) (s : State) :
    Keeps s (execEngineGather a s) := by
  unfold execEngineGather
  (repeat' split) <;> simp

@[simp] theorem mergeDesc_fixed (s : State) (a : Nat) (d : EDesc) (rest : List EDesc) : (mergeDesc s a d rest).fixed = s.fixed := by
  unfold mergeDesc
  extract_lets b srcs tab es
  refine fixed_if (endDesc_fixed ..) (fixed_if (endDesc_fixed ..) ?_)
  refine fixed_if (endDesc_fixed ..) ?_
  generalize topkUnion s es = u
  obtain st | xs := u
  · exact endDesc_fixed ..
  · dsimp only
    generalize List.foldl _ _ xs = k
    have h := storeMerge_fixed s a (u32 b 8) k.output
    generalize storeMerge s a (u32 b 8) k.output = w at h
    obtain ⟨t, _ | st⟩ := w <;> exact (endDesc_fixed ..).trans h

@[simp] theorem execEngineMerge_fixed (a : Fin 64) (s : State) :
    Keeps s (execEngineMerge a s) := by
  unfold execEngineMerge
  (repeat' split) <;> simp

@[simp] theorem scatterDesc_fixed (s : State) (a : Nat) (d : EDesc) (rest : List EDesc) : (scatterDesc s a d rest).fixed = s.fixed := by
  unfold scatterDesc
  extract_lets b srcs tab treg
  refine fixed_if (endDesc_fixed ..) (fixed_if (endDesc_fixed ..) ?_)
  extract_lets
  refine fixed_if (endDesc_fixed ..) ?_
  exact (endDesc_fixed ..).trans (fixed_if rfl (State.setArr_fixed ..))

@[simp] theorem execEngineScatter_fixed (a : Fin 64) (s : State) :
    Keeps s (execEngineScatter a s) := by
  unfold execEngineScatter
  (repeat' split) <;> simp

@[simp] theorem execEngineDescriptorDone_fixed (a : Fin 64) (s : State) :
    Keeps s (execEngineDescriptorDone a s) := by
  unfold execEngineDescriptorDone
  (repeat' split) <;> simp

end Sys2Proof.Machine
end

