-- ==== Sys2Proof/Laws/FxBatches.lean ====
section
/-! SUPPORT. Laws/FxBatches.lean: the operations and meanings of Machine/Batches.lean leave the queue and the fuses as they were. -/

set_option linter.unusedSimpArgs false
set_option linter.unusedTactic false
set_option linter.unreachableTactic false
set_option linter.unnecessarySeqFocus false

namespace Sys2Proof.Machine

@[simp] theorem State.leaveBatch_fixed (s : State) (b : Nat) (r : BatchReq) :
    (State.leaveBatch s b r).fixed = s.fixed := by
  unfold State.leaveBatch
  (repeat' split) <;> simp

@[simp] theorem State.joinBatch_fixed (s : State) (b : Nat) (e : List Byte) (r : BatchReq) :
    (State.joinBatch s b e r).fixed = s.fixed := by
  unfold State.joinBatch
  first
    | (simp +contextual; done)
    | (repeat' split) <;> (try simp +contextual) <;>
      (repeat' first
        | (simp +contextual; done)
        | (simp only [Prod.ext_iff] at *; casesm* _ ∧ _; subst_vars; simp +contextual; done)
        | split
        | rw [foldl_fixed]
        | rw [foldl_fixed_fst]
        | (apply State.newer_fixed; assumption)
        | (apply State.callPart_fixed; assumption)
        | (apply State.callRow_fixed; assumption)
        | intro _)

@[simp] theorem State.boundary_fixed (s : State) (b : Nat) (e : List Byte) :
    (State.boundary s b e).fixed = s.fixed := by
  unfold State.boundary
  simp

@[simp] theorem execBatchBoundary_fixed (b : Fin 64) (s : State) :
    Keeps s (execBatchBoundary b s) := by
  unfold execBatchBoundary
  (repeat' split) <;> simp

@[simp] theorem State.askBatch_fixed (s : State) (id : Nat) (c : Cmd) (join : Bool) :
    (State.askBatch s id c join).fixed = s.fixed := by
  unfold State.askBatch
  first
    | (simp +contextual; done)
    | (repeat' split) <;> (try simp +contextual) <;>
      (repeat' first
        | (simp +contextual; done)
        | (simp only [Prod.ext_iff] at *; casesm* _ ∧ _; subst_vars; simp +contextual; done)
        | split
        | rw [foldl_fixed]
        | rw [foldl_fixed_fst]
        | (apply State.newer_fixed; assumption)
        | (apply State.callPart_fixed; assumption)
        | (apply State.callRow_fixed; assumption)
        | intro _)

@[simp] theorem execCmdJoin_fixed (id : Nat) (s : State) :
    Keeps s (execCmdJoin id s) := by
  unfold execCmdJoin
  (repeat' split) <;> simp

@[simp] theorem execCmdLeave_fixed (id : Nat) (s : State) :
    Keeps s (execCmdLeave id s) := by
  unfold execCmdLeave
  (repeat' split) <;> simp

@[simp] theorem State.emptyBatch_fixed (s : State) (b st : Nat) :
    (State.emptyBatch s b st).fixed = s.fixed := by
  unfold State.emptyBatch
  simp

end Sys2Proof.Machine
end

