-- ==== Sys2Proof/Laws/FxColls.lean ====
section
/-! SUPPORT. Laws/FxColls.lean: the operations and meanings of Machine/Colls.lean leave the queue and the fuses as they were. -/

set_option linter.unusedSimpArgs false
set_option linter.unusedTactic false
set_option linter.unreachableTactic false
set_option linter.unnecessarySeqFocus false

namespace Sys2Proof.Machine

@[simp] theorem State.connCmd_fixed (s : State) (cmd : Option Nat) (st res : Nat) :
    (State.connCmd s cmd st res).fixed = s.fixed := by
  unfold State.connCmd
  (repeat' split) <;> simp

@[simp] theorem State.setColl_fixed (s : State) (g n : Nat) (f : Coll → Coll) :
    (State.setColl s g n f).fixed = s.fixed := by
  unfold State.setColl
  simp

@[simp] theorem State.collOver_fixed (s : State) (c : Coll) (st res : Nat) :
    (State.collOver s c st res).fixed = s.fixed := by
  unfold State.collOver
  simp

@[simp] theorem State.collMsg_fixed (s : State) (c : Coll) (ref : Nat) (head data : List Byte) (src : Option Nat) :
    (State.collMsg s c ref head data src).fixed = s.fixed := by
  unfold State.collMsg
  (repeat' split) <;> simp

@[simp] theorem State.gradDamaged_fixed (s : State) (c : Coll) :
    (State.gradDamaged s c).fixed = s.fixed := by
  unfold State.gradDamaged
  simp

@[simp] theorem State.collFail_fixed (s : State) (c : Coll) (st : Nat) :
    (State.collFail s c st).fixed = s.fixed := by
  unfold State.collFail
  simp

@[simp] theorem State.collBreak_fixed (s : State) (ref cls : Nat) :
    (State.collBreak s ref cls).fixed = s.fixed := by
  unfold State.collBreak
  simp

@[simp] theorem State.collWrite_fixed (s : State) (c : Coll) (off : Nat) (bs : List Byte) :
    (State.collWrite s c off bs).fixed = s.fixed := by
  unfold State.collWrite
  simp

@[simp] theorem State.sendChunk_fixed (s : State) (c : Coll) (ref : Nat) (result bit : Bool) (bs : List Byte) (src : Option Nat) :
    (State.sendChunk s c ref result bit bs src).fixed = s.fixed := by
  unfold State.sendChunk
  simp

@[simp] theorem State.collEnd_fixed (s : State) (c : Coll) :
    (State.collEnd s c).fixed = s.fixed := by
  unfold State.collEnd
  simp

@[simp] theorem State.collJoin_fixed (s : State) (c : Coll) (gr n : Nat) :
    (State.collJoin s c gr n).fixed = s.fixed := by
  unfold State.collJoin
  simp

@[simp] theorem State.collReduce_fixed (s : State) (c : Coll) (gr n : Nat) :
    (State.collReduce s c gr n).fixed = s.fixed := by
  unfold State.collReduce
  simp

@[simp] theorem State.collEndIf_fixed (s : State) (gr n : Nat) (p : State → Coll → Bool) :
    (State.collEndIf s gr n p).fixed = s.fixed := by
  unfold State.collEndIf
  (repeat' split) <;> simp

@[simp] theorem State.collStep_fixed (s : State) (gr n : Nat) :
    (State.collStep s gr n).fixed = s.fixed := by
  unfold State.collStep
  (repeat' split) <;> simp

@[simp] theorem State.collSends_fixed (s : State) (c : Coll) (gr : Nat) (u : State) :
    (State.collSends s c gr u).fixed = u.fixed := by
  unfold State.collSends
  simp

@[simp] theorem State.collBegin_fixed (s : State) (c : Coll) (gr n : Nat) :
    (State.collBegin s c gr n).fixed = s.fixed := by
  unfold State.collBegin
  simp

@[simp] theorem State.collStart_fixed (s : State) (gr n : Nat) :
    (State.collStart s gr n).fixed = s.fixed := by
  unfold State.collStart
  (repeat' split) <;> simp

@[simp] theorem collPump_fixed (s : State) (gr n : Nat) : (collPump s gr n).fixed = s.fixed := by
  induction n generalizing s with
  | zero => rfl
  | succ n ih =>
    unfold collPump
    first
      | (simp +contextual [ih]; done)
      | (repeat' split) <;> (try simp +contextual [ih]) <;>
        (repeat' first
          | (simp +contextual [ih]; done)
          | (simp only [Prod.ext_iff] at *; casesm* _ ∧ _; subst_vars; simp +contextual [ih]; done)
          | split
          | rw [foldl_fixed]
          | rw [foldl_fixed_fst]
          | intro _)

@[simp] theorem State.pumpAll_fixed (s : State) :
    (State.pumpAll s).fixed = s.fixed := by
  unfold State.pumpAll
  simp

@[simp] theorem State.collIssue_fixed (s : State) (c : Coll) :
    (State.collIssue s c).fixed = s.fixed := by
  unfold State.collIssue
  simp

@[simp] theorem execCmdGroup_fixed (id : Nat) (s : State) :
    Keeps s (execCmdGroup id s) := by
  unfold execCmdGroup
  (repeat' split) <;> simp

@[simp] theorem execCmdCollective_fixed (id : Nat) (s : State) :
    Keeps s (execCmdCollective id s) := by
  unfold execCmdCollective
  (repeat' split) <;> simp

@[simp] theorem execRxColl_fixed (p : Fin 64) (m : Msg) (s : State) :
    Keeps s (execRxColl p m s) := by
  unfold execRxColl
  split
  · simp
  split
  · simp
  · simp
  dsimp only
  split
  · split <;> simp
  (repeat' split) <;> simp +contextual

end Sys2Proof.Machine
end

