-- ==== Sys2Proof/Laws/FxTraffic.lean ====
section
/-! SUPPORT. Laws/FxTraffic.lean: the operations and meanings of Machine/Traffic.lean leave the queue and the fuses as they were. -/

set_option linter.unusedSimpArgs false
set_option linter.unusedTactic false
set_option linter.unreachableTactic false
set_option linter.unnecessarySeqFocus false

namespace Sys2Proof.Machine

@[simp] theorem State.windowWrite_fixed (s : State) (w off : Nat) (bs : List Byte) :
    (State.windowWrite s w off bs).fixed = s.fixed := by
  unfold State.windowWrite
  (repeat' split) <;> simp

@[simp] theorem State.windowRefused_fixed (s : State) :
    (State.windowRefused s).fixed = s.fixed := by
  unfold State.windowRefused
  simp

@[simp] theorem execCmdConnect_fixed (id : Nat) (s : State) :
    Keeps s (execCmdConnect id s) := by
  unfold execCmdConnect
  first
    | (simp +contextual; done)
    | (repeat' split) <;> (try simp +contextual) <;>
      (repeat' first
        | (simp +contextual; done)
        | (simp only [Prod.ext_iff] at *; casesm* _ ∧ _; subst_vars; simp +contextual; done)
        | split
        | rw [foldl_fixed]
        | rw [foldl_fixed_fst]
        | (apply State.newer_fixed; assumption)
        | (apply State.callPart_fixed; assumption)
        | (apply State.callRow_fixed; assumption)
        | intro _)

@[simp] theorem State.accept_fixed (s : State) (ref path partner epoch own st : Nat) :
    (State.accept s ref path partner epoch own st).fixed = s.fixed := by
  unfold State.accept
  simp

@[simp] theorem State.pullLost_fixed (s : State) (id : Nat) :
    (State.pullLost s id).fixed = s.fixed := by
  unfold State.pullLost
  (repeat' split) <;> simp

@[simp] theorem State.outDone_fixed (s : State) (o : Outgoing) (st : Nat) :
    (State.outDone s o st).fixed = s.fixed := by
  unfold State.outDone
  simp

@[simp] theorem State.settleClose_fixed (s : State) (k : Nat) :
    (State.settleClose s k).fixed = s.fixed := by
  unfold State.settleClose
  (repeat' split) <;> simp

@[simp] theorem State.failConn_fixed (s : State) (k : Nat) (c : Conn) :
    (State.failConn s k c).fixed = s.fixed := by
  unfold State.failConn
  simp

@[simp] theorem execRxOpen_fixed (p : Fin 64) (m : Msg) (s : State) :
    Keeps s (execRxOpen p m s) := by
  unfold execRxOpen
  first
    | (simp +contextual; done)
    | (repeat' split) <;> (try simp +contextual) <;>
      (repeat' first
        | (simp +contextual; done)
        | (simp only [Prod.ext_iff] at *; casesm* _ ∧ _; subst_vars; simp +contextual; done)
        | split
        | rw [foldl_fixed]
        | rw [foldl_fixed_fst]
        | (apply State.newer_fixed; assumption)
        | (apply State.callPart_fixed; assumption)
        | (apply State.callRow_fixed; assumption)
        | intro _)

@[simp] theorem execRxAccept_fixed (p : Fin 64) (m : Msg) (s : State) :
    Keeps s (execRxAccept p m s) := by
  unfold execRxAccept
  (repeat' split) <;> simp

@[simp] theorem execConnectTimeout_fixed (k : Fin 4096) (s : State) :
    Keeps s (execConnectTimeout k s) := by
  unfold execConnectTimeout
  (repeat' split) <;> simp

@[simp] theorem execRxAck_fixed (p : Fin 64) (m : Msg) (s : State) :
    Keeps s (execRxAck p m s) := by
  unfold execRxAck
  (repeat' split) <;> simp

@[simp] theorem execRetransmit_fixed (k : Fin 4096) (s : State) :
    Keeps s (execRetransmit k s) := by
  unfold execRetransmit
  (repeat' split) <;> simp

@[simp] theorem execConnBreak_fixed (k : Fin 4096) (s : State) :
    Keeps s (execConnBreak k s) := by
  unfold execConnBreak
  (repeat' split) <;> simp

@[simp] theorem execCmdClose_fixed (id : Nat) (s : State) :
    Keeps s (execCmdClose id s) := by
  unfold execCmdClose
  first
    | (simp +contextual; done)
    | (repeat' split) <;> (try simp +contextual) <;>
      (repeat' first
        | (simp +contextual; done)
        | (simp only [Prod.ext_iff] at *; casesm* _ ∧ _; subst_vars; simp +contextual; done)
        | split
        | rw [foldl_fixed]
        | rw [foldl_fixed_fst]
        | (apply State.newer_fixed; assumption)
        | (apply State.callPart_fixed; assumption)
        | (apply State.callRow_fixed; assumption)
        | intro _)

@[simp] theorem execRxClose_fixed (p : Fin 64) (m : Msg) (s : State) :
    Keeps s (execRxClose p m s) := by
  unfold execRxClose
  (repeat' split) <;> simp

@[simp] theorem execCmdSend_fixed (id : Nat) (s : State) :
    Keeps s (execCmdSend id s) := by
  unfold execCmdSend
  first
    | (simp +contextual; done)
    | (repeat' split) <;> (try simp +contextual) <;>
      (repeat' first
        | (simp +contextual; done)
        | (simp only [Prod.ext_iff] at *; casesm* _ ∧ _; subst_vars; simp +contextual; done)
        | split
        | rw [foldl_fixed]
        | rw [foldl_fixed_fst]
        | (apply State.newer_fixed; assumption)
        | (apply State.callPart_fixed; assumption)
        | (apply State.callRow_fixed; assumption)
        | intro _)

@[simp] theorem execRxWrite_fixed (p : Fin 64) (m : Msg) (s : State) :
    Keeps s (execRxWrite p m s) := by
  unfold execRxWrite
  (repeat' split) <;> simp

@[simp] theorem execCmdDatagram_fixed (id : Nat) (s : State) :
    Keeps s (execCmdDatagram id s) := by
  unfold execCmdDatagram
  (repeat' split) <;> simp

@[simp] theorem execRxDgram_fixed (p : Fin 64) (m : Msg) (s : State) :
    Keeps s (execRxDgram p m s) := by
  unfold execRxDgram
  simp

@[simp] theorem State.setTree_fixed (s : State) (id : Nat) (f : Tree → Tree) :
    (State.setTree s id f).fixed = s.fixed := by
  unfold State.setTree
  simp

@[simp] theorem State.setupMember_fixed (s : State) (id cls ref window notify : Nat) :
    (State.setupMember s id cls ref window notify).fixed = s.fixed := by
  unfold State.setupMember
  (repeat' split) <;> simp

@[simp] theorem State.settleTree_fixed (s : State) (id : Nat) :
    (State.settleTree s id).fixed = s.fixed := by
  unfold State.settleTree
  (repeat' split) <;> simp

@[simp] theorem execCmdTree_fixed (id : Nat) (s : State) :
    Keeps s (execCmdTree id s) := by
  unfold execCmdTree
  first
    | (simp +contextual; done)
    | (repeat' split) <;> (try simp +contextual) <;>
      (repeat' first
        | (simp +contextual; done)
        | (simp only [Prod.ext_iff] at *; casesm* _ ∧ _; subst_vars; simp +contextual; done)
        | split
        | rw [foldl_fixed]
        | rw [foldl_fixed_fst]
        | (apply State.newer_fixed; assumption)
        | (apply State.callPart_fixed; assumption)
        | (apply State.callRow_fixed; assumption)
        | intro _)

@[simp] theorem State.treeReached_fixed (s : State) (id src : Nat) :
    (State.treeReached s id src).fixed = s.fixed := by
  unfold State.treeReached
  simp

@[simp] theorem State.treeJoin_fixed (s : State) (dest : Fin 16384) (id op window notify cls src : Nat) :
    (State.treeJoin s dest id op window notify cls src).fixed = s.fixed := by
  unfold State.treeJoin
  (repeat' split) <;> simp

@[simp] theorem State.treeSetup_fixed (s : State) (p : Nat) (dest : Fin 16384) (id op window notify cls src : Nat) :
    (State.treeSetup s p dest id op window notify cls src).fixed = s.fixed := by
  unfold State.treeSetup
  simp

@[simp] theorem execRxTreeSetup_fixed (p : Fin 64) (dest : Fin 16384) (m : Msg) (s : State) :
    Keeps s (execRxTreeSetup p dest m s) := by
  unfold execRxTreeSetup
  simp

@[simp] theorem execTreeSetupTimeout_fixed (tr : Fin 4096) (s : State) :
    Keeps s (execTreeSetupTimeout tr s) := by
  unfold execTreeSetupTimeout
  (repeat' split) <;> simp

@[simp] theorem State.keepReplay_fixed (s : State) (id window arg : Nat) (b : List Byte) :
    (State.keepReplay s id window arg b).fixed = s.fixed := by
  unfold State.keepReplay
  (repeat' split) <;> simp

@[simp] theorem execCmdMcast_fixed (id : Nat) (s : State) :
    Keeps s (execCmdMcast id s) := by
  unfold execCmdMcast
  first
    | (simp +contextual; done)
    | (repeat' split) <;> (try simp +contextual) <;>
      (repeat' first
        | (simp +contextual; done)
        | (simp only [Prod.ext_iff] at *; casesm* _ ∧ _; subst_vars; simp +contextual; done)
        | split
        | rw [foldl_fixed]
        | rw [foldl_fixed_fst]
        | (apply State.newer_fixed; assumption)
        | (apply State.callPart_fixed; assumption)
        | (apply State.callRow_fixed; assumption)
        | intro _)

@[simp] theorem State.pull_fixed (s : State) (id : Nat) :
    (State.pull s id).fixed = s.fixed := by
  unfold State.pull
  (repeat' split) <;> simp

@[simp] theorem State.takeTree_fixed (s : State) (id : Nat) (t : Tree) (off : Nat) (b : List Byte) :
    (State.takeTree s id t off b).fixed = s.fixed := by
  unfold State.takeTree
  simp

@[simp] theorem execRxMcast_fixed (p : Fin 64) (m : Msg) (s : State) :
    Keeps s (execRxMcast p m s) := by
  unfold execRxMcast
  first
    | (simp +contextual; done)
    | (repeat' split) <;> (try simp +contextual) <;>
      (repeat' first
        | (simp +contextual; done)
        | (simp only [Prod.ext_iff] at *; casesm* _ ∧ _; subst_vars; simp +contextual; done)
        | split
        | rw [foldl_fixed]
        | rw [foldl_fixed_fst]
        | (apply State.newer_fixed; assumption)
        | (apply State.callPart_fixed; assumption)
        | (apply State.callRow_fixed; assumption)
        | intro _)

@[simp] theorem execRxPrune_fixed (p : Fin 64) (m : Msg) (s : State) :
    Keeps s (execRxPrune p m s) := by
  unfold execRxPrune
  first
    | (simp +contextual; done)
    | (repeat' split) <;> (try simp +contextual) <;>
      (repeat' first
        | (simp +contextual; done)
        | (simp only [Prod.ext_iff] at *; casesm* _ ∧ _; subst_vars; simp +contextual; done)
        | split
        | rw [foldl_fixed]
        | rw [foldl_fixed_fst]
        | (apply State.newer_fixed; assumption)
        | (apply State.callPart_fixed; assumption)
        | (apply State.callRow_fixed; assumption)
        | intro _)

@[simp] theorem execRxPull_fixed (p : Fin 64) (m : Msg) (s : State) :
    Keeps s (execRxPull p m s) := by
  unfold execRxPull
  first
    | (simp +contextual; done)
    | (repeat' split) <;> (try simp +contextual) <;>
      (repeat' first
        | (simp +contextual; done)
        | (simp only [Prod.ext_iff] at *; casesm* _ ∧ _; subst_vars; simp +contextual; done)
        | split
        | rw [foldl_fixed]
        | rw [foldl_fixed_fst]
        | (apply State.newer_fixed; assumption)
        | (apply State.callPart_fixed; assumption)
        | (apply State.callRow_fixed; assumption)
        | intro _)

@[simp] theorem execRxGraft_fixed (p : Fin 64) (m : Msg) (s : State) :
    Keeps s (execRxGraft p m s) := by
  unfold execRxGraft
  first
    | (simp +contextual; done)
    | (repeat' split) <;> (try simp +contextual) <;>
      (repeat' first
        | (simp +contextual; done)
        | (simp only [Prod.ext_iff] at *; casesm* _ ∧ _; subst_vars; simp +contextual; done)
        | split
        | rw [foldl_fixed]
        | rw [foldl_fixed_fst]
        | (apply State.newer_fixed; assumption)
        | (apply State.callPart_fixed; assumption)
        | (apply State.callRow_fixed; assumption)
        | intro _)

@[simp] theorem execBranchPrune_fixed (tr : Fin 4096) (p : Fin 64) (s : State) :
    Keeps s (execBranchPrune tr p s) := by
  unfold execBranchPrune
  (repeat' split) <;> simp

@[simp] theorem execBranchRebuild_fixed (tr : Fin 4096) (p : Fin 64) (s : State) :
    Keeps s (execBranchRebuild tr p s) := by
  unfold execBranchRebuild
  first
    | (simp +contextual; done)
    | (repeat' split) <;> (try simp +contextual) <;>
      (repeat' first
        | (simp +contextual; done)
        | (simp only [Prod.ext_iff] at *; casesm* _ ∧ _; subst_vars; simp +contextual; done)
        | split
        | rw [foldl_fixed]
        | rw [foldl_fixed_fst]
        | (apply State.newer_fixed; assumption)
        | (apply State.callPart_fixed; assumption)
        | (apply State.callRow_fixed; assumption)
        | intro _)

end Sys2Proof.Machine
end

