-- ==== Sys2Proof/Laws/FxStreams.lean ====
section
/-! SUPPORT. Laws/FxStreams.lean: the operations and meanings of Machine/Streams.lean leave the queue and the fuses as they were. -/

set_option linter.unusedSimpArgs false
set_option linter.unusedTactic false
set_option linter.unreachableTactic false
set_option linter.unnecessarySeqFocus false

namespace Sys2Proof.Machine

@[simp] theorem State.setStream_fixed (s : State) (ctx : Nat) (f : Stream → Stream) :
    (State.setStream s ctx f).fixed = s.fixed := by
  unfold State.setStream
  simp

@[simp] theorem State.settleStream_fixed (s : State) (ctx : Nat) :
    (State.settleStream s ctx).fixed = s.fixed := by
  unfold State.settleStream
  (repeat' split) <;> simp

@[simp] theorem State.stopStream_fixed (s : State) (ctx st : Nat) :
    (State.stopStream s ctx st).fixed = s.fixed := by
  unfold State.stopStream
  simp

@[simp] theorem State.streamEnter_fixed (s : State) (c : Cmd) (id ctx : Nat) (d : List Byte) :
    (State.streamEnter s c id ctx d).fixed = s.fixed := by
  unfold State.streamEnter
  (repeat' split) <;> simp

@[simp] theorem State.streamCheck_fixed (s : State) (c : Cmd) (id a ctx : Nat) (d : List Byte) :
    (State.streamCheck s c id a ctx d).fixed = s.fixed := by
  unfold State.streamCheck
  simp

@[simp] theorem State.streamTake_fixed (s : State) (c : Cmd) (id a ctx : Nat) :
    (State.streamTake s c id a ctx).fixed = s.fixed := by
  unfold State.streamTake
  simp

@[simp] theorem execCmdStream_fixed (id : Nat) (s : State) :
    Keeps s (execCmdStream id s) := by
  unfold execCmdStream
  (repeat' split) <;> simp

@[simp] theorem State.passFull_fixed (s : State) (ctx : Nat) (x : Stream) (e : List Byte) :
    (State.passFull s ctx x e).fixed = s.fixed := by
  unfold State.passFull
  simp

@[simp] theorem State.sent_fixed (s : State) (ctx kind target : Nat) (st : Option Nat) :
    (State.sent s ctx kind target st).fixed = s.fixed := by
  unfold State.sent
  simp

@[simp] theorem State.passUnit_fixed (s : State) (ctx : Nat) :
    (State.passUnit s ctx).fixed = s.fixed := by
  unfold State.passUnit
  simp

@[simp] theorem State.standby_fixed (s : State) (ctx a : Nat) :
    (State.standby s ctx a).fixed = s.fixed := by
  unfold State.standby
  (repeat' split) <;> simp

@[simp] theorem State.standbyAll_fixed (s : State) (a : Nat) :
    (State.standbyAll s a).fixed = s.fixed := by
  unfold State.standbyAll
  simp

theorem State.dispatchUnit_fixed (s : State) (ctx kind : Nat) (f : State → Stream → List Byte → Nat → Option State)
    (hf : ∀ s x e a, KeepsO s (f s x e a)) : Keeps s (State.dispatchUnit s ctx kind f) := by
  unfold State.dispatchUnit
  split
  · simp
  · simp
  · rename_i x e _
    dsimp only
    split
    · simp
    split
    · simp
    split
    · rename_i u hu
      rw [keeps_next, State.setCmd_fixed, hf _ _ _ _ _ hu, State.passFull_fixed]
    · simp

theorem sendEngine_fixed (ctx kind : Nat) (deliver : State → Stream → List Byte → Nat → List Byte → Nat → State)
    (hd : ∀ s x e a d m, (deliver s x e a d m).fixed = s.fixed) (s : State) (x : Stream) (e : List Byte) (a : Nat) :
    KeepsO s (sendEngine ctx kind deliver s x e a) := by
  unfold sendEngine
  refine keepsO_ite (keepsO_ite (by simp) (by simp)) (keepsO_ite (by simp) (keepsO_ite (by simp) (keepsO_ite (by simp)
    (keepsO_ite (by simp) ?_))))
  split
  · simp
  · exact keepsO_ite (by simp) (by simp [hd])

@[simp] theorem execUnitTile_fixed (ctx : Fin 262144) (s : State) : Keeps s (execUnitTile ctx s) := by
  unfold execUnitTile
  apply State.dispatchUnit_fixed
  intro s x e a
  apply sendEngine_fixed
  intro s x e a d m
  exact State.setArr_fixed ..

@[simp] theorem execUnitEngine_fixed (ctx : Fin 262144) (s : State) : Keeps s (execUnitEngine ctx s) := by
  unfold execUnitEngine
  apply State.dispatchUnit_fixed
  intro s x e a
  apply sendEngine_fixed
  intro s x e a d m
  exact State.setArr_fixed ..

@[simp] theorem execUnitFetch_fixed (ctx : Fin 262144) (s : State) : Keeps s (execUnitFetch ctx s) := by
  unfold execUnitFetch
  apply State.dispatchUnit_fixed
  intro s x e a
  dsimp only
  (repeat' split) <;> simp

theorem State.hostUnit_fixed (s : State) (ctx : Nat) (x : Stream) (e : List Byte) (a : Nat) (out : Bool) :
    KeepsO s (State.hostUnit s ctx x e a out) := by
  unfold State.hostUnit
  dsimp only
  (repeat' split) <;> simp

@[simp] theorem execUnitHostIn_fixed (ctx : Fin 262144) (s : State) : Keeps s (execUnitHostIn ctx s) := by
  unfold execUnitHostIn
  apply State.dispatchUnit_fixed
  intro s x e a
  exact State.hostUnit_fixed s ctx x e a false

@[simp] theorem execUnitHostOut_fixed (ctx : Fin 262144) (s : State) : Keeps s (execUnitHostOut ctx s) := by
  unfold execUnitHostOut
  apply State.dispatchUnit_fixed
  intro s x e a
  exact State.hostUnit_fixed s ctx x e a true

@[simp] theorem State.carryBlocks_fixed (s : State) (src : Nat) (store : Bool) (a dst n : Nat) :
    (State.carryBlocks s src store a dst n).1.fixed = s.fixed := by
  unfold State.carryBlocks
  (repeat' split) <;> simp

@[simp] theorem execUnitCopy_fixed (ctx : Fin 262144) (s : State) : Keeps s (execUnitCopy ctx s) := by
  unfold execUnitCopy
  apply State.dispatchUnit_fixed
  intro s x e a
  dsimp only
  (repeat' split) <;> simp

@[simp] theorem execUnitLookup_fixed (ctx : Fin 262144) (s : State) : Keeps s (execUnitLookup ctx s) := by
  unfold execUnitLookup
  apply State.dispatchUnit_fixed
  intro s x e a
  dsimp only
  (repeat' split) <;> simp

@[simp] theorem execUnitGradient_fixed (ctx : Fin 262144) (s : State) : Keeps s (execUnitGradient ctx s) := by
  unfold execUnitGradient
  apply State.dispatchUnit_fixed
  intro s x e a
  dsimp only
  (repeat' split) <;> simp

@[simp] theorem execUnitNop_fixed (ctx : Fin 262144) (s : State) : Keeps s (execUnitNop ctx s) := by
  unfold execUnitNop
  apply State.dispatchUnit_fixed
  intro s x e a
  simp

@[simp] theorem execUnitRetire_fixed (ctx : Fin 262144) (iter unit : Nat) (s : State) :
    Keeps s (execUnitRetire ctx iter unit s) := by
  unfold execUnitRetire
  (repeat' split) <;> simp

@[simp] theorem execPreemptRequest_fixed (a : Fin 64) (s : State) :
    Keeps s (execPreemptRequest a s) := by
  unfold execPreemptRequest
  (repeat' split) <;> simp

@[simp] theorem execQuantumExpiry_fixed (a : Fin 64) (s : State) :
    Keeps s (execQuantumExpiry a s) := by
  unfold execQuantumExpiry
  first
    | (simp +contextual; done)
    | (repeat' split) <;> (try simp +contextual) <;>
      (repeat' first
        | (simp +contextual; done)
        | (simp only [Prod.ext_iff] at *; casesm* _ ∧ _; subst_vars; simp +contextual; done)
        | split
        | rw [foldl_fixed]
        | rw [foldl_fixed_fst]
        | (apply State.newer_fixed; assumption)
        | (apply State.callPart_fixed; assumption)
        | (apply State.callRow_fixed; assumption)
        | intro _)

@[simp] theorem State.savePair_fixed (s : State) (a : Nat) (p : Pair) (x : Stream) (slot cmd group : Nat) :
    (State.savePair s a p x slot cmd group).fixed = s.fixed := by
  unfold State.savePair
  generalize saveBytes = n
  extract_lets s1 far taken free s2 reserved
  rw [State.fixed_mk, State.fixed_fold]
  have h2 : s2.fixed = s1.fixed := State.setStream_fixed ..
  have h1 : s1.fixed = s.fixed := (State.drew_fixed ..).trans (State.sheetWrite_fixed ..)
  rw [h2, h1]

@[simp] theorem State.noteSave_fixed (s : State) (longest : Nat) :
    (State.noteSave s longest).fixed = s.fixed := by
  unfold State.noteSave
  simp

@[simp] theorem State.waitAgain_fixed (s : State) (a ctx : Nat) :
    (State.waitAgain s a ctx).fixed = s.fixed := by
  unfold State.waitAgain
  simp

@[simp] theorem State.saveDone_fixed (s : State) (a : Nat) (p : Pair) (x y : Stream) (slot : Nat) :
    (State.saveDone s a p x y slot).fixed = s.fixed := by
  unfold State.saveDone
  simp

@[simp] theorem execPreemptSaveDone_fixed (a : Fin 64) (s : State) :
    Keeps s (execPreemptSaveDone a s) := by
  unfold execPreemptSaveDone
  (repeat' split) <;> simp

@[simp] theorem State.freeSave_fixed (s : State) (ctx a slot : Nat) :
    (State.freeSave s ctx a slot).fixed = s.fixed := by
  unfold State.freeSave
  simp

@[simp] theorem State.readLanding_fixed (s : State) (ctx : Nat) :
    (State.readLanding s ctx).fixed = s.fixed := by
  unfold State.readLanding
  (repeat' split) <;> simp

@[simp] theorem execPreemptResume_fixed (a : Fin 64) (s : State) : Keeps s (execPreemptResume a s) := by
  unfold execPreemptResume
  generalize saveBytes = n
  (repeat' split) <;> simp

end Sys2Proof.Machine
end

