-- ==== Sys2Proof/Laws/FxReliab.lean ====
section
/-! SUPPORT. Laws/FxReliab.lean: the operations and meanings of Machine/Reliab.lean leave the queue and the fuses as they were. -/

set_option linter.unusedSimpArgs false
set_option linter.unusedTactic false
set_option linter.unreachableTactic false
set_option linter.unnecessarySeqFocus false

namespace Sys2Proof.Machine

@[simp] theorem State.chargeUnit_fixed (s : State) (k : Nat) :
    (State.chargeUnit s k).1.fixed = s.fixed := by
  unfold State.chargeUnit
  simp

@[simp] theorem State.quarantined_fixed (s : State) (place : Nat) :
    (State.quarantined s place).fixed = s.fixed := by
  unfold State.quarantined
  simp

@[simp] theorem State.chargeRoom_fixed (s : State) (r : Nat) :
    (State.chargeRoom s r).fixed = s.fixed := by
  unfold State.chargeRoom
  first
    | (simp +contextual; done)
    | (repeat' split) <;> (try simp +contextual) <;>
      (repeat' first
        | (simp +contextual; done)
        | (simp only [Prod.ext_iff] at *; casesm* _ ∧ _; subst_vars; simp +contextual; done)
        | split
        | rw [foldl_fixed]
        | rw [foldl_fixed_fst]
        | (apply State.newer_fixed; assumption)
        | (apply State.callPart_fixed; assumption)
        | (apply State.callRow_fixed; assumption)
        | (apply State.takeColl_fixed; assumption)
        | intro _)

@[simp] theorem State.quarantineArray_fixed (s : State) (a f : Nat) :
    (State.quarantineArray s a f).fixed = s.fixed := by
  unfold State.quarantineArray
  simp

@[simp] theorem State.chargeArray_fixed (s : State) (a : Nat) :
    (State.chargeArray s a).fixed = s.fixed := by
  unfold State.chargeArray
  first
    | (simp +contextual; done)
    | (repeat' split) <;> (try simp +contextual) <;>
      (repeat' first
        | (simp +contextual; done)
        | (simp only [Prod.ext_iff] at *; casesm* _ ∧ _; subst_vars; simp +contextual; done)
        | split
        | rw [foldl_fixed]
        | rw [foldl_fixed_fst]
        | (apply State.newer_fixed; assumption)
        | (apply State.callPart_fixed; assumption)
        | (apply State.callRow_fixed; assumption)
        | (apply State.takeColl_fixed; assumption)
        | intro _)

@[simp] theorem State.dropSample_fixed (s : State) (k : Nat) :
    (State.dropSample s k).fixed = s.fixed := by
  unfold State.dropSample
  simp

@[simp] theorem State.release_fixed (s : State) (x : Sample) (room : Nat) :
    (State.release s x room).fixed = s.fixed := by
  unfold State.release
  simp

@[simp] theorem State.callOver_fixed (s : State) (x : Sample) :
    (State.callOver s x).fixed = s.fixed := by
  unfold State.callOver
  (repeat' split) <;> simp

@[simp] theorem State.callDamaged_fixed (s : State) (x : Sample) :
    (State.callDamaged s x).fixed = s.fixed := by
  unfold State.callDamaged
  (repeat' split) <;> simp

@[simp] theorem State.tileFails_fixed (s : State) (x : Sample) :
    (State.tileFails s x).fixed = s.fixed := by
  unfold State.tileFails
  simp

@[simp] theorem State.chargeIn_fixed (s : State) (tile : Bool) (u : Nat) :
    (State.chargeIn s tile u).fixed = s.fixed := by
  unfold State.chargeIn
  simp

@[simp] theorem State.mismatch_fixed (s : State) (x : Sample) :
    (State.mismatch s x).fixed = s.fixed := by
  unfold State.mismatch
  simp

@[simp] theorem State.sampleFails_fixed (s : State) (k : Nat) (x : Sample) :
    (State.sampleFails s k x).fixed = s.fixed := by
  unfold State.sampleFails
  simp

@[simp] theorem State.sampleStands_fixed (s : State) (k : Nat) (x : Sample) :
    (State.sampleStands s k x).fixed = s.fixed := by
  unfold State.sampleStands
  simp

@[simp] theorem execShadowCompare_fixed (k : Nat) (sig : BitVec 64) (s : State) :
    Keeps s (execShadowCompare k sig s) := by
  unfold execShadowCompare
  first
    | (simp +contextual; done)
    | (repeat' split) <;> (try simp +contextual) <;>
      (repeat' first
        | (simp +contextual; done)
        | (simp only [Prod.ext_iff] at *; casesm* _ ∧ _; subst_vars; simp +contextual; done)
        | split
        | rw [foldl_fixed]
        | rw [foldl_fixed_fst]
        | (apply State.newer_fixed; assumption)
        | (apply State.callPart_fixed; assumption)
        | (apply State.callRow_fixed; assumption)
        | (apply State.takeColl_fixed; assumption)
        | intro _)

@[simp] theorem execArbiterDone_fixed (k : Nat) (sig : BitVec 64) (unit : Nat) (s : State) :
    Keeps s (execArbiterDone k sig unit s) := by
  unfold execArbiterDone
  (repeat' split) <;> simp

@[simp] theorem State.divergeTwins_fixed (s : State) (x : Sample) :
    (State.divergeTwins s x).fixed = s.fixed := by
  unfold State.divergeTwins
  (repeat' split) <;> simp

@[simp] theorem execTwinCompare_fixed (k : Nat) (agree first second : Bool) (s : State) :
    Keeps s (execTwinCompare k agree first second s) := by
  unfold execTwinCompare
  (repeat' split) <;> simp

theorem State.takeColl_fixed (s : State) (gr n : Nat) (t : State) (st : Nat) (h : s.takeColl gr n = some (t, st)) :
    t.fixed = s.fixed := by
  unfold State.takeColl at h
  (repeat' split at h) <;> simp at h <;> (try (obtain ⟨rfl, rfl⟩ := h; simp))

@[simp] theorem State.pumpRejoin_fixed (s : State) (g : Nat) :
    (State.pumpRejoin s g).fixed = s.fixed := by
  unfold State.pumpRejoin
  (repeat' split) <;> simp

@[simp] theorem execDigestComparison_fixed (g : Fin 4096) (s : State) :
    Keeps s (execDigestComparison g s) := by
  unfold execDigestComparison
  (repeat' split) <;> simp

@[simp] theorem State.decideLayer_fixed (s : State) (d : Digest) (base n id : Nat) :
    (State.decideLayer s d base n id).fixed = s.fixed := by
  unfold State.decideLayer
  first
    | (simp +contextual; done)
    | (repeat' split) <;> (try simp +contextual) <;>
      (repeat' first
        | (simp +contextual; done)
        | (simp only [Prod.ext_iff] at *; casesm* _ ∧ _; subst_vars; simp +contextual; done)
        | split
        | rw [foldl_fixed]
        | rw [foldl_fixed_fst]
        | (apply State.newer_fixed; assumption)
        | (apply State.callPart_fixed; assumption)
        | (apply State.callRow_fixed; assumption)
        | (apply State.takeColl_fixed; assumption)
        | intro _)

@[simp] theorem execDigestDecide_fixed (g : Fin 4096) (s : State) :
    Keeps s (execDigestDecide g s) := by
  unfold execDigestDecide
  first
    | (simp +contextual; done)
    | (repeat' split) <;> (try simp +contextual) <;>
      (repeat' first
        | (simp +contextual; done)
        | (simp only [Prod.ext_iff] at *; casesm* _ ∧ _; subst_vars; simp +contextual; done)
        | split
        | rw [foldl_fixed]
        | rw [foldl_fixed_fst]
        | (apply State.newer_fixed; assumption)
        | (apply State.callPart_fixed; assumption)
        | (apply State.callRow_fixed; assumption)
        | (apply State.takeColl_fixed; assumption)
        | intro _)

@[simp] theorem State.restartLayer_fixed (s : State) (id : Nat) :
    (State.restartLayer s id).fixed = s.fixed := by
  unfold State.restartLayer
  (repeat' split) <;> simp

@[simp] theorem execRejoinCopyDone_fixed (g : Fin 4096) (s : State) :
    Keeps s (execRejoinCopyDone g s) := by
  unfold execRejoinCopyDone
  first
    | (simp +contextual; done)
    | (repeat' split) <;> (try simp +contextual) <;>
      (repeat' first
        | (simp +contextual; done)
        | (simp only [Prod.ext_iff] at *; casesm* _ ∧ _; subst_vars; simp +contextual; done)
        | split
        | rw [foldl_fixed]
        | rw [foldl_fixed_fst]
        | (apply State.newer_fixed; assumption)
        | (apply State.callPart_fixed; assumption)
        | (apply State.callRow_fixed; assumption)
        | (apply State.takeColl_fixed; assumption)
        | intro _)

@[simp] theorem execRlRestartWrite_fixed (v : BitVec 32) (s : State) :
    Keeps s (execRlRestartWrite v s) := by
  unfold execRlRestartWrite
  simp

@[simp] theorem execRlCkptGo_fixed (s : State) :
    Keeps s (execRlCkptGo s) := by
  unfold execRlCkptGo
  simp

@[simp] theorem execRlLogClear_fixed (v : BitVec 32) (s : State) :
    Keeps s (execRlLogClear v s) := by
  unfold execRlLogClear
  simp

end Sys2Proof.Machine
end

