-- ==== Sys2Proof/Laws/FxMeridian.lean ====
section
/-! SUPPORT. Laws/FxMeridian.lean: the operations and meanings of Machine/Meridian.lean leave the queue and the fuses as they were. -/

set_option linter.unusedSimpArgs false
set_option linter.unusedTactic false
set_option linter.unreachableTactic false
set_option linter.unnecessarySeqFocus false

namespace Sys2Proof.Machine

@[simp] theorem State.setMer_fixed (s : State) (f : Mer → Mer) :
    (State.setMer s f).fixed = s.fixed := by
  unfold State.setMer
  simp

@[simp] theorem State.toHoldover_fixed (s : State) :
    (State.toHoldover s).fixed = s.fixed := by
  unfold State.toHoldover
  simp

@[simp] theorem State.loseSource_fixed (s : State) :
    (State.loseSource s).fixed = s.fixed := by
  unfold State.loseSource
  simp

@[simp] theorem State.followHold_fixed (s : State) (holdover : Bool) :
    (State.followHold s holdover).fixed = s.fixed := by
  unfold State.followHold
  simp

@[simp] theorem State.lock_fixed (s : State) :
    (State.lock s).fixed = s.fixed := by
  unfold State.lock
  simp

@[simp] theorem State.countFrame_fixed (s : State) (within mayLock : Bool) :
    (State.countFrame s within mayLock).fixed = s.fixed := by
  unfold State.countFrame
  simp

@[simp] theorem State.alignLocal_fixed (s : State) :
    (State.alignLocal s).fixed = s.fixed := by
  unfold State.alignLocal
  simp

@[simp] theorem State.takePulse_fixed (s : State) (spaced : Bool) :
    (State.takePulse s spaced).fixed = s.fixed := by
  unfold State.takePulse
  simp

@[simp] theorem State.watchPulse_fixed (s : State) (spaced : Bool) :
    (State.watchPulse s spaced).fixed = s.fixed := by
  unfold State.watchPulse
  simp

@[simp] theorem State.dropLocal_fixed (s : State) :
    (State.dropLocal s).fixed = s.fixed := by
  unfold State.dropLocal
  simp

@[simp] theorem execPulseEdge_fixed (falling : Bool) (s : State) :
    Keeps s (execPulseEdge falling s) := by
  unfold execPulseEdge
  simp

@[simp] theorem execRefLost_fixed (noEdges : Bool) (s : State) :
    Keeps s (execRefLost noEdges s) := by
  unfold execRefLost
  simp

@[simp] theorem execMerRefEdgesDetected_fixed (s : State) :
    Keeps s (execMerRefEdgesDetected s) := by
  unfold execMerRefEdgesDetected
  simp

@[simp] theorem execHoldoverAlarm_fixed (s : State) :
    Keeps s (execHoldoverAlarm s) := by
  unfold execHoldoverAlarm
  simp

@[simp] theorem execMasterChange_fixed (s : State) :
    Keeps s (execMasterChange s) := by
  unfold execMasterChange
  (repeat' split) <;> simp

@[simp] theorem execRxMaster_fixed (p : Fin 64) (origin : Fin 16384) (seq : BitVec 32) (eligible locked holdover : Bool) (s : State) :
    Keeps s (execRxMaster p origin seq eligible locked holdover s) := by
  unfold execRxMaster
  first
    | (simp +contextual; done)
    | (repeat' split) <;> (try simp +contextual) <;>
      (repeat' first
        | (simp +contextual; done)
        | (simp only [Prod.ext_iff] at *; casesm* _ ∧ _; subst_vars; simp +contextual; done)
        | split
        | rw [foldl_fixed]
        | rw [foldl_fixed_fst]
        | (apply State.newer_fixed; assumption)
        | (apply State.callPart_fixed; assumption)
        | (apply State.callRow_fixed; assumption)
        | intro _)

@[simp] theorem execTimeSend_fixed (s : State) :
    Keeps s (execTimeSend s) := by
  unfold execTimeSend
  simp

@[simp] theorem State.askStep_fixed (s : State) :
    (State.askStep s).fixed = s.fixed := by
  unfold State.askStep
  simp

@[simp] theorem State.takeTime_fixed (s : State) :
    (State.takeTime s).fixed = s.fixed := by
  unfold State.takeTime
  simp

@[simp] theorem execRxTime_fixed (p : Fin 64) (far err rtt : Nat) (s : State) :
    Keeps s (execRxTime p far err rtt s) := by
  unfold execRxTime
  simp

@[simp] theorem execMerCtrlStep_fixed (v : BitVec 32) (s : State) :
    Keeps s (execMerCtrlStep v s) := by
  unfold execMerCtrlStep
  simp

@[simp] theorem execCountStep_fixed (s : State) :
    Keeps s (execCountStep s) := by
  unfold execCountStep
  simp

@[simp] theorem execSlotBoundary_fixed (s : State) :
    Keeps s (execSlotBoundary s) := by
  unfold execSlotBoundary
  (repeat' split) <;> simp

end Sys2Proof.Machine
end

