-- ==== Sys2Proof/Laws/FxStacks.lean ====
section
/-! SUPPORT. Laws/FxStacks.lean: the operations and meanings of Machine/Stacks.lean leave the queue and the fuses as they were. -/

set_option linter.unusedSimpArgs false
set_option linter.unusedTactic false
set_option linter.unreachableTactic false
set_option linter.unnecessarySeqFocus false

namespace Sys2Proof.Machine

@[simp] theorem State.setStk_fixed (s : State) (st : Nat) (f : Stack → Stack) :
    (State.setStk s st f).fixed = s.fixed := by
  unfold State.setStk
  simp

@[simp] theorem State.stEvent_fixed (s : State) (st b : Nat) :
    (State.stEvent s st b).fixed = s.fixed := by
  unfold State.stEvent
  simp

@[simp] theorem State.heat_fixed (s : State) (st : Nat) (ts : List Nat) :
    (State.heat s st ts).fixed = s.fixed := by
  unfold State.heat
  simp

@[simp] theorem State.excuse_fixed (s : State) (st l since : Nat) :
    (State.excuse s st l since).fixed = s.fixed := by
  unfold State.excuse
  simp

@[simp] theorem State.dropRows_fixed (s : State) (w : List Byte) :
    (State.dropRows s w).fixed = s.fixed := by
  unfold State.dropRows
  (repeat' split) <;> simp

@[simp] theorem State.failChannel_fixed (s : State) (st ph : Nat) :
    (State.failChannel s st ph).fixed = s.fixed := by
  unfold State.failChannel
  (repeat' split) <;> simp

@[simp] theorem State.abandonPlanned_fixed (s : State) (st ph : Nat) :
    (State.abandonPlanned s st ph).fixed = s.fixed := by
  unfold State.abandonPlanned
  first
    | (simp +contextual; done)
    | (repeat' split) <;> (try simp +contextual) <;>
      (repeat' first
        | (simp +contextual; done)
        | (simp only [Prod.ext_iff] at *; casesm* _ ∧ _; subst_vars; simp +contextual; done)
        | split
        | rw [foldl_fixed]
        | rw [foldl_fixed_fst]
        | (apply State.newer_fixed; assumption)
        | (apply State.callPart_fixed; assumption)
        | (apply State.callRow_fixed; assumption)
        | intro _)

@[simp] theorem execPlannedRetrain_fixed (st : Fin 16) (ph : Fin 64) (s : State) :
    Keeps s (execPlannedRetrain st ph s) := by
  unfold execPlannedRetrain
  simp

@[simp] theorem execUnplannedRetrain_fixed (st : Fin 16) (ph : Fin 64) (s : State) :
    Keeps s (execUnplannedRetrain st ph s) := by
  unfold execUnplannedRetrain
  first
    | (simp +contextual; done)
    | (repeat' split) <;> (try simp +contextual) <;>
      (repeat' first
        | (simp +contextual; done)
        | (simp only [Prod.ext_iff] at *; casesm* _ ∧ _; subst_vars; simp +contextual; done)
        | split
        | rw [foldl_fixed]
        | rw [foldl_fixed_fst]
        | (apply State.newer_fixed; assumption)
        | (apply State.callPart_fixed; assumption)
        | (apply State.callRow_fixed; assumption)
        | intro _)

@[simp] theorem execRetrainDone_fixed (st : Fin 16) (ph : Fin 64) (ok : Bool) (s : State) :
    Keeps s (execRetrainDone st ph ok s) := by
  unfold execRetrainDone
  (repeat' split) <;> simp

@[simp] theorem execChannelFail_fixed (st : Fin 16) (ph : Fin 64) (s : State) :
    Keeps s (execChannelFail st ph s) := by
  unfold execChannelFail
  simp

@[simp] theorem State.sparesLow_fixed (s : State) (st ph : Nat) :
    (State.sparesLow s st ph).fixed = s.fixed := by
  unfold State.sparesLow
  simp

@[simp] theorem State.repairStatus_fixed (s : State) (st result : Nat) (busy : Bool) :
    (State.repairStatus s st result busy).fixed = s.fixed := by
  unfold State.repairStatus
  simp

@[simp] theorem State.burn_fixed (s : State) (st kind : Nat) :
    (State.burn s st kind).fixed = s.fixed := by
  unfold State.burn
  simp

@[simp] theorem execBurnRow_fixed (st : Fin 16) (s : State) :
    Keeps s (execBurnRow st s) := by
  unfold execBurnRow
  simp

@[simp] theorem execBurnColumn_fixed (st : Fin 16) (s : State) :
    Keeps s (execBurnColumn st s) := by
  unfold execBurnColumn
  simp

@[simp] theorem execBurnRoom_fixed (st : Fin 16) (s : State) :
    Keeps s (execBurnRoom st s) := by
  unfold execBurnRoom
  simp

@[simp] theorem execRepairBadArg_fixed (st : Fin 16) (s : State) :
    Keeps s (execRepairBadArg st s) := by
  unfold execRepairBadArg
  simp

@[simp] theorem execBurnDone_fixed (st : Fin 16) (ok : Bool) (s : State) :
    Keeps s (execBurnDone st ok s) := by
  unfold execBurnDone
  (repeat' split) <;> simp

@[simp] theorem execSoftRowSpare_fixed (st : Fin 16) (s : State) :
    Keeps s (execSoftRowSpare st s) := by
  unfold execSoftRowSpare
  (repeat' split) <;> simp

@[simp] theorem execRefresh_fixed (st : Fin 16) (ph : Fin 64) (storey : Fin 8) (s : State) :
    Keeps s (execRefresh st ph storey s) := by
  unfold execRefresh
  first
    | (simp +contextual; done)
    | (repeat' split) <;> (try simp +contextual) <;>
      (repeat' first
        | (simp +contextual; done)
        | (simp only [Prod.ext_iff] at *; casesm* _ ∧ _; subst_vars; simp +contextual; done)
        | split
        | rw [foldl_fixed]
        | rw [foldl_fixed_fst]
        | (apply State.newer_fixed; assumption)
        | (apply State.callPart_fixed; assumption)
        | (apply State.callRow_fixed; assumption)
        | intro _)

@[simp] theorem State.endScrub_fixed (s : State) (st : Nat) :
    (State.endScrub s st).fixed = s.fixed := by
  unfold State.endScrub
  (repeat' split) <;> simp

@[simp] theorem execScrubWindow_fixed (k : Nat) (s : State) :
    Keeps s (execScrubWindow k s) := by
  unfold execScrubWindow
  (repeat' split) <;> simp

@[simp] theorem execScrubWindowEnd_fixed (s : State) :
    Keeps s (execScrubWindowEnd s) := by
  unfold execScrubWindowEnd
  first
    | (simp +contextual; done)
    | (repeat' split) <;> (try simp +contextual) <;>
      (repeat' first
        | (simp +contextual; done)
        | (simp only [Prod.ext_iff] at *; casesm* _ ∧ _; subst_vars; simp +contextual; done)
        | split
        | rw [foldl_fixed]
        | rw [foldl_fixed_fst]
        | (apply State.newer_fixed; assumption)
        | (apply State.callPart_fixed; assumption)
        | (apply State.callRow_fixed; assumption)
        | intro _)

@[simp] theorem State.weakRow_fixed (s : State) (st a : Nat) :
    (State.weakRow s st a).fixed = s.fixed := by
  unfold State.weakRow
  (repeat' split) <;> simp

@[simp] theorem execScrubBlock_fixed (st : Fin 16) (corrected raced : Bool) (unc : Fin 16) (s : State) :
    Keeps s (execScrubBlock st corrected raced unc s) := by
  delta execScrubBlock
  dsimp only
  generalize (s.stack st).scrub = x
  obtain _ | w := x
  · simp
  · dsimp only
    have h (f : Stack → Stack) (g : Io → Io) : ((s.setStk st f).mapIo g).fixed = s.fixed := by simp
    generalize hu : (s.setStk _ _).mapIo _ = u
    replace h : u.fixed = s.fixed := by rw [← hu]; exact h ..
    clear hu
    generalize hv : (if corrected = true then _ else u) = v
    replace hv : v.fixed = s.fixed := by rw [← hv]; exact fixed_if (by simp [h]) h
    (repeat' split) <;> simp [h, hv]

@[simp] theorem State.endCal_fixed (s : State) (st : Nat) :
    (State.endCal s st).fixed = s.fixed := by
  unfold State.endCal
  (repeat' split) <;> simp

@[simp] theorem execCalibrateWindow_fixed (k : Nat) (s : State) :
    Keeps s (execCalibrateWindow k s) := by
  unfold execCalibrateWindow
  (repeat' split) <;> simp

@[simp] theorem execCalibrationStep_fixed (st : Fin 16) (s : State) :
    Keeps s (execCalibrationStep st s) := by
  unfold execCalibrationStep
  (repeat' split) <;> simp

@[simp] theorem execCalWindowEnd_fixed (s : State) :
    Keeps s (execCalWindowEnd s) := by
  unfold execCalWindowEnd
  first
    | (simp +contextual; done)
    | (repeat' split) <;> (try simp +contextual) <;>
      (repeat' first
        | (simp +contextual; done)
        | (simp only [Prod.ext_iff] at *; casesm* _ ∧ _; subst_vars; simp +contextual; done)
        | split
        | rw [foldl_fixed]
        | rw [foldl_fixed_fst]
        | (apply State.newer_fixed; assumption)
        | (apply State.callPart_fixed; assumption)
        | (apply State.callRow_fixed; assumption)
        | intro _)

@[simp] theorem State.refusedBit_fixed (s : State) (st : Nat) (v : Bool) :
    (State.refusedBit s st v).fixed = s.fixed := by
  unfold State.refusedBit
  simp

@[simp] theorem execContentAccept_fixed (st : Fin 16) (s : State) :
    Keeps s (execContentAccept st s) := by
  unfold execContentAccept
  first
    | (simp +contextual; done)
    | (repeat' split) <;> (try simp +contextual) <;>
      (repeat' first
        | (simp +contextual; done)
        | (simp only [Prod.ext_iff] at *; casesm* _ ∧ _; subst_vars; simp +contextual; done)
        | split
        | rw [foldl_fixed]
        | rw [foldl_fixed_fst]
        | (apply State.newer_fixed; assumption)
        | (apply State.callPart_fixed; assumption)
        | (apply State.callRow_fixed; assumption)
        | intro _)

@[simp] theorem execContentClear_fixed (st : Fin 16) (s : State) :
    Keeps s (execContentClear st s) := by
  unfold execContentClear
  simp

@[simp] theorem execContentVerifyDone_fixed (st : Fin 16) (s : State) :
    Keeps s (execContentVerifyDone st s) := by
  unfold execContentVerifyDone
  simp

@[simp] theorem execContentClearDone_fixed (st : Fin 16) (s : State) :
    Keeps s (execContentClearDone st s) := by
  unfold execContentClearDone
  simp

end Sys2Proof.Machine
end

