-- ==== Sys2Proof/Laws/FxInert.lean ====
section
/-! SUPPORT. Laws/FxInert.lean: the operations and meanings of Machine/Inert.lean leave the queue and the fuses as they were. -/

namespace Sys2Proof.Machine

@[simp] theorem State.inert_fixed (s : State) (cause : Nat) :
    (State.inert s cause).fixed = s.fixed := by
  unfold State.inert
  simp

end Sys2Proof.Machine
end

