-- ==== Sys2Proof/Laws/FxViews.lean ====
section
/-! SUPPORT. Laws/FxViews.lean: the operations and meanings of Machine/Views.lean leave the queue and the fuses as they were. -/

namespace Sys2Proof.Machine

@[simp] theorem State.recap_fixed (s : State) :
    (State.recap s).fixed = s.fixed := by
  unfold State.recap
  simp

end Sys2Proof.Machine
end

