-- ==== Sys2Proof/Laws/FxTrace.lean ====
section
/-! SUPPORT. Laws/FxTrace.lean: the operations and meanings of Machine/Trace.lean leave the queue and the fuses as they were. -/

set_option linter.unusedSimpArgs false
set_option linter.unusedTactic false
set_option linter.unreachableTactic false
set_option linter.unnecessarySeqFocus false

namespace Sys2Proof.Machine

@[simp] theorem State.trEvent_fixed (s : State) (b : Nat) :
    (State.trEvent s b).fixed = s.fixed := by
  unfold State.trEvent
  simp

@[simp] theorem State.addMark_fixed (s : State) (id instant source : Nat) (received : Bool) (cmd : Option Nat) (origin : Nat) :
    (State.addMark s id instant source received cmd origin).fixed = s.fixed := by
  unfold State.addMark
  simp

@[simp] theorem State.markNow_fixed (s : State) (id source : Nat) :
    (State.markNow s id source).fixed = s.fixed := by
  unfold State.markNow
  simp

@[simp] theorem execCmdMark_fixed (id : Nat) (s : State) :
    Keeps s (execCmdMark id s) := by
  unfold execCmdMark
  (repeat' split) <;> simp

@[simp] theorem execRxMark_fixed (p : Fin 64) (origin : Fin 16384) (seq : BitVec 32) (id : Fin 256) (m : BitVec 64) (s : State) :
    Keeps s (execRxMark p origin seq id m s) := by
  unfold execRxMark
  first
    | (simp +contextual; done)
    | (repeat' split) <;> (try simp +contextual) <;>
      (repeat' first
        | (simp +contextual; done)
        | (simp only [Prod.ext_iff] at *; casesm* _ ∧ _; subst_vars; simp +contextual; done)
        | split
        | rw [foldl_fixed]
        | rw [foldl_fixed_fst]
        | (apply State.newer_fixed; assumption)
        | (apply State.callPart_fixed; assumption)
        | (apply State.callRow_fixed; assumption)
        | intro _)

@[simp] theorem execMarkInstant_fixed (k : Nat) (s : State) :
    Keeps s (execMarkInstant k s) := by
  unfold execMarkInstant
  (repeat' split) <;> simp

@[simp] theorem execTrMark_fixed (id : Fin 256) (s : State) :
    Keeps s (execTrMark id s) := by
  unfold execTrMark
  simp

@[simp] theorem State.latch_fixed (s : State) (m : Mark) :
    (State.latch s m).fixed = s.fixed := by
  unfold State.latch
  (repeat' split) <;> simp

@[simp] theorem execMarkLatch_fixed (s : State) :
    Keeps s (execMarkLatch s) := by
  unfold execMarkLatch
  simp

@[simp] theorem execTrRelease_fixed (s : State) :
    Keeps s (execTrRelease s) := by
  unfold execTrRelease
  simp

@[simp] theorem execTrDump_fixed (s : State) :
    Keeps s (execTrDump s) := by
  unfold execTrDump
  simp

@[simp] theorem State.dumpWrite_fixed (s : State) :
    (State.dumpWrite s).fixed = s.fixed := by
  unfold State.dumpWrite
  simp

@[simp] theorem State.dumpOver_fixed (s : State) :
    (State.dumpOver s).fixed = s.fixed := by
  unfold State.dumpOver
  simp

@[simp] theorem execDumpDone_fixed (s : State) :
    Keeps s (execDumpDone s) := by
  unfold execDumpDone
  simp

@[simp] theorem State.dropSnapshot_fixed (s : State) :
    (State.dropSnapshot s).fixed = s.fixed := by
  unfold State.dropSnapshot
  (repeat' split) <;> simp

@[simp] theorem execTelemetryWindow_fixed (k : Nat) (s : State) :
    Keeps s (execTelemetryWindow k s) := by
  unfold execTelemetryWindow
  (repeat' split) <;> simp

@[simp] theorem execSnapshotDone_fixed (s : State) : Keeps s (execSnapshotDone s) := by
  unfold execSnapshotDone
  split
  · exact (keeps_ignored ..).2 rfl
  · split
    · exact (keeps_next ..).2 (State.fixed_mk ..)
    · exact (keeps_ignored ..).2 rfl

@[simp] theorem execTelemetryWindowEnd_fixed (s : State) :
    Keeps s (execTelemetryWindowEnd s) := by
  unfold execTelemetryWindowEnd
  (repeat' split) <;> simp

end Sys2Proof.Machine
end

