-- ==== Sys2Proof/Laws/FxPower.lean ====
section
/-! SUPPORT. Laws/FxPower.lean: the operations and meanings of Machine/Power.lean leave the queue and the fuses as they were. -/

set_option linter.unusedSimpArgs false
set_option linter.unusedTactic false
set_option linter.unreachableTactic false
set_option linter.unnecessarySeqFocus false

namespace Sys2Proof.Machine

@[simp] theorem Se.kept_fuses (e : Se) : e.kept.fuses = e.fuses := rfl

@[simp] theorem Se.startBoot_fuses (e : Se) : e.startBoot.fuses = e.fuses := rfl

@[simp] theorem State.pwEvent_fixed (s : State) (b : Nat) :
    (State.pwEvent s b).fixed = s.fixed := by
  unfold State.pwEvent
  simp

@[simp] theorem State.poEvent_fixed (s : State) (b : Nat) :
    (State.poEvent s b).fixed = s.fixed := by
  unfold State.poEvent
  simp

@[simp] theorem State.setPw_fixed (s : State) (f : Power → Power) :
    (State.setPw s f).fixed = s.fixed := by
  unfold State.setPw
  simp

@[simp] theorem State.setPo_fixed (s : State) (f : Porch → Porch) :
    (State.setPo s f).fixed = s.fixed := by
  unfold State.setPo
  simp

@[simp] theorem State.dark_fixed (s : State) :
    (State.dark s).fixed = s.fixed := by
  unfold State.dark
  simp

@[simp] theorem State.trip_fixed (s : State) (cause channel : Nat) :
    (State.trip s cause channel).fixed = s.fixed := by
  unfold State.trip
  simp

@[simp] theorem execRailOutOfRegulation_fixed (rail : Fin 11) (s : State) :
    Keeps s (execRailOutOfRegulation rail s) := by
  unfold execRailOutOfRegulation
  simp

@[simp] theorem execInputApplied_fixed (s : State) :
    Keeps s (execInputApplied s) := by
  unfold execInputApplied
  simp

@[simp] theorem execInputLost_fixed (s : State) :
    Keeps s (execInputLost s) := by
  unfold execInputLost
  simp

@[simp] theorem execPoTripClear_fixed (v : BitVec 32) (s : State) :
    Keeps s (execPoTripClear v s) := by
  unfold execPoTripClear
  simp

@[simp] theorem State.requestShutter_fixed (s : State) :
    (State.requestShutter s).fixed = s.fixed := by
  unfold State.requestShutter
  (repeat' split) <;> simp

@[simp] theorem State.requestWake_fixed (s : State) :
    (State.requestWake s).fixed = s.fixed := by
  unfold State.requestWake
  (repeat' split) <;> simp

@[simp] theorem execPwShutter_fixed (s : State) :
    Keeps s (execPwShutter s) := by
  unfold execPwShutter
  simp

@[simp] theorem execPwWake_fixed (s : State) :
    Keeps s (execPwWake s) := by
  unfold execPwWake
  simp

@[simp] theorem State.shutter_fixed (s : State) :
    (State.shutter s).fixed = s.fixed := by
  unfold State.shutter
  simp

@[simp] theorem execShutterEntry_fixed (s : State) :
    Keeps s (execShutterEntry s) := by
  unfold execShutterEntry
  simp

@[simp] theorem execWakeAt_fixed (s : State) :
    Keeps s (execWakeAt s) := by
  unfold execWakeAt
  simp

@[simp] theorem execWakeComplete_fixed (s : State) :
    Keeps s (execWakeComplete s) := by
  unfold execWakeComplete
  simp

@[simp] theorem execDepartureForwardingEnd_fixed (s : State) :
    Keeps s (execDepartureForwardingEnd s) := by
  unfold execDepartureForwardingEnd
  (repeat' split) <;> simp

@[simp] theorem State.notches_fixed (s : State) (n : Nat) :
    (State.notches s n).fixed = s.fixed := by
  unfold State.notches
  simp

@[simp] theorem State.realert_fixed (s : State) :
    (State.realert s).fixed = s.fixed := by
  unfold State.realert
  simp

@[simp] theorem execPowerProjection_fixed (watts : Nat) (s : State) :
    Keeps s (execPowerProjection watts s) := by
  unfold execPowerProjection
  first
    | (simp +contextual; done)
    | (repeat' split) <;> (try simp +contextual) <;>
      (repeat' first
        | (simp +contextual; done)
        | (simp only [Prod.ext_iff] at *; casesm* _ ∧ _; subst_vars; simp +contextual; done)
        | split
        | rw [foldl_fixed]
        | rw [foldl_fixed_fst]
        | (apply State.newer_fixed; assumption)
        | (apply State.callPart_fixed; assumption)
        | (apply State.callRow_fixed; assumption)
        | intro _)

@[simp] theorem execPowerWindow_fixed (watts : Fin 65536) (s : State) :
    Keeps s (execPowerWindow watts s) := by
  unfold execPowerWindow
  simp

@[simp] theorem State.ruleActs_fixed (s : State) (e : List Byte) :
    (State.ruleActs s e).fixed = s.fixed := by
  unfold State.ruleActs
  (repeat' split) <;> simp

@[simp] theorem State.evaluate_fixed (s : State) (c : Nat) (v : Word) :
    (State.evaluate s c v).fixed = s.fixed := by
  unfold State.evaluate
  simp

@[simp] theorem State.watchInput_fixed (s : State) (c : Nat) (v : Word) :
    (State.watchInput s c v).fixed = s.fixed := by
  unfold State.watchInput
  simp

@[simp] theorem State.heatStorey_fixed (s : State) (c : Nat) (v : Word) :
    (State.heatStorey s c v).fixed = s.fixed := by
  unfold State.heatStorey
  simp

@[simp] theorem execSensorSample_fixed (c : Fin 256) (v : BitVec 32) (s : State) :
    Keeps s (execSensorSample c v s) := by
  unfold execSensorSample
  first
    | (simp +contextual; done)
    | (repeat' split) <;> (try simp +contextual) <;>
      (repeat' first
        | (simp +contextual; done)
        | (simp only [Prod.ext_iff] at *; casesm* _ ∧ _; subst_vars; simp +contextual; done)
        | split
        | rw [foldl_fixed]
        | rw [foldl_fixed_fst]
        | (apply State.newer_fixed; assumption)
        | (apply State.callPart_fixed; assumption)
        | (apply State.callRow_fixed; assumption)
        | intro _)

@[simp] theorem execPoRuleClear_fixed (v : BitVec 32) (s : State) :
    Keeps s (execPoRuleClear v s) := by
  unfold execPoRuleClear
  simp

@[simp] theorem execOldRuleCapsExpiry_fixed (s : State) :
    Keeps s (execOldRuleCapsExpiry s) := by
  unfold execOldRuleCapsExpiry
  simp

@[simp] theorem State.installPorch_fixed (s : State) (sec : List Byte) :
    (State.installPorch s sec).fixed = s.fixed := by
  unfold State.installPorch
  simp

@[simp] theorem execHeartbeatLost_fixed (core : Fin 4) (s : State) :
    Keeps s (execHeartbeatLost core s) := by
  unfold execHeartbeatLost
  simp

end Sys2Proof.Machine
end

