-- ==== Sys2Proof/Laws/FxHost.lean ====
section
/-! SUPPORT. Laws/FxHost.lean: the operations and meanings of Machine/Host.lean leave the queue and the fuses as they were. -/

set_option linter.unusedSimpArgs false
set_option linter.unusedTactic false
set_option linter.unreachableTactic false
set_option linter.unnecessarySeqFocus false

namespace Sys2Proof.Machine

@[simp] theorem State.hcEvent_fixed (s : State) (b : Nat) :
    (State.hcEvent s b).fixed = s.fixed := by
  unfold State.hcEvent
  simp

@[simp] theorem State.setHost_fixed (s : State) (f : HostSide → HostSide) :
    (State.setHost s f).fixed = s.fixed := by
  unfold State.setHost
  simp

@[simp] theorem State.entryErr_fixed (s : State) (i cause : Nat) :
    (State.entryErr s i cause).fixed = s.fixed := by
  unfold State.entryErr
  simp

@[simp] theorem State.regionFirst_fixed (s : State) (i : Nat) (v : Word) (hi : Option Word) :
    (State.regionFirst s i v hi).fixed = s.fixed := by
  unfold State.regionFirst
  first
    | (simp +contextual; done)
    | (repeat' split) <;> (try simp +contextual) <;>
      (repeat' first
        | (simp +contextual; done)
        | (simp only [Prod.ext_iff] at *; casesm* _ ∧ _; subst_vars; simp +contextual; done)
        | split
        | rw [foldl_fixed]
        | rw [foldl_fixed_fst]
        | (apply State.newer_fixed; assumption)
        | (apply State.callPart_fixed; assumption)
        | (apply State.callRow_fixed; assumption)
        | intro _)

@[simp] theorem State.regionOther_fixed (s : State) (i d : Nat) (v : Word) :
    (State.regionOther s i d v).fixed = s.fixed := by
  unfold State.regionOther
  simp

@[simp] theorem execRegionValidate_fixed (i : Fin 65536) (v : BitVec 32) (hi : Option (BitVec 32)) (s : State) :
    Keeps s (execRegionValidate i v hi s) := by
  unfold execRegionValidate
  simp

@[simp] theorem execRegionEnd_fixed (i : Fin 65536) (v : BitVec 32) (hi : Option (BitVec 32)) (s : State) :
    Keeps s (execRegionEnd i v hi s) := by
  unfold execRegionEnd
  simp

@[simp] theorem State.shrinkRegions_fixed (s : State) :
    (State.shrinkRegions s).fixed = s.fixed := by
  unfold State.shrinkRegions
  simp

@[simp] theorem State.lbReject_fixed (s : State) (cause off req : Nat) :
    (State.lbReject s cause off req).fixed = s.fixed := by
  unfold State.lbReject
  simp

@[simp] theorem execBar2Read_fixed (off : BitVec 36) (req : BitVec 16) (s : State) :
    Keeps s (execBar2Read off req s) := by
  unfold execBar2Read
  simp

@[simp] theorem State.flagDrop_fixed (s : State) :
    (State.flagDrop s).fixed = s.fixed := by
  unfold State.flagDrop
  simp

@[simp] theorem State.launchFlag_fixed (s : State) (i : Nat) (e : List Byte) (word : Nat) :
    (State.launchFlag s i e word).fixed = s.fixed := by
  unfold State.launchFlag
  simp

@[simp] theorem State.honour_fixed (s : State) (i : Nat) (e : List Byte) :
    (State.honour s i e).fixed = s.fixed := by
  unfold State.honour
  first
    | (simp +contextual; done)
    | (repeat' split) <;> (try simp +contextual) <;>
      (repeat' first
        | (simp +contextual; done)
        | (simp only [Prod.ext_iff] at *; casesm* _ ∧ _; subst_vars; simp +contextual; done)
        | split
        | rw [foldl_fixed]
        | rw [foldl_fixed_fst]
        | (apply State.newer_fixed; assumption)
        | (apply State.callPart_fixed; assumption)
        | (apply State.callRow_fixed; assumption)
        | intro _)

@[simp] theorem execLetterboxWrite_fixed (off : BitVec 36) (bytes : List Byte) (req : BitVec 16) (poisoned : Bool) (s : State) :
    Keeps s (execLetterboxWrite off bytes req poisoned s) := by
  unfold execLetterboxWrite
  (repeat' split) <;> simp

@[simp] theorem execHcLbFence_fixed (v : BitVec 32) (s : State) :
    Keeps s (execHcLbFence v s) := by
  unfold execHcLbFence
  simp

@[simp] theorem execLbFenceDone_fixed (s : State) :
    Keeps s (execLbFenceDone s) := by
  unfold execLbFenceDone
  (repeat' split) <;> simp

@[simp] theorem State.loseQueue_fixed (s : State) (q : Nat) :
    (State.loseQueue s q).fixed = s.fixed := by
  unfold State.loseQueue
  simp

@[simp] theorem State.readFails_fixed (s : State) (all : Bool) (k : Nat) :
    (State.readFails s all k).fixed = s.fixed := by
  unfold State.readFails
  first
    | (simp +contextual; done)
    | (repeat' split) <;> (try simp +contextual) <;>
      (repeat' first
        | (simp +contextual; done)
        | (simp only [Prod.ext_iff] at *; casesm* _ ∧ _; subst_vars; simp +contextual; done)
        | split
        | rw [foldl_fixed]
        | rw [foldl_fixed_fst]
        | (apply State.newer_fixed; assumption)
        | (apply State.callPart_fixed; assumption)
        | (apply State.callRow_fixed; assumption)
        | intro _)

@[simp] theorem State.hostLost_fixed (s : State) (link : Nat) (all : Bool) :
    (State.hostLost s link all).fixed = s.fixed := by
  unfold State.hostLost
  simp

@[simp] theorem execLinkDown_fixed (s : State) :
    Keeps s (execLinkDown s) := by
  unfold execLinkDown
  simp

@[simp] theorem execLinkUp_fixed (lanes rate : Fin 16) (flit : Bool) (s : State) :
    Keeps s (execLinkUp lanes rate flit s) := by
  unfold execLinkUp
  simp

@[simp] theorem execLinkRecovery_fixed (done : Bool) (s : State) :
    Keeps s (execLinkRecovery done s) := by
  unfold execLinkRecovery
  simp

@[simp] theorem execHostGraceExpiry_fixed (s : State) :
    Keeps s (execHostGraceExpiry s) := by
  unfold execHostGraceExpiry
  (repeat' split) <;> simp

@[simp] theorem execPowerStateChange_fixed (d3 : Bool) (s : State) :
    Keeps s (execPowerStateChange d3 s) := by
  unfold execPowerStateChange
  simp

@[simp] theorem State.flushMsix_fixed (s : State) :
    (State.flushMsix s).fixed = s.fixed := by
  unfold State.flushMsix
  simp

@[simp] theorem execMsixUnmask_fixed (v : Fin 2048) (s : State) :
    Keeps s (execMsixUnmask v s) := by
  unfold execMsixUnmask
  simp

@[simp] theorem execConfigRequest_fixed (d : Fin 1024) (w : Option (BitVec 32)) (s : State) :
    Keeps s (execConfigRequest d w s) := by
  unfold execConfigRequest
  (repeat' split) <;> simp

@[simp] theorem execWritebackInvalidate_fixed (s : State) :
    Keeps s (execWritebackInvalidate s) := by
  unfold execWritebackInvalidate
  simp

@[simp] theorem execSnoop_fixed (addr : BitVec 64) (s : State) :
    Keeps s (execSnoop addr s) := by
  unfold execSnoop
  simp

@[simp] theorem execDoeRequest_fixed (vendor : BitVec 16) (type : BitVec 8) (bytes : List Byte) (s : State) :
    Keeps s (execDoeRequest vendor type bytes s) := by
  unfold execDoeRequest
  (repeat' split) <;> simp

end Sys2Proof.Machine
end

