-- ==== Sys2Proof/Laws/FxPlan.lean ====
section
/-! SUPPORT. Laws/FxPlan.lean: the operations and meanings of Machine/Plan.lean leave the queue and the fuses as they were. -/

set_option linter.unusedSimpArgs false
set_option linter.unusedTactic false
set_option linter.unreachableTactic false
set_option linter.unnecessarySeqFocus false

namespace Sys2Proof.Machine

@[simp] theorem State.setFp_fixed (s : State) (f : Loader → Loader) :
    (State.setFp s f).fixed = s.fixed := by
  unfold State.setFp
  simp

@[simp] theorem State.fpRefuse_fixed (s : State) (code : Nat) :
    (State.fpRefuse s code).fixed = s.fixed := by
  unfold State.fpRefuse
  simp

@[simp] theorem State.fpErr_fixed (s : State) (b : Bad) :
    (State.fpErr s b).fixed = s.fixed := by
  unfold State.fpErr
  simp

@[simp] theorem State.fpFail_fixed (s : State) (b : Bad) :
    (State.fpFail s b).fixed = s.fixed := by
  unfold State.fpFail
  simp

@[simp] theorem State.fpEmpty_fixed (s : State) :
    (State.fpEmpty s).fixed = s.fixed := by
  unfold State.fpEmpty
  simp

@[simp] theorem execFpFetch_fixed (s : State) :
    Keeps s (execFpFetch s) := by
  unfold execFpFetch
  simp

@[simp] theorem execFetchReadCompletion_fixed (off : Nat) (bytes : List Byte) (ok : Bool) (s : State) :
    Keeps s (execFetchReadCompletion off bytes ok s) := by
  unfold execFetchReadCompletion
  simp

@[simp] theorem execStagingWrite_fixed (off : Fin 32768) (wide : Bool) (v : BitVec 64) (s : State) :
    Keeps s (execStagingWrite off wide v s) := by
  unfold execStagingWrite
  simp

@[simp] theorem execFpLenWrite_fixed (v : BitVec 32) (s : State) :
    Keeps s (execFpLenWrite v s) := by
  unfold execFpLenWrite
  simp

@[simp] theorem execFpBadCommand_fixed (cmd : Fin 16) (s : State) :
    Keeps s (execFpBadCommand cmd s) := by
  unfold execFpBadCommand
  simp

@[simp] theorem execFpAbort_fixed (s : State) :
    Keeps s (execFpAbort s) := by
  unfold execFpAbort
  (repeat' split) <;> simp

@[simp] theorem execFpDiscard_fixed (s : State) :
    Keeps s (execFpDiscard s) := by
  unfold execFpDiscard
  (repeat' split) <;> simp

@[simp] theorem State.startApply_fixed (s : State) :
    (State.startApply s).fixed = s.fixed := by
  unfold State.startApply
  simp

@[simp] theorem State.applyVerified_fixed (s : State) :
    (State.applyVerified s).fixed = s.fixed := by
  unfold State.applyVerified
  (repeat' split) <;> simp

@[simp] theorem State.startVerify_fixed (s : State) (c : FpCmd) :
    (State.startVerify s c).fixed = s.fixed := by
  unfold State.startVerify
  simp

@[simp] theorem execFpVerify_fixed (s : State) :
    Keeps s (execFpVerify s) := by
  unfold execFpVerify
  simp

@[simp] theorem State.fpApply_fixed (s : State) :
    (State.fpApply s).fixed = s.fixed := by
  unfold State.fpApply
  simp

@[simp] theorem State.fpAmend_fixed (s : State) :
    (State.fpAmend s).fixed = s.fixed := by
  unfold State.fpAmend
  (repeat' split) <;> simp

@[simp] theorem execFpApply_fixed (s : State) :
    Keeps s (execFpApply s) := by
  unfold execFpApply
  simp

@[simp] theorem execFpAmend_fixed (s : State) :
    Keeps s (execFpAmend s) := by
  unfold execFpAmend
  simp

@[simp] theorem execVerifyComplete_fixed (s : State) :
    Keeps s (execVerifyComplete s) := by
  unfold execVerifyComplete
  first
    | (simp +contextual; done)
    | (repeat' split) <;> (try simp +contextual) <;>
      (repeat' first
        | (simp +contextual; done)
        | (simp only [Prod.ext_iff] at *; casesm* _ ∧ _; subst_vars; simp +contextual; done)
        | split
        | rw [foldl_fixed]
        | rw [foldl_fixed_fst]
        | (apply State.newer_fixed; assumption)
        | (apply State.callPart_fixed; assumption)
        | (apply State.callRow_fixed; assumption)
        | intro _)

@[simp] theorem State.stepPorch_fixed (s : State) :
    (State.stepPorch s).fixed = s.fixed := by
  unfold State.stepPorch
  simp

@[simp] theorem State.stepMeridian_fixed (s : State) (old : Plan) (c : Nat) :
    (State.stepMeridian s old c).fixed = s.fixed := by
  unfold State.stepMeridian
  simp

@[simp] theorem State.softRepairs_fixed (s : State) :
    (State.softRepairs s).1.fixed = s.fixed := by
  unfold State.softRepairs
  first
    | (simp +contextual; done)
    | (repeat' split) <;> (try simp +contextual) <;>
      (repeat' first
        | (simp +contextual; done)
        | (simp only [Prod.ext_iff] at *; casesm* _ ∧ _; subst_vars; simp +contextual; done)
        | split
        | rw [foldl_fixed]
        | rw [foldl_fixed_fst]
        | (apply State.newer_fixed; assumption)
        | (apply State.callPart_fixed; assumption)
        | (apply State.callRow_fixed; assumption)
        | intro _)

@[simp] theorem State.serveStack_fixed (s : State) (aff : List FpUnit) (st : Nat) :
    (State.serveStack s aff st).fixed = s.fixed := by
  unfold State.serveStack
  simp

@[simp] theorem State.restStack_fixed (s : State) (st : Nat) :
    (State.restStack s st).fixed = s.fixed := by
  unfold State.restStack
  simp

@[simp] theorem State.stepStacks_fixed (s : State) (aff : List FpUnit) :
    (State.stepStacks s aff).fixed = s.fixed := by
  unfold State.stepStacks
  simp

@[simp] theorem State.assignWing_fixed (s : State) (w : List Byte) :
    (State.assignWing s w).fixed = s.fixed := by
  unfold State.assignWing
  simp

@[simp] theorem State.stepWings_fixed (s : State) (old : Plan) :
    (State.stepWings s old).fixed = s.fixed := by
  unfold State.stepWings
  simp

@[simp] theorem State.freshArray_fixed (s : State) (a : Nat) (fab : Option Nat) :
    (State.freshArray s a fab).fixed = s.fixed := by
  unfold State.freshArray
  simp

@[simp] theorem State.stepArrays_fixed (s : State) (old : Plan) :
    (State.stepArrays s old).fixed = s.fixed := by
  unfold State.stepArrays
  simp

@[simp] theorem State.stepWalker_fixed (s : State) (old : Plan) :
    (State.stepWalker s old).fixed = s.fixed := by
  unfold State.stepWalker
  first
    | (simp +contextual; done)
    | (repeat' split) <;> (try simp +contextual) <;>
      (repeat' first
        | (simp +contextual; done)
        | (simp only [Prod.ext_iff] at *; casesm* _ ∧ _; subst_vars; simp +contextual; done)
        | split
        | rw [foldl_fixed]
        | rw [foldl_fixed_fst]
        | (apply State.newer_fixed; assumption)
        | (apply State.callPart_fixed; assumption)
        | (apply State.callRow_fixed; assumption)
        | intro _)

@[simp] theorem State.stepQueues_fixed (s : State) (old : Plan) :
    (State.stepQueues s old).fixed = s.fixed := by
  unfold State.stepQueues
  simp

@[simp] theorem State.stepPorts_fixed (s : State) (old : Plan) :
    (State.stepPorts s old).fixed = s.fixed := by
  unfold State.stepPorts
  simp

@[simp] theorem State.unitFailed_fixed (s : State) (kind i : Nat) :
    (State.unitFailed s kind i).fixed = s.fixed := by
  unfold State.unitFailed
  simp

@[simp] theorem State.finishApply_fixed (s : State) (aff : List FpUnit) (digest : List Byte) :
    (State.finishApply s aff digest).fixed = s.fixed := by
  unfold State.finishApply
  simp

@[simp] theorem State.install_fixed (s : State) (fault : Option (Bool × Nat)) : (State.install s fault).fixed = s.fixed := by
  delta State.install
  dsimp only
  generalize hu : State.stepMeridian _ _ _ = u
  have h : u.fixed = s.fixed := by
    rw [← hu]
    exact (State.stepMeridian_fixed ..).trans (State.stepPorch_fixed ..)
  clear hu
  have h2 := State.softRepairs_fixed u
  generalize u.softRepairs = w at h2
  obtain ⟨v, _ | c⟩ := w
  · dsimp only at h2 ⊢
    generalize fault.filter _ = bad
    obtain _ | ⟨_ | _, c⟩ := bad
    · simp [h2, h]
    · simp [h2, h]
    · simp [h2, h]
  · exact (State.unitFailed_fixed ..).trans (h2.trans h)

@[simp] theorem execApplicationComplete_fixed (fault : Option (Bool × Nat)) (s : State) :
    Keeps s (execApplicationComplete fault s) := by
  unfold execApplicationComplete
  simp

@[simp] theorem execAmendmentEffect_fixed (s : State) :
    Keeps s (execAmendmentEffect s) := by
  unfold execAmendmentEffect
  simp

@[simp] theorem execFpDrainWrite_fixed (k : Fin 5) (v : BitVec 32) (s : State) :
    Keeps s (execFpDrainWrite k v s) := by
  unfold execFpDrainWrite
  simp

@[simp] theorem execUnitDrained_fixed (kind : Fin 3) (n : Fin 64) (s : State) :
    Keeps s (execUnitDrained kind n s) := by
  unfold execUnitDrained
  simp

end Sys2Proof.Machine
end

