-- ==== Sys2Proof/Laws/FxResets.lean ====
section
/-! SUPPORT. Laws/FxResets.lean: the operations and meanings of Machine/Resets.lean leave the queue and the fuses as they were. -/

namespace Sys2Proof.Machine

@[simp] theorem State.inert_pending (s : State) (n : Nat) : (s.inert n).pending = s.pending := rfl

@[simp] theorem State.inert_se (s : State) (n : Nat) : (s.inert n).se.fuses = s.se.fuses := rfl

@[simp] theorem State.perst_fixed (s : State) :
    (State.perst s).fixed = s.fixed := by
  unfold State.perst
  simp

@[simp] theorem execPerstAssert_fixed (s : State) :
    Keeps s (execPerstAssert s) := by
  unfold execPerstAssert
  simp

@[simp] theorem execPerstDeassert_fixed (s : State) :
    Keeps s (execPerstDeassert s) := by
  unfold execPerstDeassert
  simp

@[simp] theorem State.dropImage_fixed (s : State) :
    (State.dropImage s).fixed = s.fixed := by
  unfold State.dropImage
  simp

@[simp] theorem State.clearHost_fixed (s : State) (kind : Nat) :
    (State.clearHost s kind).fixed = s.fixed := by
  unfold State.clearHost
  simp

@[simp] theorem execFunctionLevelReset_fixed (s : State) :
    Keeps s (execFunctionLevelReset s) := by
  unfold execFunctionLevelReset
  simp

@[simp] theorem State.clearStores_fixed (s : State) :
    (State.clearStores s).fixed = s.fixed := by
  unfold State.clearStores
  simp

@[simp] theorem execHotReset_fixed (s : State) :
    Keeps s (execHotReset s) := by
  unfold execHotReset
  simp

@[simp] theorem execResetComplete_fixed (s : State) :
    Keeps s (execResetComplete s) := by
  unfold execResetComplete
  simp

end Sys2Proof.Machine
end

