-- ==== Sys2Proof/Laws/FxSecurity.lean ====
section
/-! SUPPORT. Laws/FxSecurity.lean: the operations and meanings of Machine/Security.lean leave the queue and the fuses as they were. -/

set_option linter.unusedSimpArgs false
set_option linter.unusedTactic false
set_option linter.unreachableTactic false
set_option linter.unnecessarySeqFocus false

namespace Sys2Proof.Machine

@[simp] theorem Se.newFirmware_fuses (e : Se) : e.newFirmware.fuses = e.fuses := by
  unfold Se.newFirmware
  dsimp only
  cases e.runB <;> rfl

@[simp] theorem Se.stageFails_fuses (e : Se) (n : Nat) : (e.stageFails n).fuses = e.fuses := by
  unfold Se.stageFails
  dsimp only
  cases e.runB <;> cases e.retry <;> rfl

@[simp] theorem Se.stage_fuses (e : Se) (r : Bool) : (e.stage r).fuses = e.fuses := by
  unfold Se.stage
  dsimp only
  split
  · split <;> simp
  · split <;> simp
  · rfl
  · rfl

@[simp] theorem State.setSe_fixed (s : State) (f : Se → Se) (hf : (f s.se).fuses = s.se.fuses) :
    (s.setSe f).fixed = s.fixed := by
  exact Prod.ext rfl hf

@[simp] theorem State.seEvent_fixed (s : State) (b : Nat) :
    (State.seEvent s b).fixed = s.fixed := by
  unfold State.seEvent
  simp

@[simp] theorem execBootStage_fixed (read : Bool) (s : State) :
    Keeps s (execBootStage read s) := by
  unfold execBootStage
  simp

@[simp] theorem State.freshNonce_fixed (s : State) :
    (State.freshNonce s).fixed = s.fixed := by
  unfold State.freshNonce
  simp

@[simp] theorem execBootComplete_fixed (s : State) :
    Keeps s (execBootComplete s) := by
  unfold execBootComplete
  simp

-- State.setFuses changes the fuses: Laws/Fuses.lean

@[simp] theorem State.seResult_fixed (s : State) (code : Nat) :
    (State.seResult s code).fixed = s.fixed := by
  unfold State.seResult
  simp

-- execAdvanceFw changes the fuses: Laws/Fuses.lean

-- execAdvancePlan changes the fuses: Laws/Fuses.lean

@[simp] theorem State.recordEnds_fixed (s : State) (code : Nat) :
    (State.recordEnds s code).fixed = s.fixed := by
  unfold State.recordEnds
  simp

@[simp] theorem State.takeRecord_fixed (s : State) (r : List Byte) :
    (State.takeRecord s r).1.fixed = s.fixed := by
  unfold State.takeRecord
  simp

@[simp] theorem execSeSubmit_fixed (s : State) :
    Keeps s (execSeSubmit s) := by
  unfold execSeSubmit
  simp

@[simp] theorem State.recordDone_fixed (s : State) (code : Nat) :
    (State.recordDone s code).fixed = s.fixed := by
  unfold State.recordDone
  simp

-- execProgram changes the fuses: Laws/Fuses.lean

-- execRevoke changes the fuses: Laws/Fuses.lean

-- execSetPlanKey changes the fuses: Laws/Fuses.lean

@[simp] theorem execDebugUnlock_fixed (s : State) :
    Keeps s (execDebugUnlock s) := by
  unfold execDebugUnlock
  (repeat' split) <;> simp

-- execRaiseLock changes the fuses: Laws/Fuses.lean

@[simp] theorem State.answer_fixed (s : State) (proto code : Nat) (fields : List Nat) (bytes : List Byte) :
    (State.answer s proto code fields bytes).fixed = s.fixed := by
  unfold State.answer
  simp

@[simp] theorem State.spdm_fixed (s : State) (code : Nat) (fields : List Nat) (bytes : List Byte) :
    (State.spdm s code fields bytes).fixed = s.fixed := by
  unfold State.spdm
  simp

@[simp] theorem execGetVersion_fixed (doe : Bool) (s : State) :
    Keeps s (execGetVersion doe s) := by
  unfold execGetVersion
  simp

@[simp] theorem execGetCapabilities_fixed (doe : Bool) (s : State) :
    Keeps s (execGetCapabilities doe s) := by
  unfold execGetCapabilities
  simp

@[simp] theorem execNegotiateAlgorithms_fixed (doe sm2 sm3 : Bool) (s : State) :
    Keeps s (execNegotiateAlgorithms doe sm2 sm3 s) := by
  unfold execNegotiateAlgorithms
  simp

theorem State.spdmAgreed_fixed (s : State) (doe : Bool) (f : State → State) (hf : (f s).fixed = s.fixed) :
    Keeps s (s.spdmAgreed doe f) := by
  unfold State.spdmAgreed
  (repeat' split) <;> simp [hf]

@[simp] theorem execGetDigests_fixed (doe : Bool) (s : State) : Keeps s (execGetDigests doe s) := by
  unfold execGetDigests
  apply State.spdmAgreed_fixed
  try dsimp only
  (repeat' split) <;> simp

@[simp] theorem execGetCertificate_fixed (doe : Bool) (slot : Fin 4) (off : BitVec 16) (len : BitVec 16) (s : State) : Keeps s (execGetCertificate doe slot off len s) := by
  unfold execGetCertificate
  apply State.spdmAgreed_fixed
  try dsimp only
  (repeat' split) <;> simp

@[simp] theorem execChallenge_fixed (doe : Bool) (slot : Fin 4) (nonce : List Byte) (s : State) : Keeps s (execChallenge doe slot nonce s) := by
  unfold execChallenge
  apply State.spdmAgreed_fixed
  try dsimp only
  (repeat' split) <;> simp

@[simp] theorem execGetMeasurements_fixed (doe : Bool) (index : Fin 256) (sign : Bool) (nonce : List Byte) (s : State) : Keeps s (execGetMeasurements doe index sign nonce s) := by
  unfold execGetMeasurements
  apply State.spdmAgreed_fixed
  try dsimp only
  (repeat' split) <;> simp

@[simp] theorem execSetCertificate_fixed (doe : Bool) (slot : Fin 4) (chain : List Byte) (s : State) : Keeps s (execSetCertificate doe slot chain s) := by
  unfold execSetCertificate
  apply State.spdmAgreed_fixed
  try dsimp only
  (repeat' split) <;> simp

@[simp] theorem execChunkSend_fixed (doe : Bool) (last : Bool) (bytes : List Byte) (s : State) : Keeps s (execChunkSend doe last bytes s) := by
  unfold execChunkSend
  apply State.spdmAgreed_fixed
  try dsimp only
  (repeat' split) <;> simp

@[simp] theorem execChunkGet_fixed (doe : Bool) (i : Nat) (s : State) : Keeps s (execChunkGet doe i s) := by
  unfold execChunkGet
  apply State.spdmAgreed_fixed
  try dsimp only
  (repeat' split) <;> simp

@[simp] theorem State.mctp_fixed (s : State) (fields : List Nat) (bytes : List Byte) :
    Keeps s (State.mctp s fields bytes) := by
  unfold State.mctp
  simp

@[simp] theorem execSetEndpointId_fixed (id : Fin 256) (s : State) :
    Keeps s (execSetEndpointId id s) := by
  unfold execSetEndpointId
  simp

@[simp] theorem execGetEndpointId_fixed (s : State) :
    Keeps s (execGetEndpointId s) := by
  unfold execGetEndpointId
  simp

@[simp] theorem execGetMctpVersionSupport_fixed (type : Fin 256) (s : State) :
    Keeps s (execGetMctpVersionSupport type s) := by
  unfold execGetMctpVersionSupport
  simp

@[simp] theorem execGetMessageTypeSupport_fixed (s : State) :
    Keeps s (execGetMessageTypeSupport s) := by
  unfold execGetMessageTypeSupport
  simp

@[simp] theorem execGetEndpointUuid_fixed (s : State) :
    Keeps s (execGetEndpointUuid s) := by
  unfold execGetEndpointUuid
  simp

@[simp] theorem State.pldm_fixed (s : State) (level code : Nat) (fields : List Nat) (bytes : List Byte) :
    Keeps s (State.pldm s level code fields bytes) := by
  unfold State.pldm
  simp

@[simp] theorem execGettid_fixed (s : State) :
    Keeps s (execGettid s) := by
  unfold execGettid
  simp

@[simp] theorem execGetpldmversion_fixed (type : Fin 64) (s : State) :
    Keeps s (execGetpldmversion type s) := by
  unfold execGetpldmversion
  simp

@[simp] theorem execGetpldmtypes_fixed (s : State) :
    Keeps s (execGetpldmtypes s) := by
  unfold execGetpldmtypes
  simp

@[simp] theorem execGetpldmcommands_fixed (type : Fin 64) (s : State) :
    Keeps s (execGetpldmcommands type s) := by
  unfold execGetpldmcommands
  (repeat' split) <;> simp

@[simp] theorem execQuerydeviceidentifiers_fixed (s : State) :
    Keeps s (execQuerydeviceidentifiers s) := by
  unfold execQuerydeviceidentifiers
  simp

@[simp] theorem execPldmSensorRead_fixed (c : Option (Fin 256)) (s : State) :
    Keeps s (execPldmSensorRead c s) := by
  unfold execPldmSensorRead
  (repeat' split) <;> simp

@[simp] theorem execStateSetWake_fixed (s : State) :
    Keeps s (execStateSetWake s) := by
  unfold execStateSetWake
  simp

@[simp] theorem execStateSetShutter_fixed (s : State) :
    Keeps s (execStateSetShutter s) := by
  unfold execStateSetShutter
  simp

@[simp] theorem State.planData_fixed (s : State) (off : Nat) (bs : List Byte) (last : Bool) :
    (State.planData s off bs last).fixed = s.fixed := by
  unfold State.planData
  simp

@[simp] theorem execPldmComponentTransfer_fixed (id : BitVec 16) (off : Nat) (bytes : List Byte) (last : Bool) (s : State) :
    Keeps s (execPldmComponentTransfer id off bytes last s) := by
  unfold execPldmComponentTransfer
  simp

@[simp] theorem execPldmVerify_fixed (s : State) :
    Keeps s (execPldmVerify s) := by
  unfold execPldmVerify
  (repeat' split) <;> simp

@[simp] theorem execActivatefirmware_fixed (s : State) :
    Keeps s (execActivatefirmware s) := by
  unfold execActivatefirmware
  simp

@[simp] theorem execDebugMessage_fixed (bytes : List Byte) (s : State) :
    Keeps s (execDebugMessage bytes s) := by
  unfold execDebugMessage
  simp

end Sys2Proof.Machine
end

