-- ==== Sys2Proof/Laws/Fuses.lean ====
section
/-! SUPPORT. Laws/Fuses.lean: what the six commands that burn fuses can do to them, and that they leave the queue alone. -/

namespace Sys2Proof.Machine

theorem Fuses.le_refl (f : Fuses) : f.le f :=
  ⟨rfl, rfl, rfl, le_rfl, le_rfl, le_rfl, List.prefix_rfl, fun _ => le_rfl⟩

theorem Fuses.le_trans {f g h : Fuses} (a : f.le g) (b : g.le h) : f.le h :=
  ⟨b.1.trans a.1, b.2.1.trans a.2.1, b.2.2.1.trans a.2.2.1, a.2.2.2.1.trans b.2.2.2.1, a.2.2.2.2.1.trans b.2.2.2.2.1,
    a.2.2.2.2.2.1.trans b.2.2.2.2.2.1, a.2.2.2.2.2.2.1.trans b.2.2.2.2.2.2.1,
    fun i => (a.2.2.2.2.2.2.2 i).trans (b.2.2.2.2.2.2.2 i)⟩

/-- The queue of `s`, and the fuses of `s` or those with more burned, still legal where they were. -/
def Burns (s t : State) : Prop :=
  t.pending = s.pending ∧ s.se.fuses.le t.se.fuses ∧ (s.se.fuses.legal → t.se.fuses.legal)

theorem Burns.of_fixed {s t : State} (h : t.fixed = s.fixed) : Burns s t := by
  obtain ⟨hp, hf⟩ := Prod.ext_iff.mp h
  exact ⟨hp, by rw [show t.se.fuses = s.se.fuses from hf]; exact Fuses.le_refl _,
    by rw [show t.se.fuses = s.se.fuses from hf]; exact id⟩

theorem Burns.then_fixed {s t u : State} (h : Burns s t) (k : u.fixed = t.fixed) : Burns s u := by
  obtain ⟨hp, hf⟩ := Prod.ext_iff.mp k
  exact ⟨(show u.pending = t.pending from hp).trans h.1, by rw [show u.se.fuses = t.se.fuses from hf]; exact h.2.1,
    by rw [show u.se.fuses = t.se.fuses from hf]; exact h.2.2⟩

/-- Fuses changed by a function that only burns. -/
theorem State.setFuses_burns (s : State) (g : Fuses → Fuses) (h : s.se.fuses.le (g s.se.fuses))
    (k : s.se.fuses.legal → (g s.se.fuses).legal) : Burns s (s.setFuses g) := ⟨rfl, h, k⟩

/-- An outcome of a command that may burn. -/
def BurnsR (s : State) (r : Result) : Prop := ∀ t, r = .next t → Burns s t

theorem BurnsR.of_keeps {s : State} {r : Result} (h : Keeps s r) : BurnsR s r := fun t e => .of_fixed (h t e)

theorem burnsR_next {s t : State} (h : Burns s t) : BurnsR s (.next t) := by
  intro u e
  cases e
  exact h

theorem burnsR_ignored (s : State) : BurnsR s (ignored s) := .of_keeps (by simp)

/-- A minimum rises by an advance that is still to be had. -/
theorem Fuses.le_minFw (f : Fuses) (v n : Nat) : f.le { f with minFw := max f.minFw v, fwAdvances := n } :=
  ⟨rfl, rfl, rfl, le_max_left .., le_rfl, le_rfl, List.prefix_rfl, fun _ => le_rfl⟩

theorem Fuses.le_minPlan (f : Fuses) (v n : Nat) : f.le { f with minPlan := max f.minPlan v, planAdvances := n } :=
  ⟨rfl, rfl, rfl, le_rfl, le_max_left .., le_rfl, List.prefix_rfl, fun _ => le_rfl⟩

theorem Fuses.le_lock (f : Fuses) (v : Nat) : f.le { f with lock := max f.lock v } :=
  ⟨rfl, rfl, rfl, le_rfl, le_rfl, le_max_left .., List.prefix_rfl, fun _ => le_rfl⟩

theorem Fuses.le_keys (f : Fuses) (k : List Byte) : f.le { f with keys := f.keys ++ [k] } :=
  ⟨rfl, rfl, rfl, le_rfl, le_rfl, le_rfl, List.prefix_append .., fun _ => le_rfl⟩

theorem Fuses.le_setSlot (f : Fuses) (i : Nat) (v : SlotState × List Byte) (h : (f.slot i).1.rank ≤ v.1.rank) :
    f.le (f.setSlot i v) := by
  refine ⟨rfl, rfl, rfl, le_rfl, le_rfl, le_rfl, List.prefix_rfl, fun j => ?_⟩
  unfold Fuses.slot Fuses.setSlot at *
  simp only [List.getD_eq_getElem?_getD, List.getElem?_set]
  split
  · subst_vars
    split
    · simpa using h
    · simp_all
  · exact le_rfl

theorem Fuses.setSlot_legal (f : Fuses) (i : Nat) (v : SlotState × List Byte) (h : f.legal) : (f.setSlot i v).legal := by
  unfold Fuses.legal Fuses.setSlot at *
  simpa using h

theorem Burns.seResult {s t : State} (n : Nat) (h : Burns s t) : Burns s (t.seResult n) := h.then_fixed (by simp)

theorem Burns.recordDone {s t : State} (n : Nat) (h : Burns s t) : Burns s (t.recordDone n) := h.then_fixed (by simp)

theorem execAdvanceFw_burns (s : State) : BurnsR s (execAdvanceFw s) := by
  unfold execAdvanceFw
  dsimp only
  (repeat' split) <;> try first | exact burnsR_ignored s | (refine .of_keeps ?_; simp; done)
  refine burnsR_next (Burns.seResult _ (State.setFuses_burns s _ ?_ ?_))
  · exact Fuses.le_minFw ..
  · unfold Fuses.legal
    dsimp only
    omega

theorem execAdvancePlan_burns (s : State) : BurnsR s (execAdvancePlan s) := by
  unfold execAdvancePlan
  dsimp only
  (repeat' split) <;> try first | exact burnsR_ignored s | (refine .of_keeps ?_; simp; done)
  refine burnsR_next (Burns.seResult _ (State.setFuses_burns s _ ?_ ?_))
  · exact Fuses.le_minPlan ..
  · unfold Fuses.legal
    dsimp only
    omega

theorem execProgram_burns (s : State) : BurnsR s (execProgram s) := by
  unfold execProgram
  dsimp only
  (repeat' split) <;> try first | exact burnsR_ignored s | (refine .of_keeps ?_; simp; done)
  rename_i h
  refine burnsR_next (Burns.recordDone _ (State.setFuses_burns s _ ?_ ?_))
  · refine Fuses.le_setSlot _ _ _ ?_
    rw [h]
    exact Nat.zero_le _
  · exact Fuses.setSlot_legal _ _ _

theorem execRevoke_burns (s : State) : BurnsR s (execRevoke s) := by
  unfold execRevoke
  dsimp only
  (repeat' split) <;> try first | exact burnsR_ignored s | (refine .of_keeps ?_; simp; done)
  refine burnsR_next (Burns.recordDone _ (State.setFuses_burns s _ ?_ ?_))
  · refine Fuses.le_setSlot _ _ _ ?_
    cases (s.se.fuses.slot _).1 <;> simp [SlotState.rank]
  · exact Fuses.setSlot_legal _ _ _

theorem execSetPlanKey_burns (s : State) : BurnsR s (execSetPlanKey s) := by
  unfold execSetPlanKey
  (repeat' split) <;> try first | exact burnsR_ignored s | (refine .of_keeps ?_; simp; done)
  refine burnsR_next (Burns.recordDone _ (State.setFuses_burns s _ ?_ ?_))
  · exact Fuses.le_keys ..
  · unfold Fuses.legal
    simp only [List.length_append, List.length_singleton]
    omega

theorem execRaiseLock_burns (s : State) : BurnsR s (execRaiseLock s) := by
  unfold execRaiseLock
  dsimp only
  (repeat' split) <;> try first | exact burnsR_ignored s | (refine .of_keeps ?_; simp; done)
  refine burnsR_next (Burns.recordDone _ (State.setFuses_burns s _ ?_ ?_))
  · exact Fuses.le_lock ..
  · unfold Fuses.legal
    dsimp only
    omega

end Sys2Proof.Machine
end

