-- ==== Sys2Proof/Laws/FxRegisters.lean ====
section
/-! SUPPORT. Laws/FxRegisters.lean: the operations and meanings of Machine/Registers.lean leave the queue and the fuses as they were. -/

set_option linter.unusedSimpArgs false
set_option linter.unusedTactic false
set_option linter.unreachableTactic false
set_option linter.unnecessarySeqFocus false

namespace Sys2Proof.Machine

@[simp] theorem State.readLo_fixed (s : State) (r : Reg) (i : Nat) :
    (State.readLo s r i).fixed = s.fixed := by
  unfold State.readLo
  simp

@[simp] theorem execMerCountLoRead_fixed (s : State) :
    Keeps s (execMerCountLoRead s) := by
  unfold execMerCountLoRead
  simp

@[simp] theorem execMerFrameStartLoRead_fixed (s : State) :
    Keeps s (execMerFrameStartLoRead s) := by
  unfold execMerFrameStartLoRead
  simp

@[simp] theorem execWgRowsLoRead_fixed (st : Fin 16) (s : State) :
    Keeps s (execWgRowsLoRead st s) := by
  unfold execWgRowsLoRead
  simp

@[simp] theorem execWgBatchStepLoRead_fixed (st : Fin 16) (s : State) :
    Keeps s (execWgBatchStepLoRead st s) := by
  unfold execWgBatchStepLoRead
  simp

@[simp] theorem execMxFeedLoRead_fixed (a : Fin 64) (s : State) :
    Keeps s (execMxFeedLoRead a s) := by
  unfold execMxFeedLoRead
  simp

@[simp] theorem execMxAtticHitsLoRead_fixed (s : State) :
    Keeps s (execMxAtticHitsLoRead s) := by
  unfold execMxAtticHitsLoRead
  simp

@[simp] theorem execVeBusyLoRead_fixed (a : Fin 64) (s : State) :
    Keeps s (execVeBusyLoRead a s) := by
  unfold execVeBusyLoRead
  simp

@[simp] theorem execUpContribLoRead_fixed (st : Fin 16) (s : State) :
    Keeps s (execUpContribLoRead st s) := by
  unfold execUpContribLoRead
  simp

@[simp] theorem execUpCloseLoRead_fixed (s : State) :
    Keeps s (execUpCloseLoRead s) := by
  unfold execUpCloseLoRead
  simp

@[simp] theorem execFbFecCorrLoRead_fixed (p : Fin 64) (s : State) :
    Keeps s (execFbFecCorrLoRead p s) := by
  unfold execFbFecCorrLoRead
  simp

@[simp] theorem execFbTxFlitsLoRead_fixed (p : Fin 64) (s : State) :
    Keeps s (execFbTxFlitsLoRead p s) := by
  unfold execFbTxFlitsLoRead
  simp

@[simp] theorem execFbRxFlitsLoRead_fixed (p : Fin 64) (s : State) :
    Keeps s (execFbRxFlitsLoRead p s) := by
  unfold execFbRxFlitsLoRead
  simp

@[simp] theorem execHcLbAcceptedLoRead_fixed (s : State) :
    Keeps s (execHcLbAcceptedLoRead s) := by
  unfold execHcLbAcceptedLoRead
  simp

@[simp] theorem execXlHitsLoRead_fixed (s : State) :
    Keeps s (execXlHitsLoRead s) := by
  unfold execXlHitsLoRead
  simp

@[simp] theorem execCfCommandsLoRead_fixed (s : State) :
    Keeps s (execCfCommandsLoRead s) := by
  unfold execCfCommandsLoRead
  simp

@[simp] theorem execCfCapCountLoRead_fixed (s : State) :
    Keeps s (execCfCapCountLoRead s) := by
  unfold execCfCapCountLoRead
  simp

@[simp] theorem execScGrpEngineLoRead_fixed (s : State) :
    Keeps s (execScGrpEngineLoRead s) := by
  unfold execScGrpEngineLoRead
  simp

@[simp] theorem execScGrpGrantsLoRead_fixed (s : State) :
    Keeps s (execScGrpGrantsLoRead s) := by
  unfold execScGrpGrantsLoRead
  simp

@[simp] theorem execScGrpFlitsLoRead_fixed (s : State) :
    Keeps s (execScGrpFlitsLoRead s) := by
  unfold execScGrpFlitsLoRead
  simp

@[simp] theorem execScGrpDmaLoRead_fixed (s : State) :
    Keeps s (execScGrpDmaLoRead s) := by
  unfold execScGrpDmaLoRead
  simp

@[simp] theorem execRlEccCorrLoRead_fixed (s : State) :
    Keeps s (execRlEccCorrLoRead s) := by
  unfold execRlEccCorrLoRead
  simp

@[simp] theorem execRlLogCountLoRead_fixed (s : State) :
    Keeps s (execRlLogCountLoRead s) := by
  unfold execRlLogCountLoRead
  simp

@[simp] theorem execTrLatchLoRead_fixed (s : State) :
    Keeps s (execTrLatchLoRead s) := by
  unfold execTrLatchLoRead
  simp

@[simp] theorem State.setWindow_fixed (s : State) (f : Window → Window) :
    (State.setWindow s f).fixed = s.fixed := by
  unfold State.setWindow
  simp

@[simp] theorem State.store_fixed (s : State) (r : Reg) (i : Nat) (v : Word) :
    (State.store s r i v).fixed = s.fixed := by
  unfold State.store
  (repeat' split) <;> simp

@[simp] theorem State.regWrite_fixed (s : State) (r : Reg) (i : Nat) (v : Word) :
    (State.regWrite s r i v).fixed = s.fixed := by
  unfold State.regWrite
  (repeat' split) <;> simp

@[simp] theorem State.barWrite_fixed (s : State) (off : Nat) (v : Word) :
    (State.barWrite s off v).fixed = s.fixed := by
  unfold State.barWrite
  (repeat' split) <;> simp

@[simp] theorem execRegisterWrite_fixed (addr : BitVec 25) (wide : Bool) (v : BitVec 64) (s : State) :
    Keeps s (execRegisterWrite addr wide v s) := by
  unfold execRegisterWrite
  simp

end Sys2Proof.Machine
end

