-- ==== Sys2Proof/Laws/FxClock.lean ====
section
/-! SUPPORT. Laws/FxClock.lean: the operations and meanings of Machine/Clock.lean leave the queue and the fuses as they were. -/

namespace Sys2Proof.Machine

@[simp] theorem State.fecTime_fixed (s : State) (p : Nat) :
    (State.fecTime s p).fixed = s.fixed := by
  unfold State.fecTime
  simp

@[simp] theorem State.portTime_fixed (s : State) (p : Nat) :
    (State.portTime s p).fixed = s.fixed := by
  unfold State.portTime
  simp

@[simp] theorem State.govTime_fixed (s : State) (st : Nat) :
    (State.govTime s st).fixed = s.fixed := by
  unfold State.govTime
  simp

@[simp] theorem State.grantTime_fixed (n : Nat) (s : State) (g : Nat) :
    (State.grantTime n s g).fixed = s.fixed := by
  unfold State.grantTime
  simp

@[simp] theorem State.rcTime_fixed (s : State) :
    (State.rcTime s).fixed = s.fixed := by
  unfold State.rcTime
  split <;> simp

@[simp] theorem State.clock_fixed (s : State) :
    (State.clock s).fixed = s.fixed := by
  unfold State.clock
  simp

end Sys2Proof.Machine
end

