-- ==== Sys2Proof/Laws/Exec.lean ====
section
/-! SUPPORT. Laws/Exec.lean: what each command leaves of the queue and the fuses, one lemma per constructor, so that a statement
about every command is a case split over them. -/

namespace Sys2Proof.Machine

theorem exec_registerWrite_keeps (addr : BitVec 25) (wide : Bool) (v : BitVec 64) (s : State) : Keeps s (exec (.registerWrite addr wide v) s) := by
  dsimp only [exec]
  exact execRegisterWrite_fixed addr wide v s

theorem exec_merCountLoRead_keeps (s : State) : Keeps s (exec .merCountLoRead s) := by
  dsimp only [exec]
  exact execMerCountLoRead_fixed s

theorem exec_merFrameStartLoRead_keeps (s : State) : Keeps s (exec .merFrameStartLoRead s) := by
  dsimp only [exec]
  exact execMerFrameStartLoRead_fixed s

theorem exec_wgRowsLoRead_keeps (st : Fin 16) (s : State) : Keeps s (exec (.wgRowsLoRead st) s) := by
  dsimp only [exec]
  exact execWgRowsLoRead_fixed st s

theorem exec_wgBatchStepLoRead_keeps (st : Fin 16) (s : State) : Keeps s (exec (.wgBatchStepLoRead st) s) := by
  dsimp only [exec]
  exact execWgBatchStepLoRead_fixed st s

theorem exec_mxFeedLoRead_keeps (a : Fin 64) (s : State) : Keeps s (exec (.mxFeedLoRead a) s) := by
  dsimp only [exec]
  exact execMxFeedLoRead_fixed a s

theorem exec_mxAtticHitsLoRead_keeps (s : State) : Keeps s (exec .mxAtticHitsLoRead s) := by
  dsimp only [exec]
  exact execMxAtticHitsLoRead_fixed s

theorem exec_veBusyLoRead_keeps (a : Fin 64) (s : State) : Keeps s (exec (.veBusyLoRead a) s) := by
  dsimp only [exec]
  exact execVeBusyLoRead_fixed a s

theorem exec_upContribLoRead_keeps (st : Fin 16) (s : State) : Keeps s (exec (.upContribLoRead st) s) := by
  dsimp only [exec]
  exact execUpContribLoRead_fixed st s

theorem exec_upCloseLoRead_keeps (s : State) : Keeps s (exec .upCloseLoRead s) := by
  dsimp only [exec]
  exact execUpCloseLoRead_fixed s

theorem exec_fbFecCorrLoRead_keeps (p : Fin 64) (s : State) : Keeps s (exec (.fbFecCorrLoRead p) s) := by
  dsimp only [exec]
  exact execFbFecCorrLoRead_fixed p s

theorem exec_fbTxFlitsLoRead_keeps (p : Fin 64) (s : State) : Keeps s (exec (.fbTxFlitsLoRead p) s) := by
  dsimp only [exec]
  exact execFbTxFlitsLoRead_fixed p s

theorem exec_fbRxFlitsLoRead_keeps (p : Fin 64) (s : State) : Keeps s (exec (.fbRxFlitsLoRead p) s) := by
  dsimp only [exec]
  exact execFbRxFlitsLoRead_fixed p s

theorem exec_hcLbAcceptedLoRead_keeps (s : State) : Keeps s (exec .hcLbAcceptedLoRead s) := by
  dsimp only [exec]
  exact execHcLbAcceptedLoRead_fixed s

theorem exec_xlHitsLoRead_keeps (s : State) : Keeps s (exec .xlHitsLoRead s) := by
  dsimp only [exec]
  exact execXlHitsLoRead_fixed s

theorem exec_cfCommandsLoRead_keeps (s : State) : Keeps s (exec .cfCommandsLoRead s) := by
  dsimp only [exec]
  exact execCfCommandsLoRead_fixed s

theorem exec_cfCapCountLoRead_keeps (s : State) : Keeps s (exec .cfCapCountLoRead s) := by
  dsimp only [exec]
  exact execCfCapCountLoRead_fixed s

theorem exec_scGrpEngineLoRead_keeps (s : State) : Keeps s (exec .scGrpEngineLoRead s) := by
  dsimp only [exec]
  exact execScGrpEngineLoRead_fixed s

theorem exec_scGrpGrantsLoRead_keeps (s : State) : Keeps s (exec .scGrpGrantsLoRead s) := by
  dsimp only [exec]
  exact execScGrpGrantsLoRead_fixed s

theorem exec_scGrpFlitsLoRead_keeps (s : State) : Keeps s (exec .scGrpFlitsLoRead s) := by
  dsimp only [exec]
  exact execScGrpFlitsLoRead_fixed s

theorem exec_scGrpDmaLoRead_keeps (s : State) : Keeps s (exec .scGrpDmaLoRead s) := by
  dsimp only [exec]
  exact execScGrpDmaLoRead_fixed s

theorem exec_rlEccCorrLoRead_keeps (s : State) : Keeps s (exec .rlEccCorrLoRead s) := by
  dsimp only [exec]
  exact execRlEccCorrLoRead_fixed s

theorem exec_rlLogCountLoRead_keeps (s : State) : Keeps s (exec .rlLogCountLoRead s) := by
  dsimp only [exec]
  exact execRlLogCountLoRead_fixed s

theorem exec_trLatchLoRead_keeps (s : State) : Keeps s (exec .trLatchLoRead s) := by
  dsimp only [exec]
  exact execTrLatchLoRead_fixed s

theorem exec_fpFetch_keeps (s : State) : Keeps s (exec .fpFetch s) := by
  dsimp only [exec]
  exact execFpFetch_fixed s

theorem exec_fpVerify_keeps (s : State) : Keeps s (exec .fpVerify s) := by
  dsimp only [exec]
  exact execFpVerify_fixed s

theorem exec_fpApply_keeps (s : State) : Keeps s (exec .fpApply s) := by
  dsimp only [exec]
  exact execFpApply_fixed s

theorem exec_fpAmend_keeps (s : State) : Keeps s (exec .fpAmend s) := by
  dsimp only [exec]
  exact execFpAmend_fixed s

theorem exec_fpAbort_keeps (s : State) : Keeps s (exec .fpAbort s) := by
  dsimp only [exec]
  exact execFpAbort_fixed s

theorem exec_fpDiscard_keeps (s : State) : Keeps s (exec .fpDiscard s) := by
  dsimp only [exec]
  exact execFpDiscard_fixed s

theorem exec_fpBadCommand_keeps (cmd : Fin 16) (s : State) : Keeps s (exec (.fpBadCommand cmd) s) := by
  dsimp only [exec]
  exact execFpBadCommand_fixed cmd s

theorem exec_stagingWrite_keeps (off : Fin 32768) (wide : Bool) (v : BitVec 64) (s : State) : Keeps s (exec (.stagingWrite off wide v) s) := by
  dsimp only [exec]
  exact execStagingWrite_fixed off wide v s

theorem exec_fpLenWrite_keeps (v : BitVec 32) (s : State) : Keeps s (exec (.fpLenWrite v) s) := by
  dsimp only [exec]
  exact execFpLenWrite_fixed v s

theorem exec_fetchReadCompletion_keeps (off : Nat) (bytes : List Byte) (ok : Bool) (s : State) : Keeps s (exec (.fetchReadCompletion off bytes ok) s) := by
  dsimp only [exec]
  exact execFetchReadCompletion_fixed off bytes ok s

theorem exec_verifyComplete_keeps (s : State) : Keeps s (exec .verifyComplete s) := by
  dsimp only [exec]
  exact execVerifyComplete_fixed s

theorem exec_applicationComplete_keeps (fault : Option (Bool × Nat)) (s : State) : Keeps s (exec (.applicationComplete fault) s) := by
  dsimp only [exec]
  exact execApplicationComplete_fixed fault s

theorem exec_amendmentEffect_keeps (s : State) : Keeps s (exec .amendmentEffect s) := by
  dsimp only [exec]
  exact execAmendmentEffect_fixed s

theorem exec_fpDrainWrite_keeps (k : Fin 5) (v : BitVec 32) (s : State) : Keeps s (exec (.fpDrainWrite k v) s) := by
  dsimp only [exec]
  exact execFpDrainWrite_fixed k v s

theorem exec_unitDrained_keeps (kind : Fin 3) (i : Fin 64) (s : State) : Keeps s (exec (.unitDrained kind i) s) := by
  dsimp only [exec]
  exact execUnitDrained_fixed kind i s

theorem exec_pulseEdge_keeps (falling : Bool) (s : State) : Keeps s (exec (.pulseEdge falling) s) := by
  dsimp only [exec]
  exact execPulseEdge_fixed falling s

theorem exec_refLost_keeps (noEdges : Bool) (s : State) : Keeps s (exec (.refLost noEdges) s) := by
  dsimp only [exec]
  exact execRefLost_fixed noEdges s

theorem exec_holdoverAlarm_keeps (s : State) : Keeps s (exec .holdoverAlarm s) := by
  dsimp only [exec]
  exact execHoldoverAlarm_fixed s

theorem exec_masterChange_keeps (s : State) : Keeps s (exec .masterChange s) := by
  dsimp only [exec]
  exact execMasterChange_fixed s

theorem exec_merCtrlStep_keeps (v : BitVec 32) (s : State) : Keeps s (exec (.merCtrlStep v) s) := by
  dsimp only [exec]
  exact execMerCtrlStep_fixed v s

theorem exec_countStep_keeps (s : State) : Keeps s (exec .countStep s) := by
  dsimp only [exec]
  exact execCountStep_fixed s

theorem exec_slotBoundary_keeps (s : State) : Keeps s (exec .slotBoundary s) := by
  dsimp only [exec]
  exact execSlotBoundary_fixed s

theorem exec_epochClose_keeps (s : State) : Keeps s (exec .epochClose s) := by
  dsimp only [exec]
  exact execEpochClose_fixed s

theorem exec_flip_keeps (s : State) : Keeps s (exec .flip s) := by
  dsimp only [exec]
  exact execFlip_fixed s

theorem exec_digestComparison_keeps (g : Fin 4096) (s : State) : Keeps s (exec (.digestComparison g) s) := by
  dsimp only [exec]
  exact execDigestComparison_fixed g s

theorem exec_watchdogExpiry_keeps (launch : Bool) (id : Nat) (s : State) : Keeps s (exec (.watchdogExpiry launch id) s) := by
  dsimp only [exec]
  exact execWatchdogExpiry_fixed launch id s

theorem exec_plannedRetrain_keeps (st : Fin 16) (ph : Fin 64) (s : State) : Keeps s (exec (.plannedRetrain st ph) s) := by
  dsimp only [exec]
  exact execPlannedRetrain_fixed st ph s

theorem exec_unplannedRetrain_keeps (st : Fin 16) (ph : Fin 64) (s : State) : Keeps s (exec (.unplannedRetrain st ph) s) := by
  dsimp only [exec]
  exact execUnplannedRetrain_fixed st ph s

theorem exec_retrainDone_keeps (st : Fin 16) (ph : Fin 64) (ok : Bool) (s : State) : Keeps s (exec (.retrainDone st ph ok) s) := by
  dsimp only [exec]
  exact execRetrainDone_fixed st ph ok s

theorem exec_channelFail_keeps (st : Fin 16) (ph : Fin 64) (s : State) : Keeps s (exec (.channelFail st ph) s) := by
  dsimp only [exec]
  exact execChannelFail_fixed st ph s

theorem exec_burnRow_keeps (st : Fin 16) (s : State) : Keeps s (exec (.burnRow st) s) := by
  dsimp only [exec]
  exact execBurnRow_fixed st s

theorem exec_burnColumn_keeps (st : Fin 16) (s : State) : Keeps s (exec (.burnColumn st) s) := by
  dsimp only [exec]
  exact execBurnColumn_fixed st s

theorem exec_burnRoom_keeps (st : Fin 16) (s : State) : Keeps s (exec (.burnRoom st) s) := by
  dsimp only [exec]
  exact execBurnRoom_fixed st s

theorem exec_repairBadArg_keeps (st : Fin 16) (s : State) : Keeps s (exec (.repairBadArg st) s) := by
  dsimp only [exec]
  exact execRepairBadArg_fixed st s

theorem exec_burnDone_keeps (st : Fin 16) (ok : Bool) (s : State) : Keeps s (exec (.burnDone st ok) s) := by
  dsimp only [exec]
  exact execBurnDone_fixed st ok s

theorem exec_softRowSpare_keeps (st : Fin 16) (s : State) : Keeps s (exec (.softRowSpare st) s) := by
  dsimp only [exec]
  exact execSoftRowSpare_fixed st s

theorem exec_refresh_keeps (st : Fin 16) (ph : Fin 64) (storey : Fin 8) (s : State) : Keeps s (exec (.refresh st ph storey) s) := by
  dsimp only [exec]
  exact execRefresh_fixed st ph storey s

theorem exec_scrubWindow_keeps (k : Nat) (s : State) : Keeps s (exec (.scrubWindow k) s) := by
  dsimp only [exec]
  exact execScrubWindow_fixed k s

theorem exec_scrubBlock_keeps (st : Fin 16) (corrected raced : Bool) (unc : Fin 16) (s : State) : Keeps s (exec (.scrubBlock st corrected raced unc) s) := by
  dsimp only [exec]
  exact execScrubBlock_fixed st corrected raced unc s

theorem exec_scrubWindowEnd_keeps (s : State) : Keeps s (exec .scrubWindowEnd s) := by
  dsimp only [exec]
  exact execScrubWindowEnd_fixed s

theorem exec_calibrateWindow_keeps (k : Nat) (s : State) : Keeps s (exec (.calibrateWindow k) s) := by
  dsimp only [exec]
  exact execCalibrateWindow_fixed k s

theorem exec_calibrationStep_keeps (st : Fin 16) (s : State) : Keeps s (exec (.calibrationStep st) s) := by
  dsimp only [exec]
  exact execCalibrationStep_fixed st s

theorem exec_calWindowEnd_keeps (s : State) : Keeps s (exec .calWindowEnd s) := by
  dsimp only [exec]
  exact execCalWindowEnd_fixed s

theorem exec_contentAccept_keeps (st : Fin 16) (s : State) : Keeps s (exec (.contentAccept st) s) := by
  dsimp only [exec]
  exact execContentAccept_fixed st s

theorem exec_contentClear_keeps (st : Fin 16) (s : State) : Keeps s (exec (.contentClear st) s) := by
  dsimp only [exec]
  exact execContentClear_fixed st s

theorem exec_contentVerifyDone_keeps (st : Fin 16) (s : State) : Keeps s (exec (.contentVerifyDone st) s) := by
  dsimp only [exec]
  exact execContentVerifyDone_fixed st s

theorem exec_contentClearDone_keeps (st : Fin 16) (s : State) : Keeps s (exec (.contentClearDone st) s) := by
  dsimp only [exec]
  exact execContentClearDone_fixed st s

theorem exec_roomCall_keeps (wk : Work) (s : State) : Keeps s (exec (.roomCall wk) s) := by
  dsimp only [exec]
  exact execRoomCall_fixed wk s

theorem exec_directRead_keeps (r : Fin 1048576) (o : Fin 16384) (s : State) : Keeps s (exec (.directRead r o) s) := by
  dsimp only [exec]
  exact execDirectRead_fixed r o s

theorem exec_illegal_keeps (r : Fin 1048576) (s : State) : Keeps s (exec (.illegal r) s) := by
  dsimp only [exec]
  exact execIllegal_fixed r s

theorem exec_nop_keeps (r : Fin 1048576) (s : State) : Keeps s (exec (.nop r) s) := by
  dsimp only [exec]
  exact execNop_fixed r s

theorem exec_add_keeps (r : Fin 1048576) (s : State) : Keeps s (exec (.add r) s) := by
  dsimp only [exec]
  exact execAdd_fixed r s

theorem exec_sub_keeps (r : Fin 1048576) (s : State) : Keeps s (exec (.sub r) s) := by
  dsimp only [exec]
  exact execSub_fixed r s

theorem exec_and_keeps (r : Fin 1048576) (s : State) : Keeps s (exec (.and r) s) := by
  dsimp only [exec]
  exact execAnd_fixed r s

theorem exec_or_keeps (r : Fin 1048576) (s : State) : Keeps s (exec (.or r) s) := by
  dsimp only [exec]
  exact execOr_fixed r s

theorem exec_xor_keeps (r : Fin 1048576) (s : State) : Keeps s (exec (.xor r) s) := by
  dsimp only [exec]
  exact execXor_fixed r s

theorem exec_shl_keeps (r : Fin 1048576) (s : State) : Keeps s (exec (.shl r) s) := by
  dsimp only [exec]
  exact execShl_fixed r s

theorem exec_shr_keeps (r : Fin 1048576) (s : State) : Keeps s (exec (.shr r) s) := by
  dsimp only [exec]
  exact execShr_fixed r s

theorem exec_sra_keeps (r : Fin 1048576) (s : State) : Keeps s (exec (.sra r) s) := by
  dsimp only [exec]
  exact execSra_fixed r s

theorem exec_mul_keeps (r : Fin 1048576) (s : State) : Keeps s (exec (.mul r) s) := by
  dsimp only [exec]
  exact execMul_fixed r s

theorem exec_slt_keeps (r : Fin 1048576) (s : State) : Keeps s (exec (.slt r) s) := by
  dsimp only [exec]
  exact execSlt_fixed r s

theorem exec_addi_keeps (r : Fin 1048576) (s : State) : Keeps s (exec (.addi r) s) := by
  dsimp only [exec]
  exact execAddi_fixed r s

theorem exec_lui_keeps (r : Fin 1048576) (s : State) : Keeps s (exec (.lui r) s) := by
  dsimp only [exec]
  exact execLui_fixed r s

theorem exec_beq_keeps (r : Fin 1048576) (s : State) : Keeps s (exec (.beq r) s) := by
  dsimp only [exec]
  exact execBeq_fixed r s

theorem exec_bne_keeps (r : Fin 1048576) (s : State) : Keeps s (exec (.bne r) s) := by
  dsimp only [exec]
  exact execBne_fixed r s

theorem exec_blt_keeps (r : Fin 1048576) (s : State) : Keeps s (exec (.blt r) s) := by
  dsimp only [exec]
  exact execBlt_fixed r s

theorem exec_bge_keeps (r : Fin 1048576) (s : State) : Keeps s (exec (.bge r) s) := by
  dsimp only [exec]
  exact execBge_fixed r s

theorem exec_jal_keeps (r : Fin 1048576) (s : State) : Keeps s (exec (.jal r) s) := by
  dsimp only [exec]
  exact execJal_fixed r s

theorem exec_jr_keeps (r : Fin 1048576) (s : State) : Keeps s (exec (.jr r) s) := by
  dsimp only [exec]
  exact execJr_fixed r s

theorem exec_loop_keeps (r : Fin 1048576) (s : State) : Keeps s (exec (.loop r) s) := by
  dsimp only [exec]
  exact execLoop_fixed r s

theorem exec_lds_keeps (r : Fin 1048576) (s : State) : Keeps s (exec (.lds r) s) := by
  dsimp only [exec]
  exact execLds_fixed r s

theorem exec_sts_keeps (r : Fin 1048576) (s : State) : Keeps s (exec (.sts r) s) := by
  dsimp only [exec]
  exact execSts_fixed r s

theorem exec_ldsv_keeps (r : Fin 1048576) (s : State) : Keeps s (exec (.ldsv r) s) := by
  dsimp only [exec]
  exact execLdsv_fixed r s

theorem exec_stsv_keeps (r : Fin 1048576) (s : State) : Keeps s (exec (.stsv r) s) := by
  dsimp only [exec]
  exact execStsv_fixed r s

theorem exec_ldc_keeps (r : Fin 1048576) (s : State) : Keeps s (exec (.ldc r) s) := by
  dsimp only [exec]
  exact execLdc_fixed r s

theorem exec_ldcv_keeps (r : Fin 1048576) (s : State) : Keeps s (exec (.ldcv r) s) := by
  dsimp only [exec]
  exact execLdcv_fixed r s

theorem exec_fadd_keeps (r : Fin 1048576) (s : State) : Keeps s (exec (.fadd r) s) := by
  dsimp only [exec]
  exact execFadd_fixed r s

theorem exec_fsub_keeps (r : Fin 1048576) (s : State) : Keeps s (exec (.fsub r) s) := by
  dsimp only [exec]
  exact execFsub_fixed r s

theorem exec_fmul_keeps (r : Fin 1048576) (s : State) : Keeps s (exec (.fmul r) s) := by
  dsimp only [exec]
  exact execFmul_fixed r s

theorem exec_fdiv_keeps (r : Fin 1048576) (s : State) : Keeps s (exec (.fdiv r) s) := by
  dsimp only [exec]
  exact execFdiv_fixed r s

theorem exec_fsqrt_keeps (r : Fin 1048576) (s : State) : Keeps s (exec (.fsqrt r) s) := by
  dsimp only [exec]
  exact execFsqrt_fixed r s

theorem exec_frsq_keeps (r : Fin 1048576) (s : State) : Keeps s (exec (.frsq r) s) := by
  dsimp only [exec]
  exact execFrsq_fixed r s

theorem exec_fmin_keeps (r : Fin 1048576) (s : State) : Keeps s (exec (.fmin r) s) := by
  dsimp only [exec]
  exact execFmin_fixed r s

theorem exec_fmax_keeps (r : Fin 1048576) (s : State) : Keeps s (exec (.fmax r) s) := by
  dsimp only [exec]
  exact execFmax_fixed r s

theorem exec_itof_keeps (r : Fin 1048576) (s : State) : Keeps s (exec (.itof r) s) := by
  dsimp only [exec]
  exact execItof_fixed r s

theorem exec_ftoi_keeps (r : Fin 1048576) (s : State) : Keeps s (exec (.ftoi r) s) := by
  dsimp only [exec]
  exact execFtoi_fixed r s

theorem exec_flt_keeps (r : Fin 1048576) (s : State) : Keeps s (exec (.flt r) s) := by
  dsimp only [exec]
  exact execFlt_fixed r s

theorem exec_vadd_keeps (r : Fin 1048576) (s : State) : Keeps s (exec (.vadd r) s) := by
  dsimp only [exec]
  exact execVadd_fixed r s

theorem exec_vmul_keeps (r : Fin 1048576) (s : State) : Keeps s (exec (.vmul r) s) := by
  dsimp only [exec]
  exact execVmul_fixed r s

theorem exec_vfma_keeps (r : Fin 1048576) (s : State) : Keeps s (exec (.vfma r) s) := by
  dsimp only [exec]
  exact execVfma_fixed r s

theorem exec_vmax_keeps (r : Fin 1048576) (s : State) : Keeps s (exec (.vmax r) s) := by
  dsimp only [exec]
  exact execVmax_fixed r s

theorem exec_vcvt_keeps (r : Fin 1048576) (s : State) : Keeps s (exec (.vcvt r) s) := by
  dsimp only [exec]
  exact execVcvt_fixed r s

theorem exec_vsplat_keeps (r : Fin 1048576) (s : State) : Keeps s (exec (.vsplat r) s) := by
  dsimp only [exec]
  exact execVsplat_fixed r s

theorem exec_vsum_keeps (r : Fin 1048576) (s : State) : Keeps s (exec (.vsum r) s) := by
  dsimp only [exec]
  exact execVsum_fixed r s

theorem exec_vmovGet_keeps (r : Fin 1048576) (s : State) : Keeps s (exec (.vmovGet r) s) := by
  dsimp only [exec]
  exact execVmovGet_fixed r s

theorem exec_vmovPut_keeps (r : Fin 1048576) (s : State) : Keeps s (exec (.vmovPut r) s) := by
  dsimp only [exec]
  exact execVmovPut_fixed r s

theorem exec_rfetch_keeps (r : Fin 1048576) (s : State) : Keeps s (exec (.rfetch r) s) := by
  dsimp only [exec]
  exact execRfetch_fixed r s

theorem exec_rput_keeps (r : Fin 1048576) (s : State) : Keeps s (exec (.rput r) s) := by
  dsimp only [exec]
  exact execRput_fixed r s

theorem exec_rfetchDone_keeps (r : Fin 1048576) (slot : Fin 4) (s : State) : Keeps s (exec (.rfetchDone r slot) s) := by
  dsimp only [exec]
  exact execRfetchDone_fixed r slot s

theorem exec_rputDone_keeps (r : Fin 1048576) (slot : Fin 4) (s : State) : Keeps s (exec (.rputDone r slot) s) := by
  dsimp only [exec]
  exact execRputDone_fixed r slot s

theorem exec_rcheck_keeps (r : Fin 1048576) (s : State) : Keeps s (exec (.rcheck r) s) := by
  dsimp only [exec]
  exact execRcheck_fixed r s

theorem exec_dqaccAssign_keeps (r : Fin 1048576) (s : State) : Keeps s (exec (.dqaccAssign r) s) := by
  dsimp only [exec]
  exact execDqaccAssign_fixed r s

theorem exec_dqaccAdd_keeps (r : Fin 1048576) (s : State) : Keeps s (exec (.dqaccAdd r) s) := by
  dsimp only [exec]
  exact execDqaccAdd_fixed r s

theorem exec_dqaccMax_keeps (r : Fin 1048576) (s : State) : Keeps s (exec (.dqaccMax r) s) := by
  dsimp only [exec]
  exact execDqaccMax_fixed r s

theorem exec_scale_keeps (r : Fin 1048576) (s : State) : Keeps s (exec (.scale r) s) := by
  dsimp only [exec]
  exact execScale_fixed r s

theorem exec_pack_keeps (r : Fin 1048576) (s : State) : Keeps s (exec (.pack r) s) := by
  dsimp only [exec]
  exact execPack_fixed r s

theorem exec_fupd_keeps (r : Fin 1048576) (s : State) : Keeps s (exec (.fupd r) s) := by
  dsimp only [exec]
  exact execFupd_fixed r s

theorem exec_rseed_keeps (r : Fin 1048576) (s : State) : Keeps s (exec (.rseed r) s) := by
  dsimp only [exec]
  exact execRseed_fixed r s

theorem exec_rand_keeps (r : Fin 1048576) (s : State) : Keeps s (exec (.rand r) s) := by
  dsimp only [exec]
  exact execRand_fixed r s

theorem exec_recv_keeps (r : Fin 1048576) (s : State) : Keeps s (exec (.recv r) s) := by
  dsimp only [exec]
  exact execRecv_fixed r s

theorem exec_recvDone_keeps (r : Fin 1048576) (s : State) : Keeps s (exec (.recvDone r) s) := by
  dsimp only [exec]
  exact execRecvDone_fixed r s

theorem exec_send_keeps (r : Fin 1048576) (s : State) : Keeps s (exec (.send r) s) := by
  dsimp only [exec]
  exact execSend_fixed r s

theorem exec_sendDone_keeps (r : Fin 1048576) (s : State) : Keeps s (exec (.sendDone r) s) := by
  dsimp only [exec]
  exact execSendDone_fixed r s

theorem exec_wait_keeps (r : Fin 1048576) (s : State) : Keeps s (exec (.wait r) s) := by
  dsimp only [exec]
  exact execWait_fixed r s

theorem exec_evt_keeps (r : Fin 1048576) (s : State) : Keeps s (exec (.evt r) s) := by
  dsimp only [exec]
  exact execEvt_fixed r s

theorem exec_fence_keeps (r : Fin 1048576) (s : State) : Keeps s (exec (.fence r) s) := by
  dsimp only [exec]
  exact execFence_fixed r s

theorem exec_gets_keeps (r : Fin 1048576) (s : State) : Keeps s (exec (.gets r) s) := by
  dsimp only [exec]
  exact execGets_fixed r s

theorem exec_endCall_keeps (r : Fin 1048576) (s : State) : Keeps s (exec (.endCall r) s) := by
  dsimp only [exec]
  exact execEndCall_fixed r s

theorem exec_trap_keeps (r : Fin 1048576) (s : State) : Keeps s (exec (.trap r) s) := by
  dsimp only [exec]
  exact execTrap_fixed r s

theorem exec_limit_keeps (r : Fin 1048576) (s : State) : Keeps s (exec (.limit r) s) := by
  dsimp only [exec]
  exact execLimit_fixed r s

theorem exec_callCancel_keeps (r : Fin 1048576) (s : State) : Keeps s (exec (.callCancel r) s) := by
  dsimp only [exec]
  exact execCallCancel_fixed r s

theorem exec_rmFlogClear_keeps (st : Fin 16) (v : BitVec 32) (s : State) : Keeps s (exec (.rmFlogClear st v) s) := by
  dsimp only [exec]
  exact execRmFlogClear_fixed st v s

theorem exec_batchBoundary_keeps (b : Fin 64) (s : State) : Keeps s (exec (.batchBoundary b) s) := by
  dsimp only [exec]
  exact execBatchBoundary_fixed b s

theorem exec_tileAccept_keeps (a : Fin 64) (s : State) : Keeps s (exec (.tileAccept a) s) := by
  dsimp only [exec]
  exact execTileAccept_fixed a s

theorem exec_tileFinish_keeps (a : Fin 64) (s : State) : Keeps s (exec (.tileFinish a) s) := by
  dsimp only [exec]
  exact execTileFinish_fixed a s

theorem exec_atticFillDone_keeps (line : Nat) (s : State) : Keeps s (exec (.atticFillDone line) s) := by
  dsimp only [exec]
  exact execAtticFillDone_fixed line s

theorem exec_chainStart_keeps (a : Fin 64) (s : State) : Keeps s (exec (.chainStart a) s) := by
  dsimp only [exec]
  exact execChainStart_fixed a s

theorem exec_chainComplete_keeps (a : Fin 64) (s : State) : Keeps s (exec (.chainComplete a) s) := by
  dsimp only [exec]
  exact execChainComplete_fixed a s

theorem exec_chainLoadApply_keeps (a : Fin 64) (s : State) : Keeps s (exec (.chainLoadApply a) s) := by
  dsimp only [exec]
  exact execChainLoadApply_fixed a s

theorem exec_engineRun_keeps (a : Fin 64) (s : State) : Keeps s (exec (.engineRun a) s) := by
  dsimp only [exec]
  exact execEngineRun_fixed a s

theorem exec_engineGather_keeps (a : Fin 64) (s : State) : Keeps s (exec (.engineGather a) s) := by
  dsimp only [exec]
  exact execEngineGather_fixed a s

theorem exec_engineMerge_keeps (a : Fin 64) (s : State) : Keeps s (exec (.engineMerge a) s) := by
  dsimp only [exec]
  exact execEngineMerge_fixed a s

theorem exec_engineScatter_keeps (a : Fin 64) (s : State) : Keeps s (exec (.engineScatter a) s) := by
  dsimp only [exec]
  exact execEngineScatter_fixed a s

theorem exec_engineDescriptorDone_keeps (a : Fin 64) (s : State) : Keeps s (exec (.engineDescriptorDone a) s) := by
  dsimp only [exec]
  exact execEngineDescriptorDone_fixed a s

theorem exec_scanComplete_keeps (st : Fin 16) (s : State) : Keeps s (exec (.scanComplete st) s) := by
  dsimp only [exec]
  exact execScanComplete_fixed st s

theorem exec_scanDeadline_keeps (s : State) : Keeps s (exec .scanDeadline s) := by
  dsimp only [exec]
  exact execScanDeadline_fixed s

theorem exec_verdictDeadline_keeps (s : State) : Keeps s (exec .verdictDeadline s) := by
  dsimp only [exec]
  exact execVerdictDeadline_fixed s

theorem exec_gradientContribution_keeps (l i : Nat) (s : State) : Keeps s (exec (.gradientContribution l i) s) := by
  dsimp only [exec]
  exact execGradientContribution_fixed l i s

theorem exec_paramBlockWrite_keeps (wing : Fin 1024) (s : State) : Keeps s (exec (.paramBlockWrite wing) s) := by
  dsimp only [exec]
  exact execParamBlockWrite_fixed wing s

theorem exec_denseWritesComplete_keeps (s : State) : Keeps s (exec .denseWritesComplete s) := by
  dsimp only [exec]
  exact execDenseWritesComplete_fixed s

theorem exec_denseDeadline_keeps (s : State) : Keeps s (exec .denseDeadline s) := by
  dsimp only [exec]
  exact execDenseDeadline_fixed s

theorem exec_stateLoadEffect_keeps (wing : Fin 1024) (s : State) : Keeps s (exec (.stateLoadEffect wing) s) := by
  dsimp only [exec]
  exact execStateLoadEffect_fixed wing s

theorem exec_portDisable_keeps (p : Fin 64) (s : State) : Keeps s (exec (.portDisable p) s) := by
  dsimp only [exec]
  exact execPortDisable_fixed p s

theorem exec_portEnable_keeps (p : Fin 64) (s : State) : Keeps s (exec (.portEnable p) s) := by
  dsimp only [exec]
  exact execPortEnable_fixed p s

theorem exec_requalify_keeps (p : Fin 64) (s : State) : Keeps s (exec (.requalify p) s) := by
  dsimp only [exec]
  exact execRequalify_fixed p s

theorem exec_fecLock_keeps (p : Fin 64) (s : State) : Keeps s (exec (.fecLock p) s) := by
  dsimp only [exec]
  exact execFecLock_fixed p s

theorem exec_trainingRetry_keeps (p : Fin 64) (s : State) : Keeps s (exec (.trainingRetry p) s) := by
  dsimp only [exec]
  exact execTrainingRetry_fixed p s

theorem exec_rxDataFlit_keeps (p : Fin 64) (b : List Byte) (s : State) : Keeps s (exec (.rxDataFlit p b) s) := by
  dsimp only [exec]
  exact execRxDataFlit_fixed p b s

theorem exec_rxIdle_keeps (p : Fin 64) (b : List Byte) (s : State) : Keeps s (exec (.rxIdle p b) s) := by
  dsimp only [exec]
  exact execRxIdle_fixed p b s

theorem exec_rxNack_keeps (p : Fin 64) (b : List Byte) (s : State) : Keeps s (exec (.rxNack p b) s) := by
  dsimp only [exec]
  exact execRxNack_fixed p b s

theorem exec_rxCtrl_keeps (p : Fin 64) (b : List Byte) (s : State) : Keeps s (exec (.rxCtrl p b) s) := by
  dsimp only [exec]
  exact execRxCtrl_fixed p b s

theorem exec_nackRepeat_keeps (p : Fin 64) (s : State) : Keeps s (exec (.nackRepeat p) s) := by
  dsimp only [exec]
  exact execNackRepeat_fixed p s

theorem exec_laneFail_keeps (p : Fin 64) (lane : Fin 8) (s : State) : Keeps s (exec (.laneFail p lane) s) := by
  dsimp only [exec]
  exact execLaneFail_fixed p lane s

theorem exec_helloSend_keeps (p : Fin 64) (s : State) : Keeps s (exec (.helloSend p) s) := by
  dsimp only [exec]
  exact execHelloSend_fixed p s

theorem exec_rxHello_keeps (p : Fin 64) (h : Hello) (s : State) : Keeps s (exec (.rxHello p h) s) := by
  dsimp only [exec]
  exact execRxHello_fixed p h s

theorem exec_helloMiss_keeps (p : Fin 64) (s : State) : Keeps s (exec (.helloMiss p) s) := by
  dsimp only [exec]
  exact execHelloMiss_fixed p s

theorem exec_timeSend_keeps (s : State) : Keeps s (exec .timeSend s) := by
  dsimp only [exec]
  exact execTimeSend_fixed s

theorem exec_rxTime_keeps (p : Fin 64) (far err rtt : Nat) (s : State) : Keeps s (exec (.rxTime p far err rtt) s) := by
  dsimp only [exec]
  exact execRxTime_fixed p far err rtt s

theorem exec_rxRoute_keeps (p : Fin 64) (es : List (Nat × Nat)) (s : State) : Keeps s (exec (.rxRoute p es) s) := by
  dsimp only [exec]
  exact execRxRoute_fixed p es s

theorem exec_routeRefresh_keeps (s : State) : Keeps s (exec .routeRefresh s) := by
  dsimp only [exec]
  exact execRouteRefresh_fixed s

theorem exec_routeRecompute_keeps (s : State) : Keeps s (exec .routeRecompute s) := by
  dsimp only [exec]
  exact execRouteRecompute_fixed s

theorem exec_rxDepart_keeps (p : Fin 64) (origin seq effective reason : Nat) (s : State) : Keeps s (exec (.rxDepart p origin seq effective reason) s) := by
  dsimp only [exec]
  exact execRxDepart_fixed p origin seq effective reason s

theorem exec_departEffective_keeps (ref : Fin 16384) (s : State) : Keeps s (exec (.departEffective ref) s) := by
  dsimp only [exec]
  exact execDepartEffective_fixed ref s

theorem exec_rxMaster_keeps (p : Fin 64) (origin : Fin 16384) (seq : BitVec 32) (eligible locked holdover : Bool) (s : State) : Keeps s (exec (.rxMaster p origin seq eligible locked holdover) s) := by
  dsimp only [exec]
  exact execRxMaster_fixed p origin seq eligible locked holdover s

theorem exec_masterSend_keeps (s : State) : Keeps s (exec .masterSend s) := by
  dsimp only [exec]
  exact execMasterSend_fixed s

theorem exec_rxOpen_keeps (p : Fin 64) (m : Msg) (s : State) : Keeps s (exec (.rxOpen p m) s) := by
  dsimp only [exec]
  exact execRxOpen_fixed p m s

theorem exec_rxAccept_keeps (p : Fin 64) (m : Msg) (s : State) : Keeps s (exec (.rxAccept p m) s) := by
  dsimp only [exec]
  exact execRxAccept_fixed p m s

theorem exec_rxClose_keeps (p : Fin 64) (m : Msg) (s : State) : Keeps s (exec (.rxClose p m) s) := by
  dsimp only [exec]
  exact execRxClose_fixed p m s

theorem exec_rxAck_keeps (p : Fin 64) (m : Msg) (s : State) : Keeps s (exec (.rxAck p m) s) := by
  dsimp only [exec]
  exact execRxAck_fixed p m s

theorem exec_rxWrite_keeps (p : Fin 64) (m : Msg) (s : State) : Keeps s (exec (.rxWrite p m) s) := by
  dsimp only [exec]
  exact execRxWrite_fixed p m s

theorem exec_rxSublist_keeps (p : Fin 64) (m : Msg) (s : State) : Keeps s (exec (.rxSublist p m) s) := by
  dsimp only [exec]
  exact execRxSublist_fixed p m s

theorem exec_rxPartial_keeps (p : Fin 64) (m : Msg) (s : State) : Keeps s (exec (.rxPartial p m) s) := by
  dsimp only [exec]
  exact execRxPartial_fixed p m s

theorem exec_rxGradlist_keeps (p : Fin 64) (m : Msg) (s : State) : Keeps s (exec (.rxGradlist p m) s) := by
  dsimp only [exec]
  exact execRxGradlist_fixed p m s

theorem exec_rxColl_keeps (p : Fin 64) (m : Msg) (s : State) : Keeps s (exec (.rxColl p m) s) := by
  dsimp only [exec]
  exact execRxColl_fixed p m s

theorem exec_rxDgram_keeps (p : Fin 64) (m : Msg) (s : State) : Keeps s (exec (.rxDgram p m) s) := by
  dsimp only [exec]
  exact execRxDgram_fixed p m s

theorem exec_rxMcast_keeps (p : Fin 64) (m : Msg) (s : State) : Keeps s (exec (.rxMcast p m) s) := by
  dsimp only [exec]
  exact execRxMcast_fixed p m s

theorem exec_rxPrune_keeps (p : Fin 64) (m : Msg) (s : State) : Keeps s (exec (.rxPrune p m) s) := by
  dsimp only [exec]
  exact execRxPrune_fixed p m s

theorem exec_rxPull_keeps (p : Fin 64) (m : Msg) (s : State) : Keeps s (exec (.rxPull p m) s) := by
  dsimp only [exec]
  exact execRxPull_fixed p m s

theorem exec_rxGraft_keeps (p : Fin 64) (m : Msg) (s : State) : Keeps s (exec (.rxGraft p m) s) := by
  dsimp only [exec]
  exact execRxGraft_fixed p m s

theorem exec_rxTreeSetup_keeps (p : Fin 64) (dest : Fin 16384) (m : Msg) (s : State) : Keeps s (exec (.rxTreeSetup p dest m) s) := by
  dsimp only [exec]
  exact execRxTreeSetup_fixed p dest m s

theorem exec_rxVtree_keeps (p : Fin 64) (child : Bool) (count : Fin 32768) (s : State) : Keeps s (exec (.rxVtree p child count) s) := by
  dsimp only [exec]
  exact execRxVtree_fixed p child count s

theorem exec_vtreeSend_keeps (s : State) : Keeps s (exec .vtreeSend s) := by
  dsimp only [exec]
  exact execVtreeSend_fixed s

theorem exec_rxVerdictUp_keeps (p : Fin 64) (flip raised : Bool) (step count : Nat) (s : State) : Keeps s (exec (.rxVerdictUp p flip raised step count) s) := by
  dsimp only [exec]
  exact execRxVerdictUp_fixed p flip raised step count s

theorem exec_rxVerdictDown_keeps (p : Fin 64) (flip raised : Bool) (step count : Nat) (s : State) : Keeps s (exec (.rxVerdictDown p flip raised step count) s) := by
  dsimp only [exec]
  exact execRxVerdictDown_fixed p flip raised step count s

theorem exec_verdictRootDeadline_keeps (flip : Bool) (s : State) : Keeps s (exec (.verdictRootDeadline flip) s) := by
  dsimp only [exec]
  exact execVerdictRootDeadline_fixed flip s

theorem exec_rxMark_keeps (p : Fin 64) (origin : Fin 16384) (seq : BitVec 32) (id : Fin 256) (m : BitVec 64) (s : State) : Keeps s (exec (.rxMark p origin seq id m) s) := by
  dsimp only [exec]
  exact execRxMark_fixed p origin seq id m s

theorem exec_rxBadKind_keeps (p : Fin 64) (kind : Fin 256) (s : State) : Keeps s (exec (.rxBadKind p kind) s) := by
  dsimp only [exec]
  exact execRxBadKind_fixed p kind s

theorem exec_retransmit_keeps (k : Fin 4096) (s : State) : Keeps s (exec (.retransmit k) s) := by
  dsimp only [exec]
  exact execRetransmit_fixed k s

theorem exec_connBreak_keeps (k : Fin 4096) (s : State) : Keeps s (exec (.connBreak k) s) := by
  dsimp only [exec]
  exact execConnBreak_fixed k s

theorem exec_connectTimeout_keeps (k : Fin 4096) (s : State) : Keeps s (exec (.connectTimeout k) s) := by
  dsimp only [exec]
  exact execConnectTimeout_fixed k s

theorem exec_treeSetupTimeout_keeps (tr : Fin 4096) (s : State) : Keeps s (exec (.treeSetupTimeout tr) s) := by
  dsimp only [exec]
  exact execTreeSetupTimeout_fixed tr s

theorem exec_branchPrune_keeps (tr : Fin 4096) (p : Fin 64) (s : State) : Keeps s (exec (.branchPrune tr p) s) := by
  dsimp only [exec]
  exact execBranchPrune_fixed tr p s

theorem exec_branchRebuild_keeps (tr : Fin 4096) (p : Fin 64) (s : State) : Keeps s (exec (.branchRebuild tr p) s) := by
  dsimp only [exec]
  exact execBranchRebuild_fixed tr p s

theorem exec_linkUp_keeps (lanes rate : Fin 16) (flit : Bool) (s : State) : Keeps s (exec (.linkUp lanes rate flit) s) := by
  dsimp only [exec]
  exact execLinkUp_fixed lanes rate flit s

theorem exec_linkDown_keeps (s : State) : Keeps s (exec .linkDown s) := by
  dsimp only [exec]
  exact execLinkDown_fixed s

theorem exec_linkRecovery_keeps (done : Bool) (s : State) : Keeps s (exec (.linkRecovery done) s) := by
  dsimp only [exec]
  exact execLinkRecovery_fixed done s

theorem exec_hostGraceExpiry_keeps (s : State) : Keeps s (exec .hostGraceExpiry s) := by
  dsimp only [exec]
  exact execHostGraceExpiry_fixed s

theorem exec_hotReset_keeps (s : State) : Keeps s (exec .hotReset s) := by
  dsimp only [exec]
  exact execHotReset_fixed s

theorem exec_functionLevelReset_keeps (s : State) : Keeps s (exec .functionLevelReset s) := by
  dsimp only [exec]
  exact execFunctionLevelReset_fixed s

theorem exec_resetComplete_keeps (s : State) : Keeps s (exec .resetComplete s) := by
  dsimp only [exec]
  exact execResetComplete_fixed s

theorem exec_perstAssert_keeps (s : State) : Keeps s (exec .perstAssert s) := by
  dsimp only [exec]
  exact execPerstAssert_fixed s

theorem exec_perstDeassert_keeps (s : State) : Keeps s (exec .perstDeassert s) := by
  dsimp only [exec]
  exact execPerstDeassert_fixed s

theorem exec_configRequest_keeps (d : Fin 1024) (w : Option (BitVec 32)) (s : State) : Keeps s (exec (.configRequest d w) s) := by
  dsimp only [exec]
  exact execConfigRequest_fixed d w s

theorem exec_powerStateChange_keeps (d3 : Bool) (s : State) : Keeps s (exec (.powerStateChange d3) s) := by
  dsimp only [exec]
  exact execPowerStateChange_fixed d3 s

theorem exec_doeRequest_keeps (vendor : BitVec 16) (type : BitVec 8) (bytes : List Byte) (s : State) : Keeps s (exec (.doeRequest vendor type bytes) s) := by
  dsimp only [exec]
  exact execDoeRequest_fixed vendor type bytes s

theorem exec_writebackInvalidate_keeps (s : State) : Keeps s (exec .writebackInvalidate s) := by
  dsimp only [exec]
  exact execWritebackInvalidate_fixed s

theorem exec_snoop_keeps (addr : BitVec 64) (s : State) : Keeps s (exec (.snoop addr) s) := by
  dsimp only [exec]
  exact execSnoop_fixed addr s

theorem exec_msixUnmask_keeps (v : Fin 2048) (s : State) : Keeps s (exec (.msixUnmask v) s) := by
  dsimp only [exec]
  exact execMsixUnmask_fixed v s

theorem exec_regionValidate_keeps (i : Fin 65536) (v : BitVec 32) (hi : Option (BitVec 32)) (s : State) : Keeps s (exec (.regionValidate i v hi) s) := by
  dsimp only [exec]
  exact execRegionValidate_fixed i v hi s

theorem exec_regionEnd_keeps (i : Fin 65536) (v : BitVec 32) (hi : Option (BitVec 32)) (s : State) : Keeps s (exec (.regionEnd i v hi) s) := by
  dsimp only [exec]
  exact execRegionEnd_fixed i v hi s

theorem exec_letterboxWrite_keeps (off : BitVec 36) (bytes : List Byte) (req : BitVec 16) (poisoned : Bool) (s : State) : Keeps s (exec (.letterboxWrite off bytes req poisoned) s) := by
  dsimp only [exec]
  exact execLetterboxWrite_fixed off bytes req poisoned s

theorem exec_bar2Read_keeps (off : BitVec 36) (req : BitVec 16) (s : State) : Keeps s (exec (.bar2Read off req) s) := by
  dsimp only [exec]
  exact execBar2Read_fixed off req s

theorem exec_hcLbFence_keeps (v : BitVec 32) (s : State) : Keeps s (exec (.hcLbFence v) s) := by
  dsimp only [exec]
  exact execHcLbFence_fixed v s

theorem exec_lbFenceDone_keeps (s : State) : Keeps s (exec .lbFenceDone s) := by
  dsimp only [exec]
  exact execLbFenceDone_fixed s

theorem exec_dmaReadCompletion_keeps (k off : Nat) (bytes : List Byte) (ok : Bool) (s : State) : Keeps s (exec (.dmaReadCompletion k off bytes ok) s) := by
  dsimp only [exec]
  exact execDmaReadCompletion_fixed k off bytes ok s

theorem exec_asEnable_keeps (s : State) : Keeps s (exec .asEnable s) := by
  dsimp only [exec]
  exact execAsEnable_fixed s

theorem exec_asDisable_keeps (s : State) : Keeps s (exec .asDisable s) := by
  dsimp only [exec]
  exact execAsDisable_fixed s

theorem exec_asRootWrite_keeps (high : Bool) (v : BitVec 32) (s : State) : Keeps s (exec (.asRootWrite high v) s) := by
  dsimp only [exec]
  exact execAsRootWrite_fixed high v s

theorem exec_translateUnit_keeps (k : Nat) (s : State) : Keeps s (exec (.translateUnit k) s) := by
  dsimp only [exec]
  exact execTranslateUnit_fixed k s

theorem exec_walkEntryReturn_keeps (k : Nat) (bytes : List Byte) (ok : Bool) (s : State) : Keeps s (exec (.walkEntryReturn k bytes ok) s) := by
  dsimp only [exec]
  exact execWalkEntryReturn_fixed k bytes ok s

theorem exec_prqRetry_keeps (req : Fin 1024) (s : State) : Keeps s (exec (.prqRetry req) s) := by
  dsimp only [exec]
  exact execPrqRetry_fixed req s

theorem exec_prqFail_keeps (req : Fin 1024) (s : State) : Keeps s (exec (.prqFail req) s) := by
  dsimp only [exec]
  exact execPrqFail_fixed req s

theorem exec_xlRingHeadWrite_keeps (v : BitVec 32) (s : State) : Keeps s (exec (.xlRingHeadWrite v) s) := by
  dsimp only [exec]
  exact execXlRingHeadWrite_fixed v s

theorem exec_xlInvGo_keeps (s : State) : Keeps s (exec .xlInvGo s) := by
  dsimp only [exec]
  exact execXlInvGo_fixed s

theorem exec_invalidationDone_keeps (i : Nat) (s : State) : Keeps s (exec (.invalidationDone i) s) := by
  dsimp only [exec]
  exact execInvalidationDone_fixed i s

theorem exec_xlCwCountWrite_keeps (v : BitVec 32) (s : State) : Keeps s (exec (.xlCwCountWrite v) s) := by
  dsimp only [exec]
  exact execXlCwCountWrite_fixed v s

theorem exec_xlCntClear_keeps (s : State) : Keeps s (exec .xlCntClear s) := by
  dsimp only [exec]
  exact execXlCntClear_fixed s

theorem exec_dbSqWrite_keeps (q : Fin 4096) (v : BitVec 32) (s : State) : Keeps s (exec (.dbSqWrite q v) s) := by
  dsimp only [exec]
  exact execDbSqWrite_fixed q v s

theorem exec_dbCqWrite_keeps (q : Fin 4096) (v : BitVec 32) (s : State) : Keeps s (exec (.dbCqWrite q v) s) := by
  dsimp only [exec]
  exact execDbCqWrite_fixed q v s

theorem exec_qEnable_keeps (q : Fin 4096) (s : State) : Keeps s (exec (.qEnable q) s) := by
  dsimp only [exec]
  exact execQEnable_fixed q s

theorem exec_qDisable_keeps (q : Fin 4096) (s : State) : Keeps s (exec (.qDisable q) s) := by
  dsimp only [exec]
  exact execQDisable_fixed q s

theorem exec_qReset_keeps (q : Fin 4096) (s : State) : Keeps s (exec (.qReset q) s) := by
  dsimp only [exec]
  exact execQReset_fixed q s

theorem exec_queueResetDone_keeps (q : Fin 4096) (s : State) : Keeps s (exec (.queueResetDone q) s) := by
  dsimp only [exec]
  exact execQueueResetDone_fixed q s

theorem exec_cqAck_keeps (q : Fin 4096) (s : State) : Keeps s (exec (.cqAck q) s) := by
  dsimp only [exec]
  exact execCqAck_fixed q s

theorem exec_qResume_keeps (q : Fin 4096) (s : State) : Keeps s (exec (.qResume q) s) := by
  dsimp only [exec]
  exact execQResume_fixed q s

theorem exec_entryFetchReturn_keeps (k : Nat) (bytes : List Byte) (ok : Bool) (s : State) : Keeps s (exec (.entryFetchReturn k bytes ok) s) := by
  dsimp only [exec]
  exact execEntryFetchReturn_fixed k bytes ok s

theorem exec_cmdNop_keeps (id : Nat) (s : State) : Keeps s (exec (.cmdNop id) s) := by
  dsimp only [exec]
  exact execCmdNop_fixed id s

theorem exec_cmdDmaIn_keeps (id : Nat) (s : State) : Keeps s (exec (.cmdDmaIn id) s) := by
  dsimp only [exec]
  exact execCmdDmaIn_fixed id s

theorem exec_cmdDmaOut_keeps (id : Nat) (s : State) : Keeps s (exec (.cmdDmaOut id) s) := by
  dsimp only [exec]
  exact execCmdDmaOut_fixed id s

theorem exec_cmdWriteInline_keeps (id : Nat) (s : State) : Keeps s (exec (.cmdWriteInline id) s) := by
  dsimp only [exec]
  exact execCmdWriteInline_fixed id s

theorem exec_cmdLaunch_keeps (id : Nat) (s : State) : Keeps s (exec (.cmdLaunch id) s) := by
  dsimp only [exec]
  exact execCmdLaunch_fixed id s

theorem exec_cmdItinLoad_keeps (id : Nat) (s : State) : Keeps s (exec (.cmdItinLoad id) s) := by
  dsimp only [exec]
  exact execCmdItinLoad_fixed id s

theorem exec_cmdBuffer_keeps (id : Nat) (s : State) : Keeps s (exec (.cmdBuffer id) s) := by
  dsimp only [exec]
  exact execCmdBuffer_fixed id s

theorem exec_cmdAbort_keeps (id : Nat) (s : State) : Keeps s (exec (.cmdAbort id) s) := by
  dsimp only [exec]
  exact execCmdAbort_fixed id s

theorem exec_cmdLookup_keeps (id : Nat) (s : State) : Keeps s (exec (.cmdLookup id) s) := by
  dsimp only [exec]
  exact execCmdLookup_fixed id s

theorem exec_cmdGradient_keeps (id : Nat) (s : State) : Keeps s (exec (.cmdGradient id) s) := by
  dsimp only [exec]
  exact execCmdGradient_fixed id s

theorem exec_cmdProgramLoad_keeps (id : Nat) (s : State) : Keeps s (exec (.cmdProgramLoad id) s) := by
  dsimp only [exec]
  exact execCmdProgramLoad_fixed id s

theorem exec_cmdChainLoad_keeps (id : Nat) (s : State) : Keeps s (exec (.cmdChainLoad id) s) := by
  dsimp only [exec]
  exact execCmdChainLoad_fixed id s

theorem exec_cmdRowFlag_keeps (id : Nat) (s : State) : Keeps s (exec (.cmdRowFlag id) s) := by
  dsimp only [exec]
  exact execCmdRowFlag_fixed id s

theorem exec_cmdJoin_keeps (id : Nat) (s : State) : Keeps s (exec (.cmdJoin id) s) := by
  dsimp only [exec]
  exact execCmdJoin_fixed id s

theorem exec_cmdLeave_keeps (id : Nat) (s : State) : Keeps s (exec (.cmdLeave id) s) := by
  dsimp only [exec]
  exact execCmdLeave_fixed id s

theorem exec_cmdUpdateParam_keeps (id : Nat) (s : State) : Keeps s (exec (.cmdUpdateParam id) s) := by
  dsimp only [exec]
  exact execCmdUpdateParam_fixed id s

theorem exec_cmdStateLoad_keeps (id : Nat) (s : State) : Keeps s (exec (.cmdStateLoad id) s) := by
  dsimp only [exec]
  exact execCmdStateLoad_fixed id s

theorem exec_cmdStateRead_keeps (id : Nat) (s : State) : Keeps s (exec (.cmdStateRead id) s) := by
  dsimp only [exec]
  exact execCmdStateRead_fixed id s

theorem exec_cmdConnect_keeps (id : Nat) (s : State) : Keeps s (exec (.cmdConnect id) s) := by
  dsimp only [exec]
  exact execCmdConnect_fixed id s

theorem exec_cmdClose_keeps (id : Nat) (s : State) : Keeps s (exec (.cmdClose id) s) := by
  dsimp only [exec]
  exact execCmdClose_fixed id s

theorem exec_cmdTree_keeps (id : Nat) (s : State) : Keeps s (exec (.cmdTree id) s) := by
  dsimp only [exec]
  exact execCmdTree_fixed id s

theorem exec_cmdGroup_keeps (id : Nat) (s : State) : Keeps s (exec (.cmdGroup id) s) := by
  dsimp only [exec]
  exact execCmdGroup_fixed id s

theorem exec_cmdCollective_keeps (id : Nat) (s : State) : Keeps s (exec (.cmdCollective id) s) := by
  dsimp only [exec]
  exact execCmdCollective_fixed id s

theorem exec_cmdSend_keeps (id : Nat) (s : State) : Keeps s (exec (.cmdSend id) s) := by
  dsimp only [exec]
  exact execCmdSend_fixed id s

theorem exec_cmdDatagram_keeps (id : Nat) (s : State) : Keeps s (exec (.cmdDatagram id) s) := by
  dsimp only [exec]
  exact execCmdDatagram_fixed id s

theorem exec_cmdMcast_keeps (id : Nat) (s : State) : Keeps s (exec (.cmdMcast id) s) := by
  dsimp only [exec]
  exact execCmdMcast_fixed id s

theorem exec_cmdInvalidate_keeps (id : Nat) (s : State) : Keeps s (exec (.cmdInvalidate id) s) := by
  dsimp only [exec]
  exact execCmdInvalidate_fixed id s

theorem exec_cmdMigrate_keeps (id : Nat) (s : State) : Keeps s (exec (.cmdMigrate id) s) := by
  dsimp only [exec]
  exact execCmdMigrate_fixed id s

theorem exec_cmdReturn_keeps (id : Nat) (s : State) : Keeps s (exec (.cmdReturn id) s) := by
  dsimp only [exec]
  exact execCmdReturn_fixed id s

theorem exec_cmdStream_keeps (id : Nat) (s : State) : Keeps s (exec (.cmdStream id) s) := by
  dsimp only [exec]
  exact execCmdStream_fixed id s

theorem exec_cmdMark_keeps (id : Nat) (s : State) : Keeps s (exec (.cmdMark id) s) := by
  dsimp only [exec]
  exact execCmdMark_fixed id s

theorem exec_cmdInvalid_keeps (id : Nat) (s : State) : Keeps s (exec (.cmdInvalid id) s) := by
  dsimp only [exec]
  exact execCmdInvalid_fixed id s

theorem exec_itinNodeDispatch_keeps (l : Nat) (n : Fin 4096) (s : State) : Keeps s (exec (.itinNodeDispatch l n) s) := by
  dsimp only [exec]
  exact execItinNodeDispatch_fixed l n s

theorem exec_launchStart_keeps (l : Nat) (s : State) : Keeps s (exec (.launchStart l) s) := by
  dsimp only [exec]
  exact execLaunchStart_fixed l s

theorem exec_unitTile_keeps (ctx : Fin 262144) (s : State) : Keeps s (exec (.unitTile ctx) s) := by
  dsimp only [exec]
  exact execUnitTile_fixed ctx s

theorem exec_unitEngine_keeps (ctx : Fin 262144) (s : State) : Keeps s (exec (.unitEngine ctx) s) := by
  dsimp only [exec]
  exact execUnitEngine_fixed ctx s

theorem exec_unitFetch_keeps (ctx : Fin 262144) (s : State) : Keeps s (exec (.unitFetch ctx) s) := by
  dsimp only [exec]
  exact execUnitFetch_fixed ctx s

theorem exec_unitHostIn_keeps (ctx : Fin 262144) (s : State) : Keeps s (exec (.unitHostIn ctx) s) := by
  dsimp only [exec]
  exact execUnitHostIn_fixed ctx s

theorem exec_unitHostOut_keeps (ctx : Fin 262144) (s : State) : Keeps s (exec (.unitHostOut ctx) s) := by
  dsimp only [exec]
  exact execUnitHostOut_fixed ctx s

theorem exec_unitCopy_keeps (ctx : Fin 262144) (s : State) : Keeps s (exec (.unitCopy ctx) s) := by
  dsimp only [exec]
  exact execUnitCopy_fixed ctx s

theorem exec_unitLookup_keeps (ctx : Fin 262144) (s : State) : Keeps s (exec (.unitLookup ctx) s) := by
  dsimp only [exec]
  exact execUnitLookup_fixed ctx s

theorem exec_unitGradient_keeps (ctx : Fin 262144) (s : State) : Keeps s (exec (.unitGradient ctx) s) := by
  dsimp only [exec]
  exact execUnitGradient_fixed ctx s

theorem exec_unitNop_keeps (ctx : Fin 262144) (s : State) : Keeps s (exec (.unitNop ctx) s) := by
  dsimp only [exec]
  exact execUnitNop_fixed ctx s

theorem exec_unitRetire_keeps (ctx : Fin 262144) (iter unit : Nat) (s : State) : Keeps s (exec (.unitRetire ctx iter unit) s) := by
  dsimp only [exec]
  exact execUnitRetire_fixed ctx iter unit s

theorem exec_preemptRequest_keeps (a : Fin 64) (s : State) : Keeps s (exec (.preemptRequest a) s) := by
  dsimp only [exec]
  exact execPreemptRequest_fixed a s

theorem exec_quantumExpiry_keeps (a : Fin 64) (s : State) : Keeps s (exec (.quantumExpiry a) s) := by
  dsimp only [exec]
  exact execQuantumExpiry_fixed a s

theorem exec_preemptSaveDone_keeps (a : Fin 64) (s : State) : Keeps s (exec (.preemptSaveDone a) s) := by
  dsimp only [exec]
  exact execPreemptSaveDone_fixed a s

theorem exec_preemptResume_keeps (a : Fin 64) (s : State) : Keeps s (exec (.preemptResume a) s) := by
  dsimp only [exec]
  exact execPreemptResume_fixed a s

theorem exec_shadowCompare_keeps (k : Nat) (sig : BitVec 64) (s : State) : Keeps s (exec (.shadowCompare k sig) s) := by
  dsimp only [exec]
  exact execShadowCompare_fixed k sig s

theorem exec_arbiterDone_keeps (k : Nat) (sig : BitVec 64) (unit : Nat) (s : State) : Keeps s (exec (.arbiterDone k sig unit) s) := by
  dsimp only [exec]
  exact execArbiterDone_fixed k sig unit s

theorem exec_twinCompare_keeps (k : Nat) (agree first second : Bool) (s : State) : Keeps s (exec (.twinCompare k agree first second) s) := by
  dsimp only [exec]
  exact execTwinCompare_fixed k agree first second s

theorem exec_digestDecide_keeps (g : Fin 4096) (s : State) : Keeps s (exec (.digestDecide g) s) := by
  dsimp only [exec]
  exact execDigestDecide_fixed g s

theorem exec_rejoinCopyDone_keeps (g : Fin 4096) (s : State) : Keeps s (exec (.rejoinCopyDone g) s) := by
  dsimp only [exec]
  exact execRejoinCopyDone_fixed g s

theorem exec_rlRestartWrite_keeps (v : BitVec 32) (s : State) : Keeps s (exec (.rlRestartWrite v) s) := by
  dsimp only [exec]
  exact execRlRestartWrite_fixed v s

theorem exec_rlCkptGo_keeps (s : State) : Keeps s (exec .rlCkptGo s) := by
  dsimp only [exec]
  exact execRlCkptGo_fixed s

theorem exec_rlLogClear_keeps (v : BitVec 32) (s : State) : Keeps s (exec (.rlLogClear v) s) := by
  dsimp only [exec]
  exact execRlLogClear_fixed v s

theorem exec_pwShutter_keeps (s : State) : Keeps s (exec .pwShutter s) := by
  dsimp only [exec]
  exact execPwShutter_fixed s

theorem exec_pwWake_keeps (s : State) : Keeps s (exec .pwWake s) := by
  dsimp only [exec]
  exact execPwWake_fixed s

theorem exec_shutterEntry_keeps (s : State) : Keeps s (exec .shutterEntry s) := by
  dsimp only [exec]
  exact execShutterEntry_fixed s

theorem exec_wakeAt_keeps (s : State) : Keeps s (exec .wakeAt s) := by
  dsimp only [exec]
  exact execWakeAt_fixed s

theorem exec_wakeComplete_keeps (s : State) : Keeps s (exec .wakeComplete s) := by
  dsimp only [exec]
  exact execWakeComplete_fixed s

theorem exec_powerProjection_keeps (watts : Nat) (s : State) : Keeps s (exec (.powerProjection watts) s) := by
  dsimp only [exec]
  exact execPowerProjection_fixed watts s

theorem exec_powerWindow_keeps (watts : Fin 65536) (s : State) : Keeps s (exec (.powerWindow watts) s) := by
  dsimp only [exec]
  exact execPowerWindow_fixed watts s

theorem exec_sensorSample_keeps (c : Fin 256) (v : BitVec 32) (s : State) : Keeps s (exec (.sensorSample c v) s) := by
  dsimp only [exec]
  exact execSensorSample_fixed c v s

theorem exec_railOutOfRegulation_keeps (rail : Fin 11) (s : State) : Keeps s (exec (.railOutOfRegulation rail) s) := by
  dsimp only [exec]
  exact execRailOutOfRegulation_fixed rail s

theorem exec_poTripClear_keeps (v : BitVec 32) (s : State) : Keeps s (exec (.poTripClear v) s) := by
  dsimp only [exec]
  exact execPoTripClear_fixed v s

theorem exec_poRuleClear_keeps (v : BitVec 32) (s : State) : Keeps s (exec (.poRuleClear v) s) := by
  dsimp only [exec]
  exact execPoRuleClear_fixed v s

theorem exec_heartbeatLost_keeps (core : Fin 4) (s : State) : Keeps s (exec (.heartbeatLost core) s) := by
  dsimp only [exec]
  exact execHeartbeatLost_fixed core s

theorem exec_inputApplied_keeps (s : State) : Keeps s (exec .inputApplied s) := by
  dsimp only [exec]
  exact execInputApplied_fixed s

theorem exec_inputLost_keeps (s : State) : Keeps s (exec .inputLost s) := by
  dsimp only [exec]
  exact execInputLost_fixed s

theorem exec_bootStage_keeps (read : Bool) (s : State) : Keeps s (exec (.bootStage read) s) := by
  dsimp only [exec]
  exact execBootStage_fixed read s

theorem exec_bootComplete_keeps (s : State) : Keeps s (exec .bootComplete s) := by
  dsimp only [exec]
  exact execBootComplete_fixed s

theorem exec_seSubmit_keeps (s : State) : Keeps s (exec .seSubmit s) := by
  dsimp only [exec]
  exact execSeSubmit_fixed s

theorem exec_advanceFw_burns (s : State) : BurnsR s (exec .advanceFw s) := by
  dsimp only [exec]
  intro t h
  exact execAdvanceFw_burns s t h

theorem exec_advancePlan_burns (s : State) : BurnsR s (exec .advancePlan s) := by
  dsimp only [exec]
  intro t h
  exact execAdvancePlan_burns s t h

theorem exec_program_burns (s : State) : BurnsR s (exec .program s) := by
  dsimp only [exec]
  intro t h
  exact execProgram_burns s t h

theorem exec_revoke_burns (s : State) : BurnsR s (exec .revoke s) := by
  dsimp only [exec]
  intro t h
  exact execRevoke_burns s t h

theorem exec_setPlanKey_burns (s : State) : BurnsR s (exec .setPlanKey s) := by
  dsimp only [exec]
  intro t h
  exact execSetPlanKey_burns s t h

theorem exec_debugUnlock_keeps (s : State) : Keeps s (exec .debugUnlock s) := by
  dsimp only [exec]
  exact execDebugUnlock_fixed s

theorem exec_raiseLock_burns (s : State) : BurnsR s (exec .raiseLock s) := by
  dsimp only [exec]
  intro t h
  exact execRaiseLock_burns s t h

theorem exec_getVersion_keeps (doe : Bool) (s : State) : Keeps s (exec (.getVersion doe) s) := by
  dsimp only [exec]
  exact execGetVersion_fixed doe s

theorem exec_getCapabilities_keeps (doe : Bool) (s : State) : Keeps s (exec (.getCapabilities doe) s) := by
  dsimp only [exec]
  exact execGetCapabilities_fixed doe s

theorem exec_negotiateAlgorithms_keeps (doe sm2 sm3 : Bool) (s : State) : Keeps s (exec (.negotiateAlgorithms doe sm2 sm3) s) := by
  dsimp only [exec]
  exact execNegotiateAlgorithms_fixed doe sm2 sm3 s

theorem exec_getDigests_keeps (doe : Bool) (s : State) : Keeps s (exec (.getDigests doe) s) := by
  dsimp only [exec]
  exact execGetDigests_fixed doe s

theorem exec_getCertificate_keeps (doe : Bool) (slot : Fin 4) (off len : BitVec 16) (s : State) : Keeps s (exec (.getCertificate doe slot off len) s) := by
  dsimp only [exec]
  exact execGetCertificate_fixed doe slot off len s

theorem exec_challenge_keeps (doe : Bool) (slot : Fin 4) (nonce : List Byte) (s : State) : Keeps s (exec (.challenge doe slot nonce) s) := by
  dsimp only [exec]
  exact execChallenge_fixed doe slot nonce s

theorem exec_getMeasurements_keeps (doe : Bool) (index : Fin 256) (sign : Bool) (nonce : List Byte) (s : State) : Keeps s (exec (.getMeasurements doe index sign nonce) s) := by
  dsimp only [exec]
  exact execGetMeasurements_fixed doe index sign nonce s

theorem exec_setCertificate_keeps (doe : Bool) (slot : Fin 4) (chain : List Byte) (s : State) : Keeps s (exec (.setCertificate doe slot chain) s) := by
  dsimp only [exec]
  exact execSetCertificate_fixed doe slot chain s

theorem exec_chunkSend_keeps (doe last : Bool) (bytes : List Byte) (s : State) : Keeps s (exec (.chunkSend doe last bytes) s) := by
  dsimp only [exec]
  exact execChunkSend_fixed doe last bytes s

theorem exec_chunkGet_keeps (doe : Bool) (i : Nat) (s : State) : Keeps s (exec (.chunkGet doe i) s) := by
  dsimp only [exec]
  exact execChunkGet_fixed doe i s

theorem exec_setEndpointId_keeps (id : Fin 256) (s : State) : Keeps s (exec (.setEndpointId id) s) := by
  dsimp only [exec]
  exact execSetEndpointId_fixed id s

theorem exec_getEndpointId_keeps (s : State) : Keeps s (exec .getEndpointId s) := by
  dsimp only [exec]
  exact execGetEndpointId_fixed s

theorem exec_getMctpVersionSupport_keeps (type : Fin 256) (s : State) : Keeps s (exec (.getMctpVersionSupport type) s) := by
  dsimp only [exec]
  exact execGetMctpVersionSupport_fixed type s

theorem exec_getMessageTypeSupport_keeps (s : State) : Keeps s (exec .getMessageTypeSupport s) := by
  dsimp only [exec]
  exact execGetMessageTypeSupport_fixed s

theorem exec_getEndpointUuid_keeps (s : State) : Keeps s (exec .getEndpointUuid s) := by
  dsimp only [exec]
  exact execGetEndpointUuid_fixed s

theorem exec_gettid_keeps (s : State) : Keeps s (exec .gettid s) := by
  dsimp only [exec]
  exact execGettid_fixed s

theorem exec_getpldmversion_keeps (type : Fin 64) (s : State) : Keeps s (exec (.getpldmversion type) s) := by
  dsimp only [exec]
  exact execGetpldmversion_fixed type s

theorem exec_getpldmtypes_keeps (s : State) : Keeps s (exec .getpldmtypes s) := by
  dsimp only [exec]
  exact execGetpldmtypes_fixed s

theorem exec_getpldmcommands_keeps (type : Fin 64) (s : State) : Keeps s (exec (.getpldmcommands type) s) := by
  dsimp only [exec]
  exact execGetpldmcommands_fixed type s

theorem exec_querydeviceidentifiers_keeps (s : State) : Keeps s (exec .querydeviceidentifiers s) := by
  dsimp only [exec]
  exact execQuerydeviceidentifiers_fixed s

theorem exec_pldmSensorRead_keeps (c : Option (Fin 256)) (s : State) : Keeps s (exec (.pldmSensorRead c) s) := by
  dsimp only [exec]
  exact execPldmSensorRead_fixed c s

theorem exec_stateSetWake_keeps (s : State) : Keeps s (exec .stateSetWake s) := by
  dsimp only [exec]
  exact execStateSetWake_fixed s

theorem exec_stateSetShutter_keeps (s : State) : Keeps s (exec .stateSetShutter s) := by
  dsimp only [exec]
  exact execStateSetShutter_fixed s

theorem exec_pldmComponentTransfer_keeps (id : BitVec 16) (off : Nat) (bytes : List Byte) (last : Bool) (s : State) : Keeps s (exec (.pldmComponentTransfer id off bytes last) s) := by
  dsimp only [exec]
  exact execPldmComponentTransfer_fixed id off bytes last s

theorem exec_pldmVerify_keeps (s : State) : Keeps s (exec .pldmVerify s) := by
  dsimp only [exec]
  exact execPldmVerify_fixed s

theorem exec_activatefirmware_keeps (s : State) : Keeps s (exec .activatefirmware s) := by
  dsimp only [exec]
  exact execActivatefirmware_fixed s

theorem exec_debugMessage_keeps (bytes : List Byte) (s : State) : Keeps s (exec (.debugMessage bytes) s) := by
  dsimp only [exec]
  exact execDebugMessage_fixed bytes s

theorem exec_markLatch_keeps (s : State) : Keeps s (exec .markLatch s) := by
  dsimp only [exec]
  exact execMarkLatch_fixed s

theorem exec_markInstant_keeps (k : Nat) (s : State) : Keeps s (exec (.markInstant k) s) := by
  dsimp only [exec]
  exact execMarkInstant_fixed k s

theorem exec_trMark_keeps (id : Fin 256) (s : State) : Keeps s (exec (.trMark id) s) := by
  dsimp only [exec]
  exact execTrMark_fixed id s

theorem exec_trRelease_keeps (s : State) : Keeps s (exec .trRelease s) := by
  dsimp only [exec]
  exact execTrRelease_fixed s

theorem exec_trDump_keeps (s : State) : Keeps s (exec .trDump s) := by
  dsimp only [exec]
  exact execTrDump_fixed s

theorem exec_dumpDone_keeps (s : State) : Keeps s (exec .dumpDone s) := by
  dsimp only [exec]
  exact execDumpDone_fixed s

theorem exec_telemetryWindow_keeps (k : Nat) (s : State) : Keeps s (exec (.telemetryWindow k) s) := by
  dsimp only [exec]
  exact execTelemetryWindow_fixed k s

theorem exec_snapshotDone_keeps (s : State) : Keeps s (exec .snapshotDone s) := by
  dsimp only [exec]
  exact execSnapshotDone_fixed s

theorem exec_telemetryWindowEnd_keeps (s : State) : Keeps s (exec .telemetryWindowEnd s) := by
  dsimp only [exec]
  exact execTelemetryWindowEnd_fixed s

theorem exec_merRefEdgesDetected_keeps (s : State) : Keeps s (exec .merRefEdgesDetected s) := by
  dsimp only [exec]
  exact execMerRefEdgesDetected_fixed s

theorem exec_xlRingCtrlEnable_keeps (s : State) : Keeps s (exec .xlRingCtrlEnable s) := by
  dsimp only [exec]
  exact execXlRingCtrlEnable_fixed s

theorem exec_oldRuleCapsExpiry_keeps (s : State) : Keeps s (exec .oldRuleCapsExpiry s) := by
  dsimp only [exec]
  exact execOldRuleCapsExpiry_fixed s

theorem exec_departureForwardingEnd_keeps (s : State) : Keeps s (exec .departureForwardingEnd s) := by
  dsimp only [exec]
  exact execDepartureForwardingEnd_fixed s

end Sys2Proof.Machine
end

