-- ==== Sys2Proof/Laws/SMap.lean ====
section
/-! SUPPORT. Laws/SMap.lean: reading back what was put, reading elsewhere, and the canonical form kept. -/

namespace Sys2Proof.Machine

variable {α : Type} {d : Nat → α}

theorem SMap.wf_nil : SMap.Wf d ([] : SMap α) := by simp [SMap.Wf]

/-- A table's rest is canonical. -/
theorem SMap.Wf.tail {e : Nat × α} {m : SMap α} (h : SMap.Wf d (e :: m)) : SMap.Wf d m :=
  ⟨h.1.tail, fun x hx => h.2 x (List.mem_cons_of_mem _ hx)⟩

/-- Every key of a table's rest is above its first. -/
theorem SMap.Wf.above {e : Nat × α} {m : SMap α} (h : SMap.Wf d (e :: m)) : ∀ x ∈ m, e.1 < x.1 :=
  fun _ hx => List.rel_of_pairwise_cons h.1 hx

/-- Below every key a table reads as unlisted. -/
theorem SMap.get_below {m : SMap α} {k : Nat} (h : ∀ x ∈ m, k < x.1) : SMap.get d m k = d k := by
  cases m with
  | nil => rfl
  | cons e m =>
    have := h e (List.mem_cons_self ..)
    obtain ⟨a, v⟩ := e
    have h1 : k ≠ a := Nat.ne_of_lt this
    simp only [SMap.get, h1, if_false, show k < a from this, if_true]

theorem SMap.get_cons_of_lt {a k : Nat} {v : α} {m : SMap α} (h : a < k) : SMap.get d ((a, v) :: m) k = SMap.get d m k := by
  simp [SMap.get, Nat.ne_of_gt h, Nat.not_lt_of_gt h]

variable [DecidableEq α]

theorem SMap.get_cons {k j : Nat} {v : α} {m : SMap α} (h : ∀ x ∈ m, k < x.1) :
    SMap.get d (SMap.cons d k v m) j = if j = k then v else SMap.get d m j := by
  unfold SMap.cons
  split
  · rename_i hv
    split
    · subst_vars
      exact SMap.get_below h
    · rfl
  · simp only [SMap.get]
    split
    · rfl
    · split
      · rename_i _ hj
        exact (SMap.get_below fun x hx => hj.trans (h x hx)).symm
      · rfl

/-- What a table reads after a value was put: the value at its key, what it read before elsewhere. -/
theorem SMap.get_set {m : SMap α} (hm : SMap.Wf d m) (k : Nat) (v : α) (j : Nat) :
    SMap.get d (SMap.set d m k v) j = if j = k then v else SMap.get d m j := by
  induction m with
  | nil => exact SMap.get_cons (by simp)
  | cons e m ih =>
    obtain ⟨a, w⟩ := e
    simp only [SMap.set]
    split
    · subst_vars
      rw [SMap.get_cons hm.above]
      split
      · rfl
      · rename_i hj
        simp only [SMap.get, hj, if_false]
        split
        · rename_i hl
          exact SMap.get_below fun x hx => hl.trans (hm.above x hx)
        · rfl
    · split
      · rename_i hl
        refine SMap.get_cons ?_
        intro x hx
        rcases List.mem_cons.mp hx with rfl | hx
        · exact hl
        · exact hl.trans (hm.above x hx)
      · rename_i h1 h2
        have hk : a < k := by omega
        simp only [SMap.get]
        split
        · have : j ≠ k := by omega
          simp [this]
        · split
          · have : j ≠ k := by omega
            simp [this]
          · exact ih hm.tail

theorem SMap.get_set_same {m : SMap α} (hm : SMap.Wf d m) (k : Nat) (v : α) : SMap.get d (SMap.set d m k v) k = v := by
  simp [SMap.get_set hm]

theorem SMap.get_set_other {m : SMap α} (hm : SMap.Wf d m) {k j : Nat} (v : α) (h : j ≠ k) :
    SMap.get d (SMap.set d m k v) j = SMap.get d m j := by
  simp [SMap.get_set hm, h]

theorem SMap.cons_wf {k : Nat} {v : α} {m : SMap α} (hm : SMap.Wf d m) (h : ∀ x ∈ m, k < x.1) : SMap.Wf d (SMap.cons d k v m) := by
  unfold SMap.cons
  split
  · exact hm
  · rename_i hv
    refine ⟨List.pairwise_cons.mpr ⟨h, hm.1⟩, ?_⟩
    intro e he
    rcases List.mem_cons.mp he with rfl | he
    · exact hv
    · exact hm.2 e he

omit [DecidableEq α] in
/-- The keys of a table after a value was put are its own and perhaps the key of the value. -/
theorem SMap.mem_set [DecidableEq α] {m : SMap α} {k : Nat} {v : α} {x : Nat × α} (h : x ∈ SMap.set d m k v) : x.1 = k ∨ x ∈ m := by
  induction m with
  | nil =>
    simp only [SMap.set, SMap.cons] at h
    split at h <;> simp_all
  | cons e m ih =>
    simp only [SMap.set] at h
    split at h
    · unfold SMap.cons at h
      split at h
      · exact .inr (List.mem_cons_of_mem _ h)
      · rcases List.mem_cons.mp h with rfl | h
        · exact .inl rfl
        · exact .inr (List.mem_cons_of_mem _ h)
    · split at h
      · unfold SMap.cons at h
        split at h
        · exact .inr h
        · rcases List.mem_cons.mp h with rfl | h
          · exact .inl rfl
          · exact .inr h
      · rcases List.mem_cons.mp h with rfl | h
        · exact .inr (List.mem_cons_self ..)
        · exact (ih h).imp id (List.mem_cons_of_mem _)

/-- Putting a value keeps the canonical form. -/
theorem SMap.set_wf {m : SMap α} (hm : SMap.Wf d m) (k : Nat) (v : α) : SMap.Wf d (SMap.set d m k v) := by
  induction m with
  | nil => exact SMap.cons_wf hm (by simp)
  | cons e m ih =>
    obtain ⟨a, w⟩ := e
    simp only [SMap.set]
    split
    · subst_vars
      exact SMap.cons_wf hm.tail hm.above
    · split
      · rename_i hl
        refine SMap.cons_wf hm ?_
        intro x hx
        rcases List.mem_cons.mp hx with rfl | hx
        · exact hl
        · exact hl.trans (hm.above x hx)
      · rename_i h1 h2
        have hk : a < k := by omega
        refine ⟨List.pairwise_cons.mpr ⟨?_, (ih hm.tail).1⟩, ?_⟩
        · intro x hx
          rcases SMap.mem_set hx with h | h
          · show a < x.1
            omega
          · exact hm.above x h
        · intro x hx
          rcases List.mem_cons.mp hx with rfl | hx
          · exact hm.2 _ (List.mem_cons_self ..)
          · exact (ih hm.tail).2 x hx

omit [DecidableEq α]

/-- Dropping keys keeps the canonical form. -/
theorem SMap.drop_wf {m : SMap α} (hm : SMap.Wf d m) (p : Nat → Bool) : SMap.Wf d (SMap.drop p m) :=
  ⟨hm.1.filter _, fun e he => hm.2 e (List.mem_of_mem_filter he)⟩

/-- What a table reads after keys were dropped. -/
theorem SMap.get_drop {m : SMap α} (hm : SMap.Wf d m) (p : Nat → Bool) (j : Nat) :
    SMap.get d (SMap.drop p m) j = if p j then d j else SMap.get d m j := by
  induction m with
  | nil => simp [SMap.drop, SMap.get]
  | cons e m ih =>
    obtain ⟨a, v⟩ := e
    have hd := ih hm.tail
    unfold SMap.drop at hd ⊢
    rw [List.filter_cons]
    by_cases hp : p a
    · simp only [hp, Bool.not_true, Bool.false_eq_true, if_false, hd]
      by_cases hj : j = a
      · simp [hj, hp]
      · by_cases hl : j < a
        · simp only [SMap.get, hj, hl, if_false, if_true]
          rw [SMap.get_below fun x hx => hl.trans (hm.above x hx)]
        · simp only [SMap.get, hj, hl, if_false]
    · simp only [hp, Bool.not_false, if_true, SMap.get]
      by_cases hj : j = a
      · simp [hj, hp]
      · by_cases hl : j < a
        · simp [hj, hl]
        · simp [hj, hl, hd]

end Sys2Proof.Machine
end

