-- ==== Sys2Proof/Laws/Ram.lean ====
section
/-! SUPPORT. Laws/Ram.lean: bytes written are the bytes read back, every other byte reads as before, and every operation on
memory keeps its canonical form. -/

namespace Sys2Proof.Machine

/-! ### Byte memory -/

theorem Mem.readD_length (d : Nat → Byte) (m : Mem) (a n : Nat) : (Mem.readD d m a n).length = n := by
  induction n generalizing a with
  | zero => rfl
  | succ n ih => simp [Mem.readD, ih]

/-- Byte `i` of a read is the byte at that address. -/
theorem Mem.readD_getElem (d : Nat → Byte) (m : Mem) (a n i : Nat) (h : i < (Mem.readD d m a n).length) :
    (Mem.readD d m a n)[i] = SMap.get d m (a + i) := by
  induction n generalizing a i with
  | zero => simp [Mem.readD] at h
  | succ n ih =>
    cases i with
    | zero => rfl
    | succ i =>
      simp only [Mem.readD, List.getElem_cons_succ]
      rw [ih]
      congr 1
      omega

/-- Reads that agree byte by byte are equal. -/
theorem Mem.readD_congr {d e : Nat → Byte} {m l : Mem} {a n : Nat}
    (h : ∀ i, i < n → SMap.get d m (a + i) = SMap.get e l (a + i)) : Mem.readD d m a n = Mem.readD e l a n := by
  induction n generalizing a with
  | zero => rfl
  | succ n ih =>
    simp only [Mem.readD]
    rw [show SMap.get d m a = SMap.get e l a by simpa using h 0 (by omega)]
    congr 1
    refine ih fun i hi => ?_
    have := h (i + 1) (by omega)
    simpa [Nat.add_assoc, Nat.add_comm 1] using this

theorem Mem.writeD_wf {d : Nat → Byte} {m : Mem} (hm : SMap.Wf d m) (a : Nat) (bs : List Byte) :
    SMap.Wf d (Mem.writeD d m a bs) := by
  induction bs generalizing m a with
  | nil => exact hm
  | cons b bs ih => exact ih (SMap.set_wf hm a b) (a + 1)

/-- What a byte reads after a write: the byte written there, or what it read before. -/
theorem Mem.get_writeD {d : Nat → Byte} {m : Mem} (hm : SMap.Wf d m) (a : Nat) (bs : List Byte) (j : Nat) :
    SMap.get d (Mem.writeD d m a bs) j =
      if a ≤ j ∧ j < a + bs.length then bs.getD (j - a) 0#8 else SMap.get d m j := by
  induction bs generalizing m a with
  | nil =>
    have : ¬ (a ≤ j ∧ j < a + ([] : List Byte).length) := by simp
    rw [if_neg this]
    rfl
  | cons b bs ih =>
    show SMap.get d (Mem.writeD d (SMap.set d m a b) (a + 1) bs) j = _
    rw [ih (SMap.set_wf hm a b), SMap.get_set hm]
    simp only [List.length_cons]
    by_cases h1 : j = a
    · subst h1
      have h2 : ¬ (j + 1 ≤ j ∧ j < j + 1 + bs.length) := by omega
      have h3 : j ≤ j ∧ j < j + (bs.length + 1) := by omega
      rw [if_neg h2, if_pos h3]
      simp
    · by_cases h2 : a + 1 ≤ j ∧ j < a + 1 + bs.length
      · have h3 : a ≤ j ∧ j < a + (bs.length + 1) := by omega
        rw [if_pos h2, if_pos h3, show j - a = (j - (a + 1)) + 1 by omega]
        simp
      · have h3 : ¬ (a ≤ j ∧ j < a + (bs.length + 1)) := by omega
        rw [if_neg h2, if_neg h3, if_neg h1]

/-- What was written is read back. -/
theorem Mem.read_writeD {d : Nat → Byte} {m : Mem} (hm : SMap.Wf d m) (a : Nat) (bs : List Byte) :
    Mem.readD d (Mem.writeD d m a bs) a bs.length = bs := by
  apply List.ext_getElem (Mem.readD_length ..)
  intro i h1 h2
  rw [Mem.readD_getElem, Mem.get_writeD hm]
  have : a ≤ a + i ∧ a + i < a + bs.length := by omega
  rw [if_pos this, show a + i - a = i by omega, List.getD_eq_getElem _ _ h2]

/-! ### The module's memory -/

@[simp] theorem Ram.poke_lost (m : Ram) (a : Nat) (bs : List Byte) : (m.poke a bs).lost = m.lost := rfl
@[simp] theorem Ram.poke_dead (m : Ram) (a : Nat) (bs : List Byte) : (m.poke a bs).dead = m.dead := rfl
@[simp] theorem Ram.poke_blks (m : Ram) (a : Nat) (bs : List Byte) : (m.poke a bs).blks = m.blks := rfl
@[simp] theorem Ram.poke_dflt (m : Ram) (a : Nat) (bs : List Byte) : (m.poke a bs).dflt = m.dflt := rfl
@[simp] theorem Ram.poke_blkD (m : Ram) (a : Nat) (bs : List Byte) : (m.poke a bs).blkD = m.blkD := rfl
@[simp] theorem Ram.poke_gone (m : Ram) (a : Nat) (bs : List Byte) (x : Nat) : (m.poke a bs).gone x = m.gone x := rfl
@[simp] theorem Ram.poke_blk (m : Ram) (a : Nat) (bs : List Byte) (x : Nat) : (m.poke a bs).blk x = m.blk x := rfl
@[simp] theorem Ram.setBlk_lost (m : Ram) (a : Nat) (b : Blk) : (m.setBlk a b).lost = m.lost := rfl
@[simp] theorem Ram.setBlk_dead (m : Ram) (a : Nat) (b : Blk) : (m.setBlk a b).dead = m.dead := rfl
@[simp] theorem Ram.setBlk_bytes (m : Ram) (a : Nat) (b : Blk) : (m.setBlk a b).bytes = m.bytes := rfl
@[simp] theorem Ram.setBlk_dflt (m : Ram) (a : Nat) (b : Blk) : (m.setBlk a b).dflt = m.dflt := rfl
@[simp] theorem Ram.setBlk_blkD (m : Ram) (a : Nat) (b : Blk) : (m.setBlk a b).blkD = m.blkD := rfl
@[simp] theorem Ram.setBlk_gone (m : Ram) (a : Nat) (b : Blk) (x : Nat) : (m.setBlk a b).gone x = m.gone x := rfl
@[simp] theorem Ram.setBlk_byte (m : Ram) (a : Nat) (b : Blk) (x : Nat) : (m.setBlk a b).byte x = m.byte x := rfl
@[simp] theorem Ram.setBlk_read (m : Ram) (a : Nat) (b : Blk) (x n : Nat) : (m.setBlk a b).read x n = m.read x n := rfl

theorem Ram.poke_wf {m : Ram} (h : m.wf) (a : Nat) (bs : List Byte) : (m.poke a bs).wf := ⟨Mem.writeD_wf h.1 a bs, h.2⟩

theorem Ram.setBlk_wf {m : Ram} (h : m.wf) (a : Nat) (b : Blk) : (m.setBlk a b).wf := ⟨h.1, SMap.set_wf h.2 _ _⟩

/-- What a byte reads after a poke. -/
theorem Ram.byte_poke {m : Ram} (h : m.wf) (a : Nat) (bs : List Byte) (j : Nat) :
    (m.poke a bs).byte j = if a ≤ j ∧ j < a + bs.length then bs.getD (j - a) 0#8 else m.byte j :=
  Mem.get_writeD h.1 a bs j

theorem Ram.read_poke {m : Ram} (h : m.wf) (a : Nat) (bs : List Byte) : (m.poke a bs).read a bs.length = bs :=
  Mem.read_writeD h.1 a bs

theorem Ram.byte_poke_other {m : Ram} (h : m.wf) {a : Nat} {bs : List Byte} {j : Nat} (hj : ¬ (a ≤ j ∧ j < a + bs.length)) :
    (m.poke a bs).byte j = m.byte j := by rw [Ram.byte_poke h, if_neg hj]

theorem Ram.blk_setBlk {m : Ram} (h : m.wf) (a : Nat) (b : Blk) (x : Nat) :
    (m.setBlk a b).blk x = if m.gone x then m.blk x else if x / 256 = a / 256 then b else m.blk x := by
  unfold Ram.blk
  simp only [Ram.setBlk_gone]
  by_cases hx : m.gone x
  · simp only [hx, if_true]
  · simp only [hx, Bool.false_eq_true, if_false]
    exact SMap.get_set h.2 _ _ _

theorem Ram.writePart_wf {m : Ram} (h : m.wf) (w : Writer) (fr a : Nat) (bs : List Byte) : (m.writePart w fr a bs).wf := by
  unfold Ram.writePart
  dsimp only
  (repeat' split)
  · exact h
  all_goals exact Ram.setBlk_wf (Ram.poke_wf h _ _) _ _

/-- A fold of operations that each keep the canonical form keeps it. -/
theorem Ram.foldl_wf {β : Type} (f : Ram → β → Ram) (hf : ∀ m x, m.wf → (f m x).wf) (l : List β) {m : Ram} (h : m.wf) :
    (l.foldl f m).wf := by
  induction l generalizing m with
  | nil => exact h
  | cons x l ih => exact ih (hf m x h)

theorem Ram.write_wf {m : Ram} (h : m.wf) (w : Writer) (fr a : Nat) (bs : List Byte) : (m.write w fr a bs).wf :=
  Ram.foldl_wf _ (fun _ _ h => Ram.writePart_wf h _ _ _ _) _ h

theorem Ram.carry_wf {m : Ram} (h : m.wf) (src dst n : Nat) : (m.carry src dst n).wf := by
  refine Ram.foldl_wf _ (fun m i h => ?_) _ h
  split
  · exact h
  · exact Ram.setBlk_wf (Ram.poke_wf h _ _) _ _

theorem Ram.mark_wf {m : Ram} (h : m.wf) (ds : List (Nat × Nat)) : (m.mark ds).wf :=
  Ram.foldl_wf _ (fun _ _ h => Ram.poke_wf h _ _) _ h

theorem State.sheetWrite_wf {s : State} (h : s.ram.wf) (w : Writer) (a : Nat) (bs : List Byte) : (s.sheetWrite w a bs).ram.wf :=
  Ram.mark_wf (Ram.write_wf h _ _ _ _) _

theorem State.sheetCarry_wf {s : State} (h : s.ram.wf) (src dst n : Nat) : (s.sheetCarry src dst n).ram.wf :=
  Ram.mark_wf (Ram.carry_wf h _ _ _) _

theorem State.storeWrite_wf {s : State} (h : s.ram.wf) (w : Writer) (a o : Nat) (bs : List Byte) :
    (s.storeWrite w a o bs).ram.wf := Ram.write_wf h _ _ _ _

theorem State.storeCarry_wf {s : State} (h : s.ram.wf) (src a o n : Nat) : (s.storeCarry src a o n).ram.wf :=
  Ram.carry_wf h _ _ _

/-- Bytes and checks dropped from memory: what stays is canonical. -/
theorem Ram.drop_wf {m : Ram} (h : m.wf) (p q : Nat → Bool) (dead : List Nat) :
    Ram.wf ⟨SMap.drop p m.bytes, SMap.drop q m.blks, dead, m.lost⟩ := ⟨SMap.drop_wf h.1 _, SMap.drop_wf h.2 _⟩

theorem Ram.clearStore_wf {m : Ram} (h : m.wf) (a : Nat) : (m.clearStore a).wf := Ram.drop_wf h _ _ _

end Sys2Proof.Machine
end

