-- ==== Sys2Proof/Laws/State.lean ====
section
/-! SUPPORT. Laws/State.lean: what each update of one field of the state leaves of every field. -/

namespace Sys2Proof.Machine

@[simp] theorem State.mapIo_pending (s : State) (f : Io → Io) : (s.mapIo f).pending = s.pending := rfl
@[simp] theorem State.mapIo_io (s : State) (f : Io → Io) : (s.mapIo f).io = f s.io := rfl
@[simp] theorem State.mapIo_ram (s : State) (f : Io → Io) : (s.mapIo f).ram = s.ram := rfl
@[simp] theorem State.mapIo_free (s : State) (f : Io → Io) : (s.mapIo f).free = s.free := rfl
@[simp] theorem State.mapIo_plan (s : State) (f : Io → Io) : (s.mapIo f).plan = s.plan := rfl
@[simp] theorem State.mapIo_fp (s : State) (f : Io → Io) : (s.mapIo f).fp = s.fp := rfl
@[simp] theorem State.mapIo_mer (s : State) (f : Io → Io) : (s.mapIo f).mer = s.mer := rfl
@[simp] theorem State.mapIo_xl (s : State) (f : Io → Io) : (s.mapIo f).xl = s.xl := rfl
@[simp] theorem State.mapIo_host (s : State) (f : Io → Io) : (s.mapIo f).host = s.host := rfl
@[simp] theorem State.mapIo_cf (s : State) (f : Io → Io) : (s.mapIo f).cf = s.cf := rfl
@[simp] theorem State.mapIo_sc (s : State) (f : Io → Io) : (s.mapIo f).sc = s.sc := rfl
@[simp] theorem State.mapIo_stk (s : State) (f : Io → Io) : (s.mapIo f).stk = s.stk := rfl
@[simp] theorem State.mapIo_rl (s : State) (f : Io → Io) : (s.mapIo f).rl = s.rl := rfl
@[simp] theorem State.mapIo_rooms (s : State) (f : Io → Io) : (s.mapIo f).rooms = s.rooms := rfl
@[simp] theorem State.mapIo_wings (s : State) (f : Io → Io) : (s.mapIo f).wings = s.wings := rfl
@[simp] theorem State.mapIo_upd (s : State) (f : Io → Io) : (s.mapIo f).upd = s.upd := rfl
@[simp] theorem State.mapIo_mx (s : State) (f : Io → Io) : (s.mapIo f).mx = s.mx := rfl
@[simp] theorem State.mapIo_fab (s : State) (f : Io → Io) : (s.mapIo f).fab = s.fab := rfl
@[simp] theorem State.mapIo_pw (s : State) (f : Io → Io) : (s.mapIo f).pw = s.pw := rfl
@[simp] theorem State.mapIo_po (s : State) (f : Io → Io) : (s.mapIo f).po = s.po := rfl
@[simp] theorem State.mapIo_se (s : State) (f : Io → Io) : (s.mapIo f).se = s.se := rfl
@[simp] theorem State.mapIo_tr (s : State) (f : Io → Io) : (s.mapIo f).tr = s.tr := rfl

@[simp] theorem State.drew_pending (s : State) (n : Nat) : (s.drew n).pending = s.pending := rfl
@[simp] theorem State.drew_io (s : State) (n : Nat) : (s.drew n).io = s.io := rfl
@[simp] theorem State.drew_ram (s : State) (n : Nat) : (s.drew n).ram = s.ram := rfl
@[simp] theorem State.drew_free (s : State) (n : Nat) : (s.drew n).free = s.free + n := rfl
@[simp] theorem State.drew_plan (s : State) (n : Nat) : (s.drew n).plan = s.plan := rfl
@[simp] theorem State.drew_fp (s : State) (n : Nat) : (s.drew n).fp = s.fp := rfl
@[simp] theorem State.drew_mer (s : State) (n : Nat) : (s.drew n).mer = s.mer := rfl
@[simp] theorem State.drew_xl (s : State) (n : Nat) : (s.drew n).xl = s.xl := rfl
@[simp] theorem State.drew_host (s : State) (n : Nat) : (s.drew n).host = s.host := rfl
@[simp] theorem State.drew_cf (s : State) (n : Nat) : (s.drew n).cf = s.cf := rfl
@[simp] theorem State.drew_sc (s : State) (n : Nat) : (s.drew n).sc = s.sc := rfl
@[simp] theorem State.drew_stk (s : State) (n : Nat) : (s.drew n).stk = s.stk := rfl
@[simp] theorem State.drew_rl (s : State) (n : Nat) : (s.drew n).rl = s.rl := rfl
@[simp] theorem State.drew_rooms (s : State) (n : Nat) : (s.drew n).rooms = s.rooms := rfl
@[simp] theorem State.drew_wings (s : State) (n : Nat) : (s.drew n).wings = s.wings := rfl
@[simp] theorem State.drew_upd (s : State) (n : Nat) : (s.drew n).upd = s.upd := rfl
@[simp] theorem State.drew_mx (s : State) (n : Nat) : (s.drew n).mx = s.mx := rfl
@[simp] theorem State.drew_fab (s : State) (n : Nat) : (s.drew n).fab = s.fab := rfl
@[simp] theorem State.drew_pw (s : State) (n : Nat) : (s.drew n).pw = s.pw := rfl
@[simp] theorem State.drew_po (s : State) (n : Nat) : (s.drew n).po = s.po := rfl
@[simp] theorem State.drew_se (s : State) (n : Nat) : (s.drew n).se = s.se := rfl
@[simp] theorem State.drew_tr (s : State) (n : Nat) : (s.drew n).tr = s.tr := rfl

@[simp] theorem State.fired_pending (s : State) (k c : Nat) : (s.fired k c).pending = s.pending := rfl
@[simp] theorem State.fired_io (s : State) (k c : Nat) : (s.fired k c).io = s.io := rfl
@[simp] theorem State.fired_ram (s : State) (k c : Nat) : (s.fired k c).ram = s.ram := rfl
@[simp] theorem State.fired_free (s : State) (k c : Nat) : (s.fired k c).free = s.free := rfl
@[simp] theorem State.fired_plan (s : State) (k c : Nat) : (s.fired k c).plan = s.plan := rfl
@[simp] theorem State.fired_fp (s : State) (k c : Nat) : (s.fired k c).fp = s.fp := rfl
@[simp] theorem State.fired_mer (s : State) (k c : Nat) : (s.fired k c).mer = { s.mer with due := SMap.set (fun _ => 0) s.mer.due k (c + 1) } := rfl
@[simp] theorem State.fired_xl (s : State) (k c : Nat) : (s.fired k c).xl = s.xl := rfl
@[simp] theorem State.fired_host (s : State) (k c : Nat) : (s.fired k c).host = s.host := rfl
@[simp] theorem State.fired_cf (s : State) (k c : Nat) : (s.fired k c).cf = s.cf := rfl
@[simp] theorem State.fired_sc (s : State) (k c : Nat) : (s.fired k c).sc = s.sc := rfl
@[simp] theorem State.fired_stk (s : State) (k c : Nat) : (s.fired k c).stk = s.stk := rfl
@[simp] theorem State.fired_rl (s : State) (k c : Nat) : (s.fired k c).rl = s.rl := rfl
@[simp] theorem State.fired_rooms (s : State) (k c : Nat) : (s.fired k c).rooms = s.rooms := rfl
@[simp] theorem State.fired_wings (s : State) (k c : Nat) : (s.fired k c).wings = s.wings := rfl
@[simp] theorem State.fired_upd (s : State) (k c : Nat) : (s.fired k c).upd = s.upd := rfl
@[simp] theorem State.fired_mx (s : State) (k c : Nat) : (s.fired k c).mx = s.mx := rfl
@[simp] theorem State.fired_fab (s : State) (k c : Nat) : (s.fired k c).fab = s.fab := rfl
@[simp] theorem State.fired_pw (s : State) (k c : Nat) : (s.fired k c).pw = s.pw := rfl
@[simp] theorem State.fired_po (s : State) (k c : Nat) : (s.fired k c).po = s.po := rfl
@[simp] theorem State.fired_se (s : State) (k c : Nat) : (s.fired k c).se = s.se := rfl
@[simp] theorem State.fired_tr (s : State) (k c : Nat) : (s.fired k c).tr = s.tr := rfl

@[simp] theorem State.setRun_pending (s : State) (ctx iter unit st : Nat) : (s.setRun ctx iter unit st).pending = s.pending := rfl
@[simp] theorem State.setRun_io (s : State) (ctx iter unit st : Nat) : (s.setRun ctx iter unit st).io = s.io := rfl
@[simp] theorem State.setRun_ram (s : State) (ctx iter unit st : Nat) : (s.setRun ctx iter unit st).ram = s.ram := rfl
@[simp] theorem State.setRun_free (s : State) (ctx iter unit st : Nat) : (s.setRun ctx iter unit st).free = s.free := rfl
@[simp] theorem State.setRun_plan (s : State) (ctx iter unit st : Nat) : (s.setRun ctx iter unit st).plan = s.plan := rfl
@[simp] theorem State.setRun_fp (s : State) (ctx iter unit st : Nat) : (s.setRun ctx iter unit st).fp = s.fp := rfl
@[simp] theorem State.setRun_mer (s : State) (ctx iter unit st : Nat) : (s.setRun ctx iter unit st).mer = s.mer := rfl
@[simp] theorem State.setRun_xl (s : State) (ctx iter unit st : Nat) : (s.setRun ctx iter unit st).xl = s.xl := rfl
@[simp] theorem State.setRun_host (s : State) (ctx iter unit st : Nat) : (s.setRun ctx iter unit st).host = s.host := rfl
@[simp] theorem State.setRun_cf (s : State) (ctx iter unit st : Nat) : (s.setRun ctx iter unit st).cf = s.cf := rfl
@[simp] theorem State.setRun_sc (s : State) (ctx iter unit st : Nat) : (s.setRun ctx iter unit st).sc = { s.sc with streams := s.sc.streams.upd ctx (fun x => { x with runs := x.runs.map (fun r => if r.iter = iter ∧ r.unit = unit then { r with status := some st } else r) }) } := rfl
@[simp] theorem State.setRun_stk (s : State) (ctx iter unit st : Nat) : (s.setRun ctx iter unit st).stk = s.stk := rfl
@[simp] theorem State.setRun_rl (s : State) (ctx iter unit st : Nat) : (s.setRun ctx iter unit st).rl = s.rl := rfl
@[simp] theorem State.setRun_rooms (s : State) (ctx iter unit st : Nat) : (s.setRun ctx iter unit st).rooms = s.rooms := rfl
@[simp] theorem State.setRun_wings (s : State) (ctx iter unit st : Nat) : (s.setRun ctx iter unit st).wings = s.wings := rfl
@[simp] theorem State.setRun_upd (s : State) (ctx iter unit st : Nat) : (s.setRun ctx iter unit st).upd = s.upd := rfl
@[simp] theorem State.setRun_mx (s : State) (ctx iter unit st : Nat) : (s.setRun ctx iter unit st).mx = s.mx := rfl
@[simp] theorem State.setRun_fab (s : State) (ctx iter unit st : Nat) : (s.setRun ctx iter unit st).fab = s.fab := rfl
@[simp] theorem State.setRun_pw (s : State) (ctx iter unit st : Nat) : (s.setRun ctx iter unit st).pw = s.pw := rfl
@[simp] theorem State.setRun_po (s : State) (ctx iter unit st : Nat) : (s.setRun ctx iter unit st).po = s.po := rfl
@[simp] theorem State.setRun_se (s : State) (ctx iter unit st : Nat) : (s.setRun ctx iter unit st).se = s.se := rfl
@[simp] theorem State.setRun_tr (s : State) (ctx iter unit st : Nat) : (s.setRun ctx iter unit st).tr = s.tr := rfl

@[simp] theorem State.setArr_pending (s : State) (a : Nat) (f : Arr → Arr) : (s.setArr a f).pending = s.pending := rfl
@[simp] theorem State.setArr_io (s : State) (a : Nat) (f : Arr → Arr) : (s.setArr a f).io = s.io := rfl
@[simp] theorem State.setArr_ram (s : State) (a : Nat) (f : Arr → Arr) : (s.setArr a f).ram = s.ram := rfl
@[simp] theorem State.setArr_free (s : State) (a : Nat) (f : Arr → Arr) : (s.setArr a f).free = s.free := rfl
@[simp] theorem State.setArr_plan (s : State) (a : Nat) (f : Arr → Arr) : (s.setArr a f).plan = s.plan := rfl
@[simp] theorem State.setArr_fp (s : State) (a : Nat) (f : Arr → Arr) : (s.setArr a f).fp = s.fp := rfl
@[simp] theorem State.setArr_mer (s : State) (a : Nat) (f : Arr → Arr) : (s.setArr a f).mer = s.mer := rfl
@[simp] theorem State.setArr_xl (s : State) (a : Nat) (f : Arr → Arr) : (s.setArr a f).xl = s.xl := rfl
@[simp] theorem State.setArr_host (s : State) (a : Nat) (f : Arr → Arr) : (s.setArr a f).host = s.host := rfl
@[simp] theorem State.setArr_cf (s : State) (a : Nat) (f : Arr → Arr) : (s.setArr a f).cf = s.cf := rfl
@[simp] theorem State.setArr_sc (s : State) (a : Nat) (f : Arr → Arr) : (s.setArr a f).sc = s.sc := rfl
@[simp] theorem State.setArr_stk (s : State) (a : Nat) (f : Arr → Arr) : (s.setArr a f).stk = s.stk := rfl
@[simp] theorem State.setArr_rl (s : State) (a : Nat) (f : Arr → Arr) : (s.setArr a f).rl = s.rl := rfl
@[simp] theorem State.setArr_rooms (s : State) (a : Nat) (f : Arr → Arr) : (s.setArr a f).rooms = s.rooms := rfl
@[simp] theorem State.setArr_wings (s : State) (a : Nat) (f : Arr → Arr) : (s.setArr a f).wings = s.wings := rfl
@[simp] theorem State.setArr_upd (s : State) (a : Nat) (f : Arr → Arr) : (s.setArr a f).upd = s.upd := rfl
@[simp] theorem State.setArr_mx (s : State) (a : Nat) (f : Arr → Arr) : (s.setArr a f).mx = s.mx.set a f := rfl
@[simp] theorem State.setArr_fab (s : State) (a : Nat) (f : Arr → Arr) : (s.setArr a f).fab = s.fab := rfl
@[simp] theorem State.setArr_pw (s : State) (a : Nat) (f : Arr → Arr) : (s.setArr a f).pw = s.pw := rfl
@[simp] theorem State.setArr_po (s : State) (a : Nat) (f : Arr → Arr) : (s.setArr a f).po = s.po := rfl
@[simp] theorem State.setArr_se (s : State) (a : Nat) (f : Arr → Arr) : (s.setArr a f).se = s.se := rfl
@[simp] theorem State.setArr_tr (s : State) (a : Nat) (f : Arr → Arr) : (s.setArr a f).tr = s.tr := rfl

@[simp] theorem State.hostAsk_pending (s : State) (a n : Nat) : (s.hostAsk a n).pending = s.pending := rfl
@[simp] theorem State.hostAsk_io (s : State) (a n : Nat) : (s.hostAsk a n).io = s.io.send (.hostRead a n) := rfl
@[simp] theorem State.hostAsk_ram (s : State) (a n : Nat) : (s.hostAsk a n).ram = s.ram := rfl
@[simp] theorem State.hostAsk_free (s : State) (a n : Nat) : (s.hostAsk a n).free = s.free := rfl
@[simp] theorem State.hostAsk_plan (s : State) (a n : Nat) : (s.hostAsk a n).plan = s.plan := rfl
@[simp] theorem State.hostAsk_fp (s : State) (a n : Nat) : (s.hostAsk a n).fp = s.fp := rfl
@[simp] theorem State.hostAsk_mer (s : State) (a n : Nat) : (s.hostAsk a n).mer = s.mer := rfl
@[simp] theorem State.hostAsk_xl (s : State) (a n : Nat) : (s.hostAsk a n).xl = s.xl := rfl
@[simp] theorem State.hostAsk_host (s : State) (a n : Nat) : (s.hostAsk a n).host = s.host := rfl
@[simp] theorem State.hostAsk_cf (s : State) (a n : Nat) : (s.hostAsk a n).cf = s.cf := rfl
@[simp] theorem State.hostAsk_sc (s : State) (a n : Nat) : (s.hostAsk a n).sc = s.sc := rfl
@[simp] theorem State.hostAsk_stk (s : State) (a n : Nat) : (s.hostAsk a n).stk = s.stk := rfl
@[simp] theorem State.hostAsk_rl (s : State) (a n : Nat) : (s.hostAsk a n).rl = s.rl := rfl
@[simp] theorem State.hostAsk_rooms (s : State) (a n : Nat) : (s.hostAsk a n).rooms = s.rooms := rfl
@[simp] theorem State.hostAsk_wings (s : State) (a n : Nat) : (s.hostAsk a n).wings = s.wings := rfl
@[simp] theorem State.hostAsk_upd (s : State) (a n : Nat) : (s.hostAsk a n).upd = s.upd := rfl
@[simp] theorem State.hostAsk_mx (s : State) (a n : Nat) : (s.hostAsk a n).mx = s.mx := rfl
@[simp] theorem State.hostAsk_fab (s : State) (a n : Nat) : (s.hostAsk a n).fab = s.fab := rfl
@[simp] theorem State.hostAsk_pw (s : State) (a n : Nat) : (s.hostAsk a n).pw = s.pw := rfl
@[simp] theorem State.hostAsk_po (s : State) (a n : Nat) : (s.hostAsk a n).po = s.po := rfl
@[simp] theorem State.hostAsk_se (s : State) (a n : Nat) : (s.hostAsk a n).se = s.se := rfl
@[simp] theorem State.hostAsk_tr (s : State) (a n : Nat) : (s.hostAsk a n).tr = s.tr := rfl

@[simp] theorem State.newUnit_pending (s : State) (u : XUnit) : (s.newUnit u).pending = s.pending := rfl
@[simp] theorem State.newUnit_io (s : State) (u : XUnit) : (s.newUnit u).io = s.io := rfl
@[simp] theorem State.newUnit_ram (s : State) (u : XUnit) : (s.newUnit u).ram = s.ram := rfl
@[simp] theorem State.newUnit_free (s : State) (u : XUnit) : (s.newUnit u).free = s.free := rfl
@[simp] theorem State.newUnit_plan (s : State) (u : XUnit) : (s.newUnit u).plan = s.plan := rfl
@[simp] theorem State.newUnit_fp (s : State) (u : XUnit) : (s.newUnit u).fp = s.fp := rfl
@[simp] theorem State.newUnit_mer (s : State) (u : XUnit) : (s.newUnit u).mer = s.mer := rfl
@[simp] theorem State.newUnit_xl (s : State) (u : XUnit) : (s.newUnit u).xl = { s.xl with units := s.xl.units.put s.xl.nextUnit u, nextUnit := s.xl.nextUnit + 1 } := rfl
@[simp] theorem State.newUnit_host (s : State) (u : XUnit) : (s.newUnit u).host = s.host := rfl
@[simp] theorem State.newUnit_cf (s : State) (u : XUnit) : (s.newUnit u).cf = s.cf := rfl
@[simp] theorem State.newUnit_sc (s : State) (u : XUnit) : (s.newUnit u).sc = s.sc := rfl
@[simp] theorem State.newUnit_stk (s : State) (u : XUnit) : (s.newUnit u).stk = s.stk := rfl
@[simp] theorem State.newUnit_rl (s : State) (u : XUnit) : (s.newUnit u).rl = s.rl := rfl
@[simp] theorem State.newUnit_rooms (s : State) (u : XUnit) : (s.newUnit u).rooms = s.rooms := rfl
@[simp] theorem State.newUnit_wings (s : State) (u : XUnit) : (s.newUnit u).wings = s.wings := rfl
@[simp] theorem State.newUnit_upd (s : State) (u : XUnit) : (s.newUnit u).upd = s.upd := rfl
@[simp] theorem State.newUnit_mx (s : State) (u : XUnit) : (s.newUnit u).mx = s.mx := rfl
@[simp] theorem State.newUnit_fab (s : State) (u : XUnit) : (s.newUnit u).fab = s.fab := rfl
@[simp] theorem State.newUnit_pw (s : State) (u : XUnit) : (s.newUnit u).pw = s.pw := rfl
@[simp] theorem State.newUnit_po (s : State) (u : XUnit) : (s.newUnit u).po = s.po := rfl
@[simp] theorem State.newUnit_se (s : State) (u : XUnit) : (s.newUnit u).se = s.se := rfl
@[simp] theorem State.newUnit_tr (s : State) (u : XUnit) : (s.newUnit u).tr = s.tr := rfl

@[simp] theorem State.setQueue_pending (s : State) (q : Nat) (f : Queue → Queue) : (s.setQueue q f).pending = s.pending := rfl
@[simp] theorem State.setQueue_io (s : State) (q : Nat) (f : Queue → Queue) : (s.setQueue q f).io = s.io := rfl
@[simp] theorem State.setQueue_ram (s : State) (q : Nat) (f : Queue → Queue) : (s.setQueue q f).ram = s.ram := rfl
@[simp] theorem State.setQueue_free (s : State) (q : Nat) (f : Queue → Queue) : (s.setQueue q f).free = s.free := rfl
@[simp] theorem State.setQueue_plan (s : State) (q : Nat) (f : Queue → Queue) : (s.setQueue q f).plan = s.plan := rfl
@[simp] theorem State.setQueue_fp (s : State) (q : Nat) (f : Queue → Queue) : (s.setQueue q f).fp = s.fp := rfl
@[simp] theorem State.setQueue_mer (s : State) (q : Nat) (f : Queue → Queue) : (s.setQueue q f).mer = s.mer := rfl
@[simp] theorem State.setQueue_xl (s : State) (q : Nat) (f : Queue → Queue) : (s.setQueue q f).xl = s.xl := rfl
@[simp] theorem State.setQueue_host (s : State) (q : Nat) (f : Queue → Queue) : (s.setQueue q f).host = s.host := rfl
@[simp] theorem State.setQueue_cf (s : State) (q : Nat) (f : Queue → Queue) : (s.setQueue q f).cf = s.cf.setQueue q f := rfl
@[simp] theorem State.setQueue_sc (s : State) (q : Nat) (f : Queue → Queue) : (s.setQueue q f).sc = s.sc := rfl
@[simp] theorem State.setQueue_stk (s : State) (q : Nat) (f : Queue → Queue) : (s.setQueue q f).stk = s.stk := rfl
@[simp] theorem State.setQueue_rl (s : State) (q : Nat) (f : Queue → Queue) : (s.setQueue q f).rl = s.rl := rfl
@[simp] theorem State.setQueue_rooms (s : State) (q : Nat) (f : Queue → Queue) : (s.setQueue q f).rooms = s.rooms := rfl
@[simp] theorem State.setQueue_wings (s : State) (q : Nat) (f : Queue → Queue) : (s.setQueue q f).wings = s.wings := rfl
@[simp] theorem State.setQueue_upd (s : State) (q : Nat) (f : Queue → Queue) : (s.setQueue q f).upd = s.upd := rfl
@[simp] theorem State.setQueue_mx (s : State) (q : Nat) (f : Queue → Queue) : (s.setQueue q f).mx = s.mx := rfl
@[simp] theorem State.setQueue_fab (s : State) (q : Nat) (f : Queue → Queue) : (s.setQueue q f).fab = s.fab := rfl
@[simp] theorem State.setQueue_pw (s : State) (q : Nat) (f : Queue → Queue) : (s.setQueue q f).pw = s.pw := rfl
@[simp] theorem State.setQueue_po (s : State) (q : Nat) (f : Queue → Queue) : (s.setQueue q f).po = s.po := rfl
@[simp] theorem State.setQueue_se (s : State) (q : Nat) (f : Queue → Queue) : (s.setQueue q f).se = s.se := rfl
@[simp] theorem State.setQueue_tr (s : State) (q : Nat) (f : Queue → Queue) : (s.setQueue q f).tr = s.tr := rfl

@[simp] theorem State.setCmd_pending (s : State) (id : Nat) (f : Cmd → Cmd) : (s.setCmd id f).pending = s.pending := rfl
@[simp] theorem State.setCmd_io (s : State) (id : Nat) (f : Cmd → Cmd) : (s.setCmd id f).io = s.io := rfl
@[simp] theorem State.setCmd_ram (s : State) (id : Nat) (f : Cmd → Cmd) : (s.setCmd id f).ram = s.ram := rfl
@[simp] theorem State.setCmd_free (s : State) (id : Nat) (f : Cmd → Cmd) : (s.setCmd id f).free = s.free := rfl
@[simp] theorem State.setCmd_plan (s : State) (id : Nat) (f : Cmd → Cmd) : (s.setCmd id f).plan = s.plan := rfl
@[simp] theorem State.setCmd_fp (s : State) (id : Nat) (f : Cmd → Cmd) : (s.setCmd id f).fp = s.fp := rfl
@[simp] theorem State.setCmd_mer (s : State) (id : Nat) (f : Cmd → Cmd) : (s.setCmd id f).mer = s.mer := rfl
@[simp] theorem State.setCmd_xl (s : State) (id : Nat) (f : Cmd → Cmd) : (s.setCmd id f).xl = s.xl := rfl
@[simp] theorem State.setCmd_host (s : State) (id : Nat) (f : Cmd → Cmd) : (s.setCmd id f).host = s.host := rfl
@[simp] theorem State.setCmd_cf (s : State) (id : Nat) (f : Cmd → Cmd) : (s.setCmd id f).cf = { s.cf with cmds := s.cf.cmds.upd id f } := rfl
@[simp] theorem State.setCmd_sc (s : State) (id : Nat) (f : Cmd → Cmd) : (s.setCmd id f).sc = s.sc := rfl
@[simp] theorem State.setCmd_stk (s : State) (id : Nat) (f : Cmd → Cmd) : (s.setCmd id f).stk = s.stk := rfl
@[simp] theorem State.setCmd_rl (s : State) (id : Nat) (f : Cmd → Cmd) : (s.setCmd id f).rl = s.rl := rfl
@[simp] theorem State.setCmd_rooms (s : State) (id : Nat) (f : Cmd → Cmd) : (s.setCmd id f).rooms = s.rooms := rfl
@[simp] theorem State.setCmd_wings (s : State) (id : Nat) (f : Cmd → Cmd) : (s.setCmd id f).wings = s.wings := rfl
@[simp] theorem State.setCmd_upd (s : State) (id : Nat) (f : Cmd → Cmd) : (s.setCmd id f).upd = s.upd := rfl
@[simp] theorem State.setCmd_mx (s : State) (id : Nat) (f : Cmd → Cmd) : (s.setCmd id f).mx = s.mx := rfl
@[simp] theorem State.setCmd_fab (s : State) (id : Nat) (f : Cmd → Cmd) : (s.setCmd id f).fab = s.fab := rfl
@[simp] theorem State.setCmd_pw (s : State) (id : Nat) (f : Cmd → Cmd) : (s.setCmd id f).pw = s.pw := rfl
@[simp] theorem State.setCmd_po (s : State) (id : Nat) (f : Cmd → Cmd) : (s.setCmd id f).po = s.po := rfl
@[simp] theorem State.setCmd_se (s : State) (id : Nat) (f : Cmd → Cmd) : (s.setCmd id f).se = s.se := rfl
@[simp] theorem State.setCmd_tr (s : State) (id : Nat) (f : Cmd → Cmd) : (s.setCmd id f).tr = s.tr := rfl

@[simp] theorem State.setUnit_pending (s : State) (k : Nat) (u : XUnit) : (s.setUnit k u).pending = s.pending := rfl
@[simp] theorem State.setUnit_io (s : State) (k : Nat) (u : XUnit) : (s.setUnit k u).io = s.io := rfl
@[simp] theorem State.setUnit_ram (s : State) (k : Nat) (u : XUnit) : (s.setUnit k u).ram = s.ram := rfl
@[simp] theorem State.setUnit_free (s : State) (k : Nat) (u : XUnit) : (s.setUnit k u).free = s.free := rfl
@[simp] theorem State.setUnit_plan (s : State) (k : Nat) (u : XUnit) : (s.setUnit k u).plan = s.plan := rfl
@[simp] theorem State.setUnit_fp (s : State) (k : Nat) (u : XUnit) : (s.setUnit k u).fp = s.fp := rfl
@[simp] theorem State.setUnit_mer (s : State) (k : Nat) (u : XUnit) : (s.setUnit k u).mer = s.mer := rfl
@[simp] theorem State.setUnit_xl (s : State) (k : Nat) (u : XUnit) : (s.setUnit k u).xl = { s.xl with units := s.xl.units.put k u } := rfl
@[simp] theorem State.setUnit_host (s : State) (k : Nat) (u : XUnit) : (s.setUnit k u).host = s.host := rfl
@[simp] theorem State.setUnit_cf (s : State) (k : Nat) (u : XUnit) : (s.setUnit k u).cf = s.cf := rfl
@[simp] theorem State.setUnit_sc (s : State) (k : Nat) (u : XUnit) : (s.setUnit k u).sc = s.sc := rfl
@[simp] theorem State.setUnit_stk (s : State) (k : Nat) (u : XUnit) : (s.setUnit k u).stk = s.stk := rfl
@[simp] theorem State.setUnit_rl (s : State) (k : Nat) (u : XUnit) : (s.setUnit k u).rl = s.rl := rfl
@[simp] theorem State.setUnit_rooms (s : State) (k : Nat) (u : XUnit) : (s.setUnit k u).rooms = s.rooms := rfl
@[simp] theorem State.setUnit_wings (s : State) (k : Nat) (u : XUnit) : (s.setUnit k u).wings = s.wings := rfl
@[simp] theorem State.setUnit_upd (s : State) (k : Nat) (u : XUnit) : (s.setUnit k u).upd = s.upd := rfl
@[simp] theorem State.setUnit_mx (s : State) (k : Nat) (u : XUnit) : (s.setUnit k u).mx = s.mx := rfl
@[simp] theorem State.setUnit_fab (s : State) (k : Nat) (u : XUnit) : (s.setUnit k u).fab = s.fab := rfl
@[simp] theorem State.setUnit_pw (s : State) (k : Nat) (u : XUnit) : (s.setUnit k u).pw = s.pw := rfl
@[simp] theorem State.setUnit_po (s : State) (k : Nat) (u : XUnit) : (s.setUnit k u).po = s.po := rfl
@[simp] theorem State.setUnit_se (s : State) (k : Nat) (u : XUnit) : (s.setUnit k u).se = s.se := rfl
@[simp] theorem State.setUnit_tr (s : State) (k : Nat) (u : XUnit) : (s.setUnit k u).tr = s.tr := rfl

@[simp] theorem State.dropUnit_pending (s : State) (k : Nat) : (s.dropUnit k).pending = s.pending := rfl
@[simp] theorem State.dropUnit_io (s : State) (k : Nat) : (s.dropUnit k).io = s.io := rfl
@[simp] theorem State.dropUnit_ram (s : State) (k : Nat) : (s.dropUnit k).ram = s.ram := rfl
@[simp] theorem State.dropUnit_free (s : State) (k : Nat) : (s.dropUnit k).free = s.free := rfl
@[simp] theorem State.dropUnit_plan (s : State) (k : Nat) : (s.dropUnit k).plan = s.plan := rfl
@[simp] theorem State.dropUnit_fp (s : State) (k : Nat) : (s.dropUnit k).fp = s.fp := rfl
@[simp] theorem State.dropUnit_mer (s : State) (k : Nat) : (s.dropUnit k).mer = s.mer := rfl
@[simp] theorem State.dropUnit_xl (s : State) (k : Nat) : (s.dropUnit k).xl = { s.xl with units := s.xl.units.del k, walks := s.xl.walks.del k } := rfl
@[simp] theorem State.dropUnit_host (s : State) (k : Nat) : (s.dropUnit k).host = s.host := rfl
@[simp] theorem State.dropUnit_cf (s : State) (k : Nat) : (s.dropUnit k).cf = s.cf := rfl
@[simp] theorem State.dropUnit_sc (s : State) (k : Nat) : (s.dropUnit k).sc = s.sc := rfl
@[simp] theorem State.dropUnit_stk (s : State) (k : Nat) : (s.dropUnit k).stk = s.stk := rfl
@[simp] theorem State.dropUnit_rl (s : State) (k : Nat) : (s.dropUnit k).rl = s.rl := rfl
@[simp] theorem State.dropUnit_rooms (s : State) (k : Nat) : (s.dropUnit k).rooms = s.rooms := rfl
@[simp] theorem State.dropUnit_wings (s : State) (k : Nat) : (s.dropUnit k).wings = s.wings := rfl
@[simp] theorem State.dropUnit_upd (s : State) (k : Nat) : (s.dropUnit k).upd = s.upd := rfl
@[simp] theorem State.dropUnit_mx (s : State) (k : Nat) : (s.dropUnit k).mx = s.mx := rfl
@[simp] theorem State.dropUnit_fab (s : State) (k : Nat) : (s.dropUnit k).fab = s.fab := rfl
@[simp] theorem State.dropUnit_pw (s : State) (k : Nat) : (s.dropUnit k).pw = s.pw := rfl
@[simp] theorem State.dropUnit_po (s : State) (k : Nat) : (s.dropUnit k).po = s.po := rfl
@[simp] theorem State.dropUnit_se (s : State) (k : Nat) : (s.dropUnit k).se = s.se := rfl
@[simp] theorem State.dropUnit_tr (s : State) (k : Nat) : (s.dropUnit k).tr = s.tr := rfl

@[simp] theorem State.setBatch_pending (s : State) (b : Nat) (f : Batch → Batch) : (s.setBatch b f).pending = s.pending := rfl
@[simp] theorem State.setBatch_io (s : State) (b : Nat) (f : Batch → Batch) : (s.setBatch b f).io = s.io := rfl
@[simp] theorem State.setBatch_ram (s : State) (b : Nat) (f : Batch → Batch) : (s.setBatch b f).ram = s.ram := rfl
@[simp] theorem State.setBatch_free (s : State) (b : Nat) (f : Batch → Batch) : (s.setBatch b f).free = s.free := rfl
@[simp] theorem State.setBatch_plan (s : State) (b : Nat) (f : Batch → Batch) : (s.setBatch b f).plan = s.plan := rfl
@[simp] theorem State.setBatch_fp (s : State) (b : Nat) (f : Batch → Batch) : (s.setBatch b f).fp = s.fp := rfl
@[simp] theorem State.setBatch_mer (s : State) (b : Nat) (f : Batch → Batch) : (s.setBatch b f).mer = s.mer := rfl
@[simp] theorem State.setBatch_xl (s : State) (b : Nat) (f : Batch → Batch) : (s.setBatch b f).xl = s.xl := rfl
@[simp] theorem State.setBatch_host (s : State) (b : Nat) (f : Batch → Batch) : (s.setBatch b f).host = s.host := rfl
@[simp] theorem State.setBatch_cf (s : State) (b : Nat) (f : Batch → Batch) : (s.setBatch b f).cf = s.cf := rfl
@[simp] theorem State.setBatch_sc (s : State) (b : Nat) (f : Batch → Batch) : (s.setBatch b f).sc = s.sc := rfl
@[simp] theorem State.setBatch_stk (s : State) (b : Nat) (f : Batch → Batch) : (s.setBatch b f).stk = s.stk := rfl
@[simp] theorem State.setBatch_rl (s : State) (b : Nat) (f : Batch → Batch) : (s.setBatch b f).rl = s.rl := rfl
@[simp] theorem State.setBatch_rooms (s : State) (b : Nat) (f : Batch → Batch) : (s.setBatch b f).rooms = s.rooms := rfl
@[simp] theorem State.setBatch_wings (s : State) (b : Nat) (f : Batch → Batch) : (s.setBatch b f).wings = { s.wings with batches := SMap.set (fun _ => Batch.reset) s.wings.batches b (f (s.batch b)) } := rfl
@[simp] theorem State.setBatch_upd (s : State) (b : Nat) (f : Batch → Batch) : (s.setBatch b f).upd = s.upd := rfl
@[simp] theorem State.setBatch_mx (s : State) (b : Nat) (f : Batch → Batch) : (s.setBatch b f).mx = s.mx := rfl
@[simp] theorem State.setBatch_fab (s : State) (b : Nat) (f : Batch → Batch) : (s.setBatch b f).fab = s.fab := rfl
@[simp] theorem State.setBatch_pw (s : State) (b : Nat) (f : Batch → Batch) : (s.setBatch b f).pw = s.pw := rfl
@[simp] theorem State.setBatch_po (s : State) (b : Nat) (f : Batch → Batch) : (s.setBatch b f).po = s.po := rfl
@[simp] theorem State.setBatch_se (s : State) (b : Nat) (f : Batch → Batch) : (s.setBatch b f).se = s.se := rfl
@[simp] theorem State.setBatch_tr (s : State) (b : Nat) (f : Batch → Batch) : (s.setBatch b f).tr = s.tr := rfl

@[simp] theorem State.dmaBytes_pending (s : State) (group n : Nat) : (s.dmaBytes group n).pending = s.pending := rfl
@[simp] theorem State.dmaBytes_io (s : State) (group n : Nat) : (s.dmaBytes group n).io = s.io.addWide .SC_GRP_DMA_LO group n := rfl
@[simp] theorem State.dmaBytes_ram (s : State) (group n : Nat) : (s.dmaBytes group n).ram = s.ram := rfl
@[simp] theorem State.dmaBytes_free (s : State) (group n : Nat) : (s.dmaBytes group n).free = s.free := rfl
@[simp] theorem State.dmaBytes_plan (s : State) (group n : Nat) : (s.dmaBytes group n).plan = s.plan := rfl
@[simp] theorem State.dmaBytes_fp (s : State) (group n : Nat) : (s.dmaBytes group n).fp = s.fp := rfl
@[simp] theorem State.dmaBytes_mer (s : State) (group n : Nat) : (s.dmaBytes group n).mer = s.mer := rfl
@[simp] theorem State.dmaBytes_xl (s : State) (group n : Nat) : (s.dmaBytes group n).xl = s.xl := rfl
@[simp] theorem State.dmaBytes_host (s : State) (group n : Nat) : (s.dmaBytes group n).host = s.host := rfl
@[simp] theorem State.dmaBytes_cf (s : State) (group n : Nat) : (s.dmaBytes group n).cf = s.cf := rfl
@[simp] theorem State.dmaBytes_sc (s : State) (group n : Nat) : (s.dmaBytes group n).sc = s.sc := rfl
@[simp] theorem State.dmaBytes_stk (s : State) (group n : Nat) : (s.dmaBytes group n).stk = s.stk := rfl
@[simp] theorem State.dmaBytes_rl (s : State) (group n : Nat) : (s.dmaBytes group n).rl = s.rl := rfl
@[simp] theorem State.dmaBytes_rooms (s : State) (group n : Nat) : (s.dmaBytes group n).rooms = s.rooms := rfl
@[simp] theorem State.dmaBytes_wings (s : State) (group n : Nat) : (s.dmaBytes group n).wings = s.wings := rfl
@[simp] theorem State.dmaBytes_upd (s : State) (group n : Nat) : (s.dmaBytes group n).upd = s.upd := rfl
@[simp] theorem State.dmaBytes_mx (s : State) (group n : Nat) : (s.dmaBytes group n).mx = s.mx := rfl
@[simp] theorem State.dmaBytes_fab (s : State) (group n : Nat) : (s.dmaBytes group n).fab = s.fab := rfl
@[simp] theorem State.dmaBytes_pw (s : State) (group n : Nat) : (s.dmaBytes group n).pw = s.pw := rfl
@[simp] theorem State.dmaBytes_po (s : State) (group n : Nat) : (s.dmaBytes group n).po = s.po := rfl
@[simp] theorem State.dmaBytes_se (s : State) (group n : Nat) : (s.dmaBytes group n).se = s.se := rfl
@[simp] theorem State.dmaBytes_tr (s : State) (group n : Nat) : (s.dmaBytes group n).tr = s.tr := rfl

@[simp] theorem State.setPort_pending (s : State) (p : Nat) (f : Port → Port) : (s.setPort p f).pending = s.pending := rfl
@[simp] theorem State.setPort_io (s : State) (p : Nat) (f : Port → Port) : (s.setPort p f).io = s.io := rfl
@[simp] theorem State.setPort_ram (s : State) (p : Nat) (f : Port → Port) : (s.setPort p f).ram = s.ram := rfl
@[simp] theorem State.setPort_free (s : State) (p : Nat) (f : Port → Port) : (s.setPort p f).free = s.free := rfl
@[simp] theorem State.setPort_plan (s : State) (p : Nat) (f : Port → Port) : (s.setPort p f).plan = s.plan := rfl
@[simp] theorem State.setPort_fp (s : State) (p : Nat) (f : Port → Port) : (s.setPort p f).fp = s.fp := rfl
@[simp] theorem State.setPort_mer (s : State) (p : Nat) (f : Port → Port) : (s.setPort p f).mer = s.mer := rfl
@[simp] theorem State.setPort_xl (s : State) (p : Nat) (f : Port → Port) : (s.setPort p f).xl = s.xl := rfl
@[simp] theorem State.setPort_host (s : State) (p : Nat) (f : Port → Port) : (s.setPort p f).host = s.host := rfl
@[simp] theorem State.setPort_cf (s : State) (p : Nat) (f : Port → Port) : (s.setPort p f).cf = s.cf := rfl
@[simp] theorem State.setPort_sc (s : State) (p : Nat) (f : Port → Port) : (s.setPort p f).sc = s.sc := rfl
@[simp] theorem State.setPort_stk (s : State) (p : Nat) (f : Port → Port) : (s.setPort p f).stk = s.stk := rfl
@[simp] theorem State.setPort_rl (s : State) (p : Nat) (f : Port → Port) : (s.setPort p f).rl = s.rl := rfl
@[simp] theorem State.setPort_rooms (s : State) (p : Nat) (f : Port → Port) : (s.setPort p f).rooms = s.rooms := rfl
@[simp] theorem State.setPort_wings (s : State) (p : Nat) (f : Port → Port) : (s.setPort p f).wings = s.wings := rfl
@[simp] theorem State.setPort_upd (s : State) (p : Nat) (f : Port → Port) : (s.setPort p f).upd = s.upd := rfl
@[simp] theorem State.setPort_mx (s : State) (p : Nat) (f : Port → Port) : (s.setPort p f).mx = s.mx := rfl
@[simp] theorem State.setPort_fab (s : State) (p : Nat) (f : Port → Port) : (s.setPort p f).fab = { s.fab with ports := SMap.set portDflt s.fab.ports p (f (s.port p)) } := rfl
@[simp] theorem State.setPort_pw (s : State) (p : Nat) (f : Port → Port) : (s.setPort p f).pw = s.pw := rfl
@[simp] theorem State.setPort_po (s : State) (p : Nat) (f : Port → Port) : (s.setPort p f).po = s.po := rfl
@[simp] theorem State.setPort_se (s : State) (p : Nat) (f : Port → Port) : (s.setPort p f).se = s.se := rfl
@[simp] theorem State.setPort_tr (s : State) (p : Nat) (f : Port → Port) : (s.setPort p f).tr = s.tr := rfl

@[simp] theorem State.setConn_pending (s : State) (k : Nat) (f : Conn → Conn) : (s.setConn k f).pending = s.pending := rfl
@[simp] theorem State.setConn_io (s : State) (k : Nat) (f : Conn → Conn) : (s.setConn k f).io = s.io := rfl
@[simp] theorem State.setConn_ram (s : State) (k : Nat) (f : Conn → Conn) : (s.setConn k f).ram = s.ram := rfl
@[simp] theorem State.setConn_free (s : State) (k : Nat) (f : Conn → Conn) : (s.setConn k f).free = s.free := rfl
@[simp] theorem State.setConn_plan (s : State) (k : Nat) (f : Conn → Conn) : (s.setConn k f).plan = s.plan := rfl
@[simp] theorem State.setConn_fp (s : State) (k : Nat) (f : Conn → Conn) : (s.setConn k f).fp = s.fp := rfl
@[simp] theorem State.setConn_mer (s : State) (k : Nat) (f : Conn → Conn) : (s.setConn k f).mer = s.mer := rfl
@[simp] theorem State.setConn_xl (s : State) (k : Nat) (f : Conn → Conn) : (s.setConn k f).xl = s.xl := rfl
@[simp] theorem State.setConn_host (s : State) (k : Nat) (f : Conn → Conn) : (s.setConn k f).host = s.host := rfl
@[simp] theorem State.setConn_cf (s : State) (k : Nat) (f : Conn → Conn) : (s.setConn k f).cf = s.cf := rfl
@[simp] theorem State.setConn_sc (s : State) (k : Nat) (f : Conn → Conn) : (s.setConn k f).sc = s.sc := rfl
@[simp] theorem State.setConn_stk (s : State) (k : Nat) (f : Conn → Conn) : (s.setConn k f).stk = s.stk := rfl
@[simp] theorem State.setConn_rl (s : State) (k : Nat) (f : Conn → Conn) : (s.setConn k f).rl = s.rl := rfl
@[simp] theorem State.setConn_rooms (s : State) (k : Nat) (f : Conn → Conn) : (s.setConn k f).rooms = s.rooms := rfl
@[simp] theorem State.setConn_wings (s : State) (k : Nat) (f : Conn → Conn) : (s.setConn k f).wings = s.wings := rfl
@[simp] theorem State.setConn_upd (s : State) (k : Nat) (f : Conn → Conn) : (s.setConn k f).upd = s.upd := rfl
@[simp] theorem State.setConn_mx (s : State) (k : Nat) (f : Conn → Conn) : (s.setConn k f).mx = s.mx := rfl
@[simp] theorem State.setConn_fab (s : State) (k : Nat) (f : Conn → Conn) : (s.setConn k f).fab = { s.fab with conns := s.fab.conns.upd k f } := rfl
@[simp] theorem State.setConn_pw (s : State) (k : Nat) (f : Conn → Conn) : (s.setConn k f).pw = s.pw := rfl
@[simp] theorem State.setConn_po (s : State) (k : Nat) (f : Conn → Conn) : (s.setConn k f).po = s.po := rfl
@[simp] theorem State.setConn_se (s : State) (k : Nat) (f : Conn → Conn) : (s.setConn k f).se = s.se := rfl
@[simp] theorem State.setConn_tr (s : State) (k : Nat) (f : Conn → Conn) : (s.setConn k f).tr = s.tr := rfl

@[simp] theorem State.setList_pending (s : State) (l : Nat) (f : Lookup → Lookup) : (s.setList l f).pending = s.pending := rfl
@[simp] theorem State.setList_io (s : State) (l : Nat) (f : Lookup → Lookup) : (s.setList l f).io = s.io := rfl
@[simp] theorem State.setList_ram (s : State) (l : Nat) (f : Lookup → Lookup) : (s.setList l f).ram = s.ram := rfl
@[simp] theorem State.setList_free (s : State) (l : Nat) (f : Lookup → Lookup) : (s.setList l f).free = s.free := rfl
@[simp] theorem State.setList_plan (s : State) (l : Nat) (f : Lookup → Lookup) : (s.setList l f).plan = s.plan := rfl
@[simp] theorem State.setList_fp (s : State) (l : Nat) (f : Lookup → Lookup) : (s.setList l f).fp = s.fp := rfl
@[simp] theorem State.setList_mer (s : State) (l : Nat) (f : Lookup → Lookup) : (s.setList l f).mer = s.mer := rfl
@[simp] theorem State.setList_xl (s : State) (l : Nat) (f : Lookup → Lookup) : (s.setList l f).xl = s.xl := rfl
@[simp] theorem State.setList_host (s : State) (l : Nat) (f : Lookup → Lookup) : (s.setList l f).host = s.host := rfl
@[simp] theorem State.setList_cf (s : State) (l : Nat) (f : Lookup → Lookup) : (s.setList l f).cf = s.cf := rfl
@[simp] theorem State.setList_sc (s : State) (l : Nat) (f : Lookup → Lookup) : (s.setList l f).sc = s.sc := rfl
@[simp] theorem State.setList_stk (s : State) (l : Nat) (f : Lookup → Lookup) : (s.setList l f).stk = s.stk := rfl
@[simp] theorem State.setList_rl (s : State) (l : Nat) (f : Lookup → Lookup) : (s.setList l f).rl = s.rl := rfl
@[simp] theorem State.setList_rooms (s : State) (l : Nat) (f : Lookup → Lookup) : (s.setList l f).rooms = s.rooms := rfl
@[simp] theorem State.setList_wings (s : State) (l : Nat) (f : Lookup → Lookup) : (s.setList l f).wings = { s.wings with lookups := s.wings.lookups.upd l f } := rfl
@[simp] theorem State.setList_upd (s : State) (l : Nat) (f : Lookup → Lookup) : (s.setList l f).upd = s.upd := rfl
@[simp] theorem State.setList_mx (s : State) (l : Nat) (f : Lookup → Lookup) : (s.setList l f).mx = s.mx := rfl
@[simp] theorem State.setList_fab (s : State) (l : Nat) (f : Lookup → Lookup) : (s.setList l f).fab = s.fab := rfl
@[simp] theorem State.setList_pw (s : State) (l : Nat) (f : Lookup → Lookup) : (s.setList l f).pw = s.pw := rfl
@[simp] theorem State.setList_po (s : State) (l : Nat) (f : Lookup → Lookup) : (s.setList l f).po = s.po := rfl
@[simp] theorem State.setList_se (s : State) (l : Nat) (f : Lookup → Lookup) : (s.setList l f).se = s.se := rfl
@[simp] theorem State.setList_tr (s : State) (l : Nat) (f : Lookup → Lookup) : (s.setList l f).tr = s.tr := rfl

@[simp] theorem State.setLayer_pending (s : State) (id : Nat) (f : Layer → Layer) : (s.setLayer id f).pending = s.pending := rfl
@[simp] theorem State.setLayer_io (s : State) (id : Nat) (f : Layer → Layer) : (s.setLayer id f).io = s.io := rfl
@[simp] theorem State.setLayer_ram (s : State) (id : Nat) (f : Layer → Layer) : (s.setLayer id f).ram = s.ram := rfl
@[simp] theorem State.setLayer_free (s : State) (id : Nat) (f : Layer → Layer) : (s.setLayer id f).free = s.free := rfl
@[simp] theorem State.setLayer_plan (s : State) (id : Nat) (f : Layer → Layer) : (s.setLayer id f).plan = s.plan := rfl
@[simp] theorem State.setLayer_fp (s : State) (id : Nat) (f : Layer → Layer) : (s.setLayer id f).fp = s.fp := rfl
@[simp] theorem State.setLayer_mer (s : State) (id : Nat) (f : Layer → Layer) : (s.setLayer id f).mer = s.mer := rfl
@[simp] theorem State.setLayer_xl (s : State) (id : Nat) (f : Layer → Layer) : (s.setLayer id f).xl = s.xl := rfl
@[simp] theorem State.setLayer_host (s : State) (id : Nat) (f : Layer → Layer) : (s.setLayer id f).host = s.host := rfl
@[simp] theorem State.setLayer_cf (s : State) (id : Nat) (f : Layer → Layer) : (s.setLayer id f).cf = s.cf := rfl
@[simp] theorem State.setLayer_sc (s : State) (id : Nat) (f : Layer → Layer) : (s.setLayer id f).sc = s.sc := rfl
@[simp] theorem State.setLayer_stk (s : State) (id : Nat) (f : Layer → Layer) : (s.setLayer id f).stk = s.stk := rfl
@[simp] theorem State.setLayer_rl (s : State) (id : Nat) (f : Layer → Layer) : (s.setLayer id f).rl = s.rl := rfl
@[simp] theorem State.setLayer_rooms (s : State) (id : Nat) (f : Layer → Layer) : (s.setLayer id f).rooms = s.rooms := rfl
@[simp] theorem State.setLayer_wings (s : State) (id : Nat) (f : Layer → Layer) : (s.setLayer id f).wings = s.wings := rfl
@[simp] theorem State.setLayer_upd (s : State) (id : Nat) (f : Layer → Layer) : (s.setLayer id f).upd = { s.upd with layers := SMap.set layerDflt s.upd.layers id (f (s.layer id)) } := rfl
@[simp] theorem State.setLayer_mx (s : State) (id : Nat) (f : Layer → Layer) : (s.setLayer id f).mx = s.mx := rfl
@[simp] theorem State.setLayer_fab (s : State) (id : Nat) (f : Layer → Layer) : (s.setLayer id f).fab = s.fab := rfl
@[simp] theorem State.setLayer_pw (s : State) (id : Nat) (f : Layer → Layer) : (s.setLayer id f).pw = s.pw := rfl
@[simp] theorem State.setLayer_po (s : State) (id : Nat) (f : Layer → Layer) : (s.setLayer id f).po = s.po := rfl
@[simp] theorem State.setLayer_se (s : State) (id : Nat) (f : Layer → Layer) : (s.setLayer id f).se = s.se := rfl
@[simp] theorem State.setLayer_tr (s : State) (id : Nat) (f : Layer → Layer) : (s.setLayer id f).tr = s.tr := rfl

@[simp] theorem State.putDigest_pending (s : State) (id b d : Nat) : (s.putDigest id b d).pending = s.pending := rfl
@[simp] theorem State.putDigest_io (s : State) (id b d : Nat) : (s.putDigest id b d).io = s.io := rfl
@[simp] theorem State.putDigest_ram (s : State) (id b d : Nat) : (s.putDigest id b d).ram = s.ram := rfl
@[simp] theorem State.putDigest_free (s : State) (id b d : Nat) : (s.putDigest id b d).free = s.free := rfl
@[simp] theorem State.putDigest_plan (s : State) (id b d : Nat) : (s.putDigest id b d).plan = s.plan := rfl
@[simp] theorem State.putDigest_fp (s : State) (id b d : Nat) : (s.putDigest id b d).fp = s.fp := rfl
@[simp] theorem State.putDigest_mer (s : State) (id b d : Nat) : (s.putDigest id b d).mer = s.mer := rfl
@[simp] theorem State.putDigest_xl (s : State) (id b d : Nat) : (s.putDigest id b d).xl = s.xl := rfl
@[simp] theorem State.putDigest_host (s : State) (id b d : Nat) : (s.putDigest id b d).host = s.host := rfl
@[simp] theorem State.putDigest_cf (s : State) (id b d : Nat) : (s.putDigest id b d).cf = s.cf := rfl
@[simp] theorem State.putDigest_sc (s : State) (id b d : Nat) : (s.putDigest id b d).sc = s.sc := rfl
@[simp] theorem State.putDigest_stk (s : State) (id b d : Nat) : (s.putDigest id b d).stk = s.stk := rfl
@[simp] theorem State.putDigest_rl (s : State) (id b d : Nat) : (s.putDigest id b d).rl = { s.rl with digests := SMap.set (fun _ => 0) s.rl.digests (2 * id + b) d } := rfl
@[simp] theorem State.putDigest_rooms (s : State) (id b d : Nat) : (s.putDigest id b d).rooms = s.rooms := rfl
@[simp] theorem State.putDigest_wings (s : State) (id b d : Nat) : (s.putDigest id b d).wings = s.wings := rfl
@[simp] theorem State.putDigest_upd (s : State) (id b d : Nat) : (s.putDigest id b d).upd = s.upd := rfl
@[simp] theorem State.putDigest_mx (s : State) (id b d : Nat) : (s.putDigest id b d).mx = s.mx := rfl
@[simp] theorem State.putDigest_fab (s : State) (id b d : Nat) : (s.putDigest id b d).fab = s.fab := rfl
@[simp] theorem State.putDigest_pw (s : State) (id b d : Nat) : (s.putDigest id b d).pw = s.pw := rfl
@[simp] theorem State.putDigest_po (s : State) (id b d : Nat) : (s.putDigest id b d).po = s.po := rfl
@[simp] theorem State.putDigest_se (s : State) (id b d : Nat) : (s.putDigest id b d).se = s.se := rfl
@[simp] theorem State.putDigest_tr (s : State) (id b d : Nat) : (s.putDigest id b d).tr = s.tr := rfl

@[simp] theorem State.setShard_pending (s : State) (w : Nat) (f : Shard → Shard) : (s.setShard w f).pending = s.pending := rfl
@[simp] theorem State.setShard_io (s : State) (w : Nat) (f : Shard → Shard) : (s.setShard w f).io = s.io := rfl
@[simp] theorem State.setShard_ram (s : State) (w : Nat) (f : Shard → Shard) : (s.setShard w f).ram = s.ram := rfl
@[simp] theorem State.setShard_free (s : State) (w : Nat) (f : Shard → Shard) : (s.setShard w f).free = s.free := rfl
@[simp] theorem State.setShard_plan (s : State) (w : Nat) (f : Shard → Shard) : (s.setShard w f).plan = s.plan := rfl
@[simp] theorem State.setShard_fp (s : State) (w : Nat) (f : Shard → Shard) : (s.setShard w f).fp = s.fp := rfl
@[simp] theorem State.setShard_mer (s : State) (w : Nat) (f : Shard → Shard) : (s.setShard w f).mer = s.mer := rfl
@[simp] theorem State.setShard_xl (s : State) (w : Nat) (f : Shard → Shard) : (s.setShard w f).xl = s.xl := rfl
@[simp] theorem State.setShard_host (s : State) (w : Nat) (f : Shard → Shard) : (s.setShard w f).host = s.host := rfl
@[simp] theorem State.setShard_cf (s : State) (w : Nat) (f : Shard → Shard) : (s.setShard w f).cf = s.cf := rfl
@[simp] theorem State.setShard_sc (s : State) (w : Nat) (f : Shard → Shard) : (s.setShard w f).sc = s.sc := rfl
@[simp] theorem State.setShard_stk (s : State) (w : Nat) (f : Shard → Shard) : (s.setShard w f).stk = s.stk := rfl
@[simp] theorem State.setShard_rl (s : State) (w : Nat) (f : Shard → Shard) : (s.setShard w f).rl = s.rl := rfl
@[simp] theorem State.setShard_rooms (s : State) (w : Nat) (f : Shard → Shard) : (s.setShard w f).rooms = s.rooms := rfl
@[simp] theorem State.setShard_wings (s : State) (w : Nat) (f : Shard → Shard) : (s.setShard w f).wings = s.wings := rfl
@[simp] theorem State.setShard_upd (s : State) (w : Nat) (f : Shard → Shard) : (s.setShard w f).upd = { s.upd with shards := SMap.set shardDflt s.upd.shards w (f (s.shard w)) } := rfl
@[simp] theorem State.setShard_mx (s : State) (w : Nat) (f : Shard → Shard) : (s.setShard w f).mx = s.mx := rfl
@[simp] theorem State.setShard_fab (s : State) (w : Nat) (f : Shard → Shard) : (s.setShard w f).fab = s.fab := rfl
@[simp] theorem State.setShard_pw (s : State) (w : Nat) (f : Shard → Shard) : (s.setShard w f).pw = s.pw := rfl
@[simp] theorem State.setShard_po (s : State) (w : Nat) (f : Shard → Shard) : (s.setShard w f).po = s.po := rfl
@[simp] theorem State.setShard_se (s : State) (w : Nat) (f : Shard → Shard) : (s.setShard w f).se = s.se := rfl
@[simp] theorem State.setShard_tr (s : State) (w : Nat) (f : Shard → Shard) : (s.setShard w f).tr = s.tr := rfl

@[simp] theorem State.setComb_pending (s : State) (k : Nat) (f : Combiner → Combiner) : (s.setComb k f).pending = s.pending := rfl
@[simp] theorem State.setComb_io (s : State) (k : Nat) (f : Combiner → Combiner) : (s.setComb k f).io = s.io := rfl
@[simp] theorem State.setComb_ram (s : State) (k : Nat) (f : Combiner → Combiner) : (s.setComb k f).ram = s.ram := rfl
@[simp] theorem State.setComb_free (s : State) (k : Nat) (f : Combiner → Combiner) : (s.setComb k f).free = s.free := rfl
@[simp] theorem State.setComb_plan (s : State) (k : Nat) (f : Combiner → Combiner) : (s.setComb k f).plan = s.plan := rfl
@[simp] theorem State.setComb_fp (s : State) (k : Nat) (f : Combiner → Combiner) : (s.setComb k f).fp = s.fp := rfl
@[simp] theorem State.setComb_mer (s : State) (k : Nat) (f : Combiner → Combiner) : (s.setComb k f).mer = s.mer := rfl
@[simp] theorem State.setComb_xl (s : State) (k : Nat) (f : Combiner → Combiner) : (s.setComb k f).xl = s.xl := rfl
@[simp] theorem State.setComb_host (s : State) (k : Nat) (f : Combiner → Combiner) : (s.setComb k f).host = s.host := rfl
@[simp] theorem State.setComb_cf (s : State) (k : Nat) (f : Combiner → Combiner) : (s.setComb k f).cf = s.cf := rfl
@[simp] theorem State.setComb_sc (s : State) (k : Nat) (f : Combiner → Combiner) : (s.setComb k f).sc = s.sc := rfl
@[simp] theorem State.setComb_stk (s : State) (k : Nat) (f : Combiner → Combiner) : (s.setComb k f).stk = s.stk := rfl
@[simp] theorem State.setComb_rl (s : State) (k : Nat) (f : Combiner → Combiner) : (s.setComb k f).rl = s.rl := rfl
@[simp] theorem State.setComb_rooms (s : State) (k : Nat) (f : Combiner → Combiner) : (s.setComb k f).rooms = s.rooms := rfl
@[simp] theorem State.setComb_wings (s : State) (k : Nat) (f : Combiner → Combiner) : (s.setComb k f).wings = s.wings := rfl
@[simp] theorem State.setComb_upd (s : State) (k : Nat) (f : Combiner → Combiner) : (s.setComb k f).upd = { s.upd with combiners := SMap.set combDflt s.upd.combiners k (f (s.comb k)) } := rfl
@[simp] theorem State.setComb_mx (s : State) (k : Nat) (f : Combiner → Combiner) : (s.setComb k f).mx = s.mx := rfl
@[simp] theorem State.setComb_fab (s : State) (k : Nat) (f : Combiner → Combiner) : (s.setComb k f).fab = s.fab := rfl
@[simp] theorem State.setComb_pw (s : State) (k : Nat) (f : Combiner → Combiner) : (s.setComb k f).pw = s.pw := rfl
@[simp] theorem State.setComb_po (s : State) (k : Nat) (f : Combiner → Combiner) : (s.setComb k f).po = s.po := rfl
@[simp] theorem State.setComb_se (s : State) (k : Nat) (f : Combiner → Combiner) : (s.setComb k f).se = s.se := rfl
@[simp] theorem State.setComb_tr (s : State) (k : Nat) (f : Combiner → Combiner) : (s.setComb k f).tr = s.tr := rfl

@[simp] theorem State.setUpd_pending (s : State) (f : Update → Update) : (s.setUpd f).pending = s.pending := rfl
@[simp] theorem State.setUpd_io (s : State) (f : Update → Update) : (s.setUpd f).io = s.io := rfl
@[simp] theorem State.setUpd_ram (s : State) (f : Update → Update) : (s.setUpd f).ram = s.ram := rfl
@[simp] theorem State.setUpd_free (s : State) (f : Update → Update) : (s.setUpd f).free = s.free := rfl
@[simp] theorem State.setUpd_plan (s : State) (f : Update → Update) : (s.setUpd f).plan = s.plan := rfl
@[simp] theorem State.setUpd_fp (s : State) (f : Update → Update) : (s.setUpd f).fp = s.fp := rfl
@[simp] theorem State.setUpd_mer (s : State) (f : Update → Update) : (s.setUpd f).mer = s.mer := rfl
@[simp] theorem State.setUpd_xl (s : State) (f : Update → Update) : (s.setUpd f).xl = s.xl := rfl
@[simp] theorem State.setUpd_host (s : State) (f : Update → Update) : (s.setUpd f).host = s.host := rfl
@[simp] theorem State.setUpd_cf (s : State) (f : Update → Update) : (s.setUpd f).cf = s.cf := rfl
@[simp] theorem State.setUpd_sc (s : State) (f : Update → Update) : (s.setUpd f).sc = s.sc := rfl
@[simp] theorem State.setUpd_stk (s : State) (f : Update → Update) : (s.setUpd f).stk = s.stk := rfl
@[simp] theorem State.setUpd_rl (s : State) (f : Update → Update) : (s.setUpd f).rl = s.rl := rfl
@[simp] theorem State.setUpd_rooms (s : State) (f : Update → Update) : (s.setUpd f).rooms = s.rooms := rfl
@[simp] theorem State.setUpd_wings (s : State) (f : Update → Update) : (s.setUpd f).wings = s.wings := rfl
@[simp] theorem State.setUpd_upd (s : State) (f : Update → Update) : (s.setUpd f).upd = f s.upd := rfl
@[simp] theorem State.setUpd_mx (s : State) (f : Update → Update) : (s.setUpd f).mx = s.mx := rfl
@[simp] theorem State.setUpd_fab (s : State) (f : Update → Update) : (s.setUpd f).fab = s.fab := rfl
@[simp] theorem State.setUpd_pw (s : State) (f : Update → Update) : (s.setUpd f).pw = s.pw := rfl
@[simp] theorem State.setUpd_po (s : State) (f : Update → Update) : (s.setUpd f).po = s.po := rfl
@[simp] theorem State.setUpd_se (s : State) (f : Update → Update) : (s.setUpd f).se = s.se := rfl
@[simp] theorem State.setUpd_tr (s : State) (f : Update → Update) : (s.setUpd f).tr = s.tr := rfl

@[simp] theorem State.keepGrad_pending (s : State) (ctx iter unit st : Nat) : (s.keepGrad ctx iter unit st).pending = s.pending := rfl
@[simp] theorem State.keepGrad_io (s : State) (ctx iter unit st : Nat) : (s.keepGrad ctx iter unit st).io = s.io := rfl
@[simp] theorem State.keepGrad_ram (s : State) (ctx iter unit st : Nat) : (s.keepGrad ctx iter unit st).ram = s.ram := rfl
@[simp] theorem State.keepGrad_free (s : State) (ctx iter unit st : Nat) : (s.keepGrad ctx iter unit st).free = s.free := rfl
@[simp] theorem State.keepGrad_plan (s : State) (ctx iter unit st : Nat) : (s.keepGrad ctx iter unit st).plan = s.plan := rfl
@[simp] theorem State.keepGrad_fp (s : State) (ctx iter unit st : Nat) : (s.keepGrad ctx iter unit st).fp = s.fp := rfl
@[simp] theorem State.keepGrad_mer (s : State) (ctx iter unit st : Nat) : (s.keepGrad ctx iter unit st).mer = s.mer := rfl
@[simp] theorem State.keepGrad_xl (s : State) (ctx iter unit st : Nat) : (s.keepGrad ctx iter unit st).xl = s.xl := rfl
@[simp] theorem State.keepGrad_host (s : State) (ctx iter unit st : Nat) : (s.keepGrad ctx iter unit st).host = s.host := rfl
@[simp] theorem State.keepGrad_cf (s : State) (ctx iter unit st : Nat) : (s.keepGrad ctx iter unit st).cf = s.cf := rfl
@[simp] theorem State.keepGrad_sc (s : State) (ctx iter unit st : Nat) : (s.keepGrad ctx iter unit st).sc = { s.sc with streams := s.sc.streams.upd ctx (fun x => if st = stDone then x else match x.gkept with | some k => if gradRank st < gradRank k.1 then { x with gkept := some (st, iter, unit) } else x | none => { x with gkept := some (st, iter, unit) }) } := rfl
@[simp] theorem State.keepGrad_stk (s : State) (ctx iter unit st : Nat) : (s.keepGrad ctx iter unit st).stk = s.stk := rfl
@[simp] theorem State.keepGrad_rl (s : State) (ctx iter unit st : Nat) : (s.keepGrad ctx iter unit st).rl = s.rl := rfl
@[simp] theorem State.keepGrad_rooms (s : State) (ctx iter unit st : Nat) : (s.keepGrad ctx iter unit st).rooms = s.rooms := rfl
@[simp] theorem State.keepGrad_wings (s : State) (ctx iter unit st : Nat) : (s.keepGrad ctx iter unit st).wings = s.wings := rfl
@[simp] theorem State.keepGrad_upd (s : State) (ctx iter unit st : Nat) : (s.keepGrad ctx iter unit st).upd = s.upd := rfl
@[simp] theorem State.keepGrad_mx (s : State) (ctx iter unit st : Nat) : (s.keepGrad ctx iter unit st).mx = s.mx := rfl
@[simp] theorem State.keepGrad_fab (s : State) (ctx iter unit st : Nat) : (s.keepGrad ctx iter unit st).fab = s.fab := rfl
@[simp] theorem State.keepGrad_pw (s : State) (ctx iter unit st : Nat) : (s.keepGrad ctx iter unit st).pw = s.pw := rfl
@[simp] theorem State.keepGrad_po (s : State) (ctx iter unit st : Nat) : (s.keepGrad ctx iter unit st).po = s.po := rfl
@[simp] theorem State.keepGrad_se (s : State) (ctx iter unit st : Nat) : (s.keepGrad ctx iter unit st).se = s.se := rfl
@[simp] theorem State.keepGrad_tr (s : State) (ctx iter unit st : Nat) : (s.keepGrad ctx iter unit st).tr = s.tr := rfl

@[simp] theorem State.setVerdict_pending (s : State) (flip : Bool) (g : Verdict → Verdict) : (s.setVerdict flip g).pending = s.pending := rfl
@[simp] theorem State.setVerdict_io (s : State) (flip : Bool) (g : Verdict → Verdict) : (s.setVerdict flip g).io = s.io := rfl
@[simp] theorem State.setVerdict_ram (s : State) (flip : Bool) (g : Verdict → Verdict) : (s.setVerdict flip g).ram = s.ram := rfl
@[simp] theorem State.setVerdict_free (s : State) (flip : Bool) (g : Verdict → Verdict) : (s.setVerdict flip g).free = s.free := rfl
@[simp] theorem State.setVerdict_plan (s : State) (flip : Bool) (g : Verdict → Verdict) : (s.setVerdict flip g).plan = s.plan := rfl
@[simp] theorem State.setVerdict_fp (s : State) (flip : Bool) (g : Verdict → Verdict) : (s.setVerdict flip g).fp = s.fp := rfl
@[simp] theorem State.setVerdict_mer (s : State) (flip : Bool) (g : Verdict → Verdict) : (s.setVerdict flip g).mer = s.mer := rfl
@[simp] theorem State.setVerdict_xl (s : State) (flip : Bool) (g : Verdict → Verdict) : (s.setVerdict flip g).xl = s.xl := rfl
@[simp] theorem State.setVerdict_host (s : State) (flip : Bool) (g : Verdict → Verdict) : (s.setVerdict flip g).host = s.host := rfl
@[simp] theorem State.setVerdict_cf (s : State) (flip : Bool) (g : Verdict → Verdict) : (s.setVerdict flip g).cf = s.cf := rfl
@[simp] theorem State.setVerdict_sc (s : State) (flip : Bool) (g : Verdict → Verdict) : (s.setVerdict flip g).sc = s.sc := rfl
@[simp] theorem State.setVerdict_stk (s : State) (flip : Bool) (g : Verdict → Verdict) : (s.setVerdict flip g).stk = s.stk := rfl
@[simp] theorem State.setVerdict_rl (s : State) (flip : Bool) (g : Verdict → Verdict) : (s.setVerdict flip g).rl = s.rl := rfl
@[simp] theorem State.setVerdict_rooms (s : State) (flip : Bool) (g : Verdict → Verdict) : (s.setVerdict flip g).rooms = s.rooms := rfl
@[simp] theorem State.setVerdict_wings (s : State) (flip : Bool) (g : Verdict → Verdict) : (s.setVerdict flip g).wings = s.wings := rfl
@[simp] theorem State.setVerdict_upd (s : State) (flip : Bool) (g : Verdict → Verdict) : (s.setVerdict flip g).upd = s.upd := rfl
@[simp] theorem State.setVerdict_mx (s : State) (flip : Bool) (g : Verdict → Verdict) : (s.setVerdict flip g).mx = s.mx := rfl
@[simp] theorem State.setVerdict_fab (s : State) (flip : Bool) (g : Verdict → Verdict) : (s.setVerdict flip g).fab = if flip then { s.fab with flip := g s.fab.flip } else { s.fab with commit := g s.fab.commit } := rfl
@[simp] theorem State.setVerdict_pw (s : State) (flip : Bool) (g : Verdict → Verdict) : (s.setVerdict flip g).pw = s.pw := rfl
@[simp] theorem State.setVerdict_po (s : State) (flip : Bool) (g : Verdict → Verdict) : (s.setVerdict flip g).po = s.po := rfl
@[simp] theorem State.setVerdict_se (s : State) (flip : Bool) (g : Verdict → Verdict) : (s.setVerdict flip g).se = s.se := rfl
@[simp] theorem State.setVerdict_tr (s : State) (flip : Bool) (g : Verdict → Verdict) : (s.setVerdict flip g).tr = s.tr := rfl

@[simp] theorem State.lockStores_pending (s : State) (o : StoreWriter) (chans : List Nat) : (s.lockStores o chans).pending = s.pending := rfl
@[simp] theorem State.lockStores_io (s : State) (o : StoreWriter) (chans : List Nat) : (s.lockStores o chans).io = s.io := rfl
@[simp] theorem State.lockStores_ram (s : State) (o : StoreWriter) (chans : List Nat) : (s.lockStores o chans).ram = s.ram := rfl
@[simp] theorem State.lockStores_free (s : State) (o : StoreWriter) (chans : List Nat) : (s.lockStores o chans).free = s.free := rfl
@[simp] theorem State.lockStores_plan (s : State) (o : StoreWriter) (chans : List Nat) : (s.lockStores o chans).plan = s.plan := rfl
@[simp] theorem State.lockStores_fp (s : State) (o : StoreWriter) (chans : List Nat) : (s.lockStores o chans).fp = s.fp := rfl
@[simp] theorem State.lockStores_mer (s : State) (o : StoreWriter) (chans : List Nat) : (s.lockStores o chans).mer = s.mer := rfl
@[simp] theorem State.lockStores_xl (s : State) (o : StoreWriter) (chans : List Nat) : (s.lockStores o chans).xl = s.xl := rfl
@[simp] theorem State.lockStores_host (s : State) (o : StoreWriter) (chans : List Nat) : (s.lockStores o chans).host = s.host := rfl
@[simp] theorem State.lockStores_cf (s : State) (o : StoreWriter) (chans : List Nat) : (s.lockStores o chans).cf = s.cf := rfl
@[simp] theorem State.lockStores_sc (s : State) (o : StoreWriter) (chans : List Nat) : (s.lockStores o chans).sc = s.sc := rfl
@[simp] theorem State.lockStores_stk (s : State) (o : StoreWriter) (chans : List Nat) : (s.lockStores o chans).stk = s.stk := rfl
@[simp] theorem State.lockStores_rl (s : State) (o : StoreWriter) (chans : List Nat) : (s.lockStores o chans).rl = s.rl := rfl
@[simp] theorem State.lockStores_rooms (s : State) (o : StoreWriter) (chans : List Nat) : (s.lockStores o chans).rooms = { s.rooms with locked := (s.rooms.locked ++ chans.map (fun c => (c, o))).eraseDups } := rfl
@[simp] theorem State.lockStores_wings (s : State) (o : StoreWriter) (chans : List Nat) : (s.lockStores o chans).wings = s.wings := rfl
@[simp] theorem State.lockStores_upd (s : State) (o : StoreWriter) (chans : List Nat) : (s.lockStores o chans).upd = s.upd := rfl
@[simp] theorem State.lockStores_mx (s : State) (o : StoreWriter) (chans : List Nat) : (s.lockStores o chans).mx = s.mx := rfl
@[simp] theorem State.lockStores_fab (s : State) (o : StoreWriter) (chans : List Nat) : (s.lockStores o chans).fab = s.fab := rfl
@[simp] theorem State.lockStores_pw (s : State) (o : StoreWriter) (chans : List Nat) : (s.lockStores o chans).pw = s.pw := rfl
@[simp] theorem State.lockStores_po (s : State) (o : StoreWriter) (chans : List Nat) : (s.lockStores o chans).po = s.po := rfl
@[simp] theorem State.lockStores_se (s : State) (o : StoreWriter) (chans : List Nat) : (s.lockStores o chans).se = s.se := rfl
@[simp] theorem State.lockStores_tr (s : State) (o : StoreWriter) (chans : List Nat) : (s.lockStores o chans).tr = s.tr := rfl

@[simp] theorem State.unlockStores_pending (s : State) (o : StoreWriter) : (s.unlockStores o).pending = s.pending := rfl
@[simp] theorem State.unlockStores_io (s : State) (o : StoreWriter) : (s.unlockStores o).io = s.io := rfl
@[simp] theorem State.unlockStores_ram (s : State) (o : StoreWriter) : (s.unlockStores o).ram = s.ram := rfl
@[simp] theorem State.unlockStores_free (s : State) (o : StoreWriter) : (s.unlockStores o).free = s.free := rfl
@[simp] theorem State.unlockStores_plan (s : State) (o : StoreWriter) : (s.unlockStores o).plan = s.plan := rfl
@[simp] theorem State.unlockStores_fp (s : State) (o : StoreWriter) : (s.unlockStores o).fp = s.fp := rfl
@[simp] theorem State.unlockStores_mer (s : State) (o : StoreWriter) : (s.unlockStores o).mer = s.mer := rfl
@[simp] theorem State.unlockStores_xl (s : State) (o : StoreWriter) : (s.unlockStores o).xl = s.xl := rfl
@[simp] theorem State.unlockStores_host (s : State) (o : StoreWriter) : (s.unlockStores o).host = s.host := rfl
@[simp] theorem State.unlockStores_cf (s : State) (o : StoreWriter) : (s.unlockStores o).cf = s.cf := rfl
@[simp] theorem State.unlockStores_sc (s : State) (o : StoreWriter) : (s.unlockStores o).sc = s.sc := rfl
@[simp] theorem State.unlockStores_stk (s : State) (o : StoreWriter) : (s.unlockStores o).stk = s.stk := rfl
@[simp] theorem State.unlockStores_rl (s : State) (o : StoreWriter) : (s.unlockStores o).rl = s.rl := rfl
@[simp] theorem State.unlockStores_rooms (s : State) (o : StoreWriter) : (s.unlockStores o).rooms = { s.rooms with locked := s.rooms.locked.filter (fun l => l.2 != o) } := rfl
@[simp] theorem State.unlockStores_wings (s : State) (o : StoreWriter) : (s.unlockStores o).wings = s.wings := rfl
@[simp] theorem State.unlockStores_upd (s : State) (o : StoreWriter) : (s.unlockStores o).upd = s.upd := rfl
@[simp] theorem State.unlockStores_mx (s : State) (o : StoreWriter) : (s.unlockStores o).mx = s.mx := rfl
@[simp] theorem State.unlockStores_fab (s : State) (o : StoreWriter) : (s.unlockStores o).fab = s.fab := rfl
@[simp] theorem State.unlockStores_pw (s : State) (o : StoreWriter) : (s.unlockStores o).pw = s.pw := rfl
@[simp] theorem State.unlockStores_po (s : State) (o : StoreWriter) : (s.unlockStores o).po = s.po := rfl
@[simp] theorem State.unlockStores_se (s : State) (o : StoreWriter) : (s.unlockStores o).se = s.se := rfl
@[simp] theorem State.unlockStores_tr (s : State) (o : StoreWriter) : (s.unlockStores o).tr = s.tr := rfl

@[simp] theorem State.setCore_pending (s : State) (r : Nat) (c : Core) : (s.setCore r c).pending = s.pending := rfl
@[simp] theorem State.setCore_io (s : State) (r : Nat) (c : Core) : (s.setCore r c).io = s.io := rfl
@[simp] theorem State.setCore_ram (s : State) (r : Nat) (c : Core) : (s.setCore r c).ram = s.ram := rfl
@[simp] theorem State.setCore_free (s : State) (r : Nat) (c : Core) : (s.setCore r c).free = s.free := rfl
@[simp] theorem State.setCore_plan (s : State) (r : Nat) (c : Core) : (s.setCore r c).plan = s.plan := rfl
@[simp] theorem State.setCore_fp (s : State) (r : Nat) (c : Core) : (s.setCore r c).fp = s.fp := rfl
@[simp] theorem State.setCore_mer (s : State) (r : Nat) (c : Core) : (s.setCore r c).mer = s.mer := rfl
@[simp] theorem State.setCore_xl (s : State) (r : Nat) (c : Core) : (s.setCore r c).xl = s.xl := rfl
@[simp] theorem State.setCore_host (s : State) (r : Nat) (c : Core) : (s.setCore r c).host = s.host := rfl
@[simp] theorem State.setCore_cf (s : State) (r : Nat) (c : Core) : (s.setCore r c).cf = s.cf := rfl
@[simp] theorem State.setCore_sc (s : State) (r : Nat) (c : Core) : (s.setCore r c).sc = s.sc := rfl
@[simp] theorem State.setCore_stk (s : State) (r : Nat) (c : Core) : (s.setCore r c).stk = s.stk := rfl
@[simp] theorem State.setCore_rl (s : State) (r : Nat) (c : Core) : (s.setCore r c).rl = s.rl := rfl
@[simp] theorem State.setCore_rooms (s : State) (r : Nat) (c : Core) : (s.setCore r c).rooms = { s.rooms with cores := s.rooms.cores.put r c } := rfl
@[simp] theorem State.setCore_wings (s : State) (r : Nat) (c : Core) : (s.setCore r c).wings = s.wings := rfl
@[simp] theorem State.setCore_upd (s : State) (r : Nat) (c : Core) : (s.setCore r c).upd = s.upd := rfl
@[simp] theorem State.setCore_mx (s : State) (r : Nat) (c : Core) : (s.setCore r c).mx = s.mx := rfl
@[simp] theorem State.setCore_fab (s : State) (r : Nat) (c : Core) : (s.setCore r c).fab = s.fab := rfl
@[simp] theorem State.setCore_pw (s : State) (r : Nat) (c : Core) : (s.setCore r c).pw = s.pw := rfl
@[simp] theorem State.setCore_po (s : State) (r : Nat) (c : Core) : (s.setCore r c).po = s.po := rfl
@[simp] theorem State.setCore_se (s : State) (r : Nat) (c : Core) : (s.setCore r c).se = s.se := rfl
@[simp] theorem State.setCore_tr (s : State) (r : Nat) (c : Core) : (s.setCore r c).tr = s.tr := rfl

@[simp] theorem State.opened_pending (s : State) (room o n : Nat) : (s.opened room o n).pending = s.pending := rfl
@[simp] theorem State.opened_io (s : State) (room o n : Nat) : (s.opened room o n).io = s.io := rfl
@[simp] theorem State.opened_ram (s : State) (room o n : Nat) : (s.opened room o n).ram = s.ram := rfl
@[simp] theorem State.opened_free (s : State) (room o n : Nat) : (s.opened room o n).free = s.free := rfl
@[simp] theorem State.opened_plan (s : State) (room o n : Nat) : (s.opened room o n).plan = s.plan := rfl
@[simp] theorem State.opened_fp (s : State) (room o n : Nat) : (s.opened room o n).fp = s.fp := rfl
@[simp] theorem State.opened_mer (s : State) (room o n : Nat) : (s.opened room o n).mer = s.mer := rfl
@[simp] theorem State.opened_xl (s : State) (room o n : Nat) : (s.opened room o n).xl = s.xl := rfl
@[simp] theorem State.opened_host (s : State) (room o n : Nat) : (s.opened room o n).host = s.host := rfl
@[simp] theorem State.opened_cf (s : State) (room o n : Nat) : (s.opened room o n).cf = s.cf := rfl
@[simp] theorem State.opened_sc (s : State) (room o n : Nat) : (s.opened room o n).sc = s.sc := rfl
@[simp] theorem State.opened_stk (s : State) (room o n : Nat) : (s.opened room o n).stk = s.stk := rfl
@[simp] theorem State.opened_rl (s : State) (room o n : Nat) : (s.opened room o n).rl = s.rl := rfl
@[simp] theorem State.opened_rooms (s : State) (room o n : Nat) : (s.opened room o n).rooms = { s.rooms with openRow := (List.range (n / 64)).foldl (fun m i => openRows m (roomDpa room (o + 64 * i)) 64) s.rooms.openRow } := rfl
@[simp] theorem State.opened_wings (s : State) (room o n : Nat) : (s.opened room o n).wings = s.wings := rfl
@[simp] theorem State.opened_upd (s : State) (room o n : Nat) : (s.opened room o n).upd = s.upd := rfl
@[simp] theorem State.opened_mx (s : State) (room o n : Nat) : (s.opened room o n).mx = s.mx := rfl
@[simp] theorem State.opened_fab (s : State) (room o n : Nat) : (s.opened room o n).fab = s.fab := rfl
@[simp] theorem State.opened_pw (s : State) (room o n : Nat) : (s.opened room o n).pw = s.pw := rfl
@[simp] theorem State.opened_po (s : State) (room o n : Nat) : (s.opened room o n).po = s.po := rfl
@[simp] theorem State.opened_se (s : State) (room o n : Nat) : (s.opened room o n).se = s.se := rfl
@[simp] theorem State.opened_tr (s : State) (room o n : Nat) : (s.opened room o n).tr = s.tr := rfl

@[simp] theorem State.setItins_pending (s : State) (f : Tab Itin → Tab Itin) : (s.setItins f).pending = s.pending := rfl
@[simp] theorem State.setItins_io (s : State) (f : Tab Itin → Tab Itin) : (s.setItins f).io = s.io := rfl
@[simp] theorem State.setItins_ram (s : State) (f : Tab Itin → Tab Itin) : (s.setItins f).ram = s.ram := rfl
@[simp] theorem State.setItins_free (s : State) (f : Tab Itin → Tab Itin) : (s.setItins f).free = s.free := rfl
@[simp] theorem State.setItins_plan (s : State) (f : Tab Itin → Tab Itin) : (s.setItins f).plan = s.plan := rfl
@[simp] theorem State.setItins_fp (s : State) (f : Tab Itin → Tab Itin) : (s.setItins f).fp = s.fp := rfl
@[simp] theorem State.setItins_mer (s : State) (f : Tab Itin → Tab Itin) : (s.setItins f).mer = s.mer := rfl
@[simp] theorem State.setItins_xl (s : State) (f : Tab Itin → Tab Itin) : (s.setItins f).xl = s.xl := rfl
@[simp] theorem State.setItins_host (s : State) (f : Tab Itin → Tab Itin) : (s.setItins f).host = s.host := rfl
@[simp] theorem State.setItins_cf (s : State) (f : Tab Itin → Tab Itin) : (s.setItins f).cf = { s.cf with itins := f s.cf.itins } := rfl
@[simp] theorem State.setItins_sc (s : State) (f : Tab Itin → Tab Itin) : (s.setItins f).sc = s.sc := rfl
@[simp] theorem State.setItins_stk (s : State) (f : Tab Itin → Tab Itin) : (s.setItins f).stk = s.stk := rfl
@[simp] theorem State.setItins_rl (s : State) (f : Tab Itin → Tab Itin) : (s.setItins f).rl = s.rl := rfl
@[simp] theorem State.setItins_rooms (s : State) (f : Tab Itin → Tab Itin) : (s.setItins f).rooms = s.rooms := rfl
@[simp] theorem State.setItins_wings (s : State) (f : Tab Itin → Tab Itin) : (s.setItins f).wings = s.wings := rfl
@[simp] theorem State.setItins_upd (s : State) (f : Tab Itin → Tab Itin) : (s.setItins f).upd = s.upd := rfl
@[simp] theorem State.setItins_mx (s : State) (f : Tab Itin → Tab Itin) : (s.setItins f).mx = s.mx := rfl
@[simp] theorem State.setItins_fab (s : State) (f : Tab Itin → Tab Itin) : (s.setItins f).fab = s.fab := rfl
@[simp] theorem State.setItins_pw (s : State) (f : Tab Itin → Tab Itin) : (s.setItins f).pw = s.pw := rfl
@[simp] theorem State.setItins_po (s : State) (f : Tab Itin → Tab Itin) : (s.setItins f).po = s.po := rfl
@[simp] theorem State.setItins_se (s : State) (f : Tab Itin → Tab Itin) : (s.setItins f).se = s.se := rfl
@[simp] theorem State.setItins_tr (s : State) (f : Tab Itin → Tab Itin) : (s.setItins f).tr = s.tr := rfl

@[simp] theorem State.addSig_pending (s : State) (q : QTile) (v : DWord) : (s.addSig q v).pending = s.pending := rfl
@[simp] theorem State.addSig_io (s : State) (q : QTile) (v : DWord) : (s.addSig q v).io = s.io := rfl
@[simp] theorem State.addSig_ram (s : State) (q : QTile) (v : DWord) : (s.addSig q v).ram = s.ram := rfl
@[simp] theorem State.addSig_free (s : State) (q : QTile) (v : DWord) : (s.addSig q v).free = s.free := rfl
@[simp] theorem State.addSig_plan (s : State) (q : QTile) (v : DWord) : (s.addSig q v).plan = s.plan := rfl
@[simp] theorem State.addSig_fp (s : State) (q : QTile) (v : DWord) : (s.addSig q v).fp = s.fp := rfl
@[simp] theorem State.addSig_mer (s : State) (q : QTile) (v : DWord) : (s.addSig q v).mer = s.mer := rfl
@[simp] theorem State.addSig_xl (s : State) (q : QTile) (v : DWord) : (s.addSig q v).xl = s.xl := rfl
@[simp] theorem State.addSig_host (s : State) (q : QTile) (v : DWord) : (s.addSig q v).host = s.host := rfl
@[simp] theorem State.addSig_cf (s : State) (q : QTile) (v : DWord) : (s.addSig q v).cf = s.cf := rfl
@[simp] theorem State.addSig_sc (s : State) (q : QTile) (v : DWord) : (s.addSig q v).sc = s.sc := rfl
@[simp] theorem State.addSig_stk (s : State) (q : QTile) (v : DWord) : (s.addSig q v).stk = s.stk := rfl
@[simp] theorem State.addSig_rl (s : State) (q : QTile) (v : DWord) : (s.addSig q v).rl = { s.rl with samples := s.rl.samples.map (fun e => (e.1, e.2.map (fun x => if x.tile ∧ x.ctx = q.ctx ∧ x.iter = q.iter ∧ x.unit = q.unit then { x with sig := x.sig + v } else x))) } := rfl
@[simp] theorem State.addSig_rooms (s : State) (q : QTile) (v : DWord) : (s.addSig q v).rooms = s.rooms := rfl
@[simp] theorem State.addSig_wings (s : State) (q : QTile) (v : DWord) : (s.addSig q v).wings = s.wings := rfl
@[simp] theorem State.addSig_upd (s : State) (q : QTile) (v : DWord) : (s.addSig q v).upd = s.upd := rfl
@[simp] theorem State.addSig_mx (s : State) (q : QTile) (v : DWord) : (s.addSig q v).mx = s.mx := rfl
@[simp] theorem State.addSig_fab (s : State) (q : QTile) (v : DWord) : (s.addSig q v).fab = s.fab := rfl
@[simp] theorem State.addSig_pw (s : State) (q : QTile) (v : DWord) : (s.addSig q v).pw = s.pw := rfl
@[simp] theorem State.addSig_po (s : State) (q : QTile) (v : DWord) : (s.addSig q v).po = s.po := rfl
@[simp] theorem State.addSig_se (s : State) (q : QTile) (v : DWord) : (s.addSig q v).se = s.se := rfl
@[simp] theorem State.addSig_tr (s : State) (q : QTile) (v : DWord) : (s.addSig q v).tr = s.tr := rfl

@[simp] theorem State.startFills_pending (s : State) : (s.startFills).pending = s.pending := rfl
@[simp] theorem State.startFills_io (s : State) : (s.startFills).io = s.io := rfl
@[simp] theorem State.startFills_ram (s : State) : (s.startFills).ram = s.ram := rfl
@[simp] theorem State.startFills_free (s : State) : (s.startFills).free = s.free := rfl
@[simp] theorem State.startFills_plan (s : State) : (s.startFills).plan = s.plan := rfl
@[simp] theorem State.startFills_fp (s : State) : (s.startFills).fp = s.fp := rfl
@[simp] theorem State.startFills_mer (s : State) : (s.startFills).mer = s.mer := rfl
@[simp] theorem State.startFills_xl (s : State) : (s.startFills).xl = s.xl := rfl
@[simp] theorem State.startFills_host (s : State) : (s.startFills).host = s.host := rfl
@[simp] theorem State.startFills_cf (s : State) : (s.startFills).cf = s.cf := rfl
@[simp] theorem State.startFills_sc (s : State) : (s.startFills).sc = s.sc := rfl
@[simp] theorem State.startFills_stk (s : State) : (s.startFills).stk = s.stk := rfl
@[simp] theorem State.startFills_rl (s : State) : (s.startFills).rl = s.rl := rfl
@[simp] theorem State.startFills_rooms (s : State) : (s.startFills).rooms = s.rooms := rfl
@[simp] theorem State.startFills_wings (s : State) : (s.startFills).wings = s.wings := rfl
@[simp] theorem State.startFills_upd (s : State) : (s.startFills).upd = s.upd := rfl
@[simp] theorem State.startFills_mx (s : State) : (s.startFills).mx = { s.mx with attic := (s.mx.fetches.list.flatMap (·.2.left)).foldl s.plan.startFill s.mx.attic } := rfl
@[simp] theorem State.startFills_fab (s : State) : (s.startFills).fab = s.fab := rfl
@[simp] theorem State.startFills_pw (s : State) : (s.startFills).pw = s.pw := rfl
@[simp] theorem State.startFills_po (s : State) : (s.startFills).po = s.po := rfl
@[simp] theorem State.startFills_se (s : State) : (s.startFills).se = s.se := rfl
@[simp] theorem State.startFills_tr (s : State) : (s.startFills).tr = s.tr := rfl

@[simp] theorem State.setColl_pending (s : State) (g n : Nat) (f : Coll → Coll) : (s.setColl g n f).pending = s.pending := rfl
@[simp] theorem State.setColl_io (s : State) (g n : Nat) (f : Coll → Coll) : (s.setColl g n f).io = s.io := rfl
@[simp] theorem State.setColl_ram (s : State) (g n : Nat) (f : Coll → Coll) : (s.setColl g n f).ram = s.ram := rfl
@[simp] theorem State.setColl_free (s : State) (g n : Nat) (f : Coll → Coll) : (s.setColl g n f).free = s.free := rfl
@[simp] theorem State.setColl_plan (s : State) (g n : Nat) (f : Coll → Coll) : (s.setColl g n f).plan = s.plan := rfl
@[simp] theorem State.setColl_fp (s : State) (g n : Nat) (f : Coll → Coll) : (s.setColl g n f).fp = s.fp := rfl
@[simp] theorem State.setColl_mer (s : State) (g n : Nat) (f : Coll → Coll) : (s.setColl g n f).mer = s.mer := rfl
@[simp] theorem State.setColl_xl (s : State) (g n : Nat) (f : Coll → Coll) : (s.setColl g n f).xl = s.xl := rfl
@[simp] theorem State.setColl_host (s : State) (g n : Nat) (f : Coll → Coll) : (s.setColl g n f).host = s.host := rfl
@[simp] theorem State.setColl_cf (s : State) (g n : Nat) (f : Coll → Coll) : (s.setColl g n f).cf = s.cf := rfl
@[simp] theorem State.setColl_sc (s : State) (g n : Nat) (f : Coll → Coll) : (s.setColl g n f).sc = s.sc := rfl
@[simp] theorem State.setColl_stk (s : State) (g n : Nat) (f : Coll → Coll) : (s.setColl g n f).stk = s.stk := rfl
@[simp] theorem State.setColl_rl (s : State) (g n : Nat) (f : Coll → Coll) : (s.setColl g n f).rl = s.rl := rfl
@[simp] theorem State.setColl_rooms (s : State) (g n : Nat) (f : Coll → Coll) : (s.setColl g n f).rooms = s.rooms := rfl
@[simp] theorem State.setColl_wings (s : State) (g n : Nat) (f : Coll → Coll) : (s.setColl g n f).wings = s.wings := rfl
@[simp] theorem State.setColl_upd (s : State) (g n : Nat) (f : Coll → Coll) : (s.setColl g n f).upd = s.upd := rfl
@[simp] theorem State.setColl_mx (s : State) (g n : Nat) (f : Coll → Coll) : (s.setColl g n f).mx = s.mx := rfl
@[simp] theorem State.setColl_fab (s : State) (g n : Nat) (f : Coll → Coll) : (s.setColl g n f).fab = { s.fab with colls := s.fab.colls.map (fun c => if c.group = g ∧ c.call = n then f c else c) } := rfl
@[simp] theorem State.setColl_pw (s : State) (g n : Nat) (f : Coll → Coll) : (s.setColl g n f).pw = s.pw := rfl
@[simp] theorem State.setColl_po (s : State) (g n : Nat) (f : Coll → Coll) : (s.setColl g n f).po = s.po := rfl
@[simp] theorem State.setColl_se (s : State) (g n : Nat) (f : Coll → Coll) : (s.setColl g n f).se = s.se := rfl
@[simp] theorem State.setColl_tr (s : State) (g n : Nat) (f : Coll → Coll) : (s.setColl g n f).tr = s.tr := rfl

@[simp] theorem State.setTree_pending (s : State) (id : Nat) (f : Tree → Tree) : (s.setTree id f).pending = s.pending := rfl
@[simp] theorem State.setTree_io (s : State) (id : Nat) (f : Tree → Tree) : (s.setTree id f).io = s.io := rfl
@[simp] theorem State.setTree_ram (s : State) (id : Nat) (f : Tree → Tree) : (s.setTree id f).ram = s.ram := rfl
@[simp] theorem State.setTree_free (s : State) (id : Nat) (f : Tree → Tree) : (s.setTree id f).free = s.free := rfl
@[simp] theorem State.setTree_plan (s : State) (id : Nat) (f : Tree → Tree) : (s.setTree id f).plan = s.plan := rfl
@[simp] theorem State.setTree_fp (s : State) (id : Nat) (f : Tree → Tree) : (s.setTree id f).fp = s.fp := rfl
@[simp] theorem State.setTree_mer (s : State) (id : Nat) (f : Tree → Tree) : (s.setTree id f).mer = s.mer := rfl
@[simp] theorem State.setTree_xl (s : State) (id : Nat) (f : Tree → Tree) : (s.setTree id f).xl = s.xl := rfl
@[simp] theorem State.setTree_host (s : State) (id : Nat) (f : Tree → Tree) : (s.setTree id f).host = s.host := rfl
@[simp] theorem State.setTree_cf (s : State) (id : Nat) (f : Tree → Tree) : (s.setTree id f).cf = s.cf := rfl
@[simp] theorem State.setTree_sc (s : State) (id : Nat) (f : Tree → Tree) : (s.setTree id f).sc = s.sc := rfl
@[simp] theorem State.setTree_stk (s : State) (id : Nat) (f : Tree → Tree) : (s.setTree id f).stk = s.stk := rfl
@[simp] theorem State.setTree_rl (s : State) (id : Nat) (f : Tree → Tree) : (s.setTree id f).rl = s.rl := rfl
@[simp] theorem State.setTree_rooms (s : State) (id : Nat) (f : Tree → Tree) : (s.setTree id f).rooms = s.rooms := rfl
@[simp] theorem State.setTree_wings (s : State) (id : Nat) (f : Tree → Tree) : (s.setTree id f).wings = s.wings := rfl
@[simp] theorem State.setTree_upd (s : State) (id : Nat) (f : Tree → Tree) : (s.setTree id f).upd = s.upd := rfl
@[simp] theorem State.setTree_mx (s : State) (id : Nat) (f : Tree → Tree) : (s.setTree id f).mx = s.mx := rfl
@[simp] theorem State.setTree_fab (s : State) (id : Nat) (f : Tree → Tree) : (s.setTree id f).fab = { s.fab with trees := s.fab.trees.upd id f } := rfl
@[simp] theorem State.setTree_pw (s : State) (id : Nat) (f : Tree → Tree) : (s.setTree id f).pw = s.pw := rfl
@[simp] theorem State.setTree_po (s : State) (id : Nat) (f : Tree → Tree) : (s.setTree id f).po = s.po := rfl
@[simp] theorem State.setTree_se (s : State) (id : Nat) (f : Tree → Tree) : (s.setTree id f).se = s.se := rfl
@[simp] theorem State.setTree_tr (s : State) (id : Nat) (f : Tree → Tree) : (s.setTree id f).tr = s.tr := rfl

@[simp] theorem State.setStream_pending (s : State) (ctx : Nat) (f : Stream → Stream) : (s.setStream ctx f).pending = s.pending := rfl
@[simp] theorem State.setStream_io (s : State) (ctx : Nat) (f : Stream → Stream) : (s.setStream ctx f).io = s.io := rfl
@[simp] theorem State.setStream_ram (s : State) (ctx : Nat) (f : Stream → Stream) : (s.setStream ctx f).ram = s.ram := rfl
@[simp] theorem State.setStream_free (s : State) (ctx : Nat) (f : Stream → Stream) : (s.setStream ctx f).free = s.free := rfl
@[simp] theorem State.setStream_plan (s : State) (ctx : Nat) (f : Stream → Stream) : (s.setStream ctx f).plan = s.plan := rfl
@[simp] theorem State.setStream_fp (s : State) (ctx : Nat) (f : Stream → Stream) : (s.setStream ctx f).fp = s.fp := rfl
@[simp] theorem State.setStream_mer (s : State) (ctx : Nat) (f : Stream → Stream) : (s.setStream ctx f).mer = s.mer := rfl
@[simp] theorem State.setStream_xl (s : State) (ctx : Nat) (f : Stream → Stream) : (s.setStream ctx f).xl = s.xl := rfl
@[simp] theorem State.setStream_host (s : State) (ctx : Nat) (f : Stream → Stream) : (s.setStream ctx f).host = s.host := rfl
@[simp] theorem State.setStream_cf (s : State) (ctx : Nat) (f : Stream → Stream) : (s.setStream ctx f).cf = s.cf := rfl
@[simp] theorem State.setStream_sc (s : State) (ctx : Nat) (f : Stream → Stream) : (s.setStream ctx f).sc = { s.sc with streams := s.sc.streams.upd ctx f } := rfl
@[simp] theorem State.setStream_stk (s : State) (ctx : Nat) (f : Stream → Stream) : (s.setStream ctx f).stk = s.stk := rfl
@[simp] theorem State.setStream_rl (s : State) (ctx : Nat) (f : Stream → Stream) : (s.setStream ctx f).rl = s.rl := rfl
@[simp] theorem State.setStream_rooms (s : State) (ctx : Nat) (f : Stream → Stream) : (s.setStream ctx f).rooms = s.rooms := rfl
@[simp] theorem State.setStream_wings (s : State) (ctx : Nat) (f : Stream → Stream) : (s.setStream ctx f).wings = s.wings := rfl
@[simp] theorem State.setStream_upd (s : State) (ctx : Nat) (f : Stream → Stream) : (s.setStream ctx f).upd = s.upd := rfl
@[simp] theorem State.setStream_mx (s : State) (ctx : Nat) (f : Stream → Stream) : (s.setStream ctx f).mx = s.mx := rfl
@[simp] theorem State.setStream_fab (s : State) (ctx : Nat) (f : Stream → Stream) : (s.setStream ctx f).fab = s.fab := rfl
@[simp] theorem State.setStream_pw (s : State) (ctx : Nat) (f : Stream → Stream) : (s.setStream ctx f).pw = s.pw := rfl
@[simp] theorem State.setStream_po (s : State) (ctx : Nat) (f : Stream → Stream) : (s.setStream ctx f).po = s.po := rfl
@[simp] theorem State.setStream_se (s : State) (ctx : Nat) (f : Stream → Stream) : (s.setStream ctx f).se = s.se := rfl
@[simp] theorem State.setStream_tr (s : State) (ctx : Nat) (f : Stream → Stream) : (s.setStream ctx f).tr = s.tr := rfl

@[simp] theorem State.noteSave_pending (s : State) (longest : Nat) : (s.noteSave longest).pending = s.pending := rfl
@[simp] theorem State.noteSave_io (s : State) (longest : Nat) : (s.noteSave longest).io = s.io.putN .SC_SAVE_MAX 0 (max (s.io.val .SC_SAVE_MAX) (min longest 0xFFFFFFFF)) := rfl
@[simp] theorem State.noteSave_ram (s : State) (longest : Nat) : (s.noteSave longest).ram = s.ram := rfl
@[simp] theorem State.noteSave_free (s : State) (longest : Nat) : (s.noteSave longest).free = s.free := rfl
@[simp] theorem State.noteSave_plan (s : State) (longest : Nat) : (s.noteSave longest).plan = s.plan := rfl
@[simp] theorem State.noteSave_fp (s : State) (longest : Nat) : (s.noteSave longest).fp = s.fp := rfl
@[simp] theorem State.noteSave_mer (s : State) (longest : Nat) : (s.noteSave longest).mer = s.mer := rfl
@[simp] theorem State.noteSave_xl (s : State) (longest : Nat) : (s.noteSave longest).xl = s.xl := rfl
@[simp] theorem State.noteSave_host (s : State) (longest : Nat) : (s.noteSave longest).host = s.host := rfl
@[simp] theorem State.noteSave_cf (s : State) (longest : Nat) : (s.noteSave longest).cf = s.cf := rfl
@[simp] theorem State.noteSave_sc (s : State) (longest : Nat) : (s.noteSave longest).sc = s.sc := rfl
@[simp] theorem State.noteSave_stk (s : State) (longest : Nat) : (s.noteSave longest).stk = s.stk := rfl
@[simp] theorem State.noteSave_rl (s : State) (longest : Nat) : (s.noteSave longest).rl = s.rl := rfl
@[simp] theorem State.noteSave_rooms (s : State) (longest : Nat) : (s.noteSave longest).rooms = s.rooms := rfl
@[simp] theorem State.noteSave_wings (s : State) (longest : Nat) : (s.noteSave longest).wings = s.wings := rfl
@[simp] theorem State.noteSave_upd (s : State) (longest : Nat) : (s.noteSave longest).upd = s.upd := rfl
@[simp] theorem State.noteSave_mx (s : State) (longest : Nat) : (s.noteSave longest).mx = s.mx := rfl
@[simp] theorem State.noteSave_fab (s : State) (longest : Nat) : (s.noteSave longest).fab = s.fab := rfl
@[simp] theorem State.noteSave_pw (s : State) (longest : Nat) : (s.noteSave longest).pw = s.pw := rfl
@[simp] theorem State.noteSave_po (s : State) (longest : Nat) : (s.noteSave longest).po = s.po := rfl
@[simp] theorem State.noteSave_se (s : State) (longest : Nat) : (s.noteSave longest).se = s.se := rfl
@[simp] theorem State.noteSave_tr (s : State) (longest : Nat) : (s.noteSave longest).tr = s.tr := rfl

@[simp] theorem State.waitAgain_pending (s : State) (a ctx : Nat) : (s.waitAgain a ctx).pending = s.pending := rfl
@[simp] theorem State.waitAgain_io (s : State) (a ctx : Nat) : (s.waitAgain a ctx).io = s.io := rfl
@[simp] theorem State.waitAgain_ram (s : State) (a ctx : Nat) : (s.waitAgain a ctx).ram = s.ram := rfl
@[simp] theorem State.waitAgain_free (s : State) (a ctx : Nat) : (s.waitAgain a ctx).free = s.free := rfl
@[simp] theorem State.waitAgain_plan (s : State) (a ctx : Nat) : (s.waitAgain a ctx).plan = s.plan := rfl
@[simp] theorem State.waitAgain_fp (s : State) (a ctx : Nat) : (s.waitAgain a ctx).fp = s.fp := rfl
@[simp] theorem State.waitAgain_mer (s : State) (a ctx : Nat) : (s.waitAgain a ctx).mer = s.mer := rfl
@[simp] theorem State.waitAgain_xl (s : State) (a ctx : Nat) : (s.waitAgain a ctx).xl = s.xl := rfl
@[simp] theorem State.waitAgain_host (s : State) (a ctx : Nat) : (s.waitAgain a ctx).host = s.host := rfl
@[simp] theorem State.waitAgain_cf (s : State) (a ctx : Nat) : (s.waitAgain a ctx).cf = s.cf := rfl
@[simp] theorem State.waitAgain_sc (s : State) (a ctx : Nat) : (s.waitAgain a ctx).sc = { s.sc with waiting := s.sc.waiting ++ [(a, ctx)] } := rfl
@[simp] theorem State.waitAgain_stk (s : State) (a ctx : Nat) : (s.waitAgain a ctx).stk = s.stk := rfl
@[simp] theorem State.waitAgain_rl (s : State) (a ctx : Nat) : (s.waitAgain a ctx).rl = s.rl := rfl
@[simp] theorem State.waitAgain_rooms (s : State) (a ctx : Nat) : (s.waitAgain a ctx).rooms = s.rooms := rfl
@[simp] theorem State.waitAgain_wings (s : State) (a ctx : Nat) : (s.waitAgain a ctx).wings = s.wings := rfl
@[simp] theorem State.waitAgain_upd (s : State) (a ctx : Nat) : (s.waitAgain a ctx).upd = s.upd := rfl
@[simp] theorem State.waitAgain_mx (s : State) (a ctx : Nat) : (s.waitAgain a ctx).mx = s.mx := rfl
@[simp] theorem State.waitAgain_fab (s : State) (a ctx : Nat) : (s.waitAgain a ctx).fab = s.fab := rfl
@[simp] theorem State.waitAgain_pw (s : State) (a ctx : Nat) : (s.waitAgain a ctx).pw = s.pw := rfl
@[simp] theorem State.waitAgain_po (s : State) (a ctx : Nat) : (s.waitAgain a ctx).po = s.po := rfl
@[simp] theorem State.waitAgain_se (s : State) (a ctx : Nat) : (s.waitAgain a ctx).se = s.se := rfl
@[simp] theorem State.waitAgain_tr (s : State) (a ctx : Nat) : (s.waitAgain a ctx).tr = s.tr := rfl

@[simp] theorem State.dropSample_pending (s : State) (k : Nat) : (s.dropSample k).pending = s.pending := rfl
@[simp] theorem State.dropSample_io (s : State) (k : Nat) : (s.dropSample k).io = s.io := rfl
@[simp] theorem State.dropSample_ram (s : State) (k : Nat) : (s.dropSample k).ram = s.ram := rfl
@[simp] theorem State.dropSample_free (s : State) (k : Nat) : (s.dropSample k).free = s.free := rfl
@[simp] theorem State.dropSample_plan (s : State) (k : Nat) : (s.dropSample k).plan = s.plan := rfl
@[simp] theorem State.dropSample_fp (s : State) (k : Nat) : (s.dropSample k).fp = s.fp := rfl
@[simp] theorem State.dropSample_mer (s : State) (k : Nat) : (s.dropSample k).mer = s.mer := rfl
@[simp] theorem State.dropSample_xl (s : State) (k : Nat) : (s.dropSample k).xl = s.xl := rfl
@[simp] theorem State.dropSample_host (s : State) (k : Nat) : (s.dropSample k).host = s.host := rfl
@[simp] theorem State.dropSample_cf (s : State) (k : Nat) : (s.dropSample k).cf = s.cf := rfl
@[simp] theorem State.dropSample_sc (s : State) (k : Nat) : (s.dropSample k).sc = s.sc := rfl
@[simp] theorem State.dropSample_stk (s : State) (k : Nat) : (s.dropSample k).stk = s.stk := rfl
@[simp] theorem State.dropSample_rl (s : State) (k : Nat) : (s.dropSample k).rl = { s.rl with samples := s.rl.samples.del k } := rfl
@[simp] theorem State.dropSample_rooms (s : State) (k : Nat) : (s.dropSample k).rooms = s.rooms := rfl
@[simp] theorem State.dropSample_wings (s : State) (k : Nat) : (s.dropSample k).wings = s.wings := rfl
@[simp] theorem State.dropSample_upd (s : State) (k : Nat) : (s.dropSample k).upd = s.upd := rfl
@[simp] theorem State.dropSample_mx (s : State) (k : Nat) : (s.dropSample k).mx = s.mx := rfl
@[simp] theorem State.dropSample_fab (s : State) (k : Nat) : (s.dropSample k).fab = s.fab := rfl
@[simp] theorem State.dropSample_pw (s : State) (k : Nat) : (s.dropSample k).pw = s.pw := rfl
@[simp] theorem State.dropSample_po (s : State) (k : Nat) : (s.dropSample k).po = s.po := rfl
@[simp] theorem State.dropSample_se (s : State) (k : Nat) : (s.dropSample k).se = s.se := rfl
@[simp] theorem State.dropSample_tr (s : State) (k : Nat) : (s.dropSample k).tr = s.tr := rfl

@[simp] theorem State.setMer_pending (s : State) (f : Mer → Mer) : (s.setMer f).pending = s.pending := rfl
@[simp] theorem State.setMer_io (s : State) (f : Mer → Mer) : (s.setMer f).io = s.io := rfl
@[simp] theorem State.setMer_ram (s : State) (f : Mer → Mer) : (s.setMer f).ram = s.ram := rfl
@[simp] theorem State.setMer_free (s : State) (f : Mer → Mer) : (s.setMer f).free = s.free := rfl
@[simp] theorem State.setMer_plan (s : State) (f : Mer → Mer) : (s.setMer f).plan = s.plan := rfl
@[simp] theorem State.setMer_fp (s : State) (f : Mer → Mer) : (s.setMer f).fp = s.fp := rfl
@[simp] theorem State.setMer_mer (s : State) (f : Mer → Mer) : (s.setMer f).mer = f s.mer := rfl
@[simp] theorem State.setMer_xl (s : State) (f : Mer → Mer) : (s.setMer f).xl = s.xl := rfl
@[simp] theorem State.setMer_host (s : State) (f : Mer → Mer) : (s.setMer f).host = s.host := rfl
@[simp] theorem State.setMer_cf (s : State) (f : Mer → Mer) : (s.setMer f).cf = s.cf := rfl
@[simp] theorem State.setMer_sc (s : State) (f : Mer → Mer) : (s.setMer f).sc = s.sc := rfl
@[simp] theorem State.setMer_stk (s : State) (f : Mer → Mer) : (s.setMer f).stk = s.stk := rfl
@[simp] theorem State.setMer_rl (s : State) (f : Mer → Mer) : (s.setMer f).rl = s.rl := rfl
@[simp] theorem State.setMer_rooms (s : State) (f : Mer → Mer) : (s.setMer f).rooms = s.rooms := rfl
@[simp] theorem State.setMer_wings (s : State) (f : Mer → Mer) : (s.setMer f).wings = s.wings := rfl
@[simp] theorem State.setMer_upd (s : State) (f : Mer → Mer) : (s.setMer f).upd = s.upd := rfl
@[simp] theorem State.setMer_mx (s : State) (f : Mer → Mer) : (s.setMer f).mx = s.mx := rfl
@[simp] theorem State.setMer_fab (s : State) (f : Mer → Mer) : (s.setMer f).fab = s.fab := rfl
@[simp] theorem State.setMer_pw (s : State) (f : Mer → Mer) : (s.setMer f).pw = s.pw := rfl
@[simp] theorem State.setMer_po (s : State) (f : Mer → Mer) : (s.setMer f).po = s.po := rfl
@[simp] theorem State.setMer_se (s : State) (f : Mer → Mer) : (s.setMer f).se = s.se := rfl
@[simp] theorem State.setMer_tr (s : State) (f : Mer → Mer) : (s.setMer f).tr = s.tr := rfl

@[simp] theorem State.setStk_pending (s : State) (st : Nat) (f : Stack → Stack) : (s.setStk st f).pending = s.pending := rfl
@[simp] theorem State.setStk_io (s : State) (st : Nat) (f : Stack → Stack) : (s.setStk st f).io = s.io := rfl
@[simp] theorem State.setStk_ram (s : State) (st : Nat) (f : Stack → Stack) : (s.setStk st f).ram = s.ram := rfl
@[simp] theorem State.setStk_free (s : State) (st : Nat) (f : Stack → Stack) : (s.setStk st f).free = s.free := rfl
@[simp] theorem State.setStk_plan (s : State) (st : Nat) (f : Stack → Stack) : (s.setStk st f).plan = s.plan := rfl
@[simp] theorem State.setStk_fp (s : State) (st : Nat) (f : Stack → Stack) : (s.setStk st f).fp = s.fp := rfl
@[simp] theorem State.setStk_mer (s : State) (st : Nat) (f : Stack → Stack) : (s.setStk st f).mer = s.mer := rfl
@[simp] theorem State.setStk_xl (s : State) (st : Nat) (f : Stack → Stack) : (s.setStk st f).xl = s.xl := rfl
@[simp] theorem State.setStk_host (s : State) (st : Nat) (f : Stack → Stack) : (s.setStk st f).host = s.host := rfl
@[simp] theorem State.setStk_cf (s : State) (st : Nat) (f : Stack → Stack) : (s.setStk st f).cf = s.cf := rfl
@[simp] theorem State.setStk_sc (s : State) (st : Nat) (f : Stack → Stack) : (s.setStk st f).sc = s.sc := rfl
@[simp] theorem State.setStk_stk (s : State) (st : Nat) (f : Stack → Stack) : (s.setStk st f).stk = setStack s.stk st f := rfl
@[simp] theorem State.setStk_rl (s : State) (st : Nat) (f : Stack → Stack) : (s.setStk st f).rl = s.rl := rfl
@[simp] theorem State.setStk_rooms (s : State) (st : Nat) (f : Stack → Stack) : (s.setStk st f).rooms = s.rooms := rfl
@[simp] theorem State.setStk_wings (s : State) (st : Nat) (f : Stack → Stack) : (s.setStk st f).wings = s.wings := rfl
@[simp] theorem State.setStk_upd (s : State) (st : Nat) (f : Stack → Stack) : (s.setStk st f).upd = s.upd := rfl
@[simp] theorem State.setStk_mx (s : State) (st : Nat) (f : Stack → Stack) : (s.setStk st f).mx = s.mx := rfl
@[simp] theorem State.setStk_fab (s : State) (st : Nat) (f : Stack → Stack) : (s.setStk st f).fab = s.fab := rfl
@[simp] theorem State.setStk_pw (s : State) (st : Nat) (f : Stack → Stack) : (s.setStk st f).pw = s.pw := rfl
@[simp] theorem State.setStk_po (s : State) (st : Nat) (f : Stack → Stack) : (s.setStk st f).po = s.po := rfl
@[simp] theorem State.setStk_se (s : State) (st : Nat) (f : Stack → Stack) : (s.setStk st f).se = s.se := rfl
@[simp] theorem State.setStk_tr (s : State) (st : Nat) (f : Stack → Stack) : (s.setStk st f).tr = s.tr := rfl

@[simp] theorem State.stEvent_pending (s : State) (st b : Nat) : (s.stEvent st b).pending = s.pending := rfl
@[simp] theorem State.stEvent_io (s : State) (st b : Nat) : (s.stEvent st b).io = s.io.event .ST_EVENT st b := rfl
@[simp] theorem State.stEvent_ram (s : State) (st b : Nat) : (s.stEvent st b).ram = s.ram := rfl
@[simp] theorem State.stEvent_free (s : State) (st b : Nat) : (s.stEvent st b).free = s.free := rfl
@[simp] theorem State.stEvent_plan (s : State) (st b : Nat) : (s.stEvent st b).plan = s.plan := rfl
@[simp] theorem State.stEvent_fp (s : State) (st b : Nat) : (s.stEvent st b).fp = s.fp := rfl
@[simp] theorem State.stEvent_mer (s : State) (st b : Nat) : (s.stEvent st b).mer = s.mer := rfl
@[simp] theorem State.stEvent_xl (s : State) (st b : Nat) : (s.stEvent st b).xl = s.xl := rfl
@[simp] theorem State.stEvent_host (s : State) (st b : Nat) : (s.stEvent st b).host = s.host := rfl
@[simp] theorem State.stEvent_cf (s : State) (st b : Nat) : (s.stEvent st b).cf = s.cf := rfl
@[simp] theorem State.stEvent_sc (s : State) (st b : Nat) : (s.stEvent st b).sc = s.sc := rfl
@[simp] theorem State.stEvent_stk (s : State) (st b : Nat) : (s.stEvent st b).stk = s.stk := rfl
@[simp] theorem State.stEvent_rl (s : State) (st b : Nat) : (s.stEvent st b).rl = s.rl := rfl
@[simp] theorem State.stEvent_rooms (s : State) (st b : Nat) : (s.stEvent st b).rooms = s.rooms := rfl
@[simp] theorem State.stEvent_wings (s : State) (st b : Nat) : (s.stEvent st b).wings = s.wings := rfl
@[simp] theorem State.stEvent_upd (s : State) (st b : Nat) : (s.stEvent st b).upd = s.upd := rfl
@[simp] theorem State.stEvent_mx (s : State) (st b : Nat) : (s.stEvent st b).mx = s.mx := rfl
@[simp] theorem State.stEvent_fab (s : State) (st b : Nat) : (s.stEvent st b).fab = s.fab := rfl
@[simp] theorem State.stEvent_pw (s : State) (st b : Nat) : (s.stEvent st b).pw = s.pw := rfl
@[simp] theorem State.stEvent_po (s : State) (st b : Nat) : (s.stEvent st b).po = s.po := rfl
@[simp] theorem State.stEvent_se (s : State) (st b : Nat) : (s.stEvent st b).se = s.se := rfl
@[simp] theorem State.stEvent_tr (s : State) (st b : Nat) : (s.stEvent st b).tr = s.tr := rfl

@[simp] theorem State.trEvent_pending (s : State) (b : Nat) : (s.trEvent b).pending = s.pending := rfl
@[simp] theorem State.trEvent_io (s : State) (b : Nat) : (s.trEvent b).io = s.io.event .TR_EVENT 0 b := rfl
@[simp] theorem State.trEvent_ram (s : State) (b : Nat) : (s.trEvent b).ram = s.ram := rfl
@[simp] theorem State.trEvent_free (s : State) (b : Nat) : (s.trEvent b).free = s.free := rfl
@[simp] theorem State.trEvent_plan (s : State) (b : Nat) : (s.trEvent b).plan = s.plan := rfl
@[simp] theorem State.trEvent_fp (s : State) (b : Nat) : (s.trEvent b).fp = s.fp := rfl
@[simp] theorem State.trEvent_mer (s : State) (b : Nat) : (s.trEvent b).mer = s.mer := rfl
@[simp] theorem State.trEvent_xl (s : State) (b : Nat) : (s.trEvent b).xl = s.xl := rfl
@[simp] theorem State.trEvent_host (s : State) (b : Nat) : (s.trEvent b).host = s.host := rfl
@[simp] theorem State.trEvent_cf (s : State) (b : Nat) : (s.trEvent b).cf = s.cf := rfl
@[simp] theorem State.trEvent_sc (s : State) (b : Nat) : (s.trEvent b).sc = s.sc := rfl
@[simp] theorem State.trEvent_stk (s : State) (b : Nat) : (s.trEvent b).stk = s.stk := rfl
@[simp] theorem State.trEvent_rl (s : State) (b : Nat) : (s.trEvent b).rl = s.rl := rfl
@[simp] theorem State.trEvent_rooms (s : State) (b : Nat) : (s.trEvent b).rooms = s.rooms := rfl
@[simp] theorem State.trEvent_wings (s : State) (b : Nat) : (s.trEvent b).wings = s.wings := rfl
@[simp] theorem State.trEvent_upd (s : State) (b : Nat) : (s.trEvent b).upd = s.upd := rfl
@[simp] theorem State.trEvent_mx (s : State) (b : Nat) : (s.trEvent b).mx = s.mx := rfl
@[simp] theorem State.trEvent_fab (s : State) (b : Nat) : (s.trEvent b).fab = s.fab := rfl
@[simp] theorem State.trEvent_pw (s : State) (b : Nat) : (s.trEvent b).pw = s.pw := rfl
@[simp] theorem State.trEvent_po (s : State) (b : Nat) : (s.trEvent b).po = s.po := rfl
@[simp] theorem State.trEvent_se (s : State) (b : Nat) : (s.trEvent b).se = s.se := rfl
@[simp] theorem State.trEvent_tr (s : State) (b : Nat) : (s.trEvent b).tr = s.tr := rfl

@[simp] theorem State.addMark_pending (s : State) (id instant source : Nat) (received : Bool) (cmd : Option Nat) (origin : Nat) : (s.addMark id instant source received cmd origin).pending = s.pending := rfl
@[simp] theorem State.addMark_io (s : State) (id instant source : Nat) (received : Bool) (cmd : Option Nat) (origin : Nat) : (s.addMark id instant source received cmd origin).io = s.io := rfl
@[simp] theorem State.addMark_ram (s : State) (id instant source : Nat) (received : Bool) (cmd : Option Nat) (origin : Nat) : (s.addMark id instant source received cmd origin).ram = s.ram := rfl
@[simp] theorem State.addMark_free (s : State) (id instant source : Nat) (received : Bool) (cmd : Option Nat) (origin : Nat) : (s.addMark id instant source received cmd origin).free = s.free := rfl
@[simp] theorem State.addMark_plan (s : State) (id instant source : Nat) (received : Bool) (cmd : Option Nat) (origin : Nat) : (s.addMark id instant source received cmd origin).plan = s.plan := rfl
@[simp] theorem State.addMark_fp (s : State) (id instant source : Nat) (received : Bool) (cmd : Option Nat) (origin : Nat) : (s.addMark id instant source received cmd origin).fp = s.fp := rfl
@[simp] theorem State.addMark_mer (s : State) (id instant source : Nat) (received : Bool) (cmd : Option Nat) (origin : Nat) : (s.addMark id instant source received cmd origin).mer = s.mer := rfl
@[simp] theorem State.addMark_xl (s : State) (id instant source : Nat) (received : Bool) (cmd : Option Nat) (origin : Nat) : (s.addMark id instant source received cmd origin).xl = s.xl := rfl
@[simp] theorem State.addMark_host (s : State) (id instant source : Nat) (received : Bool) (cmd : Option Nat) (origin : Nat) : (s.addMark id instant source received cmd origin).host = s.host := rfl
@[simp] theorem State.addMark_cf (s : State) (id instant source : Nat) (received : Bool) (cmd : Option Nat) (origin : Nat) : (s.addMark id instant source received cmd origin).cf = s.cf := rfl
@[simp] theorem State.addMark_sc (s : State) (id instant source : Nat) (received : Bool) (cmd : Option Nat) (origin : Nat) : (s.addMark id instant source received cmd origin).sc = s.sc := rfl
@[simp] theorem State.addMark_stk (s : State) (id instant source : Nat) (received : Bool) (cmd : Option Nat) (origin : Nat) : (s.addMark id instant source received cmd origin).stk = s.stk := rfl
@[simp] theorem State.addMark_rl (s : State) (id instant source : Nat) (received : Bool) (cmd : Option Nat) (origin : Nat) : (s.addMark id instant source received cmd origin).rl = s.rl := rfl
@[simp] theorem State.addMark_rooms (s : State) (id instant source : Nat) (received : Bool) (cmd : Option Nat) (origin : Nat) : (s.addMark id instant source received cmd origin).rooms = s.rooms := rfl
@[simp] theorem State.addMark_wings (s : State) (id instant source : Nat) (received : Bool) (cmd : Option Nat) (origin : Nat) : (s.addMark id instant source received cmd origin).wings = s.wings := rfl
@[simp] theorem State.addMark_upd (s : State) (id instant source : Nat) (received : Bool) (cmd : Option Nat) (origin : Nat) : (s.addMark id instant source received cmd origin).upd = s.upd := rfl
@[simp] theorem State.addMark_mx (s : State) (id instant source : Nat) (received : Bool) (cmd : Option Nat) (origin : Nat) : (s.addMark id instant source received cmd origin).mx = s.mx := rfl
@[simp] theorem State.addMark_fab (s : State) (id instant source : Nat) (received : Bool) (cmd : Option Nat) (origin : Nat) : (s.addMark id instant source received cmd origin).fab = s.fab := rfl
@[simp] theorem State.addMark_pw (s : State) (id instant source : Nat) (received : Bool) (cmd : Option Nat) (origin : Nat) : (s.addMark id instant source received cmd origin).pw = s.pw := rfl
@[simp] theorem State.addMark_po (s : State) (id instant source : Nat) (received : Bool) (cmd : Option Nat) (origin : Nat) : (s.addMark id instant source received cmd origin).po = s.po := rfl
@[simp] theorem State.addMark_se (s : State) (id instant source : Nat) (received : Bool) (cmd : Option Nat) (origin : Nat) : (s.addMark id instant source received cmd origin).se = s.se := rfl
@[simp] theorem State.addMark_tr (s : State) (id instant source : Nat) (received : Bool) (cmd : Option Nat) (origin : Nat) : (s.addMark id instant source received cmd origin).tr = { s.tr with marks := s.tr.marks ++ [⟨id, instant, source, received, cmd, none, origin, decide (instant ≤ s.mer.count)⟩] } := rfl

@[simp] theorem State.dumpOver_pending (s : State) : (s.dumpOver).pending = s.pending := rfl
@[simp] theorem State.dumpOver_io (s : State) : (s.dumpOver).io = s.io := rfl
@[simp] theorem State.dumpOver_ram (s : State) : (s.dumpOver).ram = s.ram := rfl
@[simp] theorem State.dumpOver_free (s : State) : (s.dumpOver).free = s.free := rfl
@[simp] theorem State.dumpOver_plan (s : State) : (s.dumpOver).plan = s.plan := rfl
@[simp] theorem State.dumpOver_fp (s : State) : (s.dumpOver).fp = s.fp := rfl
@[simp] theorem State.dumpOver_mer (s : State) : (s.dumpOver).mer = s.mer := rfl
@[simp] theorem State.dumpOver_xl (s : State) : (s.dumpOver).xl = s.xl := rfl
@[simp] theorem State.dumpOver_host (s : State) : (s.dumpOver).host = s.host := rfl
@[simp] theorem State.dumpOver_cf (s : State) : (s.dumpOver).cf = s.cf := rfl
@[simp] theorem State.dumpOver_sc (s : State) : (s.dumpOver).sc = s.sc := rfl
@[simp] theorem State.dumpOver_stk (s : State) : (s.dumpOver).stk = s.stk := rfl
@[simp] theorem State.dumpOver_rl (s : State) : (s.dumpOver).rl = s.rl := rfl
@[simp] theorem State.dumpOver_rooms (s : State) : (s.dumpOver).rooms = s.rooms := rfl
@[simp] theorem State.dumpOver_wings (s : State) : (s.dumpOver).wings = s.wings := rfl
@[simp] theorem State.dumpOver_upd (s : State) : (s.dumpOver).upd = s.upd := rfl
@[simp] theorem State.dumpOver_mx (s : State) : (s.dumpOver).mx = s.mx := rfl
@[simp] theorem State.dumpOver_fab (s : State) : (s.dumpOver).fab = s.fab := rfl
@[simp] theorem State.dumpOver_pw (s : State) : (s.dumpOver).pw = s.pw := rfl
@[simp] theorem State.dumpOver_po (s : State) : (s.dumpOver).po = s.po := rfl
@[simp] theorem State.dumpOver_se (s : State) : (s.dumpOver).se = s.se := rfl
@[simp] theorem State.dumpOver_tr (s : State) : (s.dumpOver).tr = { s.tr with dumping := false, releaseAsked := false, mark := { s.tr.mark with held := s.tr.mark.held && !s.tr.releaseAsked } } := rfl

@[simp] theorem State.pwEvent_pending (s : State) (b : Nat) : (s.pwEvent b).pending = s.pending := rfl
@[simp] theorem State.pwEvent_io (s : State) (b : Nat) : (s.pwEvent b).io = s.io.event .PW_EVENT 0 b := rfl
@[simp] theorem State.pwEvent_ram (s : State) (b : Nat) : (s.pwEvent b).ram = s.ram := rfl
@[simp] theorem State.pwEvent_free (s : State) (b : Nat) : (s.pwEvent b).free = s.free := rfl
@[simp] theorem State.pwEvent_plan (s : State) (b : Nat) : (s.pwEvent b).plan = s.plan := rfl
@[simp] theorem State.pwEvent_fp (s : State) (b : Nat) : (s.pwEvent b).fp = s.fp := rfl
@[simp] theorem State.pwEvent_mer (s : State) (b : Nat) : (s.pwEvent b).mer = s.mer := rfl
@[simp] theorem State.pwEvent_xl (s : State) (b : Nat) : (s.pwEvent b).xl = s.xl := rfl
@[simp] theorem State.pwEvent_host (s : State) (b : Nat) : (s.pwEvent b).host = s.host := rfl
@[simp] theorem State.pwEvent_cf (s : State) (b : Nat) : (s.pwEvent b).cf = s.cf := rfl
@[simp] theorem State.pwEvent_sc (s : State) (b : Nat) : (s.pwEvent b).sc = s.sc := rfl
@[simp] theorem State.pwEvent_stk (s : State) (b : Nat) : (s.pwEvent b).stk = s.stk := rfl
@[simp] theorem State.pwEvent_rl (s : State) (b : Nat) : (s.pwEvent b).rl = s.rl := rfl
@[simp] theorem State.pwEvent_rooms (s : State) (b : Nat) : (s.pwEvent b).rooms = s.rooms := rfl
@[simp] theorem State.pwEvent_wings (s : State) (b : Nat) : (s.pwEvent b).wings = s.wings := rfl
@[simp] theorem State.pwEvent_upd (s : State) (b : Nat) : (s.pwEvent b).upd = s.upd := rfl
@[simp] theorem State.pwEvent_mx (s : State) (b : Nat) : (s.pwEvent b).mx = s.mx := rfl
@[simp] theorem State.pwEvent_fab (s : State) (b : Nat) : (s.pwEvent b).fab = s.fab := rfl
@[simp] theorem State.pwEvent_pw (s : State) (b : Nat) : (s.pwEvent b).pw = s.pw := rfl
@[simp] theorem State.pwEvent_po (s : State) (b : Nat) : (s.pwEvent b).po = s.po := rfl
@[simp] theorem State.pwEvent_se (s : State) (b : Nat) : (s.pwEvent b).se = s.se := rfl
@[simp] theorem State.pwEvent_tr (s : State) (b : Nat) : (s.pwEvent b).tr = s.tr := rfl

@[simp] theorem State.poEvent_pending (s : State) (b : Nat) : (s.poEvent b).pending = s.pending := rfl
@[simp] theorem State.poEvent_io (s : State) (b : Nat) : (s.poEvent b).io = s.io.event .PO_EVENT 0 b := rfl
@[simp] theorem State.poEvent_ram (s : State) (b : Nat) : (s.poEvent b).ram = s.ram := rfl
@[simp] theorem State.poEvent_free (s : State) (b : Nat) : (s.poEvent b).free = s.free := rfl
@[simp] theorem State.poEvent_plan (s : State) (b : Nat) : (s.poEvent b).plan = s.plan := rfl
@[simp] theorem State.poEvent_fp (s : State) (b : Nat) : (s.poEvent b).fp = s.fp := rfl
@[simp] theorem State.poEvent_mer (s : State) (b : Nat) : (s.poEvent b).mer = s.mer := rfl
@[simp] theorem State.poEvent_xl (s : State) (b : Nat) : (s.poEvent b).xl = s.xl := rfl
@[simp] theorem State.poEvent_host (s : State) (b : Nat) : (s.poEvent b).host = s.host := rfl
@[simp] theorem State.poEvent_cf (s : State) (b : Nat) : (s.poEvent b).cf = s.cf := rfl
@[simp] theorem State.poEvent_sc (s : State) (b : Nat) : (s.poEvent b).sc = s.sc := rfl
@[simp] theorem State.poEvent_stk (s : State) (b : Nat) : (s.poEvent b).stk = s.stk := rfl
@[simp] theorem State.poEvent_rl (s : State) (b : Nat) : (s.poEvent b).rl = s.rl := rfl
@[simp] theorem State.poEvent_rooms (s : State) (b : Nat) : (s.poEvent b).rooms = s.rooms := rfl
@[simp] theorem State.poEvent_wings (s : State) (b : Nat) : (s.poEvent b).wings = s.wings := rfl
@[simp] theorem State.poEvent_upd (s : State) (b : Nat) : (s.poEvent b).upd = s.upd := rfl
@[simp] theorem State.poEvent_mx (s : State) (b : Nat) : (s.poEvent b).mx = s.mx := rfl
@[simp] theorem State.poEvent_fab (s : State) (b : Nat) : (s.poEvent b).fab = s.fab := rfl
@[simp] theorem State.poEvent_pw (s : State) (b : Nat) : (s.poEvent b).pw = s.pw := rfl
@[simp] theorem State.poEvent_po (s : State) (b : Nat) : (s.poEvent b).po = s.po := rfl
@[simp] theorem State.poEvent_se (s : State) (b : Nat) : (s.poEvent b).se = s.se := rfl
@[simp] theorem State.poEvent_tr (s : State) (b : Nat) : (s.poEvent b).tr = s.tr := rfl

@[simp] theorem State.setPw_pending (s : State) (f : Power → Power) : (s.setPw f).pending = s.pending := rfl
@[simp] theorem State.setPw_io (s : State) (f : Power → Power) : (s.setPw f).io = s.io := rfl
@[simp] theorem State.setPw_ram (s : State) (f : Power → Power) : (s.setPw f).ram = s.ram := rfl
@[simp] theorem State.setPw_free (s : State) (f : Power → Power) : (s.setPw f).free = s.free := rfl
@[simp] theorem State.setPw_plan (s : State) (f : Power → Power) : (s.setPw f).plan = s.plan := rfl
@[simp] theorem State.setPw_fp (s : State) (f : Power → Power) : (s.setPw f).fp = s.fp := rfl
@[simp] theorem State.setPw_mer (s : State) (f : Power → Power) : (s.setPw f).mer = s.mer := rfl
@[simp] theorem State.setPw_xl (s : State) (f : Power → Power) : (s.setPw f).xl = s.xl := rfl
@[simp] theorem State.setPw_host (s : State) (f : Power → Power) : (s.setPw f).host = s.host := rfl
@[simp] theorem State.setPw_cf (s : State) (f : Power → Power) : (s.setPw f).cf = s.cf := rfl
@[simp] theorem State.setPw_sc (s : State) (f : Power → Power) : (s.setPw f).sc = s.sc := rfl
@[simp] theorem State.setPw_stk (s : State) (f : Power → Power) : (s.setPw f).stk = s.stk := rfl
@[simp] theorem State.setPw_rl (s : State) (f : Power → Power) : (s.setPw f).rl = s.rl := rfl
@[simp] theorem State.setPw_rooms (s : State) (f : Power → Power) : (s.setPw f).rooms = s.rooms := rfl
@[simp] theorem State.setPw_wings (s : State) (f : Power → Power) : (s.setPw f).wings = s.wings := rfl
@[simp] theorem State.setPw_upd (s : State) (f : Power → Power) : (s.setPw f).upd = s.upd := rfl
@[simp] theorem State.setPw_mx (s : State) (f : Power → Power) : (s.setPw f).mx = s.mx := rfl
@[simp] theorem State.setPw_fab (s : State) (f : Power → Power) : (s.setPw f).fab = s.fab := rfl
@[simp] theorem State.setPw_pw (s : State) (f : Power → Power) : (s.setPw f).pw = f s.pw := rfl
@[simp] theorem State.setPw_po (s : State) (f : Power → Power) : (s.setPw f).po = s.po := rfl
@[simp] theorem State.setPw_se (s : State) (f : Power → Power) : (s.setPw f).se = s.se := rfl
@[simp] theorem State.setPw_tr (s : State) (f : Power → Power) : (s.setPw f).tr = s.tr := rfl

@[simp] theorem State.setPo_pending (s : State) (f : Porch → Porch) : (s.setPo f).pending = s.pending := rfl
@[simp] theorem State.setPo_io (s : State) (f : Porch → Porch) : (s.setPo f).io = s.io := rfl
@[simp] theorem State.setPo_ram (s : State) (f : Porch → Porch) : (s.setPo f).ram = s.ram := rfl
@[simp] theorem State.setPo_free (s : State) (f : Porch → Porch) : (s.setPo f).free = s.free := rfl
@[simp] theorem State.setPo_plan (s : State) (f : Porch → Porch) : (s.setPo f).plan = s.plan := rfl
@[simp] theorem State.setPo_fp (s : State) (f : Porch → Porch) : (s.setPo f).fp = s.fp := rfl
@[simp] theorem State.setPo_mer (s : State) (f : Porch → Porch) : (s.setPo f).mer = s.mer := rfl
@[simp] theorem State.setPo_xl (s : State) (f : Porch → Porch) : (s.setPo f).xl = s.xl := rfl
@[simp] theorem State.setPo_host (s : State) (f : Porch → Porch) : (s.setPo f).host = s.host := rfl
@[simp] theorem State.setPo_cf (s : State) (f : Porch → Porch) : (s.setPo f).cf = s.cf := rfl
@[simp] theorem State.setPo_sc (s : State) (f : Porch → Porch) : (s.setPo f).sc = s.sc := rfl
@[simp] theorem State.setPo_stk (s : State) (f : Porch → Porch) : (s.setPo f).stk = s.stk := rfl
@[simp] theorem State.setPo_rl (s : State) (f : Porch → Porch) : (s.setPo f).rl = s.rl := rfl
@[simp] theorem State.setPo_rooms (s : State) (f : Porch → Porch) : (s.setPo f).rooms = s.rooms := rfl
@[simp] theorem State.setPo_wings (s : State) (f : Porch → Porch) : (s.setPo f).wings = s.wings := rfl
@[simp] theorem State.setPo_upd (s : State) (f : Porch → Porch) : (s.setPo f).upd = s.upd := rfl
@[simp] theorem State.setPo_mx (s : State) (f : Porch → Porch) : (s.setPo f).mx = s.mx := rfl
@[simp] theorem State.setPo_fab (s : State) (f : Porch → Porch) : (s.setPo f).fab = s.fab := rfl
@[simp] theorem State.setPo_pw (s : State) (f : Porch → Porch) : (s.setPo f).pw = s.pw := rfl
@[simp] theorem State.setPo_po (s : State) (f : Porch → Porch) : (s.setPo f).po = f s.po := rfl
@[simp] theorem State.setPo_se (s : State) (f : Porch → Porch) : (s.setPo f).se = s.se := rfl
@[simp] theorem State.setPo_tr (s : State) (f : Porch → Porch) : (s.setPo f).tr = s.tr := rfl

@[simp] theorem State.hcEvent_pending (s : State) (b : Nat) : (s.hcEvent b).pending = s.pending := rfl
@[simp] theorem State.hcEvent_io (s : State) (b : Nat) : (s.hcEvent b).io = s.io.event .HC_EVENT 0 b := rfl
@[simp] theorem State.hcEvent_ram (s : State) (b : Nat) : (s.hcEvent b).ram = s.ram := rfl
@[simp] theorem State.hcEvent_free (s : State) (b : Nat) : (s.hcEvent b).free = s.free := rfl
@[simp] theorem State.hcEvent_plan (s : State) (b : Nat) : (s.hcEvent b).plan = s.plan := rfl
@[simp] theorem State.hcEvent_fp (s : State) (b : Nat) : (s.hcEvent b).fp = s.fp := rfl
@[simp] theorem State.hcEvent_mer (s : State) (b : Nat) : (s.hcEvent b).mer = s.mer := rfl
@[simp] theorem State.hcEvent_xl (s : State) (b : Nat) : (s.hcEvent b).xl = s.xl := rfl
@[simp] theorem State.hcEvent_host (s : State) (b : Nat) : (s.hcEvent b).host = s.host := rfl
@[simp] theorem State.hcEvent_cf (s : State) (b : Nat) : (s.hcEvent b).cf = s.cf := rfl
@[simp] theorem State.hcEvent_sc (s : State) (b : Nat) : (s.hcEvent b).sc = s.sc := rfl
@[simp] theorem State.hcEvent_stk (s : State) (b : Nat) : (s.hcEvent b).stk = s.stk := rfl
@[simp] theorem State.hcEvent_rl (s : State) (b : Nat) : (s.hcEvent b).rl = s.rl := rfl
@[simp] theorem State.hcEvent_rooms (s : State) (b : Nat) : (s.hcEvent b).rooms = s.rooms := rfl
@[simp] theorem State.hcEvent_wings (s : State) (b : Nat) : (s.hcEvent b).wings = s.wings := rfl
@[simp] theorem State.hcEvent_upd (s : State) (b : Nat) : (s.hcEvent b).upd = s.upd := rfl
@[simp] theorem State.hcEvent_mx (s : State) (b : Nat) : (s.hcEvent b).mx = s.mx := rfl
@[simp] theorem State.hcEvent_fab (s : State) (b : Nat) : (s.hcEvent b).fab = s.fab := rfl
@[simp] theorem State.hcEvent_pw (s : State) (b : Nat) : (s.hcEvent b).pw = s.pw := rfl
@[simp] theorem State.hcEvent_po (s : State) (b : Nat) : (s.hcEvent b).po = s.po := rfl
@[simp] theorem State.hcEvent_se (s : State) (b : Nat) : (s.hcEvent b).se = s.se := rfl
@[simp] theorem State.hcEvent_tr (s : State) (b : Nat) : (s.hcEvent b).tr = s.tr := rfl

@[simp] theorem State.setHost_pending (s : State) (f : HostSide → HostSide) : (s.setHost f).pending = s.pending := rfl
@[simp] theorem State.setHost_io (s : State) (f : HostSide → HostSide) : (s.setHost f).io = s.io := rfl
@[simp] theorem State.setHost_ram (s : State) (f : HostSide → HostSide) : (s.setHost f).ram = s.ram := rfl
@[simp] theorem State.setHost_free (s : State) (f : HostSide → HostSide) : (s.setHost f).free = s.free := rfl
@[simp] theorem State.setHost_plan (s : State) (f : HostSide → HostSide) : (s.setHost f).plan = s.plan := rfl
@[simp] theorem State.setHost_fp (s : State) (f : HostSide → HostSide) : (s.setHost f).fp = s.fp := rfl
@[simp] theorem State.setHost_mer (s : State) (f : HostSide → HostSide) : (s.setHost f).mer = s.mer := rfl
@[simp] theorem State.setHost_xl (s : State) (f : HostSide → HostSide) : (s.setHost f).xl = s.xl := rfl
@[simp] theorem State.setHost_host (s : State) (f : HostSide → HostSide) : (s.setHost f).host = f s.host := rfl
@[simp] theorem State.setHost_cf (s : State) (f : HostSide → HostSide) : (s.setHost f).cf = s.cf := rfl
@[simp] theorem State.setHost_sc (s : State) (f : HostSide → HostSide) : (s.setHost f).sc = s.sc := rfl
@[simp] theorem State.setHost_stk (s : State) (f : HostSide → HostSide) : (s.setHost f).stk = s.stk := rfl
@[simp] theorem State.setHost_rl (s : State) (f : HostSide → HostSide) : (s.setHost f).rl = s.rl := rfl
@[simp] theorem State.setHost_rooms (s : State) (f : HostSide → HostSide) : (s.setHost f).rooms = s.rooms := rfl
@[simp] theorem State.setHost_wings (s : State) (f : HostSide → HostSide) : (s.setHost f).wings = s.wings := rfl
@[simp] theorem State.setHost_upd (s : State) (f : HostSide → HostSide) : (s.setHost f).upd = s.upd := rfl
@[simp] theorem State.setHost_mx (s : State) (f : HostSide → HostSide) : (s.setHost f).mx = s.mx := rfl
@[simp] theorem State.setHost_fab (s : State) (f : HostSide → HostSide) : (s.setHost f).fab = s.fab := rfl
@[simp] theorem State.setHost_pw (s : State) (f : HostSide → HostSide) : (s.setHost f).pw = s.pw := rfl
@[simp] theorem State.setHost_po (s : State) (f : HostSide → HostSide) : (s.setHost f).po = s.po := rfl
@[simp] theorem State.setHost_se (s : State) (f : HostSide → HostSide) : (s.setHost f).se = s.se := rfl
@[simp] theorem State.setHost_tr (s : State) (f : HostSide → HostSide) : (s.setHost f).tr = s.tr := rfl

@[simp] theorem State.setFp_pending (s : State) (f : Loader → Loader) : (s.setFp f).pending = s.pending := rfl
@[simp] theorem State.setFp_io (s : State) (f : Loader → Loader) : (s.setFp f).io = s.io := rfl
@[simp] theorem State.setFp_ram (s : State) (f : Loader → Loader) : (s.setFp f).ram = s.ram := rfl
@[simp] theorem State.setFp_free (s : State) (f : Loader → Loader) : (s.setFp f).free = s.free := rfl
@[simp] theorem State.setFp_plan (s : State) (f : Loader → Loader) : (s.setFp f).plan = s.plan := rfl
@[simp] theorem State.setFp_fp (s : State) (f : Loader → Loader) : (s.setFp f).fp = f s.fp := rfl
@[simp] theorem State.setFp_mer (s : State) (f : Loader → Loader) : (s.setFp f).mer = s.mer := rfl
@[simp] theorem State.setFp_xl (s : State) (f : Loader → Loader) : (s.setFp f).xl = s.xl := rfl
@[simp] theorem State.setFp_host (s : State) (f : Loader → Loader) : (s.setFp f).host = s.host := rfl
@[simp] theorem State.setFp_cf (s : State) (f : Loader → Loader) : (s.setFp f).cf = s.cf := rfl
@[simp] theorem State.setFp_sc (s : State) (f : Loader → Loader) : (s.setFp f).sc = s.sc := rfl
@[simp] theorem State.setFp_stk (s : State) (f : Loader → Loader) : (s.setFp f).stk = s.stk := rfl
@[simp] theorem State.setFp_rl (s : State) (f : Loader → Loader) : (s.setFp f).rl = s.rl := rfl
@[simp] theorem State.setFp_rooms (s : State) (f : Loader → Loader) : (s.setFp f).rooms = s.rooms := rfl
@[simp] theorem State.setFp_wings (s : State) (f : Loader → Loader) : (s.setFp f).wings = s.wings := rfl
@[simp] theorem State.setFp_upd (s : State) (f : Loader → Loader) : (s.setFp f).upd = s.upd := rfl
@[simp] theorem State.setFp_mx (s : State) (f : Loader → Loader) : (s.setFp f).mx = s.mx := rfl
@[simp] theorem State.setFp_fab (s : State) (f : Loader → Loader) : (s.setFp f).fab = s.fab := rfl
@[simp] theorem State.setFp_pw (s : State) (f : Loader → Loader) : (s.setFp f).pw = s.pw := rfl
@[simp] theorem State.setFp_po (s : State) (f : Loader → Loader) : (s.setFp f).po = s.po := rfl
@[simp] theorem State.setFp_se (s : State) (f : Loader → Loader) : (s.setFp f).se = s.se := rfl
@[simp] theorem State.setFp_tr (s : State) (f : Loader → Loader) : (s.setFp f).tr = s.tr := rfl

@[simp] theorem State.setSe_pending (s : State) (f : Se → Se) : (s.setSe f).pending = s.pending := rfl
@[simp] theorem State.setSe_io (s : State) (f : Se → Se) : (s.setSe f).io = s.io := rfl
@[simp] theorem State.setSe_ram (s : State) (f : Se → Se) : (s.setSe f).ram = s.ram := rfl
@[simp] theorem State.setSe_free (s : State) (f : Se → Se) : (s.setSe f).free = s.free := rfl
@[simp] theorem State.setSe_plan (s : State) (f : Se → Se) : (s.setSe f).plan = s.plan := rfl
@[simp] theorem State.setSe_fp (s : State) (f : Se → Se) : (s.setSe f).fp = s.fp := rfl
@[simp] theorem State.setSe_mer (s : State) (f : Se → Se) : (s.setSe f).mer = s.mer := rfl
@[simp] theorem State.setSe_xl (s : State) (f : Se → Se) : (s.setSe f).xl = s.xl := rfl
@[simp] theorem State.setSe_host (s : State) (f : Se → Se) : (s.setSe f).host = s.host := rfl
@[simp] theorem State.setSe_cf (s : State) (f : Se → Se) : (s.setSe f).cf = s.cf := rfl
@[simp] theorem State.setSe_sc (s : State) (f : Se → Se) : (s.setSe f).sc = s.sc := rfl
@[simp] theorem State.setSe_stk (s : State) (f : Se → Se) : (s.setSe f).stk = s.stk := rfl
@[simp] theorem State.setSe_rl (s : State) (f : Se → Se) : (s.setSe f).rl = s.rl := rfl
@[simp] theorem State.setSe_rooms (s : State) (f : Se → Se) : (s.setSe f).rooms = s.rooms := rfl
@[simp] theorem State.setSe_wings (s : State) (f : Se → Se) : (s.setSe f).wings = s.wings := rfl
@[simp] theorem State.setSe_upd (s : State) (f : Se → Se) : (s.setSe f).upd = s.upd := rfl
@[simp] theorem State.setSe_mx (s : State) (f : Se → Se) : (s.setSe f).mx = s.mx := rfl
@[simp] theorem State.setSe_fab (s : State) (f : Se → Se) : (s.setSe f).fab = s.fab := rfl
@[simp] theorem State.setSe_pw (s : State) (f : Se → Se) : (s.setSe f).pw = s.pw := rfl
@[simp] theorem State.setSe_po (s : State) (f : Se → Se) : (s.setSe f).po = s.po := rfl
@[simp] theorem State.setSe_se (s : State) (f : Se → Se) : (s.setSe f).se = f s.se := rfl
@[simp] theorem State.setSe_tr (s : State) (f : Se → Se) : (s.setSe f).tr = s.tr := rfl

@[simp] theorem State.seEvent_pending (s : State) (b : Nat) : (s.seEvent b).pending = s.pending := rfl
@[simp] theorem State.seEvent_io (s : State) (b : Nat) : (s.seEvent b).io = s.io.event .SE_EVENT 0 b := rfl
@[simp] theorem State.seEvent_ram (s : State) (b : Nat) : (s.seEvent b).ram = s.ram := rfl
@[simp] theorem State.seEvent_free (s : State) (b : Nat) : (s.seEvent b).free = s.free := rfl
@[simp] theorem State.seEvent_plan (s : State) (b : Nat) : (s.seEvent b).plan = s.plan := rfl
@[simp] theorem State.seEvent_fp (s : State) (b : Nat) : (s.seEvent b).fp = s.fp := rfl
@[simp] theorem State.seEvent_mer (s : State) (b : Nat) : (s.seEvent b).mer = s.mer := rfl
@[simp] theorem State.seEvent_xl (s : State) (b : Nat) : (s.seEvent b).xl = s.xl := rfl
@[simp] theorem State.seEvent_host (s : State) (b : Nat) : (s.seEvent b).host = s.host := rfl
@[simp] theorem State.seEvent_cf (s : State) (b : Nat) : (s.seEvent b).cf = s.cf := rfl
@[simp] theorem State.seEvent_sc (s : State) (b : Nat) : (s.seEvent b).sc = s.sc := rfl
@[simp] theorem State.seEvent_stk (s : State) (b : Nat) : (s.seEvent b).stk = s.stk := rfl
@[simp] theorem State.seEvent_rl (s : State) (b : Nat) : (s.seEvent b).rl = s.rl := rfl
@[simp] theorem State.seEvent_rooms (s : State) (b : Nat) : (s.seEvent b).rooms = s.rooms := rfl
@[simp] theorem State.seEvent_wings (s : State) (b : Nat) : (s.seEvent b).wings = s.wings := rfl
@[simp] theorem State.seEvent_upd (s : State) (b : Nat) : (s.seEvent b).upd = s.upd := rfl
@[simp] theorem State.seEvent_mx (s : State) (b : Nat) : (s.seEvent b).mx = s.mx := rfl
@[simp] theorem State.seEvent_fab (s : State) (b : Nat) : (s.seEvent b).fab = s.fab := rfl
@[simp] theorem State.seEvent_pw (s : State) (b : Nat) : (s.seEvent b).pw = s.pw := rfl
@[simp] theorem State.seEvent_po (s : State) (b : Nat) : (s.seEvent b).po = s.po := rfl
@[simp] theorem State.seEvent_se (s : State) (b : Nat) : (s.seEvent b).se = s.se := rfl
@[simp] theorem State.seEvent_tr (s : State) (b : Nat) : (s.seEvent b).tr = s.tr := rfl

end Sys2Proof.Machine
end

