-- ==== Sys2Proof/Tests/Fixture.lean ====
section
/-! SUPPORT. Tests/Fixture.lean: small states for the tests: the state after reset with one thing changed, and the sections of a small
floor plan. -/

open Sys2Proof Sys2Proof.Machine Sys2Proof.Claims

namespace Sys2Proof.Tests

set_option Elab.async false

/-- The state after reset. -/
def z : State := State.reset

/-- `n` bytes, zero but for little-endian fields (offset, width, value). -/
def blob (n : Nat) (fs : List (Nat × Nat × Nat)) : List Byte :=
  (List.range n).map (fun i => match fs.find? (fun f => decide (f.1 ≤ i) && decide (i < f.1 + f.2.1)) with
    | some (o, _, v) => BitVec.ofNat 8 (v / 256 ^ (i - o))
    | none => 0#8)

/-- A plan in force with the given sections. -/
def planOf (secs : List (Nat × List Byte)) : Plan := ⟨true, 0, 5, secs⟩
/-- The state after reset with a plan in force. -/
def zp (secs : List (Nat × List Byte)) : State := { z with plan := planOf secs }

/-- Stack 0 in service with all of its 64 channels. -/
def secStacks : Nat × List Byte := (0x30, blob 576 [(0, 2, 1), (0x49, 1, 16)])
/-- Meridian: a frame of 100,000 mt, source `src`, 1 frame to lock, PRESET 7, CABLE_DELAY 5. -/
def secMer (src : Nat) : Nat × List Byte :=
  (0x20, blob 64 [(0, 4, 100000), (4, 1, src), (6, 2, 1), (8, 2, 1), (0xA, 2, 1), (0xC, 4, 1), (0x10, 8, 7), (0x18, 4, 5)])
/-- One slot of the whole frame with an owner and a limit, and one instant of kind `kind` every frame. -/
def secCycle (owner kind : Nat) : Nat × List Byte :=
  (0x21, blob 56 [(0, 2, 1), (2, 2, 1), (32, 4, 100000), (36, 1, owner), (38, 2, 8), (40, 1, kind), (41, 1, 3), (42, 2, 1), (52, 4, 50000)])
/-- This device's grid reference is 1. -/
def secGrid : Nat × List Byte := (0x50, blob 4096 [(0, 2, 1)])

/-- Table 0: FP32, dimension 16, 1,000 rows, one shard; wing 0 holds it in channel 0 of stack 0. -/
def secWings : Nat × List Byte := (0x31, blob 80 [(0, 2, 1), (2, 2, 1), (20, 2, 16), (24, 4, 1000), (28, 4, 1), (67, 1, 1), (69, 1, 1), (76, 2, 65535)])

/-- A room-call's core, with nothing outstanding. -/
def core : Core where
  g := Vector.replicate 16 0#32
  v := Vector.replicate 8 0#128
  pc := 0
  events := 0
  key := 0#64
  row := 0
  ctr := 0
  ppos := 0
  scratch := []
  call := ⟨0, 0, false, 0, [], [], .lookup 0 0⟩
  slots := []
  recv := none
  sends := []
  sent := []
  sendAt := []
  rc := 0
  paused := 0
  entered := 0
  evAt := List.replicate 8 0
  wait := .run
  home := 0
  ident := 0
  sample := none
  held := []
  cancelled := false

/-- Room 0's core is `c`, and the word at its pc is `w`. -/
def room (s : State) (c : Core) (w : Nat) : State :=
  { s with ram := s.ram.poke (progAddr 0 0 (4 * c.pc)) (bytesOf w 4), rooms := { s.rooms with cores := s.rooms.cores.put 0 c } }

/-- Port `p` with its state changed. -/
def withPort (s : State) (p : Nat) (f : Port → Port) : State := s.setPort p f
/-- A linked port 0 whose neighbour is device 2. -/
def linked (s : State) : State := s.setPort 0 (fun x => { x with st := .up, nbr := some (2, 0), inUse := 15 })

/-- A command that is ready, of no queue. -/
def cmd (op : Nat) (fs : List (Nat × Nat × Nat)) (n : Nat := 128) : Cmd :=
  { queue := none, slot := 0, entry := blob n ([(0, 1, op)] ++ fs), origin := .buffer 0 0, phase := .ready, cls := 0, share := 0, start := 0,
    expiry := none, engine := 0, arrMask := 0, stkMask := 0, parts := 0, fail := none, landed := [], stop := none }
/-- A state whose command 0 is `c`. -/
def withCmd (s : State) (c : Cmd) : State := { s with cf := { s.cf with cmds := s.cf.cmds.put 0 c } }

/-- Queue 4095: ADMIN, every class, a ring of 16; launches may nest 1 deep, with areas from 0x100000. -/
def secQueues : Nat × List Byte := (0x60, blob 32 [(0, 2, 1), (4, 1, 1), (8, 8, 0x100000), (16, 2, 4095), (18, 1, 2), (23, 1, 4), (28, 1, 7)])
/-- A ready command of queue 4095. -/
def cmdQ (op : Nat) (fs : List (Nat × Nat × Nat)) (n : Nat := 128) : Cmd := { cmd op fs n with queue := some 4095, origin := .ring }
/-- A plan with stack 0, table 0, queue 4095 and arrays 0 to 63. -/
def zq : State := zp [secStacks, secWings, secQueues, (0x40, blob 272 [])]

end Sys2Proof.Tests
end

