-- ==== Sys2Proof/Tests/Witness1.lean ====
section
/-! SUPPORT. Tests/Witness1.lean: states and operands that meet the hypotheses of each clause of the statements on the loader, time,
power, resets, the host side, tracing and keys. -/

open Sys2Proof Sys2Proof.Machine Sys2Proof.Claims

namespace Sys2Proof.Tests

set_option Elab.async false

theorem witness_LowReadLatchesHigh : z.barShut = false ∧ (.merCountLoRead, .MER_COUNT_LO, 0) ∈ loReads 15 63 63 ∧
    (.fbRxFlitsLoRead 63, .FB_RX_FLITS_LO, 63) ∈ loReads 15 63 63 := by decide +kernel

theorem witness_RegisterWriteByWords : z.barGone = false ∧ z.se.result ≠ 3 ∧ (0#25).toNat % 4 = 0 ∧ (0x1FFFFF8#25).toNat % 8 = 0 ∧
    (1#25).toNat % 4 ≠ 0 ∧ (4#25).toNat % 8 ≠ 0 := by decide +kernel

def loader (st : FpState) (src : Nat) : State := { z with fp := { z.fp with st := st, source := src } }

theorem witness_LoaderCommandsRun : z.barShut = false ∧ z.se.result ≠ 3 ∧
    (∃ s : State, s.barShut = false ∧ s.se.result ≠ 3 ∧ s.fp.st = .empty ∧ (s.fp.source = 0 ∨ s.fp.source = 2) ∧
      s.io.val .FP_SRC_LO % 16 = 0 ∧ s.io.val .FP_LEN = 0) ∧
    (∃ s : State, s.barShut = false ∧ s.se.result ≠ 3 ∧ s.fp.st = .empty ∧ (s.fp.source = 0 ∨ s.fp.source = 2) ∧
      s.io.val .FP_SRC_LO % 16 = 0 ∧ 0 < s.io.val .FP_LEN ∧ s.io.val .FP_LEN ≤ 4194304) ∧
    (∃ s : State, s.barShut = false ∧ s.se.result ≠ 3 ∧ s.fp.st = .loaded ∧ s.imageKind ≠ 2 ∧ s.imageKind ≠ 1) ∧
    (∃ s : State, s.barShut = false ∧ s.se.result ≠ 3 ∧ s.fp.st = .verified ∧ s.fp.pending = false ∧ s.imageKind ≠ 2 ∧ s.imageKind ≠ 1 ∧
      s.fp.sections.lookup 0x21 = none) ∧
    (∃ s : State, s.barShut = false ∧ s.se.result ≠ 3 ∧ s.fp.st = .loading ∧ s.fp.source = 1) ∧
    (∃ s : State, s.barShut = false ∧ s.se.result ≠ 3 ∧ ¬ (s.fp.st = .loading ∧ s.fp.source = 1) ∧ s.fp.busy = false ∧
      6 < (7 : Fin 16).val) ∧
    (∃ s : State, ∃ off : Fin 32768, s.barShut = false ∧ s.se.result ≠ 3 ∧ off.val % 4 = 0 ∧
      s.io.val .FP_STAGE_BASE + off + 4 ≤ 4194304 ∧ (s.fp.st = .empty ∨ (s.fp.st = .loading ∧ s.fp.source = 1))) :=
  ⟨by decide +kernel, by decide +kernel, ⟨loader .empty 0, by decide +kernel⟩,
   ⟨{ loader .empty 2 with io := (z.io.putN .FP_LEN 0 4194304) }, by decide +kernel⟩, ⟨loader .loaded 1, by decide +kernel⟩,
   ⟨loader .verified 1, by decide +kernel⟩, ⟨loader .loading 1, by decide +kernel⟩, ⟨z, by decide +kernel⟩,
   ⟨loader .loading 1, 32764, by decide +kernel⟩⟩

theorem witness_BusyLoaderRefuses : ∃ s : State, s.barShut = false ∧ s.se.result ≠ 3 ∧ s.fp.busy = true ∧ (0 : Fin 16).val = 0 ∧
    6 < (7 : Fin 16).val := ⟨loader .verifying 2, by decide +kernel⟩

/-- An amendment of an empty tracing section, signed with the key pair of the SM2 standard's example. -/
def amendment : List Byte :=
  beBytes 0x5046504c000102000001000001000000050000000100000000000000000000000000000000000000000000000000000000000000000000000000000000000000 64 ++
  beBytes 0x800001005000000010000000000000000000000000000000000000000000000009f9df311e5421a150dd7d161e4bc5c672179fad1833fc076bb08ff356f35020 64 ++
  beBytes 0xccea490ce26775a52dc6ea718cc1aa600aed05fbf35e084a6632f6072da9ad13e562ff126ed33d7f8cc97a5e86b4be1eb6846d8ad909e04317d910034a9375da 64 ++
  beBytes 0x2458f695dc9ca4b608306de56bff432e3e7aaa99b0566b9ee379246d6c5f9f23601be22d7575e14bdf6cd97342da9eeb5cef6645572096c94182c6496bb3136a 64

/-- That amendment is being verified by a device with a plan in force and that key's hash in its fuses. -/
def signed (c : FpCmd) : State := { zp [] with
  ram := z.ram.poke (imageAddr 0) amendment
  fp := { z.fp with st := .verifying, cmd := c, len := 256 }
  se := { z.se with fuses := { z.se.fuses with
    rootHash := beBytes 0x3d92bed6d685f38bff5ccd052119e1ecc071c2f3d915245c8d9c5a2cb131a89d 32 } } }

/-- The hash, the signature and the check of the standard's key pair, computed outside the model: the image passes checks 4 to 7. -/
theorem test_amendment_signature : (badSignature (signed .verify).se.fuses amendment).isNone = true := by decide +kernel

/-- The other checks pass too, whichever command started the verification. -/
theorem test_amendment_verifies : ∀ c ∈ [FpCmd.verify, .amend, .apply],
    (signed c).verify (signed c).image' (if c = .verify then none else some (signed c).fp.amendAt) = .inl ([(128, zeros 16)], 1) := by
  have hi : ∀ c ∈ [FpCmd.verify, .amend, .apply], (signed c).image' = amendment := by decide +kernel
  have h1 : ∀ c ∈ [FpCmd.verify, .amend, .apply], badHeader amendment (signed c).fp.len = none := by decide +kernel
  have h2 : badDirectory amendment = none := by decide +kernel
  have hf : ∀ c, (signed c).se.fuses = (signed .verify).se.fuses := fun _ => rfl
  have h3 := Option.isNone_iff_eq_none.mp test_amendment_signature
  have h4 : fpSecs (signed .verify).se.fuses amendment (fpSections amendment) = .inl [(128, zeros 16)] := by decide +kernel
  have h5 : ∀ c ∈ [FpCmd.verify, .amend, .apply], (signed c).checkSecs amendment [(128, zeros 16)]
      (if c = .verify then none else some (signed c).fp.amendAt) = .inl 1 := by decide +kernel
  intro c h
  rw [State.verify, hi c h, h1 c h, h2, hf c, h3, h4]
  show (match (signed c).checkSecs amendment [(128, zeros 16)] _ with
    | .inr x => Sum.inr x
    | .inl e => .inl ([(128, zeros 16)], e)) = _
  rw [h5 c h]

theorem witness_LoaderEventsRun :
    (∃ s : State, s.fp.st = .loading ∧ s.fp.source = 2 ∧ [0#8] ≠ [] ∧ 3 + [0#8].length ≤ s.fp.want ∧
      runMeets 3 [0#8].length s.fp.landed = false) ∧
    (∃ s : State, s.fp.st = .verifying ∧ ∃ b, s.verify s.image' (if s.fp.cmd = .verify then none else some s.fp.amendAt) = .inr b) ∧
    (∃ s : State, s.fp.st = .applying) ∧
    (∃ s : State, s.amendDue = true ∧ s.plan.active = true ∧ s.comesFirst s.fp.effective 2 = true) ∧
    (z.barShut = false ∧ z.se.result ≠ 3) ∧
    (∃ s : State, (15 : Fin 64).val < 16 ∧ (s.io.reg (drainRegs 0).1).getLsbD ((15 : Fin 64).val % 32) = true ∧
      s.unitIdle 0 15 = true) ∧
    (∃ s : State, (s.io.reg (drainRegs 2).1).getLsbD ((63 : Fin 64).val % 32) = true ∧ s.unitIdle 1 63 = true) ∧
    (∃ s : State, (s.io.reg (drainRegs 4).1).getLsbD ((32 : Fin 64).val % 32) = true ∧ s.unitIdle 2 32 = true) :=
  ⟨⟨{ z with fp := { z.fp with st := .loading, source := 2, want := 4, landed := [(0, 3)] } }, by decide +kernel⟩,
   ⟨loader .verifying 2, by decide +kernel, ⟨0x01, 0, 0⟩, by decide +kernel⟩, ⟨loader .applying 2, by decide +kernel⟩,
   ⟨{ zp [] with fp := { z.fp with st := .verified, pending := true }, mer := { z.mer with st := .free } }, by decide +kernel⟩,
   by decide +kernel,
   ⟨{ z with io := z.io.putN (drainRegs 0).1 0 0xFFFF }, by decide +kernel⟩,
   ⟨{ z with io := z.io.putN (drainRegs 2).1 0 0xFFFFFFFF }, by decide +kernel⟩,
   ⟨{ z with io := z.io.putN (drainRegs 4).1 0 1 }, by decide +kernel⟩⟩

theorem witness_LoaderEventsRun_verified :
    (∃ s : State, s.fp.st = .verifying ∧ s.fp.cmd = .verify ∧ ∃ secs e, s.verify s.image' none = .inl (secs, e)) ∧
    (∃ s : State, s.fp.st = .verifying ∧ s.fp.cmd = .amend ∧ ∃ secs e, s.verify s.image' (some s.fp.amendAt) = .inl (secs, e)) ∧
    (∃ s : State, s.fp.st = .verifying ∧ s.fp.cmd = .apply ∧ ∃ secs e, s.verify s.image' (some s.fp.amendAt) = .inl (secs, e) ∧
      s.drainBad secs = none) :=
  ⟨⟨signed .verify, by decide +kernel, by decide +kernel, _, _, test_amendment_verifies .verify (by decide)⟩,
   ⟨signed .amend, by decide +kernel, by decide +kernel, _, _, test_amendment_verifies .amend (by decide)⟩,
   ⟨signed .apply, by decide +kernel, by decide +kernel, [(128, zeros 16)], 1, test_amendment_verifies .apply (by decide), by decide +kernel⟩⟩

/-- A state of the meridian block under a plan with a source, at a count. -/
def mer (st : MerState) (src count : Nat) (secs : List (Nat × List Byte)) : State :=
  { zp (secMer src :: secs) with mer := { z.mer with st := st, count := count, now := count } }
/-- Every class goes to grid references 0 to 9 by port 0. -/
def secPins : Nat × List Byte := (0x51, blob 32 [(0, 2, 1), (18, 2, 9), (20, 1, 15), (23, 3, 0xFFFFFF)])
/-- A change of the meridian block of a state. -/
def mer' (s : State) (f : Mer → Mer) : State := s.setMer f

theorem witness_MeridianEventsRun_pulses :
    (∃ s : State, s.mer.st = .free ∧ false = s.plan.pulseFalls ∧ s.useFabric = false ∧ s.useLocal = true ∧ s.spacingOk = true) ∧
    (∃ s : State, s.mer.st = .free ∧ false = s.plan.pulseFalls ∧ s.useFabric = false ∧ s.useLocal = true ∧ s.spacingOk = false) ∧
    (∃ s : State, s.mer.st = .acquiring ∧ false = s.plan.pulseFalls ∧ s.useFabric = false ∧ s.useLocal = true ∧ s.mer.spaced = false ∧
      s.pulseErr.natAbs ≤ 8 * s.plan.lockWindow ∧ s.plan.lockWindow < s.pulseErr.natAbs ∧ 0 < s.plan.lockFrames) ∧
    (∀ st ∈ [MerState.acquiring, .locked], ∃ s : State, s.mer.st = st ∧ false = s.plan.pulseFalls ∧ s.useFabric = false ∧
      s.useLocal = true ∧ s.mer.spaced = false ∧ 8 * s.plan.lockWindow < s.pulseErr.natAbs) ∧
    z.mer.st = .off ∧ true ≠ (mer .free 0 7 []).plan.pulseFalls ∧
    (∀ st ∈ [MerState.acquiring, .locked], ∀ b : Bool, ∃ s : State, s.mer.st = st ∧ s.useFabric = false ∧ (b = true ∨ 3 ≤ s.mer.rejected)) := by
  refine ⟨⟨mer' (mer .free 0 200000 []) (fun m => { m with refPresent := true, lastPulse := some 100000 }), by decide +kernel⟩,
    ⟨mer .free 0 7 [], by decide +kernel⟩, ⟨mer .acquiring 0 100007 [], by decide +kernel⟩,
    fun st h => ⟨mer st 0 50000 [], ?_⟩, by decide +kernel, by decide +kernel,
    fun st h b => ⟨mer' (mer st 0 7 []) (fun m => { m with rejected := 3 }), ?_⟩⟩
  · revert st; decide +kernel
  · revert st b; decide +kernel

theorem witness_MeridianEventsRun :
    (∃ s : State, s.mer.st = .holdover ∧ s.mer.alarmed = false ∧ s.plan.holdAlarm ≠ 0 ∧ s.mer.holdSince + s.plan.holdAlarm ≤ s.mer.now) ∧
    (∃ s : State, s.mer.nextMaster = some (true, false, 2) ∧ s.mer.reached s.mer.nextFrom = true) ∧
    (∃ s : State, (s.port (63 : Fin 64).val).linked = true ∧ (s.newer (2 : Fin 16384).val (1#32).toNat).isSome = true) ∧
    (∃ s : State, (s.port (63 : Fin 64).val).linked = true ∧ s.newer (1 : Fin 16384).val (1#32).toNat = none) ∧
    (∃ s : State, s.plan.hasGrid = true ∧ s.mer.st ≠ .off ∧ s.mer.timeFrame ≠ s.mer.count / s.plan.frameLen + 1) ∧
    (∃ s : State, (s.port 0).linked = true ∧ s.mer.st = .off) ∧
    (∃ s : State, (s.port (0 : Fin 64).val).linked = true ∧ s.mer.st = .acquiring ∧ s.useFabric = true ∧
      s.route s.mer.master 3 0 = some (0 : Fin 64).val ∧
      (((7 + 0 / 2 : Nat) : Int) - (s.mer.count : Int)).natAbs ≤ s.plan.frameLen) ∧
    (∃ s : State, s.barShut = false ∧ (1#32).getLsbD 0 = true ∧ s.mer.stepNeeded = true) ∧
    (∃ s : State, s.mer.stepAsked = true ∧ s.mer.st ≠ .off ∧ s.mer.stepAt ≤ (s.mer.count : Int) + s.mer.offset) ∧
    (∃ s : State, s.nextSlot = some (0, 0, 0) ∧ s.mer.reached 0 = true ∧ s.asleep = false ∧ s.comesFirst 0 3 = true) :=
  ⟨⟨mer .holdover 0 1000000 [], by decide +kernel⟩,
   ⟨mer' (mer .acquiring 0 7 []) (fun m => { m with nextMaster := some (true, false, 2), nextFrom := 7 }), by decide +kernel⟩,
   ⟨(zp [secGrid]).setPort 63 (fun x => { x with st := .degraded }), by decide +kernel⟩,
   ⟨(zp [secGrid]).setPort 63 (fun x => { x with st := .degraded }), by decide +kernel⟩,
   ⟨mer .free 0 7 [secGrid], by decide +kernel⟩, ⟨linked z, by decide +kernel⟩,
   ⟨mer' (linked (mer .acquiring 1 7 [secGrid, secPins])) (fun m => { m with masterValid := true, master := 2 }), by decide +kernel⟩,
   ⟨{ z with mer := { z.mer with stepNeeded := true } }, by decide +kernel⟩,
   ⟨mer' (mer .locked 0 7 []) (fun m => { m with stepAsked := true, stepAt := 7 }), by decide +kernel⟩,
   ⟨mer .free 0 7 [secCycle 0 6], by decide +kernel⟩⟩

/-- The power block in a state. -/
def power (st : PwState) : State := { z with pw := { z.pw with st := st } }

theorem witness_PowerEventsRun :
    (z.pw.input = true ∧ z.pw.st ≠ .tripped) ∧
    (∃ s : State, s.pw.input = false ∧ s.pw.perst = true) ∧ (∃ s : State, s.pw.input = false ∧ s.pw.perst = false) ∧
    (∃ s : State, s.barGone = false ∧ (1#32).getLsbD 0 = true ∧ s.pw.st = .tripped ∧ s.pw.perst = true ∧
      ∀ c t, c < 192 → tripAt c = some t → f32lt (degrees ((t : Int) - 10)) (s.po.sensor c).raw = false) ∧
    z.barGone = false ∧
    (∃ s : State, s.pw.st = .departing ∧ s.mer.reached (s.pw.effective + 100000) = true ∧ s.committing = false) ∧
    (∃ s : State, s.pw.st = .shuttered ∧ s.io.wakeAt ≠ 0 ∧ s.mer.reached s.io.wakeAt = true) ∧
    (∃ s : State, s.pw.st = .waking) ∧
    (∃ s : State, s.fab.departs.find? (fun d => d.ref == s.plan.ref) = some ⟨1, 7, 0⟩ ∧ s.mer.reached (7 + 100000) = true) ∧
    (∃ s : State, s.plan.active = true ∧ s.asleep = false ∧ s.pw.lastProjection + 10000 ≤ s.mer.now ∧ 0 + 50 ≤ s.envelope ∧
      s.envelope ≤ 0 + 150) ∧
    ((0 : Fin 65536).val ≤ z.drawLimit ∧ z.enabledArrays = [] ∧ z.underFloor = false) ∧
    (∃ s : State, s.pw.input = true ∧ channelReserved (217 : Fin 256).val = false ∧ s.pw.st = .tripped) ∧
    (∃ s : State, s.po.oldCaps ≠ [] ∧ s.po.oldUntil ≤ s.mer.now) ∧ bit z.po.keepers (3 : Fin 4).val = true := by
  refine ⟨by decide +kernel, ⟨{ z with pw := { z.pw with input := false, perst := true } }, by decide +kernel⟩,
   ⟨{ z with pw := { z.pw with input := false, perst := false } }, by decide +kernel⟩,
   ⟨{ z with pw := { z.pw with st := .tripped, perst := true } }, by decide +kernel, by decide +kernel, by decide +kernel,
      by decide +kernel, ?_⟩, by decide +kernel,
   ⟨{ power .departing with mer := { z.mer with st := .free, count := 100000 } }, by decide +kernel⟩,
   ⟨{ power .shuttered with mer := { z.mer with st := .free, count := 7 }, io := z.io.putN .PW_WAKE_AT_LO 0 7 }, by decide +kernel⟩,
   ⟨power .waking, by decide +kernel⟩,
   ⟨{ mer .free 0 100007 [secGrid] with fab := { z.fab with departs := [⟨1, 7, 0⟩] } }, by decide +kernel⟩,
   ⟨{ zp [(0x10, blob 32 [(0, 2, 150)])] with mer := { z.mer with now := 10000 } }, by decide +kernel⟩, by decide +kernel,
   ⟨power .tripped, by decide +kernel⟩, ⟨{ z with po := { z.po with oldCaps := [(9, 1, 0)] } }, by decide +kernel⟩, by decide +kernel⟩
  have h : ∀ c < 192, (match tripAt c with
      | some t => !f32lt (degrees ((t : Int) - 10)) (({ z with pw := { z.pw with st := .tripped, perst := true } } : State).po.sensor c).raw
      | none => true) = true := by decide +kernel
  intro c t hc ht
  have h2 := h c hc
  rw [ht] at h2
  simpa using h2

theorem witness_ResetsRun :
    (z.pw.input = true ∧ z.pw.st ≠ .tripped) ∧ (∃ s : State, s.pw.input = true ∧ s.pw.perst = false ∧ s.pw.st ≠ .tripped) ∧
    (∃ s : State, s.pw.input = true ∧ s.pw.perst = false ∧ s.pw.st = .tripped) ∧
    (∃ s : State, s.pw.perst = true ∧ s.pw.input = true ∧ s.pw.st ≠ .tripped) ∧ (∃ s : State, s.resettable = true) ∧
    (∃ s : State, s.host.resetting ≠ 0) :=
  ⟨by decide +kernel, ⟨{ z with pw := { z.pw with input := true, perst := false } }, by decide +kernel⟩,
   ⟨{ z with pw := { z.pw with st := .tripped, perst := false } }, by decide +kernel⟩,
   ⟨{ z with pw := { z.pw with perst := true } }, by decide +kernel⟩, ⟨{ z with pw := { z.pw with perst := false } }, by decide +kernel⟩,
   ⟨{ z with host := { z.host with resetting := 2 } }, by decide +kernel⟩⟩

/-- The link is up, and region 5 covers granules 5 and 6 for every requester. -/
def box : State := { z with
  io := { z.io with link := 2 }
  host := (((({ z.host with regions := [] } : HostSide).setRegion 5 0 0x00020001#32).setRegion 5 1 0x00200000#32).setRegion 5 5 0xFFFFFFFF#32) }

theorem witness_LetterboxCommandsRun :
    (z.barShut = false ∧ (1#32).getLsbD 0 = true ∧ (2#32).getLsbD 0 = false ∧ box.hostReaches = true ∧ [0#8] ≠ [] ∧
    box.lbCause (0x500000#36).toNat [0#8].length 7 false = (0, 5) ∧ rgFlag (box.host.entry 5) = 0xFFFFFFFF ∧
    box.chanHeld 0 = false ∧ box.lbCause (0x4FFFFF#36).toNat [0#8].length 7 false = (1, 0) ∧
    box.lbCause (0x6FFFFF#36).toNat [0#8, 0#8].length 7 false = (2, 5)) ∧
    (∃ s : State, s.host.fence = some 5 ∧ s.flagsHeld 5 = 0) := by
  exact ⟨by decide +kernel, { z with host := { z.host with fence := some 5 } }, by decide +kernel⟩

/-- A cycle with one instant of a kind that is due, in its slot. -/
def due (kind : Nat) : State := mer' (mer .free 0 50000 [secCycle 0 kind, secStacks, secGrid]) (fun m => { m with inSlot := true })

theorem witness_TracingCommandsRun :
    (∃ s : State, ∃ c, s.readyCmd 0 0x1F = some c ∧ u8 c.entry 0x11 = 0 ∧ s.mer.count ≤ u64 c.entry 0x18 ∧ u64 c.entry 0x18 ≠ 0) ∧
    (∀ m ∈ [7, 0], ∃ s t : State, (s.port (0 : Fin 64).val).linked = true ∧ s.newer (2 : Fin 16384) (1#32).toNat = some t ∧
      ((t.floodFrom 0 0x8000 0x23 2 (markBytes 2 (1#32).toNat 255 m)).mer.count < m ↔ m = 7)) ∧
    (∃ s : State, ∃ i c, s.dueInstant 0 = some (i, c) ∧ i.kind = 3) ∧
    z.barShut = false ∧ z.tr.dumping = false ∧ (∃ s : State, s.barShut = false ∧ s.tr.dumping = true) ∧
    (∃ s : State, s.barShut = false ∧ s.tr.mark.held = true ∧ s.tr.dumping = false ∧ s.io.dumpAddr % 256 = 0 ∧
      s.plan.dpaOk s.io.dumpAddr s.tr.mark.dumpLen = true) ∧
    (∃ s : State, s.tr.dumping = true ∧ s.plan.dpaOk s.tr.dumpAt s.tr.mark.dumpLen = true ∧ s.tr.releaseAsked = false) ∧
    (∃ s : State, ∃ i c, s.dueInstant 0 = some (i, c) ∧ i.kind = 6 ∧ s.tr.snapshot = none) ∧
    (∃ s : State, s.tr.snapshot = some (7, 1, 1, 0) ∧ s.mer.count < 7) ∧
    (∃ s : State, s.tr.snapshot = some (7, 1, 1, 0) ∧ 7 ≤ s.mer.count) :=
  ⟨⟨withCmd z (cmd 0x1F [(0x18, 8, 7)]), cmd 0x1F [(0x18, 8, 7)], by decide +kernel⟩,
   fun m h => ⟨linked (zp [secGrid]), _, by decide +kernel, (Option.some_get (by decide +kernel)).symm, by
     revert m; decide +kernel⟩,
   ⟨due 3, ⟨3, 3, 1, 0, 0, 50000⟩, 0, by decide +kernel⟩, by decide +kernel, by decide +kernel,
   ⟨{ z with tr := { z.tr with dumping := true } }, by decide +kernel⟩,
   ⟨{ zp [secStacks] with tr := { z.tr with mark := { z.tr.mark with held := true } } }, by decide +kernel⟩,
   ⟨{ zp [secStacks] with tr := { z.tr with dumping := true } }, by decide +kernel⟩,
   ⟨due 6, ⟨6, 3, 1, 0, 0, 50000⟩, 0, by decide +kernel⟩,
   ⟨{ z with tr := { z.tr with snapshot := some (7, 1, 1, 0) } }, by decide +kernel⟩,
   ⟨{ z with tr := { z.tr with snapshot := some (7, 1, 1, 0) }, mer := { z.mer with count := 7 } }, by decide +kernel⟩⟩

/-- A key record of an operation is being processed. -/
def keyed (op : Nat) (fs : List (Nat × Nat × Nat)) : State :=
  { z with se := { z.se with record := some (blob 272 ([(1, 1, op)] ++ fs)) } }

theorem witness_KeyCommandsRun :
    (∃ s : State, s.pw.input = true ∧ s.pw.perst = false ∧ s.pw.st ≠ .tripped) ∧
    (∃ s : State, s.se.boot = .done ∧ s.se.result = 0) ∧
    (∃ s : State, s.barShut = false ∧ s.se.result = 1 ∧ s.se.fuses.minFw < u16 s.se.bank.keeper 0x10 ∧ s.se.fuses.fwAdvances < 64) ∧
    (∃ s : State, s.barShut = false ∧ s.plan.active = true ∧ s.se.fuses.minPlan < s.plan.version ∧ s.se.fuses.planAdvances < 64) ∧
    (∃ s : State, ∃ r, s.se.processing 1 = some r ∧ (s.se.fuses.slot (krSlot r)).1 = .empty) ∧
    (∃ s : State, ∃ r, s.se.processing 2 = some r ∧ (∃ k < 4, k ≠ krSlot r ∧ (s.se.fuses.slot k).1 = .active)) ∧
    (∃ s : State, ∃ r, s.se.processing 3 = some r ∧ s.se.fuses.keys.length < 4) ∧ (∃ s : State, ∃ r, s.se.processing 4 = some r) ∧
    (∃ s : State, ∃ r, s.se.processing 5 = some r ∧ s.se.fuses.lock < u8 r 2 ∧ u8 r 2 ≤ 2) :=
  ⟨⟨{ z with pw := { z.pw with perst := false } }, by decide +kernel⟩, ⟨{ z with se := { z.se with boot := .done } }, by decide +kernel⟩,
   ⟨{ z with se := { z.se with
        result := 1, bankA := ⟨[], blob 256 [(0x10, 2, 1)]⟩, fuses := { z.se.fuses with fwAdvances := 63 } } }, by decide +kernel⟩,
   ⟨{ zp [] with se := { z.se with fuses := { z.se.fuses with planAdvances := 63 } } }, by decide +kernel⟩,
   ⟨keyed 1 [(0, 1, 3)], blob 272 [(1, 1, 1), (0, 1, 3)], by decide +kernel⟩,
   ⟨{ z with se := { (keyed 2 []).se with fuses := z.se.fuses.setSlot 3 (.active, []) } }, blob 272 [(1, 1, 2)], by decide +kernel⟩,
   ⟨{ z with se := { (keyed 3 []).se with fuses := { z.se.fuses with keys := [[], [], []] } } }, blob 272 [(1, 1, 3)], by decide +kernel⟩,
   ⟨keyed 4 [], blob 272 [(1, 1, 4)], by decide +kernel⟩, ⟨keyed 5 [(2, 1, 2)], blob 272 [(1, 1, 5), (2, 1, 2)], by decide +kernel⟩⟩

theorem witness_HostLinkEventsRun :
    (∃ s : State, s.linkUp = true) ∧
    (∃ s : State, s.linkUp = false ∧ s.pw.perst = false ∧ s.pw.input = true ∧ s.pw.st ≠ .tripped ∧ s.host.driverBack = false) ∧
    (∃ s : State, s.io.link = 3) ∧ (∃ s : State, s.io.link = 2) ∧ (∃ s : State, s.host.graceEnd = some 7 ∧ 7 ≤ s.mer.now) ∧
    z.barShut = false ∧ (∃ s : State, s.linkUp = true ∧ s.se.result = 0) ∧
    (∃ s : State, s.linkUp = true ∧ s.se.result ≠ 0 ∧ s.host.resetting = 0 ∧ (zeros 16384).length ≤ 16384) :=
  ⟨⟨box, by decide +kernel⟩, ⟨{ z with pw := { z.pw with perst := false } }, by decide +kernel⟩,
   ⟨{ z with io := { z.io with link := 3 } }, by decide +kernel⟩, ⟨box, by decide +kernel⟩,
   ⟨{ z with host := { z.host with graceEnd := some 7 }, mer := { z.mer with now := 7 } }, by decide +kernel⟩, by decide +kernel,
   ⟨box, by decide +kernel⟩, ⟨{ box with se := { z.se with result := 1 } }, by decide +kernel⟩⟩

/-- Booted, the link up. -/
def up1 : State := { box with pw := { z.pw with perst := false }, se := { z.se with result := 1, version := true, agreed := true } }

theorem witness_SpdmRequestsAnswered :
    (∃ doe, up1.spdmOn doe 1 = true ∧ up1.spdmOn doe 2 = true ∧ up1.spdmOn doe 3 = true) ∧ up1.se.version = true ∧ up1.se.agreed = true ∧
    (∃ s : State, s.spdmOn true 1 = true ∧ s.spdmOn true 2 = true ∧ s.spdmOn true 3 = true ∧ s.se.agreed = true ∧
      s.chain (3 : Fin 4) ≠ [] ∧ (1#16).toNat ≤ (s.chain (3 : Fin 4)).length) ∧
    1 ≤ (6 : Fin 256).val ∧ (6 : Fin 256).val ≤ 6 ∧ (3 : Fin 4).val ≠ 0 ∧
    (∃ s : State, s.spdmOn true 1 = true ∧ s.spdmOn true 2 = true ∧ s.spdmOn true 3 = true ∧ s.se.agreed = true ∧
      slice s.se.chunkOut (4096 * 1) 4096 ≠ [] ∧ 4096 * (1 + 1) < s.se.chunkOut.length) := by
  refine ⟨⟨true, by decide +kernel⟩, by decide +kernel, by decide +kernel,
   ⟨{ up1 with se := { up1.se with certs := SMap.set (fun _ => []) [] 3 [7#8] } }, by decide +kernel⟩, by decide, by decide, by decide,
   ⟨{ up1 with se := { up1.se with chunkOut := zeros 8193 } }, by decide +kernel⟩⟩

theorem witness_ManagementCommandsAnswered : up1.mgmtLevel = 3 ∧ channelReserved (255 : Fin 256) = true ∧ channelReserved (217 : Fin 256) = false ∧
    (∃ s : State, s.mgmtLevel = 3 ∧ s.se.comp = 0x20) ∧ (∃ s : State, s.mgmtLevel = 3 ∧ s.se.comp = 1 ∧ s.se.verified = true) ∧
    (∃ s : State, s.mgmtLevel = 3 ∧ s.se.debugOpen = true) :=
  ⟨by decide +kernel, by decide, by decide, ⟨{ up1 with se := { up1.se with comp := 0x20 } }, by decide +kernel⟩,
   ⟨{ up1 with se := { up1.se with comp := 1, verified := true } }, by decide +kernel⟩,
   ⟨{ up1 with se := { up1.se with debug := true } }, by decide +kernel⟩⟩

end Sys2Proof.Tests
end

