-- ==== Sys2Proof/Tests/Witness2.lean ====
section
/-! SUPPORT. Tests/Witness2.lean: states and operands that meet the hypotheses of each clause of the statements on stacks, reliability
and room cores. -/

open Sys2Proof Sys2Proof.Machine Sys2Proof.Claims

namespace Sys2Proof.Tests

set_option Elab.async false

/-- A state of stack 0, under a plan whose frame is one maintenance slot. -/
def stk (f : Stack → Stack) : State :=
  let s : State := { zp [secMer 0, secCycle 2 1, secStacks, secGrid] with mer := { z.mer with st := .free, inSlot := true } }
  { s with stk := setStack s.stk 0 f }

theorem witness_ChannelEventsRun :
    (∃ s : State, (s.liveChan (0 : Fin 16) (63 : Fin 64)).isSome = true ∧ ((s.stack 0).chan 63).st = .ready ∧ s.retrainDue 0 63 = true ∧
      s.inMaintenance = true ∧ s.mer.count + 25000 ≤ s.slotEnd ∧ ∀ p < 64, ((s.stack 0).chan p).st ≠ .planned) ∧
    (∃ s : State, (s.liveChan (0 : Fin 16) (63 : Fin 64)).isSome = true ∧ s.recentLosses 0 63 = []) ∧
    (∃ s : State, (s.liveChan (0 : Fin 16) (63 : Fin 64)).isSome = true ∧ 2 ≤ (s.recentLosses 0 63).length) ∧
    (∃ s : State, ((s.stack (15 : Fin 16)).chan (63 : Fin 64)).st = .planned ∧ ((s.stack (15 : Fin 16)).chan (63 : Fin 64)).since + 30000 < s.mer.now) ∧
    (∃ s : State, ((s.stack (15 : Fin 16)).chan (63 : Fin 64)).st = .planned ∧ s.mer.now ≤ ((s.stack (15 : Fin 16)).chan (63 : Fin 64)).since + 30000 ∧
      s.plan.logicalOf (15 : Fin 16) (63 : Fin 64) = none) ∧
    (∃ s : State, (s.stack (0 : Fin 16)).spareDue = [⟨1, 2, 3, 4⟩] ∧ s.plan.inService (0 : Fin 16) = true ∧ s.inMaintenance = true ∧
      s.mer.count + 2000 ≤ s.slotEnd) ∧
    (∃ s : State, s.plan.inService (0 : Fin 16) = true ∧ (s.stack (0 : Fin 16)).selfRefresh = false ∧
      s.plan.logicalOf (0 : Fin 16) (63 : Fin 64) = some 63) :=
  ⟨⟨{ stk id with mer := { (stk id).mer with count := 2000 * 100000, frame := 2000 } }, by decide +kernel⟩, ⟨stk id, by decide +kernel⟩,
   ⟨stk (fun k => k.setChan 63 (fun c => { c with losses := [0, 0] })), by decide +kernel⟩,
   ⟨{ z with
        stk := setStack z.stk 15 (fun k => k.setChan 63 (fun c => { c with st := .planned })), mer := { z.mer with now := 30001 } }, by decide +kernel⟩,
   ⟨{ z with
        stk := setStack z.stk 15 (fun k => k.setChan 63 (fun c => { c with st := .planned })), mer := { z.mer with now := 30000 } }, by decide +kernel⟩,
   ⟨stk (fun k => { k with spareDue := [⟨1, 2, 3, 4⟩] }), by decide +kernel⟩, ⟨stk id, by decide +kernel⟩⟩

/-- A cycle with one instant of a kind that is due, in its slot, and stack 0 in service. -/
def dueStk (kind : Nat) : State :=
  { zp [secMer 0, secCycle 0 kind, secStacks] with mer := { z.mer with st := .free, count := 50000, now := 50000, inSlot := true } }

theorem witness_StackCommandsRun :
    z.barShut = false ∧ (∃ s : State, (s.stack (15 : Fin 16)).burn = some ⟨1, 2, 3, 4⟩ ∧ (s.stack (15 : Fin 16)).burnLost = false) ∧
    (∃ s : State, ∃ i c, s.dueInstant 0 = some (i, c) ∧ i.kind = 4) ∧
    (∃ s : State, ∃ w, (s.stack (0 : Fin 16)).scrub = some w ∧ s.plan.inService (0 : Fin 16) = true ∧ w.quota ≠ 0 ∧ s.mer.count < w.ends ∧
      s.plan.blocks (0 : Fin 16) ≠ 0 ∧
      (s.ram.blk ((0 : Fin 16) * 2 ^ 36 + 256 * (s.io.val .ST_SCRUB_POS (0 : Fin 16) % s.plan.blocks (0 : Fin 16)))).unc = 0) ∧
    (∃ s : State, ∃ i c, s.dueInstant 0 = some (i, c) ∧ i.kind = 5) ∧
    (∃ s : State, ∃ w, (s.stack (0 : Fin 16)).cal = some w ∧ s.plan.inService (0 : Fin 16) = true ∧ w.quota ≠ 0 ∧ s.mer.count < w.ends) ∧
    (∃ s : State, ∃ p, s.barShut = false ∧ (s.stack (0 : Fin 16)).clearing = false ∧ (s.stack (0 : Fin 16)).verifying = false ∧
      (s.stack (0 : Fin 16)).preserve = some p ∧ (s.stack (0 : Fin 16)).content = .preserved ∧ p.continuous = true ∧ p.mapMatch = true) ∧
    (∃ s : State, s.barShut = false ∧ (s.stack (15 : Fin 16)).content ≠ .none) ∧
    (∃ s : State, (s.stack (0 : Fin 16)).verifying = true ∧ (s.badBlocks (0 : Fin 16)).1 = [] ∧ s.plan.tableWings = []) ∧
    (∃ s : State, (s.stack (0 : Fin 16)).clearing = true) :=
  ⟨by decide +kernel, ⟨{ z with stk := setStack z.stk 15 (fun k => { k with burn := some ⟨1, 2, 3, 4⟩ }) }, by decide +kernel⟩,
   ⟨dueStk 4, ⟨4, 3, 1, 0, 0, 50000⟩, 0, by decide +kernel⟩,
   ⟨stk (fun k => { k with scrub := some ⟨7, 1⟩ }), ⟨7, 1⟩, by decide +kernel⟩,
   ⟨dueStk 5, ⟨5, 3, 1, 0, 0, 50000⟩, 0, by decide +kernel⟩, ⟨stk (fun k => { k with cal := some ⟨7, 1⟩ }), ⟨7, 1⟩, by decide +kernel⟩,
   ⟨stk (fun k => { k with content := .preserved, preserve := some ⟨0, true, true, false, 0, none, []⟩ }),
      ⟨0, true, true, false, 0, none, []⟩, by decide +kernel⟩,
   ⟨{ z with stk := setStack z.stk 15 (fun k => { k with content := .live }) }, by decide +kernel⟩,
   ⟨stk (fun k => { k with verifying := true }), by decide +kernel⟩, ⟨stk (fun k => { k with clearing := true }), by decide +kernel⟩⟩

/-- One sample is being compared. -/
def sampled (x : Sample) : State := { z with rl := { z.rl with samples := z.rl.samples.put 0 x } }
/-- A sampled room-call of room 0, shadowed by room 1, that has ended. -/
def callSample : Sample := ⟨false, false, 0, 1, none, 0, 0, 0, none, some (0, none), [], [], 0#64, 0#64⟩
/-- A collective call that is over, with a status. -/
def collOver (g n st : Nat) : Coll := ⟨g, n, 3, 0, 0, 0, 0, 0, false, 0, 0, 0, 2, none, true, true, [], true, some st⟩

theorem witness_ReliabilityCommandsRun :
    (∃ s : State, ∃ x b, s.rl.samples.at 0 = some x ∧ x.twin = false ∧ x.arbiter = none ∧ s.comparable x = true ∧ x.tile = false ∧
      (s.mismatch x).roomUp x.shadow [x.origin, x.shadow] = some b) ∧
    (∃ s : State, ∃ x b, s.rl.samples.at 0 = some x ∧ x.arbiter = some b ∧ x.tile = true ∧
      (∃ sig, sig = x.signature) ∧ (∃ sig, sig ≠ x.signature ∧ sig = x.other) ∧ ∃ sig, sig ≠ x.signature ∧ sig ≠ x.other) ∧
    (∃ s : State, ∃ x, s.rl.samples.at 0 = some x ∧ x.twin = true ∧ x.tile = false ∧ x.ended.isSome = true) ∧
    (∃ s : State, ∃ d, s.rl.comparing.find? (fun (d : Digest) => d.group == (4095 : Fin 4096).val && !d.issued) = some d ∧
      s.digestAt 4095 + s.digestSpan 4095 ≤ s.plan.digestArea + 2 ^ 20) ∧
    (∃ s : State, ∃ d, s.rl.comparing.find? (fun (d : Digest) => d.group == (4095 : Fin 4096).val && !d.issued) = some d ∧
      s.plan.digestArea + 2 ^ 20 < s.digestAt 4095 + s.digestSpan 4095) ∧
    (∃ s t : State, ∃ d st, s.rl.comparing.find? (fun (d : Digest) => d.group == (0 : Fin 4096).val && d.issued) = some d ∧
      s.takeColl 0 (s.digestCall d.step) = some (t, st) ∧ st ≠ stDone) ∧
    (∃ s t : State, ∃ d, s.rl.comparing.find? (fun (d : Digest) => d.group == (0 : Fin 4096).val && d.issued) = some d ∧
      s.takeColl 0 (s.digestCall d.step) = some (t, stDone)) ∧
    (∃ s t : State, ∃ r, s.rl.rejoin.find? (fun (r : Rejoin) => r.group == (0 : Fin 4096).val) = some r ∧ r.issued = true ∧ r.late = false ∧
      r.own = false ∧ s.takeColl 0 (s.rejoinCall r.step) = some (t, stDone)) ∧
    (∃ s : State, s.barShut = false ∧ (s.entryNow (layerKey ((4095#32).toNat % 4096))).isSome = true) ∧
    (z.barShut = false ∧ z.rl.ckpt = none ∧ (1#32).getLsbD 0 = true) := by
  refine ⟨⟨sampled callSample, callSample, 2, by decide +kernel⟩,
   ⟨sampled { callSample with tile := true, arbiter := some 2, other := 1#64 },
      { callSample with tile := true, arbiter := some 2, other := 1#64 }, 2, by decide +kernel, rfl, rfl, ⟨0#64, rfl⟩, ⟨1#64, by decide⟩,
      2#64, by decide⟩,
   ⟨sampled { callSample with twin := true }, { callSample with twin := true }, by decide +kernel⟩,
   ⟨{ z with rl := { z.rl with comparing := [⟨0, 4095, false⟩] } }, ⟨0, 4095, false⟩, by decide +kernel⟩,
   ⟨{ z with
        rl := { z.rl with comparing := [⟨0, 4095, false⟩] }
        upd := { z.upd with params := SMap.set paramDflt [] (layerKey 0) ⟨some (blob 64 [(0x26, 2, 4095)]), none⟩ }
        fab := { z.fab with groups := z.fab.groups.put 4095 (List.range 32769) } }, ⟨0, 4095, false⟩, by decide +kernel⟩,
   ⟨{ z with rl := { z.rl with comparing := [⟨0, 0, true⟩] }, fab := { z.fab with colls := [collOver 0 0xF0000000 stUnreach] } },
      _, ⟨0, 0, true⟩, stUnreach, by decide +kernel, rfl, by decide⟩,
   ⟨{ z with rl := { z.rl with comparing := [⟨0, 0, true⟩] }, fab := { z.fab with colls := [collOver 0 0xF0000000 stDone] } },
      _, ⟨0, 0, true⟩, by decide +kernel, rfl⟩,
   ⟨{ z with
        rl := { z.rl with rejoin := [⟨0, 0, 0, 0, false, true, false, false⟩] }
        fab := { z.fab with colls := [collOver 0 0xF8000000 stDone] } },
      _, ⟨0, 0, 0, 0, false, true, false, false⟩, by decide +kernel, rfl, rfl, rfl, rfl⟩,
   ⟨{ z with upd := { z.upd with params := SMap.set paramDflt [] (layerKey 4095) ⟨some [], none⟩ } }, by decide +kernel⟩, by decide +kernel⟩

end Sys2Proof.Tests
end

