-- ==== Sys2Proof/Tests/Witness4.lean ====
section
/-! SUPPORT. Tests/Witness4.lean: states and operands that meet the hypotheses of each clause of the statements on queues, commands,
launches and translation. -/

open Sys2Proof Sys2Proof.Machine Sys2Proof.Claims

namespace Sys2Proof.Tests

set_option Elab.async false

/-- Its record. -/
def q4095 : List Byte := blob 16 [(0, 2, 4095), (2, 1, 2), (7, 1, 4), (12, 1, 7)]

/-- Queue 4095 in a state. -/
def queue (f : Queue → Queue) : State := zq.setQueue 4095 f

/-- Unit 0 is `u`. -/
def withUnit (s : State) (u : XUnit) : State := { s with xl := { s.xl with units := s.xl.units.put 0 u } }
/-- A unit that reads 128 bytes of queue 4095's ring. -/
def sqUnit : XUnit := ⟨.sq 4095, 4095, 0, 0, 128, false, 0, 0, .accessing, [(false, 0)], [], false⟩

/-- The link up. -/
def box' : State := { zq with io := { z.io with link := 2 } }
/-- Batch 63, whose step runs. -/
def batched : State := { zp [secStacks, (0x31, blob 32 [(4, 2, 1), (16, 1, 63)]), secQueues] with
  wings := { z.wings with batches := SMap.set (fun _ => Batch.reset) [] 63 { Batch.reset with running := some 0 } } }

theorem witness_QueueCommandsRun :
    (zq.plan.queue (4095 : Fin 4096) = some q4095 ∧ zq.barGone = false ∧ zq.barShut = false ∧
    ringSize q4095 ≤ (16#32).toNat % 65536 ∧ (15#32).toNat % 65536 < ringSize q4095 ∧
    (15 + ringSize q4095 - (zq.cf.queue (4095 : Fin 4096)).cqHead) % ringSize q4095 = 15 ∧ (zq.cf.queue (4095 : Fin 4096)).unread < 15) ∧
    (∃ s : State, s.plan.queue (4095 : Fin 4096) = some q4095 ∧ s.barShut = false ∧
      (15 + ringSize q4095 - (s.cf.queue (4095 : Fin 4096)).cqHead) % ringSize q4095 ≤ (s.cf.queue (4095 : Fin 4096)).unread) ∧
    ((zq.cf.queue (4095 : Fin 4096)).st = .disabled ∧ baseOk (zq.io.sqSlot (4095 : Fin 4096) 0) (128 * ringSize q4095) = true ∧
      baseOk (zq.io.cqSlot (4095 : Fin 4096) 0) (32 * ringSize q4095) = true) ∧
    (∃ s : State, s.plan.queue (4095 : Fin 4096) = some q4095 ∧ s.barShut = false ∧ (s.cf.queue (4095 : Fin 4096)).st = .enabled ∧
      (s.cf.queue (4095 : Fin 4096)).cqStall = true) ∧
    (∃ s : State, s.plan.queue (4095 : Fin 4096) = some q4095 ∧ s.barShut = false ∧ (s.cf.queue (4095 : Fin 4096)).st = .halted) ∧
    (∃ s : State, s.plan.queue (4095 : Fin 4096) = some q4095 ∧ (s.cf.queue (4095 : Fin 4096)).st = .resetting) ∧
    (∃ s : State, ∃ u, s.plan.queue (4095 : Fin 4096) = some q4095 ∧ s.xl.units.at 0 = some u ∧ u.st = .accessing ∧ u.owner = .sq (4095 : Fin 4096)) :=
  ⟨by decide +kernel, ⟨queue (fun x => { x with unread := 15 }), by decide +kernel⟩, by decide +kernel,
   ⟨queue (fun x => { x with st := .enabled, cqStall := true }), by decide +kernel⟩, ⟨queue (fun x => { x with st := .halted }), by decide +kernel⟩,
   ⟨queue (fun x => { x with st := .resetting }), by decide +kernel⟩, ⟨withUnit zq sqUnit, sqUnit, by decide +kernel⟩⟩

theorem witness_RoomEventsRun_program :
    (∃ s : State, ∃ c, s.readyCmd 0 11 = some c ∧ u64 c.entry 0x18 = 0 ∧ cLen c.entry < cCount c.entry) ∧
    (∃ s : State, ∃ c, s.readyCmd 0 11 = some c ∧ s.plan.inService (u8 c.entry 0x10) = true ∧ 0 < u8 c.entry 0x12 ∧
      u8 c.entry 0x11 + u8 c.entry 0x12 ≤ s.plan.channels (u8 c.entry 0x10) ∧ u32 c.entry 0x14 % 16 = 0 ∧
      cCount c.entry % 16 = 0 ∧ u32 c.entry 0x14 + cCount c.entry ≤ 65536 ∧ u64 c.entry 0x18 = 0 ∧ cCount c.entry ≤ cLen c.entry ∧
      s.stackHeld (u8 c.entry 0x10) = false ∧
      ((List.range (u8 c.entry 0x12)).map (fun i => 64 * u8 c.entry 0x10 + u8 c.entry 0x11 + i)).any s.rooms.busyChan = false) :=
  ⟨⟨withCmd zq (cmdQ 11 [(0xC, 4, 16)]), cmdQ 11 [(0xC, 4, 16)], by decide +kernel⟩,
   ⟨withCmd zq (cmdQ 11 [(6, 2, 16), (0xC, 4, 16), (0x11, 1, 63), (0x12, 1, 1), (0x14, 4, 65520)]),
    cmdQ 11 [(6, 2, 16), (0xC, 4, 16), (0x11, 1, 63), (0x12, 1, 1), (0x14, 4, 65520)], by decide +kernel⟩⟩

/-- An itinerary image of one NOP node, in the sheet of stack 0. -/
def image1 : List Byte := blob 64 [(0, 4, 0x4E495449), (4, 2, 1), (6, 2, 1), (10, 2, 0xFFFF)] ++
  blob 144 [(4, 8, 0xFFFFFFFFFFFFFFFF), (16, 1, 1)]
/-- The sheet holds it at 0x2000, and itinerary 1023 is resident. -/
def itin : State := { zq with ram := zq.ram.poke 0x2000 image1, cf := { zq.cf with itins := zq.cf.itins.put 1023 ⟨0x2000, 1, none⟩ } }

/-- Launch 0 of itinerary 1023. -/
def launch0 (slot : Option Nat) (level : Nat) : Launch := ⟨1023, .cmd 0, level, 0, 0, (0, []), slot, true, [0], 0, 1, stDone, 0, 0, none, [], 0⟩
/-- Launch 0 stands beside the resident itinerary. -/
def launched (slot : Option Nat) (level : Nat) : State := { itin with cf := { itin.cf with launches := itin.cf.launches.put 0 (launch0 slot level) } }

theorem witness_RingCommandsRun :
    (∃ s : State, ∃ c, s.readyCmd 0 0x01 = some c) ∧
    (∃ s : State, ∃ c : Cmd, s.cf.cmds.at 0 = some c ∧ c.phase = .ready ∧ cmdBad (c.queue.bind s.plan.queue) c.origin c.entry = true) ∧
    (∀ op ∈ [2, 3], ∀ c ∈ [cmdQ op [(0xC, 4, 256)]], (withCmd zq c).readyCmd 0 op = some c ∧ cCount c.entry ≠ 0 ∧
      zq.plan.dpaOk (u64 c.entry 0x18) (cCount c.entry) = true ∧ c.queue ≠ none ∧
      (withCmd zq c).dpaHeld (u64 c.entry 0x18) (cCount c.entry) = false) ∧
    (∀ op ∈ [2, 3], ∀ c ∈ [cmdQ op []], (withCmd zq c).readyCmd 0 op = some c ∧ cCount c.entry = 0) ∧
    (∃ s : State, ∃ c, s.readyCmd 0 0x04 = some c ∧ s.plan.dpaOk (u64 c.entry 0x10) (cLen c.entry) = true ∧
      s.dpaHeld (u64 c.entry 0x10) (cLen c.entry) = false) ∧
    (∃ s : State, ∃ c, s.readyCmd 0 0x06 = some c ∧ u16 c.entry 0x10 < 1024 ∧ s.cf.runningOf (u16 c.entry 0x10) = 0 ∧ u64 c.entry 0x18 = 0) ∧
    (∃ s : State, ∃ c, s.readyCmd 0 0x06 = some c ∧ u16 c.entry 0x10 = 1023 ∧ s.cf.runningOf (u16 c.entry 0x10) = 0 ∧ u64 c.entry 0x18 = 0x2000 ∧
      s.imageHeld 0x2000 = false ∧ s.plan.dpaOk 0x2000 64 = true ∧ s.ram.consumerOk 0x2000 64 = true ∧ imParam (s.ram.read 0x2000 64) = 0 ∧ imNodes (s.ram.read 0x2000 64) = 1 ∧
      s.plan.dpaOk 0x2000 208 = true ∧ s.ram.consumerOk 0x2000 208 = true ∧
      imageBad (s.ram.read 0x2000 64) (chunks (s.ram.read (0x2000 + 64 + 0) (144 * 1)) 144 1) = none) ∧
    (∃ s : State, ∃ c, s.readyCmd 0 0x06 = some c ∧ u16 c.entry 0x10 < 1024 ∧ 0 < s.cf.runningOf (u16 c.entry 0x10)) ∧
    (∃ s : State, ∃ c, s.readyCmd 0 0x07 = some c ∧ cCount c.entry = 0) ∧
    (∃ s t : State, ∃ c, s.readyCmd 0 0x07 = some c ∧ cCount c.entry = 65536 ∧ (s.runCmd 0 0).pumpBuffer 0 = (t, none)) ∧
    (∃ s : State, ∃ c t, s.readyCmd 0 0x08 = some c ∧ s.plan.queue (u16 c.entry 0x10) = some q4095 ∧ u16 c.entry 0x12 < ringSize q4095 ∧
      (s.cf.queue (u16 c.entry 0x10)).unfetched (ringSize q4095) (u16 c.entry 0x12) = false ∧
      SMap.get (fun _ => 0) (s.cf.queue (u16 c.entry 0x10)).slots (u16 c.entry 0x12) = 3 ∧ s.cf.cmds.at (3 - 2) = some t ∧ cOp t.entry ≠ 8) ∧
    (∃ s : State, ∃ c, s.readyCmd 0 0x1B = some c ∧ u8 c.entry 0x11 = 0 ∧ u64 c.entry 0x18 % 4096 = 0) ∧
    (∀ op ∈ [0x1C, 0x1D], ∀ c ∈ [cmdQ op [(0xC, 4, 4096)]], (withCmd box' c).readyCmd 0 op = some c ∧ pageCopyOk box' c.entry = true ∧
      (withCmd box' c).dpaHeld (u64 c.entry 0x18) (cCount c.entry) = false ∧ box'.linkUp = true ∧
      ∀ o ∈ (List.range (cCount c.entry / 256)).map (fun i => 256 * i), (box'.ram.blk (u64 c.entry 0x18 + o)).moverOk = true) ∧
    (∀ op ∈ [0x1C, 0x1D], ∀ c ∈ [cmdQ op []], (withCmd zq c).readyCmd 0 op = some c ∧ pageCopyOk zq c.entry = false) ∧
    (∃ s : State, ∃ c : Cmd, s.cf.cmds.at 0 = some c ∧ c.expiry = some 7 ∧ s.mer.reached 7 = true ∧ c.phase ≠ .fetched) ∧
    (∃ s : State, ∃ x : Launch, s.cf.launches.at 0 = some x ∧ x.expiry = some 7 ∧ s.mer.reached 7 = true) := by
  refine ⟨⟨withCmd zq (cmdQ 1 []), cmdQ 1 [], by decide +kernel⟩, ⟨withCmd zq (cmdQ 0 []), cmdQ 0 [], by decide +kernel⟩,
    by decide +kernel, by decide +kernel,
    ⟨withCmd zq (cmdQ 4 [(6, 2, 96)]), cmdQ 4 [(6, 2, 96)], by decide +kernel⟩,
    ⟨withCmd zq (cmdQ 6 [(0x10, 2, 1023)]), cmdQ 6 [(0x10, 2, 1023)], by decide +kernel⟩,
    ⟨withCmd itin (cmdQ 6 [(0x10, 2, 1023), (0x18, 8, 0x2000)]), cmdQ 6 [(0x10, 2, 1023), (0x18, 8, 0x2000)], by decide +kernel⟩,
    ⟨withCmd (launched (some 4095) 1) (cmdQ 6 [(0x10, 2, 1023)]), cmdQ 6 [(0x10, 2, 1023)], by decide +kernel⟩,
    ⟨withCmd zq (cmdQ 7 []), cmdQ 7 [], by decide +kernel⟩,
    ⟨withCmd { zq with cf := { zq.cf with buffers := zq.cf.buffers.put 0 ⟨[], 0, 0, 65536, 0, none⟩ } } (cmdQ 7 [(0xC, 4, 65536)]), _,
      cmdQ 7 [(0xC, 4, 65536)], by decide +kernel, by decide +kernel, rfl⟩,
    ⟨withCmd { queue (fun x => { x with slots := SMap.set (fun _ => 0) [] 15 3 }) with
        cf := { (queue (fun x => { x with slots := SMap.set (fun _ => 0) [] 15 3 })).cf with cmds := zq.cf.cmds.put 1 (cmdQ 1 []) } }
      (cmdQ 8 [(0x10, 2, 4095), (0x12, 2, 15)]), cmdQ 8 [(0x10, 2, 4095), (0x12, 2, 15)], cmdQ 1 [], by decide +kernel⟩,
    ⟨withCmd zq (cmdQ 0x1B []), cmdQ 0x1B [], by decide +kernel⟩, by decide +kernel, by decide +kernel,
    ⟨withCmd { zq with mer := { z.mer with st := .free, count := 7 } } { cmdQ 1 [] with expiry := some 7 }, { cmdQ 1 [] with expiry := some 7 },
      by decide +kernel⟩,
    ⟨{ zq with
        mer := { z.mer with st := .free, count := 7 }
        cf := { zq.cf with launches := zq.cf.launches.put 0 ⟨0, .cmd 0, 1, 0, 0, (0, []), none, true, [], 0, 0, 0, 0, 0, some 7, [], 0⟩ } },
      ⟨0, .cmd 0, 1, 0, 0, (0, []), none, true, [], 0, 0, 0, 0, 0, some 7, [], 0⟩, by decide +kernel⟩⟩

theorem witness_LaunchCommandsRun :
    (∃ s : State, ∃ c, s.readyCmd 0 0x05 = some c ∧ s.cf.itins.at (u16 c.entry 0x10) = none) ∧
    ((∀ s ∈ [itin, launched none 1], ∀ c ∈ [cmdQ 5 [(0x10, 2, 1023)]], (withCmd s c).readyCmd 0 0x05 = some c ∧
      (withCmd s c).cf.itins.at (u16 c.entry 0x10) = some ⟨0x2000, 1, none⟩ ∧ u16 c.entry 0x12 % 8 = 0 ∧
      u16 c.entry 0x12 + cLen c.entry ≤ imParam ((withCmd s c).image ⟨0x2000, 1, none⟩) ∧ s.plan.launchArea ≠ 0 ∧ u16 c.entry 0x10 < 1024 ∧
      s.launchLevel c = 1 ∧ s.plan.enqDepth ≠ 0) ∧
    itin.launchWaits 1023 = false ∧ itin.cf.freeSlot = some 0 ∧ itin.launchHeld ⟨0x2000, 1, none⟩ 0 = false ∧
    (launched none 1).launchWaits 1023 = true) ∧
    (∃ s : State, ∃ x i, s.cf.launches.at 0 = some x ∧ x.slot = none ∧ x.admitted = true ∧ s.cf.itins.at x.itin = some i ∧
      i.loading = none ∧ (∀ w, x.source ≠ .update w) ∧ s.batchHeld x.itin = false ∧ x.level ≠ 1 ∧ s.cf.freeSlot = some 0 ∧
      s.launchHeld i 0 = false) ∧
    (∃ s : State, ∃ x i, s.cf.launches.at 0 = some x ∧ x.slot = some 4095 ∧ s.cf.itins.at x.itin = some i ∧ x.waits[(0 : Fin 4096).val]? = some 0 ∧
      x.status = stDone ∧ s.chanHeld (nodeAt i (s.image i) 0 / 2 ^ 30) = false ∧ s.chanHeld (s.plan.launchArea / 2 ^ 30) = false ∧
      s.ram.consumerOk (nodeAt i (s.image i) 0) 144 = true ∧
      s.ram.consumerOk (s.plan.launchArea + 4096 * 4095) (imParam (s.image i)) = true) ∧
    (∃ s : State, ∃ e, s.plan.batch (63 : Fin 64) = some e ∧ (s.batch (63 : Fin 64)).running = some 0 ∧ s.cf.launches.at 0 = none) ∧
    (∀ op ∈ [0x0E, 0x0F], ∀ c ∈ [cmdQ op []], (withCmd zq c).readyCmd 0 op = some c ∧ (withCmd zq c).plan.batch (u8 c.entry 0x10) = none) ∧
    (∀ op ∈ [0x0E, 0x0F], ∀ c ∈ [cmdQ op [(0x10, 1, 63)]], (withCmd batched c).readyCmd 0 op = some c ∧
      (batched.plan.batch (u8 c.entry 0x10)).isSome = true ∧ (batched.batch (u8 c.entry 0x10)).running = some 0) := by
  refine ⟨⟨withCmd zq (cmdQ 5 []), cmdQ 5 [], by decide +kernel⟩, by decide +kernel,
    ⟨launched none 2, launch0 none 2, ⟨0x2000, 1, none⟩, by decide +kernel, rfl, rfl, by decide +kernel, rfl,
      fun w => by simp [launch0], by decide +kernel, by decide, by decide +kernel, by decide +kernel⟩,
    ⟨launched (some 4095) 1, launch0 (some 4095) 1, ⟨0x2000, 1, none⟩, by decide +kernel⟩,
    ⟨batched, blob 16 [(0, 1, 63)], by decide +kernel⟩, by decide +kernel, by decide +kernel⟩

end Sys2Proof.Tests
end

