-- ==== Sys2Proof/Tests/Witness5.lean ====
section
/-! SUPPORT. Tests/Witness5.lean: states and operands that meet the hypotheses of each clause of the statements on translation, streams,
pre-emption, arrays and engine descriptors. -/

open Sys2Proof Sys2Proof.Machine Sys2Proof.Claims

namespace Sys2Proof.Tests

set_option Elab.async false

/-- Unit 0 of the translation block is `u`. -/
def unit0 (s : State) (u : XUnit) : State := { s with xl := { s.xl with units := s.xl.units.put 0 u } }
/-- A unit of a stream. -/
def strUnit (st : UnitState) : XUnit := ⟨.stream 0 0 0, 4095, 0, 0, 128, false, 0, 0, st, [(false, 0)], [], false⟩
/-- A walker profile of one level for 1 address space. -/
def secWalker : Nat × List Byte := (0x61, blob 128 [(0, 1, 1), (1, 1, 8), (2, 1, 48), (0x28, 2, 1), (0x30, 1, 12), (0x31, 1, 9), (0x32, 1, 1)])
/-- The walk of unit 0. -/
def walk0 : Walk := ⟨0, 0, 0, false, 0, 0⟩

theorem witness_TranslationRuns :
    (∃ s : State, ∃ w, s.barShut = false ∧ s.plan.walker = some w ∧ s.io.asSel < u16 w 0x28) ∧
    (∃ s : State, s.barShut = false ∧ s.xl.on s.io.asSel = true) ∧ (z.barShut = false ∧ z.xl.on z.io.asSel = false) ∧
    (z.xl.reqs.at (1023 : Fin 1024) = none ∧ z.xl.held = [] ∧ z.xl.invs.any (·.reg) = false ∧ z.xl.windows.list = []) ∧
    (∃ s : State, ∃ r, s.barShut = false ∧ s.xl.reqs.at (1023 : Fin 1024) = some r) ∧
    (∃ s : State, s.barShut = false ∧ s.xl.invs.any (·.reg) = false ∧ bit (s.io.val .XL_INV_AS) 8 = true) ∧
    (∃ s : State, s.barShut = false ∧ s.xl.invs.any (·.reg) = true) ∧ ((0x10000#32).toNat % 2 ^ 17 ≤ 65536 ∧ 65536 < (0x10001#32).toNat % 2 ^ 17) ∧
    (∃ s : State, ∃ v, s.xl.invs[0]? = some v ∧ s.xl.invDone v = true ∧ v.cmd = none) ∧
    (∃ s : State, ∃ u, s.xl.units.at 0 = some u ∧ s.unitReady 0 u = true ∧ s.dmaClass u = none) ∧
    (∃ s : State, ∃ u c, s.xl.units.at 0 = some u ∧ s.unitReady 0 u = true ∧ s.dmaClass u = some c ∧ s.dmaFirst 0 c = true) ∧
    (∃ s : State, ∃ u w, s.xl.units.at 0 = some u ∧ s.xl.walks.at 0 = some w ∧ u.st = .walking ∧ s.linkUp = false) ∧
    (∃ s : State, ∃ u w p, s.xl.units.at 0 = some u ∧ s.xl.walks.at 0 = some w ∧ u.st = .walking ∧ s.plan.walker = some p ∧
      (zeros 128).length = 128) ∧
    (∃ s : State, ∃ u, s.xl.units.at 0 = some u ∧ u.owner = .stream 0 0 0 ∧ u.st = .accessing ∧ u.write = false ∧ s.unitHeld u = false ∧ [0#8] ≠ [] ∧
      127 + [0#8].length ≤ u.len ∧ runMeets 127 [0#8].length u.landed = false ∧ s.ram.goneIn (u.dev + 127) [0#8].length = false ∧
      runBytes (addRun 127 [0#8].length u.landed) ≠ u.len) := by
  refine ⟨⟨zp [secWalker], secWalker.2, by decide +kernel⟩,
    ⟨{ z with xl := { z.xl with enabled := SMap.set (fun _ => false) [] 0 true } }, by decide +kernel⟩, by decide +kernel, by decide +kernel,
    ⟨{ z with xl := { z.xl with reqs := z.xl.reqs.put 1023 ⟨0, 0, false, []⟩ } }, ⟨0, 0, false, []⟩, by decide +kernel⟩,
    ⟨{ z with io := z.io.putN .XL_INV_AS 0 256 }, by decide +kernel⟩,
    ⟨{ z with xl := { z.xl with invs := [⟨none, 0, 0, none, false, true⟩] } }, by decide +kernel⟩, by decide,
    ⟨{ z with xl := { z.xl with invs := [⟨none, 0, 0, none, false, true⟩] } }, ⟨none, 0, 0, none, false, true⟩, by decide +kernel⟩,
    ⟨unit0 z { strUnit .waiting with owner := .sq 4095 }, { strUnit .waiting with owner := .sq 4095 }, by decide +kernel⟩,
    ⟨unit0 z (strUnit .waiting), strUnit .waiting, _, by decide +kernel, by decide +kernel, rfl, by decide +kernel⟩,
    ⟨{ unit0 z (strUnit .walking) with xl := { (unit0 z (strUnit .walking)).xl with walks := z.xl.walks.put 0 walk0 } }, strUnit .walking, walk0,
      by decide +kernel⟩,
    ⟨{ unit0 (zp [secWalker]) (strUnit .walking) with xl := { (unit0 z (strUnit .walking)).xl with walks := z.xl.walks.put 0 walk0 } },
      strUnit .walking, walk0, secWalker.2, by decide +kernel⟩,
    ⟨unit0 z (strUnit .accessing), strUnit .accessing, by decide +kernel⟩⟩

/-- A stream of queue 4095 in context 0, one unit an iteration. -/
def str0 : Stream where
  st := .running
  queue := some 4095
  cmd := 0
  desc := blob 64 [(0, 1, 1), (4, 4, 1), (8, 4, 1), (0x10, 8, 0x4000)]
  shadow := none
  cls := 1
  group := 0
  iter := 0
  unit := 0
  runs := []
  skipped := 0
  fullIter := 0
  fullUnit := 0
  moved := []
  stop := none
  kept := none
  gkept := none
  fetched := []
  remote := []
  saves := []
/-- A plan with everything that streams use, and stack 0's sheet holding unit entry `e`. -/
def strm (x : Stream) (e : List Byte) : State :=
  { zq with ram := zq.ram.poke 0x4000 e, sc := { zq.sc with streams := zq.sc.streams.put 0 x } }
/-- A unit entry of a kind. -/
def ent (kind : Nat) (fs : List (Nat × Nat × Nat)) : List Byte := blob 32 ([(0, 1, kind)] ++ fs)

/-- Entries of the nine kinds that pass their checks: sources at 0x10000, destinations at 0x20000 or store offset 0 of array 63. -/
def kinds : List (Nat × List Byte) :=
  [(1, ent 1 [(1, 1, 63), (0x10, 8, 0x10000)]), (2, ent 2 [(1, 1, 63), (0x10, 8, 0x10000)]),
   (3, ent 3 [(1, 1, 63), (0xC, 4, 4096), (0x10, 8, 0x10000)]), (4, ent 4 [(0xC, 4, 65536), (0x10, 8, 0), (0x18, 8, 0x20000)]),
   (5, ent 5 [(0xC, 4, 65536), (0x10, 8, 0x10000)]), (6, ent 6 [(0xC, 4, 256), (0x10, 8, 0x10000), (0x18, 8, 0x20000)]),
   (7, ent 7 [(0x10, 8, 0x10000)]), (8, ent 8 [(0x10, 8, 0x10000)]), (9, ent 9 [])]

theorem witness_StreamCommandsRun_units : ∀ k ∈ kinds, ∀ s ∈ [strm str0 k.2],
    s.nextUnit (0 : Fin 262144) k.1 = .go str0 k.2 ∧ str0.barrierOk k.2 (s.unitTarget str0 k.2) = true := by
  decide +kernel

/-- A copy between sheets, which names no array, has the target "no target", 64; a copy into a store names its array. -/
theorem witness_StreamCommandsRun_targets :
    (∀ k ∈ [1, 2, 3], ∀ e ∈ kinds.filter (fun x => x.1 == k), (strm str0 e.2).unitTarget str0 e.2 = 63 ∧
      (strm str0 e.2).arrDraining 63 = false ∧ ((strm str0 e.2).arr 63).quarantined = false) ∧
    (∀ e ∈ [(4, ent 4 [(1, 1, 63), (2, 1, 64), (0xC, 4, 65536)]), (5, ent 5 [(1, 1, 63), (2, 1, 32), (0xC, 4, 65536)]),
        (6, ent 6 [(1, 1, 63), (2, 1, 64), (0xC, 4, 256), (0x10, 8, 0x10000)])], ∀ s ∈ [strm str0 e.2],
      s.nextUnit (0 : Fin 262144) e.1 = .go str0 e.2 ∧ s.unitTarget str0 e.2 = 63 ∧ str0.barrierOk e.2 63 = true ∧
      (s.passFull 0 str0 e.2).plan.queue 4095 ≠ none ∧ str0.queue = some 4095) ∧
    (∀ e ∈ [ent 9 [(1, 1, 63)]], (strm str0 e).unitTarget str0 e = 64) := by
  decide +kernel

/-- Transfers between the sheet and array 63's store, and a copy within it, that pass their checks. -/
theorem witness_StreamCommandsRun_transfers :
    (∀ e ∈ [ent 4 [(1, 1, 63), (2, 1, 64), (0xC, 4, 65536)]], ∀ s ∈ [(strm str0 e).passFull 0 str0 e],
      s.sideOk (unDstStore e) 63 (unDst str0.desc e 0) (unLen e) = true ∧ oneSegment (unSrc str0.desc e 0) (unLen e) = true ∧
      s.sideHeld (unDstStore e) (unDst str0.desc e 0) (unLen e) = false) ∧
    (∀ e ∈ [ent 5 [(1, 1, 63), (2, 1, 32), (0xC, 4, 65536)]], ∀ s ∈ [(strm str0 e).passFull 0 str0 e],
      s.sideOk (unSrcStore e) 63 (unSrc str0.desc e 0) (unLen e) = true ∧ oneSegment (unDst str0.desc e 0) (unLen e) = true ∧
      s.sideHeld (unSrcStore e) (unSrc str0.desc e 0) (unLen e) = false) ∧
    (∀ e ∈ [ent 6 [(1, 1, 63), (2, 1, 64), (0xC, 4, 256), (0x10, 8, 0x10000)]], ∀ s ∈ [(strm str0 e).passFull 0 str0 e],
      s.sideOk (unSrcStore e) 63 (unSrc str0.desc e 0) (unLen e) = true ∧ s.sideOk (unDstStore e) 63 (unDst str0.desc e 0) (unLen e) = true ∧
      unSrc str0.desc e 0 % 256 = 0 ∧ unDst str0.desc e 0 % 256 = 0 ∧ s.sideHeld (unSrcStore e) (unSrc str0.desc e 0) (unLen e) = false ∧
      s.sideHeld (unDstStore e) (unDst str0.desc e 0) (unLen e) = false) := by
  decide +kernel

/-- A list of one bag with one entry of table 0, in the sheet at 0x10000. -/
def list1 : List Byte := blob 48 [(8, 4, 1), (0xC, 4, 1), (0x10, 8, 0x30000), (0x18, 4, 256), (32, 4, 1), (44, 4, 0x3F800000)]

/-- The pair of array 63 is the stream's. -/
def owned (s : State) : State := { s with sc := { s.sc with pairs := s.sc.pairs.put 63 ⟨0, 1, 0, 0, none, 0⟩ } }

theorem witness_StreamCommandsRun :
    (∃ s : State, ∃ c, s.readyCmd 0 0x1E = some c ∧ 2 ^ 18 ≤ u32 c.entry 0x18) ∧ (∃ s : State, ∃ c, s.readyCmd 0 0x1E = some c) ∧
    (∃ s : State, s.nextUnit (0 : Fin 262144) 1 = .stop stInvalid) ∧
    (∃ s : State, ∃ x e, s.nextUnit (0 : Fin 262144) 9 = .go x e ∧ x.barrierOk e (s.unitTarget x e) = false) ∧
    (∃ s : State, ∃ x e, s.nextUnit (0 : Fin 262144) 1 = .go x e ∧ x.barrierOk e (s.unitTarget x e) = true ∧ s.unitTarget x e < 64 ∧
      s.arrDraining (s.unitTarget x e) = false ∧ (s.arr (s.unitTarget x e)).quarantined = true) ∧
    (∀ k ∈ [1, 2], ∀ e ∈ [ent k [(1, 1, 63), (0x10, 8, 0x10000)]], ∀ s ∈ [owned (strm str0 e)], s.mayUse 0 str0 63 = true ∧
      s.plan.dpaOk (unSrc str0.desc e 0) 64 = true ∧ s.dpaHeld (unSrc str0.desc e 0) 64 = false ∧
      s.ram.consumerOk (unSrc str0.desc e 0) 64 = true ∧ unFlag e 4 = false ∧ (∃ m, patchedM s e (s.ram.read 0x10000 64) = .inl m) ∧
      u8 (s.ram.read (unSrc str0.desc e 0) 64) 0 ≠ 1) ∧
    (∀ e ∈ [ent 3 [(1, 1, 63), (0xC, 4, 4096), (0x10, 8, 0x10000)]], ∀ s ∈ [strm str0 e], s.sideOk true 63 (unDst str0.desc e 0) (unLen e) = true ∧
      s.denseSrc str0 (unSrc str0.desc e 0) = 0x10000 ∧ s.plan.dpaOk 0x10000 (unLen e) = true ∧ unDst str0.desc e 0 % 256 = 0 ∧
      s.dpaHeld 0x10000 (unLen e) = false) ∧
    (∀ e ∈ [ent 3 [(1, 1, 63), (0xC, 4, 4096), (0x10, 8, 0x10001)]], ∀ s ∈ [strm str0 e], s.nextUnit (0 : Fin 262144) 3 = .go str0 e ∧
      s.denseSrc str0 (unSrc str0.desc e 0) % 256 ≠ 0) ∧
    (∃ s : State, s.readList (.unit 0 0 0) 0x10000 1 = .over stInvalid) ∧
    (∃ s : State, ∃ l, s.readList (.unit 0 0 0) 0x10000 1 = .go l 0 ∧ (s.remoteUnits 0).length < 16) ∧
    (∃ s : State, ∃ g, s.readGrad (.unit 0 0 0) 0x10000 = .go g ∧ (s.remoteUnits 0).length < 16) ∧
    (∃ s : State, ∃ x r, s.sc.streams.at (0 : Fin 262144) = some x ∧ x.runs.find? (fun r => r.iter == 0 && r.unit == 0) = some r ∧
      r.status = some stDone ∧ s.sampled (0 : Fin 262144) 0 0 = false ∧ x.st ≠ .halted) := by
  refine ⟨⟨withCmd zq (cmdQ 0x1E [(0x18, 4, 0x40000)]), cmdQ 0x1E [(0x18, 4, 0x40000)], by decide +kernel⟩,
    ⟨withCmd zq (cmdQ 0x1E []), cmdQ 0x1E [], by decide +kernel⟩, ⟨strm str0 (ent 0 []), by decide +kernel⟩,
    ⟨strm { str0 with runs := [⟨0, 0, 9, 64, none⟩] } (ent 9 [(3, 1, 2)]), { str0 with runs := [⟨0, 0, 9, 64, none⟩] }, ent 9 [(3, 1, 2)],
      by decide +kernel⟩,
    ⟨{ strm str0 (ent 1 [(1, 1, 63)]) with mx := { z.mx with arrs := SMap.set arrDflt [] 63 { Arr.reset with quarantined := true } } }, str0,
      ent 1 [(1, 1, 63)], by decide +kernel⟩, ?_, by decide +kernel, by decide +kernel, ⟨strm str0 [], by decide +kernel⟩,
    ⟨{ strm str0 [] with ram := zq.ram.poke 0x10000 list1 },
      _, show _ = ListStart.go (match (({ strm str0 [] with ram := zq.ram.poke 0x10000 list1 } : State).readList (.unit 0 0 0) 0x10000 1) with
        | .go l _ => l | _ => ⟨.cmd 0, 0, 0, 0, 0, 0, 0, 0, 0, 0, [], [], [], 0, none⟩) 0 by decide +kernel, by decide +kernel⟩,
    ⟨{ strm str0 [] with
        ram := zq.ram.poke 0x10000 (blob 48 [(4, 4, 1), (8, 4, 1), (32, 4, 1), (44, 4, 0x3F800000)])
        upd := { z.upd with params := SMap.set paramDflt [] (tableKey 0) ⟨some (blob 64 []), none⟩ } },
      ⟨.unit 0 0 0, 0, 2, [(0, 0, 0, 0x3F800000#32, List.replicate 16 0#32)], 0, false, false, false, false, false, false, false⟩,
      by decide +kernel, by decide +kernel⟩,
    ⟨strm { str0 with runs := [⟨0, 0, 9, 64, some stDone⟩] } [], { str0 with runs := [⟨0, 0, 9, 64, some stDone⟩] }, ⟨0, 0, 9, 64, some stDone⟩,
      by decide +kernel⟩⟩
  intro k hk e he s hs
  simp only [List.mem_cons, List.not_mem_nil, or_false] at hk he hs
  rcases hk with rfl | rfl <;> subst he hs
  all_goals and_intros
  all_goals first | decide +kernel | exact ⟨_, rfl⟩

/-- Shares: 2 pool slots at 0x40000000, a quantum of 1,000 mt. -/
def secShares : Nat × List Byte := (0x23, blob 64 [(0, 8, 0x40000000), (8, 2, 2), (10, 2, 1), (0x10, 4, 0x01010101)])
/-- Pair 63 is held by context 0; context 1 waits for it. -/
def shared (cls1 : Nat) (p : Pair) (x : Stream) : State :=
  { zp [secStacks, secShares] with
    sc := { z.sc with streams := (z.sc.streams.put 0 x).put 1 { str0 with cls := cls1 }, pairs := z.sc.pairs.put 63 p, waiting := [(63, 1)] }
    mer := { z.mer with count := 1000 } }
/-- The pair as context 0 holds it. -/
def pair0 : Pair := ⟨0, 1, 0, 0, none, 0⟩

theorem witness_PreemptionRuns :
    (∃ s : State, ∃ p, s.sc.pairs.at (63 : Fin 64) = some p ∧ (s.sc.waiters (63 : Fin 64)).find? (fun c => (s.sc.classOf c).1 == 0) = some 1 ∧
      p.cls ≠ 0 ∧ p.wanted = none ∧ s.plan.has 0x23 = true ∧ s.sc.reserved.at (63 : Fin 64) = none ∧
      s.arrTesting (63 : Fin 64) = false) ∧
    (∃ s : State, ∃ p, s.sc.pairs.at (63 : Fin 64) = some p ∧ (s.sc.waiters (63 : Fin 64)).find? (fun c => (s.sc.classOf c).1 != 0 &&
        !((s.sc.classOf c).1 == p.cls && (s.sc.classOf c).2 == p.group)) = some 1 ∧ p.cls ≠ 0 ∧ p.wanted = none ∧
      s.plan.has 0x23 = true ∧ s.plan.quantum ≤ s.mer.count - p.since ∧ s.freePool = some 64) ∧
    (∃ s : State, ∃ p, s.sc.pairs.at (63 : Fin 64) = some p ∧ (s.sc.waiters (63 : Fin 64)).find? (fun c => (s.sc.classOf c).1 != 0 &&
        !((s.sc.classOf c).1 == p.cls && (s.sc.classOf c).2 == p.group)) = some 1 ∧ p.cls ≠ 0 ∧ p.wanted = none ∧
      s.plan.has 0x23 = true ∧ s.plan.quantum ≤ s.mer.count - p.since ∧ s.freePool = none) ∧
    (∀ k ∈ [63, 64], ∀ s ∈ [shared 2 { pair0 with wanted := some (1, k) } str0], s.sc.pairs.at (63 : Fin 64) = some { pair0 with wanted := some (1, k) } ∧
      s.sc.streams.at 0 = some str0 ∧ s.tileMode (63 : Fin 64) str0 = false ∧ str0.st ≠ .halted) ∧
    (∃ s : State, ∃ p x v, s.sc.pairs.at (63 : Fin 64) = some p ∧ s.sc.streams.at p.ctx = some x ∧
      x.saves.find? (fun v => v.1 == (63 : Fin 64).val) = some ((63 : Fin 64).val, 64) ∧ s.mx.saves.at 64 = some v ∧
      (s.arr (63 : Fin 64)).busy = false ∧ s.dpaHeld (s.plan.saveSlot 64) saveBytes = false ∧
      s.ram.consumerOk (s.plan.saveSlot 64) saveBytes = true) := by
  refine ⟨⟨shared 0 pair0 str0, pair0, by decide +kernel⟩, ⟨shared 2 pair0 str0, pair0, by decide +kernel⟩,
    ⟨{ shared 2 pair0 str0 with sc := { (shared 2 pair0 str0).sc with pool := (z.sc.pool.put 64 5).put 65 5 } }, pair0, by decide +kernel⟩,
    by decide +kernel,
    ⟨{ shared 2 pair0 { str0 with saves := [(63, 64)] } with mx := { z.mx with saves := z.mx.saves.put 64 ⟨0, 63, Arr.reset, 0, 0⟩ } },
      pair0, { str0 with saves := [(63, 64)] }, ⟨0, 63, Arr.reset, 0, 0⟩, by and_intros <;> decide +kernel⟩⟩

/-- Array 63 changed. -/
def arr63 (f : Arr → Arr) : State := { zq with mx := { z.mx with arrs := SMap.set arrDflt [] 63 (f Arr.reset) } }
/-- A tile of M, N and K 16. -/
def tile0 : Tile := ⟨blob 64 [(4, 2, 16), (6, 2, 16), (8, 4, 16)], 0, 0, 0, 0⟩
/-- A tile whose chain has not begun. -/
def qtile0 (run : Bool) : QTile := ⟨16, 16, 0, 0, [], [], false, false, 0, 0, 0, 0, run⟩
/-- A chain of one DROP stage. -/
def chain1 : List (Nat × Nat × Nat) := [(0x20, 1, 1), (0x67, 1, 0x62)]
/-- A CHAIN_LOAD of array 63 with an inline entry. -/
def chainCmd (fs : List (Nat × Nat × Nat)) : Cmd := cmdQ 0x0C ([(3, 1, 1), (6, 2, 128), (0xC, 4, 128), (0x10, 1, 63), (0x11, 1, 7)] ++ fs) 256

theorem witness_ArrayEventsRun :
    (∃ s : State, ∃ t, (s.arr (63 : Fin 64)).inbox = [t] ∧ (s.arr (63 : Fin 64)).next = none ∧ (s.arr (63 : Fin 64)).quarantined = false) ∧
    (∃ s : State, ∃ t, (s.arr (63 : Fin 64)).running = some t ∧ (s.arr (63 : Fin 64)).slots < 4 ∧ (s.arr (63 : Fin 64)).loads = [] ∧
      tileStop t.desc (tileBlk s (63 : Fin 64)) (storeBlkOk s (63 : Fin 64)) = none) ∧
    (∃ s : State, ∃ t, (s.arr (63 : Fin 64)).running = some t ∧ (s.arr (63 : Fin 64)).slots < 4 ∧ (s.arr (63 : Fin 64)).loads = [] ∧
      (tileStop t.desc (tileBlk s (63 : Fin 64)) (storeBlkOk s (63 : Fin 64))).isSome = true) ∧
    (∃ s : State, ∃ t, (s.arr (63 : Fin 64)).running = some t ∧ 4 ≤ (s.arr (63 : Fin 64)).slots) ∧
    (∃ s : State, ∃ l, s.mx.attic.find? (fun (l : AtticLine) => l.line == 7 * 4096) = some l ∧ l.filling = true ∧
      s.chanHeld (7 / 262144) = false ∧ l.spoiled = true) ∧
    (∃ s : State, ∃ l, s.mx.attic.find? (fun (l : AtticLine) => l.line == 7 * 4096) = some l ∧ l.filling = true ∧
      s.chanHeld (7 / 262144) = false ∧ l.spoiled = false) ∧
    (∃ s : State, ∃ q, (s.arr (63 : Fin 64)).queue = [q] ∧ (s.arr (63 : Fin 64)).chain = none ∧ (s.arr (63 : Fin 64)).descBefore q.seq = false) ∧
    (∃ s : State, ∃ q, (s.arr (63 : Fin 64)).chain = some q) ∧
    (∀ e ∈ [(chain1, true), ([], false)], ∀ c ∈ [chainCmd e.1], (withCmd zq c).readyCmd 0 0x0C = some c ∧ u64 c.entry 0x18 = 0 ∧
      128 ≤ cLen c.entry ∧ cCount c.entry = 128 ∧ (zq.plan.fab (u8 c.entry 0x10)).isSome = true ∧
      zq.arrDraining (u8 c.entry 0x10) = false ∧ chainOk ((cInline c.entry).take 128) = e.2) ∧
    (∃ s : State, ∃ l, (s.arr (63 : Fin 64)).loads = [l] ∧ (s.arr (63 : Fin 64)).queue = [] ∧ (s.arr (63 : Fin 64)).chain = none) := by
  refine ⟨⟨arr63 (fun r => { r with inbox := [tile0] }), tile0, by decide +kernel⟩,
    ⟨arr63 (fun r => { r with running := some tile0 }), tile0, by decide +kernel⟩,
    ⟨{ arr63 (fun r => { r with running := some tile0 }) with
        ram := { zq.ram with blks := SMap.set blkDflt [] (storeAddr 63 0 / 256) ⟨false, true, 0⟩ } }, tile0, by decide +kernel⟩,
    ⟨arr63 (fun r => { r with running := some tile0, queue := List.replicate 4 (qtile0 false) }), tile0, by decide +kernel⟩,
    ⟨{ z with mx := { z.mx with attic := [⟨7 * 4096, true, true, [], []⟩] } }, ⟨7 * 4096, true, true, [], []⟩, by decide +kernel⟩,
    ⟨{ z with mx := { z.mx with attic := [⟨7 * 4096, true, false, [], []⟩] } }, ⟨7 * 4096, true, false, [], []⟩, by decide +kernel⟩,
    ⟨arr63 (fun r => { r with queue := [qtile0 false] }), qtile0 false, by decide +kernel⟩,
    ⟨arr63 (fun r => { r with chain := some (qtile0 true) }), qtile0 true, by decide +kernel⟩, by decide +kernel,
    ⟨arr63 (fun r => { r with loads := [⟨7, [], 0⟩] }), ⟨7, [], 0⟩, by decide +kernel⟩⟩

/-- An engine descriptor of an OP. -/
def edesc (op : Nat) : EDesc := ⟨blob 64 [(0, 1, op)], 0, 0, 0, 0⟩

theorem witness_EngineDescriptorsRun :
    (∀ op ∈ [1, 2, 3, 4], (arr63 (fun r => { r with edescs := [edesc op] })).frontDesc (63 : Fin 64) op = some (edesc op, [])) ∧
    (∃ s : State, (s.arr (63 : Fin 64)).eact = some (edesc 1, some stDone)) ∧
    (∃ s : State, (s.arr (63 : Fin 64)).eact = none ∧ (s.arr (63 : Fin 64)).edescs = [edesc 5] ∧
      (s.arr (63 : Fin 64)).descReady (edesc 5) = true ∧ 4 < u8 (edesc 5).desc 0) ∧
    (∃ s : State, (s.arr (63 : Fin 64)).eact = none ∧ (s.arr (63 : Fin 64)).edescs = [edesc 1] ∧
      (s.arr (63 : Fin 64)).descReady (edesc 1) = true ∧ s.plan.fab (63 : Fin 64) = none) :=
  ⟨by decide +kernel, ⟨arr63 (fun r => { r with eact := some (edesc 1, some stDone) }), by decide +kernel⟩,
   ⟨arr63 (fun r => { r with edescs := [edesc 5] }), by decide +kernel⟩,
   ⟨{ z with mx := (arr63 (fun r => { r with edescs := [edesc 1] })).mx }, by decide +kernel⟩⟩

end Sys2Proof.Tests
end

