-- ==== Sys2Proof/Tests/Witness6.lean ====
section
/-! SUPPORT. Tests/Witness6.lean: states and operands that meet the hypotheses of each clause of the statements on lookups, the update
and the state of shards. -/

open Sys2Proof Sys2Proof.Machine Sys2Proof.Claims

namespace Sys2Proof.Tests

set_option Elab.async false

/-- A plan with stack 0, table 0, queue 4095, the arrays, the grid and a cycle whose one instant is of a kind and due. -/
def zu (kind : Nat) : State :=
  { zp [secMer 0, secCycle 0 kind, secStacks, secWings, secQueues, secGrid, (0x40, blob 272 [])] with
    mer := { z.mer with st := .free, count := 50000, now := 50000, inSlot := true } }
/-- The partner connection 4095 with device 2, open. -/
def conn0 : Conn := ⟨2, 2, 0, .opened, 7, 0, false, none, 0, 0, 0, [], 0, 0⟩
/-- The state with it, and port 63 linked. -/
def joined (s : State) : State :=
  let u := s.setPort 63 (fun x => { x with st := .up, nbr := some (2, 0), inUse := 15 })
  { u with fab := { u.fab with conns := u.fab.conns.put 4095 conn0 } }
/-- A message of device 2 on it. -/
def msg0 (mseq : Nat) (payload : List Byte) : Msg := { Msg.blank with src := 2, conn := 4095, epoch := 7, mseq := mseq, payload := payload }
/-- A list of one bag with one entry of table `t`, in the sheet at 0x10000. -/
def listBytes (t : Nat) : List Byte :=
  blob 48 [(0, 2, t), (8, 4, 1), (0xC, 4, 1), (0x10, 8, 0x30000), (0x18, 4, 256), (32, 4, 1), (44, 4, 0x3F800000)]
/-- A state with that list. -/
def listState (t : Nat) : State := { zu 1 with ram := (zu 1).ram.poke 0x10000 (listBytes t) }

/-- A sound row record of dimension 16: the check of its bytes is 31. -/
def rec0 : List Byte := blob 128 [(0, 4, 0x3F800000), (12, 2, 31)]
/-- The check over more bytes, from a check so far (R127). -/
def crcOn (c : Nat) (bs : List Byte) : Nat := bs.foldl (fun c b => crc16Steps 8 (c ^^^ (b.toNat <<< 8))) c
theorem crcOn_append (c : Nat) (a b : List Byte) : crcOn c (a ++ b) = crcOn (crcOn c a) b := List.foldl_append
theorem crcOn_first : crcOn 0xFFFF (blob 16 [(0, 4, 0x3F800000)]) = 51194 := by decide +kernel
theorem crcOn_rest : crcOn 51194 (zeros 16) = 11231 ∧ crcOn 11231 (zeros 16) = 53407 ∧ crcOn 53407 (zeros 16) = 57881 ∧
    crcOn 57881 (zeros 16) = 17687 ∧ crcOn 17687 (zeros 16) = 37571 ∧ crcOn 37571 (zeros 16) = 63020 ∧ crcOn 63020 (zeros 16) = 31 := by
  decide +kernel
theorem rec0_ok : rowCheckOk rec0 = true := by
  have h : uncheck rec0 = blob 16 [(0, 4, 0x3F800000)] ++ (zeros 16 ++ (zeros 16 ++ (zeros 16 ++ (zeros 16 ++ (zeros 16 ++
      (zeros 16 ++ zeros 16)))))) := by decide +kernel
  have c : crc16 (uncheck rec0) = 31 := by
    obtain ⟨h1, h2, h3, h4, h5, h6, h7⟩ := crcOn_rest
    show crcOn 0xFFFF (uncheck rec0) = 31
    rw [h]
    simp only [crcOn_append, crcOn_first, h1, h2, h3, h4, h5, h6, h7]
  have u : u16 rec0 12 = 31 := by decide +kernel
  simp only [rowCheckOk, c, u, BEq.rfl]

theorem witness_LookupCommandsRun :
    (∃ s : State, ∃ c, s.readyCmd 0 9 = some c ∧ s.readList (.cmd 0) (u64 c.entry 0x10) c.cls = .over stInvalid ∧ stInvalid ≠ stCheck) ∧
    (∃ s : State, ∃ c, s.readyCmd 0 9 = some c ∧ s.readList (.cmd 0) (u64 c.entry 0x10) c.cls = .over stCheck) ∧
    (∃ s : State, ∃ c x, s.readyCmd 0 9 = some c ∧ s.readList (.cmd 0) (u64 c.entry 0x10) c.cls = .go x 0) ∧
    (∀ s ∈ [joined (zu 1)], (s.port (63 : Fin 64)).linked = true ∧ s.host.parked = false ∧ s.connTakes (msg0 1 []) = some (4095, false) ∧
      s.connTakes (msg0 0 []) = some (4095, true) ∧
      (s.accepted 4095 0).plan.table (u16 (msg0 0 [7#8, 0#8]).payload 0) = none ∧ endStatus (u32 (msg0 0 []).payload 0) = stDone) ∧
    (∃ s : State, ∃ m t w, (s.port (63 : Fin 64)).linked = true ∧ s.host.parked = false ∧ s.connTakes m = some (4095, true) ∧
      (s.accepted 4095 0).plan.table (u16 m.payload 0) = some t ∧ (s.accepted 4095 0).plan.wing (u16 m.payload 2) = some w ∧
      wKind w = 1 ∧ wOwner w % 4096 = tId t ∧ u8 m.payload 4 ≤ 5 ∧ u8 m.payload 7 = 0 ∧ u32 m.payload 8 = 1 ∧
      endsOk 0 (((List.range 1).map (fun i => u32 m.payload (16 + 4 * i))).map (· % 2 ^ 31)) (u32 m.payload 12) = true ∧
      bagEntries m.payload (16 + 4 * 1) 0 (((List.range 1).map (fun i => u32 m.payload (16 + 4 * i))).map (· % 2 ^ 31)) = [[(0, 999, 0#32)]] ∧
      999 % tShards t = wParam w ∧ 999 < tRows t) ∧
    (∃ s : State, ∃ c, s.readyCmd 0 13 = some c ∧ s.plan.table (u16 c.entry 0x10) = none) ∧
    (∃ s : State, ∃ c t w, s.readyCmd 0 13 = some c ∧ s.plan.table (u16 c.entry 0x10) = some t ∧ u8 c.entry 0x12 ≤ 1 ∧
      (u32 c.entry 0x14 = 999 ∧ 999 < tRows t ∧ s.plan.shardWings (tId t) (999 % tShards t) = [w] ∧ s.stackHeld (wStack w) = false ∧
      wingRoom w (999 / tShards t % wRooms w) = 999 ∧ 999 / tShards t / wRooms w * tRecLen t = 0 ∧ s.roomChan 999 = .ready ∧
      ((List.range (tRecLen t / 64)).all (fun i => s.ram.eccOk (roomDpa 999 (0 + 64 * i)) 64)) = true) ∧
      rowCheckOk ((List.range (tRecLen t / 64)).flatMap (fun i => s.ram.read (roomDpa 999 (0 + 64 * i)) 64)) = true) := by
  refine ⟨⟨withCmd (listState 7) (cmd 9 [(0x10, 8, 0x10000)]), cmd 9 [(0x10, 8, 0x10000)], by decide +kernel⟩,
    ⟨withCmd { listState 0 with ram := { (listState 0).ram with blks := SMap.set blkDflt [] 0x100 ⟨false, true, 0⟩ } }
      (cmd 9 [(0x10, 8, 0x10000)]), cmd 9 [(0x10, 8, 0x10000)], by decide +kernel⟩,
    ⟨withCmd (listState 0) (cmd 9 [(0x10, 8, 0x10000)]), cmd 9 [(0x10, 8, 0x10000)],
      (match (withCmd (listState 0) (cmd 9 [(0x10, 8, 0x10000)])).readList (.cmd 0) 0x10000 0 with
        | .go x _ => x
        | _ => ⟨.cmd 0, 0, 0, 0, 0, 0, 0, 0, 0, 0, [], [], [], 0, none⟩), by decide +kernel⟩, by decide +kernel,
    ⟨joined (zu 1), msg0 0 (blob 28 [(8, 4, 1), (12, 4, 1), (16, 4, 0x80000001), (20, 4, 999)]), slice secWings.2 16 48,
      slice secWings.2 64 16, by decide +kernel⟩,
    ⟨withCmd (zu 1) (cmdQ 13 [(0x10, 2, 7)]), cmdQ 13 [(0x10, 2, 7)], by decide +kernel⟩,
    ⟨withCmd { zu 1 with ram := (zu 1).ram.poke (roomDpa 999 0) rec0 } (cmdQ 13 [(0x12, 1, 1), (0x14, 4, 999)]),
      cmdQ 13 [(0x12, 1, 1), (0x14, 4, 999)], slice secWings.2 16 48, slice secWings.2 64 16, by decide +kernel, by decide +kernel,
      by decide +kernel, by decide +kernel, (congrArg rowCheckOk (show _ = rec0 by decide +kernel)).trans rec0_ok⟩⟩

/-- A gradient list of one contribution to row 0 of a table. -/
def grad0 (t : Nat) : GradList := ⟨.cmd 0, t, 2, [(0, 0, 0, 0x3F800000#32, List.replicate 16 0#32)], 0, false, false, false, false, false, false, false⟩
/-- List 0 is it. -/
def graded (s : State) (g : GradList) : State := { s with upd := { s.upd with lists := s.upd.lists.put 0 g } }
/-- The update block in a phase. -/
def phased (s : State) (p : UpPhase) : State := { s with upd := { s.upd with phase := p }, mer := { s.mer with count := 150000 } }
/-- A plan whose table 0 has an OWNER_MAP at 0x50000, and no wing. -/
def secOwned (map : Nat) : Nat × List Byte := (0x31, blob 64 [(0, 2, 1), (20, 2, 16), (24, 4, 1000), (28, 4, 1), (32, 8, map)])
/-- An update parameter entry that applies. -/
def entry1 (kind : Nat) : List Byte :=
  blob 64 [(0, 1, kind), (0xC, 4, 0x3F800000), (0x14, 4, 0x3F800000), (0x1C, 4, 0x3F800000), (0x20, 4, 0x3F800000), (0x24, 1, 1), (0x28, 2, 16), (0x2A, 2, 16)]

theorem witness_UpdateEventsRun :
    (∃ s : State, ∃ g t w, s.upd.lists.at 0 = some g ∧ g.todo[0]? = some (0, 0, 0, 0x3F800000#32, List.replicate 16 0#32) ∧
      s.plan.table g.table = some t ∧ (s.setGrad 0 (fun g => { g with todo := g.todo.eraseIdx 0 })).ownerOf t 0 = .here w ∧
      s.landingHeld w = false) ∧
    (∃ s : State, ∃ g t, s.upd.lists.at 0 = some g ∧ g.todo[0]? = some (0, 0, 0, 0x3F800000#32, List.replicate 16 0#32) ∧
      s.plan.table g.table = some t ∧ (s.setGrad 0 (fun g => { g with todo := g.todo.eraseIdx 0 })).ownerOf t 0 = .bad) ∧
    (∃ s : State, ∃ g t, s.upd.lists.at 0 = some g ∧ g.todo[0]? = some (0, 0, 0, 0x3F800000#32, List.replicate 16 0#32) ∧
      s.plan.table g.table = some t ∧ (s.setGrad 0 (fun g => { g with todo := g.todo.eraseIdx 0 })).ownerOf t 0 = .unread) ∧
    (∃ s : State, ∃ c g, s.readyCmd 0 10 = some c ∧ s.readGrad (.cmd 0) (u64 c.entry 0x10) = .go g) ∧
    (∃ s : State, ∃ c, s.readyCmd 0 10 = some c ∧ s.readGrad (.cmd 0) (u64 c.entry 0x10) = .over stInvalid ∧ stInvalid ≠ stCheck ∧
      stInvalid ≠ stFrozen) ∧
    (∀ s ∈ [joined (zu 1)], (s.port (63 : Fin 64)).linked = true ∧ s.host.parked = false ∧ s.connTakes (msg0 0 []) = some (4095, true) ∧
      s.connTakes (msg0 1 []) = some (4095, false) ∧ s.plan.table (u16 [7#8, 0#8] 0) = none) ∧
    (∃ s : State, ∃ m t w, (s.port (63 : Fin 64)).linked = true ∧ s.host.parked = false ∧ s.connTakes m = some (4095, true) ∧
      s.plan.table (u16 m.payload 0) = some t ∧ s.plan.wing (u16 m.payload 2) = some w ∧ wKind w = 1 ∧ wOwner w % 4096 = tId t ∧
      u32 m.payload 4 % tShards t = wParam w ∧ u32 m.payload 4 < tRows t ∧ m.payload.length = 12 + 4 * tDim t ∧
      s.landingHeld w = false) ∧
    (∃ s : State, s.plan.hasGrid = true ∧ s.fab.commit.close = none ∧ s.fab.flip.close = none ∧ s.linkedPorts = []) ∧
    (∃ s : State, (s.port (63 : Fin 64)).linked = true ∧ s.childPorts.contains (63 : Fin 64).val = true ∧
      (s.fab.verdict true).close.isNone = false ∧ (s.fab.verdict true).decided = false) ∧
    (∃ s : State, (s.fab.verdict false).close.isSome = true ∧ (s.fab.verdict false).root = true ∧ (s.fab.verdict false).decided = false ∧
      s.mer.reached (s.upd.close + (if false then s.plan.epochF - s.plan.epochF / 16 else 3 * s.plan.epochF / 8)) = true) ∧
    (∃ s : State, ∃ i c, s.plan.instantOf 1 = some 0 ∧ s.dueInstant 0 = some (i, c) ∧ s.plan.hasGrid = false) ∧
    (∃ s : State, s.upd.phase = .scanning ∧ (s.comb (0 : Fin 16)).scanned = false ∧ s.plan.inService (0 : Fin 16) = true ∧
      (s.comb (0 : Fin 16)).go = true) ∧
    (∃ s : State, s.upd.phase = .scanning ∧ s.mer.reached (s.upd.close + s.plan.epochF / 4) = true ∧
      s.mer.reached (s.upd.close + s.plan.epochF / 2) = true) ∧
    (∃ s : State, ∃ w t e, s.upd.blocks.contains (0 : Fin 1024).val = true ∧ s.plan.wing (0 : Fin 1024) = some w ∧
      s.plan.table (wOwner w % 4096) = some t ∧ s.entryFor (tableKey (wOwner w % 4096)) (s.blockStep (0 : Fin 1024)) = some e ∧ s.rowsOut w = false ∧
      s.plan.twin w = none ∧ (wingChans w ++ []).any s.rooms.busyChan = false) ∧
    (∃ s : State, ∃ w t e, s.upd.blocks.contains (0 : Fin 1024).val = true ∧ s.plan.wing (0 : Fin 1024) = some w ∧
      s.plan.table (wOwner w % 4096) = some t ∧ s.entryFor (tableKey (wOwner w % 4096)) (s.blockStep (0 : Fin 1024)) = some e ∧ s.rowsOut w = false ∧
      s.plan.twin w = none ∧ (wingChans w ++ []).any s.rooms.busyChan = true) ∧
    (∃ s : State, s.upd.phase = .applying ∧ s.denseMissing = false ∧ s.mer.count ≤ s.upd.close + s.plan.epochF - s.plan.epochF / 8) ∧
    (∃ s : State, s.upd.phase = .applying ∧ s.denseMissing = false ∧ s.mer.reached (s.upd.close + s.plan.epochF - s.plan.epochF / 8) = true ∧
      s.upd.close + s.plan.epochF - s.plan.epochF / 8 < s.mer.count) ∧
    (∃ s : State, s.upd.phase = .applying ∧ s.denseMissing = true ∧ s.mer.reached (s.upd.close + s.plan.epochF - s.plan.epochF / 8) = true) := by
  refine ⟨⟨graded (zu 1) (grad0 0), grad0 0, slice secWings.2 16 48, slice secWings.2 64 16, by decide +kernel⟩,
    ⟨graded (zp [secOwned 0]) (grad0 0), grad0 0, slice (secOwned 0).2 16 48, by decide +kernel⟩,
    ⟨{ graded (zp [secOwned 0x50000]) (grad0 0) with ram := { z.ram with blks := SMap.set blkDflt [] 0x500 ⟨false, true, 0⟩ } }, grad0 0,
      slice (secOwned 0x50000).2 16 48, by decide +kernel⟩,
    ⟨withCmd { zu 1 with
        ram := (zu 1).ram.poke 0x10000 (blob 48 [(4, 4, 1), (8, 4, 1), (32, 4, 1), (44, 4, 0x3F800000)])
        upd := { z.upd with params := SMap.set paramDflt [] (tableKey 0) ⟨some (blob 64 []), none⟩ } } (cmd 10 [(0x10, 8, 0x10000)]),
      cmd 10 [(0x10, 8, 0x10000)], grad0 0, by decide +kernel⟩,
    ⟨withCmd (zu 1) (cmd 10 []), cmd 10 [], by decide +kernel⟩, by decide +kernel,
    ⟨joined (zu 1), msg0 0 (blob 76 [(4, 4, 999)]), slice secWings.2 16 48, slice secWings.2 64 16, by decide +kernel⟩,
    ⟨zp [secGrid], by decide +kernel⟩,
    ⟨{ (joined (zu 1)).setPort 63 (fun x => { x with child := true }) with
        mer := { z.mer with count := 200000 }
        fab := { ((joined (zu 1)).setPort 63 (fun x => { x with child := true, childCount := 1 })).fab with
          flip := { Verdict.reset with close := some 7 } } }, by decide +kernel⟩,
    ⟨{ zu 1 with mer := { (zu 1).mer with count := 150000 }, fab := { z.fab with commit := { Verdict.reset with close := some 7, root := true } } },
      by decide +kernel⟩,
    ⟨{ zp [secMer 0, secCycle 0 1] with mer := { z.mer with st := .free, count := 50000, inSlot := true } }, ⟨1, 3, 1, 0, 0, 50000⟩, 0, by decide +kernel⟩,
    ⟨{ zu 1 with upd := { z.upd with
        phase := .scanning, combiners := SMap.set combDflt [] 0 { Combiner.reset with go := true } } }, by decide +kernel⟩,
    ⟨phased (zu 1) .scanning, by decide +kernel⟩,
    ⟨{ zu 1 with upd := { z.upd with blocks := [0], params := SMap.set paramDflt [] (tableKey 0) ⟨some (entry1 1), none⟩ } },
      slice secWings.2 64 16, slice secWings.2 16 48, entry1 1, by decide +kernel⟩,
    ⟨{ zu 1 with
        upd := { z.upd with blocks := [0], params := SMap.set paramDflt [] (tableKey 0) ⟨some (entry1 1), none⟩ }
        rooms := { z.rooms with cores := z.rooms.cores.put 1023 core } },
      slice secWings.2 64 16, slice secWings.2 16 48, entry1 1, by decide +kernel⟩,
    ⟨{ zu 1 with upd := { z.upd with phase := .applying } }, by decide +kernel⟩, ⟨phased (zu 1) .applying, by decide +kernel⟩,
    ⟨phased { zu 1 with upd := { z.upd with
        params := SMap.set paramDflt [] (layerKey 0) ⟨some (entry1 2), none⟩
        layers := SMap.set layerDflt [] 0 { Layer.reset with updated := true } } } .applying, by decide +kernel⟩⟩

/-- The FLIP instant is due in a phase. -/
def flipping (p : UpPhase) (v : Option Bool) : State := { zu 2 with upd := { z.upd with phase := p, flipVerdict := v } }
/-- A STATE_LOAD or STATE_READ of shard 0 of table 0 at 0x10000. -/
def stateCmd (op : Nat) : Cmd := cmdQ op [(0x18, 8, 0x10000)]

theorem witness_FlipAndStateRun :
    (∃ s : State, ∃ i c, s.plan.instantOf 2 = some 0 ∧ s.dueInstant 0 = some (i, c) ∧ s.upd.phase = .collecting ∧
      (s.fired 0 c).upd.phase = .collecting) ∧
    (∃ s : State, ∃ i c, s.plan.instantOf 2 = some 0 ∧ s.dueInstant 0 = some (i, c) ∧ (s.fired 0 c).upd.phase = .awaitFlip ∧
      ((s.fired 0 c).dueDigests (s.fired 0 c).upd.deciding).upd.flipVerdict = some false) ∧
    (∀ e ∈ [(1, 0, false), (2, 64, true)], ∀ c ∈ [{ cmdQ 16 [(6, 2, e.2.1)] with entry := (cmdQ 16 [(6, 2, e.2.1)]).entry.take 32 ++ entry1 e.1 ++ zeros 32 }],
      (withCmd (zu 1) c).readyCmd 0 16 = some c ∧ (decide (((cInline c.entry).take 64).length = 64) && entryOk ((cInline c.entry).take 64)) = e.2.2) ∧
    u8 (entry1 2) 0 ≠ 1 ∧
    (∃ s : State, ∃ c, s.readyCmd 0 17 = some c ∧ stateTarget s c.entry = none) ∧
    (∃ s : State, ∃ c w t, s.readyCmd 0 17 = some c ∧ stateTarget s c.entry = some (w, t) ∧ u64 c.entry 0x18 = 0x10000 ∧
      s.plan.dpaOk 0x10000 (32 + 4 * tDim t) = true ∧ (s.shard (wId w)).stale = true ∧ (s.shard (wId w)).load = none ∧
      s.dpaHeld 0x10000 (32 + 4 * tDim t) = false ∧ s.ram.consumerOk 0x10000 (32 + 4 * tDim t) = true ∧
      u16 (s.ram.read 0x10000 (32 + 4 * tDim t)) 0 = tId t ∧ u16 (s.ram.read 0x10000 (32 + 4 * tDim t)) 2 = wId w) ∧
    (∀ n ∈ [0, 1], ∀ s ∈ [{ zu 1 with upd := { z.upd with
        phase := .collecting, shards := SMap.set shardDflt [] 1023 { Shard.reset with load := some (5, blob 96 [(4, 4, n)]) } } }],
      (s.shard (1023 : Fin 1024)).load = some (5, blob 96 [(4, 4, n)]) ∧ s.upd.phase = .collecting ∧ (s.shard (1023 : Fin 1024)).running = [] ∧
      (u32 (blob 96 [(4, 4, n)]) 4 == s.upStep) = (n == 0)) ∧
    (∃ s : State, ∃ c w t, s.readyCmd 0 18 = some c ∧ stateTarget s c.entry = some (w, t) ∧ u64 c.entry 0x18 = 0x10000 ∧
      s.plan.dpaOk 0x10000 (32 + 4 * tDim t) = true ∧ s.dpaHeld 0x10000 (32 + 4 * tDim t) = false ∧ s.ram.goneIn 0x10000 (32 + 4 * tDim t) = false) := by
  refine ⟨⟨flipping .collecting none, ⟨2, 3, 1, 0, 0, 50000⟩, 0, by decide +kernel⟩,
    ⟨flipping .awaitFlip (some false), ⟨2, 3, 1, 0, 0, 50000⟩, 0, by decide +kernel⟩, by decide +kernel, by decide +kernel,
    ⟨withCmd (zu 1) (cmdQ 17 [(0x10, 2, 7)]), cmdQ 17 [(0x10, 2, 7)], by decide +kernel⟩,
    ⟨withCmd { zu 1 with upd := { z.upd with shards := SMap.set shardDflt [] 0 { Shard.reset with stale := true } } } (stateCmd 17),
      stateCmd 17, slice secWings.2 64 16, slice secWings.2 16 48, by decide +kernel⟩, by decide +kernel,
    ⟨withCmd (zu 1) (stateCmd 18), stateCmd 18, slice secWings.2 64 16, slice secWings.2 16 48, by decide +kernel⟩⟩

end Sys2Proof.Tests
end

