-- ==== Sys2Proof/Tests/Witness7.lean ====
section
/-! SUPPORT. Tests/Witness7.lean: states and operands that meet the hypotheses of each clause of the statements on ports and routes. -/

open Sys2Proof Sys2Proof.Machine Sys2Proof.Claims

namespace Sys2Proof.Tests

set_option Elab.async false

/-- Ports 0 and 1 are enabled, HELLO_US is 100, three HELLOs missed are death, and a message makes 8 hops. -/
def secGridOn : Nat × List Byte := (0x50, blob 4096 [(0, 2, 1), (8, 2, 100), (10, 1, 3), (11, 1, 8), (0x20, 8, 0xFFFFFF01), (0x28, 8, 0xFFFFFF01)])
/-- A plan with a grid, in a maintenance slot. -/
def zg : State := { zp [secMer 0, secCycle 2 1, secGridOn] with mer := { z.mer with st := .free, inSlot := true, count := 50000, now := 200000000 } }
/-- The same with port 0 changed. -/
def zgp (f : Port → Port) : State := zg.setPort 0 f
/-- Port 0 is up, and its neighbour is device 2. -/
def zgu : State := zgp (fun x => { x with st := .up, nbr := some (2, 0), inUse := 255 })

/-- A flit's header but for its CRC. -/
def flitHead (ty : Nat) : List Byte := [BitVec.ofNat 8 ty, 1#8, 0#8, 0#8, 2#8, 0#8, 0#8, 0#8, 0#8, 0#8, 0x20#8, 1#8]
/-- A sound flit of a type whose body begins with some bytes. -/
def rawFlit (ty : Nat) (bs : List Byte) : List Byte :=
  flitHead ty ++ bytesOf (crc32c (flitHead ty ++ zeros 4 ++ (bs ++ zeros 240).take 240)).toNat 4 ++ (bs ++ zeros 240).take 240
theorem rawFlit_ok (ty : Nat) (bs : List Byte) : flitOk (rawFlit ty bs) = true := by
  unfold flitOk rawFlit
  generalize hb : (bs ++ zeros 240).take 240 = b
  generalize hc : crc32c (flitHead ty ++ zeros 4 ++ b) = c
  have hu : flitUncrc (flitHead ty ++ bytesOf c.toNat 4 ++ b) = flitHead ty ++ zeros 4 ++ b := by
    simp [flitUncrc, flitHead, bytesOf]
  have h4 : u32 (flitHead ty ++ bytesOf c.toNat 4 ++ b) 12 = c.toNat := by
    have := c.isLt
    simp only [u32, le, flitHead, bytesOf, List.cons_append, List.nil_append, List.getD_cons_succ, List.getD_cons_zero, BitVec.toNat_ofNat]
    omega
  rw [hu, hc, h4]
  simp
theorem rawFlit_length (ty : Nat) (bs : List Byte) : (rawFlit ty bs).length = 256 := by
  have h : (flitHead ty).length = 12 := rfl
  have h4 : ∀ c, (bytesOf c 4).length = 4 := fun _ => rfl
  have hz : (zeros 240).length = 240 := List.length_replicate
  rw [rawFlit, List.length_append, List.length_append, List.length_take, List.length_append, h, h4, hz]
  omega

/-- A flit with a tail, whose CRC is one too high. -/
def badFlit (b : List Byte) : List Byte :=
  flitHead 1 ++ bytesOf ((crc32c (flitHead 1 ++ zeros 4 ++ b)).toNat + 1) 4 ++ b
theorem badFlit_bad (b : List Byte) : (badFlit b).length = 16 + b.length ∧ flitOk (badFlit b) = false := by
  constructor
  · simp [badFlit, flitHead, bytesOf]
    omega
  · unfold flitOk badFlit
    generalize hc : crc32c (flitHead 1 ++ zeros 4 ++ b) = c
    have hu : flitUncrc (flitHead 1 ++ bytesOf (c.toNat + 1) 4 ++ b) = flitHead 1 ++ zeros 4 ++ b := by
      simp [flitUncrc, flitHead, bytesOf]
    have hl := c.isLt
    have h4 : u32 (flitHead 1 ++ bytesOf (c.toNat + 1) 4 ++ b) 12 = (c.toNat + 1) % 2 ^ 32 := by
      simp only [u32, le, flitHead, bytesOf, List.cons_append, List.nil_append, List.getD_cons_succ, List.getD_cons_zero, BitVec.toNat_ofNat]
      omega
    rw [hu, hc, h4]
    simp only [beq_eq_false_iff_ne, ne_eq]
    omega

/-- The port expects SEQ `n`, with or without a NACK sent for it. -/
def expecting (n : Nat) (t : Option Nat) : State := zgp (fun x => { x with st := .up, nbr := some (2, 0), inUse := 255, rxSeq := n, nacked := t })

/-- A device with an identity, whose port 0 is in SURVEY. -/
def surveyed : State :=
  { zgp (fun x => { x with st := .survey }) with se := { z.se with fuses := { z.se.fuses with device := 5 } } }
/-- The HELLO of a neighbour of fabric `f`. -/
def hello (f : Nat) : Hello := ⟨77, 2, f, 3, 255, 0, false, false⟩

theorem witness_PortEventsRun_lasers :
    (zg.barShut = false ∧ (zg.port (0 : Fin 64)).st = .dark ∧ zg.plan.portOn (0 : Fin 64) = true) ∧
    (zgu.barShut = false ∧ (zgu.port (0 : Fin 64)).st ≠ .dark ∧ (zgu.port (0 : Fin 64)).st ≠ .down) ∧ zg.plan.portOn (2 : Fin 64) = false ∧
    (∃ s : State, s.barShut = false ∧ s.plan.portOn (0 : Fin 64) = true ∧ (s.port (0 : Fin 64)).st = .down) ∧
    (∃ x, x = (zgp (fun x => { x with st := .training, since := 200000000 })).port (0 : Fin 64) ∧ x.st = .training ∧ x.since ≤ zg.mer.now ∧
      zg.mer.now - x.since ≤ 5000000) ∧
    (∃ x, x = (zgp (fun x => { x with st := .training })).port (0 : Fin 64) ∧ x.st = .training ∧ 5000000 < zg.mer.now - x.since ∧
      x.since + 100000000 ≤ zg.mer.now) :=
  ⟨by decide +kernel, by decide +kernel, by decide +kernel, ⟨zgp (fun x => { x with st := .down }), by decide +kernel⟩,
    ⟨_, rfl, by decide +kernel⟩, ⟨_, rfl, by decide +kernel⟩⟩

theorem witness_PortEventsRun :
    (∃ s : State, s.barShut = false ∧ (s.port (0 : Fin 64)).st = .degraded ∧ s.inMaintenance = true) ∧
    (∃ s : State, (s.port (0 : Fin 64)).sends = true ∧ (s.port (0 : Fin 64)).nacked = some 5 ∧ 5 + 2000 ≤ s.mer.now) ∧
    (∃ s : State, (s.port (0 : Fin 64)).sends = true ∧ (s.port (0 : Fin 64)).helloAt + s.plan.helloMt ≤ s.mer.now ∧
      (s.port (0 : Fin 64)).heard + s.plan.deadHellos * s.plan.helloMt ≤ s.mer.now ∧ 0 < s.plan.helloMt ∧ (s.port (0 : Fin 64)).st ≠ .survey) ∧
    (∃ b : List Byte, b.length = 256 ∧ flitOk b = false) ∧
    (∀ f ∈ [0, 9], (surveyed.port (0 : Fin 64)).sends = true ∧ (surveyed.port (0 : Fin 64)).st = .survey ∧
      ((surveyed.setPort (0 : Fin 64) (fun y => { y with
        heard := surveyed.mer.now, nbrState := (hello f).merState, nbrEligible := (hello f).eligible })).miswire (0 : Fin 64) (hello f) = 0 ↔ f = 0)) :=
  ⟨⟨zgp (fun x => { x with st := .degraded }), by decide +kernel⟩, ⟨expecting 0 (some 5), by decide +kernel⟩, ⟨zgu, by decide +kernel⟩,
    ⟨badFlit (zeros 240), by rw [(badFlit_bad _).1, zeros, List.length_replicate], (badFlit_bad _).2⟩, by decide +kernel⟩

/-- Sound flits of every type. -/
theorem witness_PortEventsRun_sound :
    (∀ ty bs, (rawFlit ty bs).length = 256 ∧ flitOk (rawFlit ty bs) = true) ∧
    (∀ n ∈ [0, 1, 2, 3], flitType (rawFlit n [1#8, 3#8]) = n) ∧ (∀ n ∈ [1, 2], u8 (rawFlit 3 [BitVec.ofNat 8 n, 3#8]) 16 = n) :=
  ⟨fun ty bs => ⟨rawFlit_length ty bs, rawFlit_ok ty bs⟩, by decide +kernel⟩

/-- A DATA flit of kind 0x20 with SEQ 0 at a port that expects SEQ `n`: in its place or not, with a NACK sent or not; one at a
port that is MISWIRED. -/
theorem witness_PortEventsRun_flits :
    (∀ n ∈ [0, 7], ∀ t ∈ [none, some 9], ∀ u ∈ [(expecting n t).takeLink (0 : Fin 64) (flitLink (rawFlit 1 [1#8, 3#8]))],
      ((expecting n t).port (0 : Fin 64)).sends = true ∧ ((expecting n t).port (0 : Fin 64)).st = .up ∧
      decide ((flitOf (rawFlit 1 [1#8, 3#8])).seq = (u.port (0 : Fin 64)).rxSeq) = (n == 0) ∧ (u.port (0 : Fin 64)).nacked = t) ∧
    (∀ s ∈ [zgp (fun x => { x with st := .miswired, nbr := some (2, 0), inUse := 255 })], (s.port (0 : Fin 64)).sends = true ∧
      (s.port (0 : Fin 64)).st = .miswired ∧ (flitOf (rawFlit 1 [1#8, 3#8])).kind ≠ 1 ∧ (flitOf (rawFlit 1 [1#8, 3#8])).seq =
        ((s.takeLink (0 : Fin 64) (flitLink (rawFlit 1 [1#8, 3#8]))).port (0 : Fin 64)).rxSeq) := by decide +kernel

/-- A NACK at a port with nothing to resend, with one flit, and with one that has been resent 8 times. -/
theorem witness_PortEventsRun_nacks :
    ∀ e ∈ [([], 0), ([{ Flit.blank with seq := 3 }], 7), ([{ Flit.blank with seq := 3 }], 8)], ∀ s ∈ [zgp (fun x => { x with
        st := .up, nbr := some (2, 0), inUse := 255, txSeq := 5, replay := e.1, resent := e.2 })],
      ∀ u ∈ [s.takeLink (0 : Fin 64) (flitLink (rawFlit 2 [1#8, 3#8]))], (s.port (0 : Fin 64)).sends = true ∧
      (u.port (0 : Fin 64)).replay.length = e.1.length ∧ (u.port (0 : Fin 64)).resent = e.2 := by decide +kernel

theorem witness_RoutingEventsRun :
    (zgu.port (0 : Fin 64)).linked = true ∧
    (∃ s : State, s.plan.hasGrid = true ∧ 0 < s.plan.frameLen ∧ s.mer.count / s.plan.frameLen % 1000 = 0 ∧ s.fab.dests = [] ∧ s.fab.dist = [] ∧
      s.mer.st ≠ .off ∧ s.mer.said ≠ some s.masterSays ∧ ∃ q u, s.nextSeq = (q, u)) ∧
    (∃ s : State, s.mer.said = some s.masterSays ∧ s.mer.saidFrame = s.mer.count / s.plan.frameLen + 1) ∧
    (∃ u, zgu.newer (2 % 16384) (5 % 2 ^ 32) = some u) ∧ zgu.newer (1 % 16384) (5 % 2 ^ 32) = none ∧
    (∃ s : State, ∃ d, s.fab.departs.find? (fun d => d.ref == (3 : Fin 16384).val) = some d ∧ (3 : Fin 16384).val ≠ s.plan.ref ∧
      s.mer.reached d.effective = true ∧ ∀ q : Nat, ((s.port q).nbr).map (·.1) ≠ some (3 : Fin 16384).val) ∧
    (∀ k ∈ [(0 : Fin 256), 6, 15, 31, 255], k.val = 0 ∨ (0x06 ≤ k.val ∧ k.val < 0x10) ∨ (0x1F ≤ k.val ∧ kindKnown k.val = false)) := by
  refine ⟨by decide +kernel, ⟨zg, by decide +kernel, by decide +kernel, by decide +kernel, rfl, rfl, by decide +kernel, by decide +kernel, _, _, rfl⟩,
    ⟨{ zg with mer := { zg.mer with said := some zg.masterSays, saidFrame := zg.mer.count / zg.plan.frameLen + 1 } }, by decide +kernel⟩,
    ⟨_, (Option.some_get (by decide +kernel)).symm⟩, by decide +kernel,
    ⟨{ zg with fab := { zg.fab with departs := [⟨3, 40000, 1⟩] } }, ⟨3, 40000, 1⟩, by decide +kernel, by decide +kernel, by decide +kernel,
      fun q => ?_⟩, by decide +kernel⟩
  have : ({ zg with fab := { zg.fab with departs := [⟨3, 40000, 1⟩] } } : State).port q = Port.reset := rfl
  rw [this]
  decide

end Sys2Proof.Tests
end

