-- ==== Sys2Proof/Tests/Witness8.lean ====
section
/-! SUPPORT. Tests/Witness8.lean: states and operands that meet the hypotheses of each clause of the statements on connections, trees and
collective calls. -/

open Sys2Proof Sys2Proof.Machine Sys2Proof.Claims

namespace Sys2Proof.Tests

set_option Elab.async false

/-- Receive window 0 is 4,096 bytes at 0x20000; RTO_US is 10, CONN_TIMEOUT_US is 2,000. -/
def secClasses : Nat × List Byte := (0x22, blob 96 [(0, 2, 10), (2, 2, 1), (4, 4, 20000), (8, 4, 100000), (12, 2, 10), (14, 2, 2000),
  (64, 8, 0x20000), (72, 4, 4096), (78, 2, 0xFFFF)])
/-- A plan with all of it, and port 0 up. -/
def zc : State := ({ zp [secMer 0, secCycle 2 1, secClasses, secStacks, secWings, (0x40, blob 272 []), secGridOn, secQueues] with
  mer := { z.mer with st := .free, inSlot := true, count := 50000, now := 200000000 } } : State).setPort 0 (fun x => { x with
    st := .up, nbr := some (2, 0), inUse := 255 })
/-- A partner entry for device 2 in a state. -/
def connIn (st : ConnState) (outs : List Outgoing) : Conn := ⟨2, 1, 0, st, 7, 0, false, none, 0, 0, 0, outs, 0, 0⟩
/-- The state with it as entry 0. -/
def withConn (s : State) (c : Conn) : State := { s with fab := { s.fab with conns := s.fab.conns.put 0 c } }
/-- A message of device 2 on entry 0. -/
def msg2 (mseq arg : Nat) (payload : List Byte) : Msg := { Msg.blank with src := 2, conn := 0, epoch := 7, mseq := mseq, arg := arg, payload := payload }
/-- An outgoing message. -/
def out0 : Outgoing := ⟨0x14, msg2 0 0 [], none, none, 0, 0⟩

/-- A full table of partner entries. -/
def fullConns : Tab Conn := (List.range 4096).map (fun k => (k, some (connIn .opened [])))
theorem fullConns_at (m n k : Nat) (h : m ≤ k) (hk : k < m + n) :
    Tab.at ((List.range' m n).map (fun k => (k, some (connIn .opened [])))) k = some (connIn .opened []) := by
  induction n generalizing m with
  | zero => omega
  | succ n ih =>
    rw [List.range'_succ, List.map_cons]
    show SMap.get _ (_ :: _) k = _
    unfold SMap.get
    by_cases e : k = m
    · simp [e]
    · have : ¬ k < m := by omega
      simp only [e, this, if_false]
      exact ih (m + 1) (by omega) (by omega)
theorem fullConns_full (f : Fabric) (h : f.conns = fullConns) : f.freeConn = none := by
  unfold Fabric.freeConn
  rw [List.find?_eq_none]
  intro k hk
  rw [h, fullConns, List.range_eq_range', fullConns_at 0 4096 k (Nat.zero_le _) (by simpa using hk)]
  simp
theorem fullConns_plain (a b : Nat) :
    fullConns.list.find? (fun e => e.2.mirror && e.2.remote == a && e.2.partner == b) = none := by
  rw [List.find?_eq_none]
  intro e he
  simp only [Tab.list, fullConns, List.mem_filterMap, List.mem_map] at he
  obtain ⟨a, ⟨k, _, rfl⟩, h⟩ := he
  simp only [Option.map_some, Option.some.injEq] at h
  subst h
  simp [connIn]

/-- A state with a table of partner entries. -/
def withConns (t : Tab Conn) : State := { zc with fab := { zc.fab with conns := t } }
theorem withConns_eqs (t : Tab Conn) : (withConns t).fab.conns = t ∧ ((withConns t).port (0 : Fin 64)).linked = true ∧
    (withConns t).host.parked = false := by
  refine ⟨rfl, ?_, ?_⟩
  · show (zc.port (0 : Fin 64)).linked = true
    decide +kernel
  · show zc.host.parked = false
    decide +kernel

theorem witness_ConnectionCommandsRun :
    (∃ s : State, ∃ c k, s.readyCmd 0 0x13 = some c ∧ s.fab.conns.list.find? (fun e => e.2.st == .broken && e.2.remote == u16 c.entry 0x10 &&
      e.2.cls == u8 c.entry 0x12 && e.2.path == u8 c.entry 0x13) = none ∧ s.fab.freeConn = some k ∧ u8 c.entry 0x12 ≤ 2 ∧
      u8 c.entry 0x13 ≤ 3 ∧ u16 c.entry 0x10 < 16384 ∧ s.plan.hasGrid = true) ∧
    (∃ s : State, ∃ m : Msg, (s.port (0 : Fin 64)).linked = true ∧ s.host.parked = false ∧ s.fab.conns.list.find? (fun e => e.2.mirror &&
      e.2.remote == m.src && e.2.partner == m.arg % 4096) = none ∧ s.fab.freeConn = none) ∧
    (∃ s : State, ∃ m : Msg, (s.port (0 : Fin 64)).linked = true ∧ s.host.parked = false ∧ s.fab.conns.list.find? (fun e => e.2.mirror &&
      e.2.remote == m.src && e.2.partner == m.arg % 4096) = none ∧ s.fab.freeConn = some 0) ∧
    (∀ ep ∈ [7, 8], ∀ s ∈ [withConn zc { connIn .opened [] with mirror := true, epoch := ep }], (s.port (0 : Fin 64)).linked = true ∧
      s.host.parked = false ∧ s.fab.conns.list.find? (fun e => e.2.mirror && e.2.remote == (msg2 0 0 []).src &&
        e.2.partner == (msg2 0 0 []).arg % 4096) = some (0, { connIn .opened [] with mirror := true, epoch := ep }) ∧
      (ep == (msg2 0 0 []).epoch) = (ep == 7)) ∧
    (∀ st ∈ [ConnState.opening, .opened], ∀ os ∈ [[], [out0]], (zc.port (0 : Fin 64)).linked = true ∧
      (withConn zc (connIn st os)).fab.conns.at (msg2 0 0 []).conn = some (connIn st os) ∧ (connIn st os).epoch = (msg2 0 0 []).epoch ∧
      (connIn st os).remote = (msg2 0 0 []).src) ∧
    (msg2 0 0 []).arg % 256 = 0 ∧ (msg2 0 1 []).arg % 256 ≠ 0 ∧ bit (msg2 0 0 []).arg 8 = false ∧ out0.msg.mseq = (msg2 0 0 []).mseq ∧
    ((connIn .opened []).outs.findIdx? (fun o => o.msg.mseq == (msg2 0 0 []).mseq)) = none ∧
    (∀ s ∈ [withConn zc (connIn .opened [out0])], s.fab.conns.at (0 : Fin 4096) = some (connIn .opened [out0]) ∧
      out0.lastAt + s.plan.rto ≤ s.mer.now ∧ out0.firstAt + s.plan.connTimeout ≤ s.mer.now) ∧
    (∃ s : State, s.fab.conns.at (0 : Fin 4096) = some (connIn .opening []) ∧ (connIn .opening []).since + s.plan.connTimeout ≤ s.mer.now) ∧
    (∀ st ∈ [ConnState.opened, .broken, .opening, .closing], ∀ s ∈ [withCmd (withConn zc (connIn st [])) (cmdQ 0x14 [])],
      s.readyCmd 0 0x14 = some (cmdQ 0x14 []) ∧ s.fab.conns.at (u16 (cmdQ 0x14 []).entry 0x10) = some (connIn st [])) ∧
    (∀ st ∈ [ConnState.opened, .broken], ∀ s ∈ [withCmd (withConn zc (connIn st [])) (cmdQ 0x18 [])],
      s.readyCmd 0 0x18 = some (cmdQ 0x18 []) ∧ s.fab.conns.at (u16 (cmdQ 0x18 []).entry 0x10) = some (connIn st []) ∧
      s.sendPayload (cmdQ 0x18 []) = .inr (some [])) ∧
    (∀ s ∈ [withConn zc (connIn .opened [])], (s.port (0 : Fin 64)).linked = true ∧ s.connTakes (msg2 0 0 [1#8]) = some (0, true) ∧
      s.windowOk 0 2 0 1 = true ∧ s.windowHeld 0 0 1 = false ∧ s.windowOk 1 2 0 1 = false ∧
      s.connTakes (msg2 1 0 [1#8]) = some (0, false)) ∧
    (∀ n ∈ [2, 1], ∀ c ∈ [{ cmdQ 0x19 [(0x10, 2, n)] with cls := 1 }],
      (withCmd zc c).readyCmd 0 0x19 = some c ∧ u8 c.entry 0x13 ≤ 3 ∧ u16 c.entry 0x10 < 16384 ∧ zc.plan.hasGrid = true ∧
      (withCmd zc c).sendPayload c = .inr (some []) ∧ ((withCmd zc c).distTo (u16 c.entry 0x10) == 255) = (n == 2)) := by
  refine ⟨⟨withCmd zc (cmdQ 0x13 [(0x10, 2, 2)]), cmdQ 0x13 [(0x10, 2, 2)], 0, by decide +kernel⟩,
    ⟨withConns fullConns, msg2 0 0 [], (withConns_eqs _).2.1, (withConns_eqs _).2.2, (withConns_eqs fullConns).1.symm ▸ fullConns_plain _ _,
      fullConns_full _ (withConns_eqs _).1⟩, ⟨zc, msg2 0 0 [], by decide +kernel⟩, ?_⟩
  and_intros
  all_goals first | decide +kernel | exact ⟨withConn zc (connIn .opening []), by decide +kernel⟩

/-- A root's tree entry of class 1, with a replay window at 0x40000. -/
def tree0 : Tree :=
  ⟨1, true, 1, 0, 0, [], [], [], [], none, 0, false, false, 0, 0, 0, none, 0x40000, 4096, 0, [], [], 0, none, 0⟩
/-- The state with a tree entry 0. -/
def withTree (s : State) (t : Tree) : State := { s with fab := { s.fab with trees := s.fab.trees.put 0 t } }
/-- A flit that waits on a tree. -/
def item0 : TxItem := ⟨{ Flit.blank with cls := 1, first := true, last := true, dest := 16384 }, none, 0, none⟩
/-- A flooded message of tree 0. -/
def msgT (mseq : Nat) : Msg := { Msg.blank with src := 2, mseq := mseq, payload := [1#8] }
/-- A replay entry. -/
def replay0 : Replay := ⟨5, 0, 0, 0, 4⟩
/-- A message of entry 0 that asks for MSEQ `n` of tree 0. -/
def msgP (n : Nat) : Msg := { msg2 0 n [] with tag := 0 }

theorem witness_TreeCommandsRun :
    (∀ c ∈ [cmdQ 0x15 []], (withCmd zc c).readyCmd 0 0x15 = some c ∧ u16 c.entry 0x10 < 4096 ∧ cCount c.entry = 0 ∧ zc.plan.hasGrid = true ∧
      (withCmd zc c).fab.trees.at (u16 c.entry 0x10) = none ∧ (withTree (withCmd zc c) tree0).readyCmd 0 0x15 = some c ∧
      (withTree (withCmd zc c) tree0).fab.trees.at (u16 c.entry 0x10) = some tree0 ∧ tree0.root = true ∧ tree0.leaves = []) ∧
    (∀ t ∈ [{ tree0 with cmd := some 0, todo := [3] }], (withTree zc t).fab.trees.at (0 : Fin 4096) = some t ∧
      t.since + zc.plan.connTimeout ≤ zc.mer.now) ∧
    (∀ c ∈ [cmdQ 0x1A []], ∀ s ∈ [withTree (withCmd zc c) tree0], (withCmd zc c).readyCmd 0 0x1A = some c ∧ s.readyCmd 0 0x1A = some c ∧
      (withCmd zc c).fab.trees.at (u16 c.entry 0x10) = none ∧ s.fab.trees.at (u16 c.entry 0x10) = some tree0 ∧ tree0.member = false ∧
      s.sendPayload c = .inr (some []) ∧ s.dpaHeld tree0.base tree0.size = false) ∧
    (zc.port (0 : Fin 64)).linked = true ∧
    (∀ t ∈ [{ tree0 with root := false, member := true, next := 4 }], (withTree zc t).fab.trees.at ((msgT 4).tag % 4096) = some t ∧
      (withTree zc t).windowHeld t.window (msgT 4).arg (msgT 4).payload.length = false ∧ (msgT 4).conn = 0xFFFF ∧ (msgT 4).mseq = t.next ∧ (msgT 5).mseq ≠ t.next ∧
      ((msgT 5).mseq + 2 ^ 32 - t.next) % 2 ^ 32 < 2 ^ 31 ∧ t.missing = none) ∧
    (∀ t ∈ [{ tree0 with root := false }], (withTree zc t).fab.trees.at ((msgT 4).tag % 4096) = some t ∧ t.member = false ∧ t.kids = 0) ∧
    (∀ l ∈ [(⟨0, 2, 0, 0⟩ : Leaf)], ∀ t ∈ [{ tree0 with leaves := [l] }], (withTree zc t).fab.trees.at ((msgT 4).tag % 4096) = some t ∧
      t.leaves.find? (fun l => l.ref == (msgT 4).src) = some l) ∧
    (∀ n ∈ [0, 5], (withConn zc (connIn .opened [])).connTakes (msgP n) = some (0, true) ∧ (msgP n).arg % 2 ^ 32 = n) ∧
    (withConn zc (connIn .opened [])).fab.trees.at ((msgP 0).tag % 4096) = none ∧
    (∀ t ∈ [tree0, { tree0 with log := [replay0] }],
      (withTree (withConn zc (connIn .opened [])) t).fab.trees.at ((msgP 0).tag % 4096) = some t ∧ t.root = true) ∧
    tree0.log = [] ∧ tree0.next = 0 ∧ replay0.mseq = 5 ∧
    (∀ t ∈ [{ tree0 with kids := 1, queue := [item0], waitSince := some 0 }], ∀ s ∈ [(withTree zc t).setPort 0 (fun x => { x with credits := [0, 0, 0, 0] })],
      s.fab.trees.at (0 : Fin 4096) = some t ∧ t.open.contains (0 : Fin 64).val = true ∧ (s.port (0 : Fin 64)).takes item0 = false ∧
      t.open.all (fun q => q == (0 : Fin 64).val || (s.port q).takes item0) = true ∧ 0 + s.plan.pruneMt t.cls ≤ s.mer.now) ∧
    (∀ t ∈ [{ tree0 with kids := 2, pruned := [(1, 5)] }], (withTree zc t).fab.trees.at (0 : Fin 4096) = some t ∧
      t.pruned.find? (fun x => x.1 == (1 : Fin 64).val) = some (1, 5) ∧ ((withTree zc t).port (1 : Fin 64)).linked = false ∧
      t.leaves.filter (fun l => l.port == (1 : Fin 64).val) = []) := by
  and_intros <;> decide +kernel

/-- Group 0 is devices 1 and 2. -/
def grouped (s : State) : State := { s with fab := { s.fab with groups := s.fab.groups.put 0 [1, 2] } }
/-- A call of group 0 that has begun. -/
def coll0 : Coll := ⟨0, 0, 5, 0, 0, 0, 0, 0, false, 0, 0, 0, 1, none, false, true, [], false, none⟩
/-- The state with it, and with entry 0 open. -/
def calling : State := { withConn (grouped zc) (connIn .opened []) with fab := { (withConn (grouped zc) (connIn .opened [])).fab with colls := [coll0] } }
/-- A piece of it, with a digest. -/
def msgC (mseq digest : Nat) : Msg := { msg2 mseq 0 (blob 16 [(0, 1, 5)]) with tag := 0, digest := digest }

theorem witness_CollectiveCommandsRun :
    (∀ n ∈ [0, 2, 1], ∀ c ∈ [cmdQ 0x16 [(6, 2, 4), (0xC, 4, n), (0x20, 2, 1), (0x22, 2, 2)]], (withCmd zc c).readyCmd 0 0x16 = some c ∧
      u16 c.entry 0x10 < 4096 ∧ cCount c.entry = n ∧ 2 * cCount c.entry ≤ cLen c.entry ∧ (withCmd zc c).fab.colls = [] ∧
      ((List.range (cCount c.entry)).map (fun i => u16 (cInline c.entry) (2 * i))).any (fun m => decide (16384 ≤ m)) = false ∧
      rising ((List.range (cCount c.entry)).map (fun i => u16 (cInline c.entry) (2 * i))) = true) ∧
    (∀ c ∈ [cmdQ 0x17 [(0x12, 1, 5)]], (withCmd zc c).readyCmd 0 0x17 = some c ∧ (withCmd (grouped zc) c).readyCmd 0 0x17 = some c ∧
      ((withCmd zc c).groupOf (u16 c.entry 0x10)).contains zc.plan.ref = false ∧
      ((withCmd (grouped zc) c).groupOf (u16 c.entry 0x10)).contains zc.plan.ref = true ∧ u8 c.entry 0x12 = 5 ∧ u8 c.entry 0x13 = 0 ∧
      u32 c.entry 0x14 < 0xF0000000 ∧ u8 c.entry 0x2B ≤ 3 ∧ (withCmd (grouped zc) c).fab.coll (u16 c.entry 0x10) (u32 c.entry 0x14) = none) ∧
    (∀ s ∈ [withConn (grouped zc) (connIn .opened [])], (s.port (0 : Fin 64)).linked = true ∧ s.connTakes (msgC 0 0) = some (0, true) ∧
      s.connTakes (msgC 1 0) = some (0, false) ∧ s.fab.coll ((msgC 0 0).tag % 4096) ((msgC 0 0).arg % 2 ^ 32) = none ∧
      s.fab.dead.contains ((msgC 0 0).tag % 4096, (msgC 0 0).arg % 2 ^ 32) = false ∧
      ({ s.fab with dead := [(0, 0)] } : Fabric).dead.contains ((msgC 0 0).tag % 4096, (msgC 0 0).arg % 2 ^ 32) = true) ∧
    (∀ d ∈ [0, 1], ∀ m ∈ [msgC 0 d], ∀ h ∈ [m.payload.take 16], (calling.port (0 : Fin 64)).linked = true ∧ calling.connTakes m = some (0, true) ∧
      calling.fab.coll (m.tag % 4096) (m.arg % 2 ^ 32) = some coll0 ∧ coll0.started = true ∧ coll0.overWith = none ∧
      (calling.groupOf (m.tag % 4096)).idxOf m.src < (calling.groupOf (m.tag % 4096)).length ∧ bit (u8 h 2) 1 = false ∧ u8 h 0 = coll0.op ∧
      u8 h 1 = coll0.fmts ∧ u32 h 4 = coll0.e ∧
      (collDigest (m.tag % 4096) (m.arg % 2 ^ 32) (m.payload.drop 16) == m.digest) = (d == 0) ∧
      (coll0.chunkOf ((calling.groupOf (m.tag % 4096)).idxOf m.src) (bit (u8 h 2) 0)).retried.contains (u64 h 8) = false) := by
  and_intros <;> decide +kernel

end Sys2Proof.Tests
end

