-- ==== Sys2Proof/Tests/Witness3.lean ====
section
/-! SUPPORT. Tests/Witness3.lean: states and operands that meet the hypotheses of each clause of the statements on room cores. -/

open Sys2Proof Sys2Proof.Machine Sys2Proof.Claims

namespace Sys2Proof.Tests

set_option Elab.async false

/-- An instruction word of format R: opcode, d, a, b, f (Table 6-4). -/
def wd (op d a b f : Nat) : Nat := op * 2 ^ 26 + d * 2 ^ 22 + a * 2 ^ 18 + b * 2 ^ 14 + f

/-- A core whose general registers hold the listed values. -/
def regs (vs : List (Nat × Nat)) : Core := vs.foldl (fun (c : Core) p => c.setReg p.1 (BitVec.ofNat 32 p.2)) core

/-- Room 0 of a plan that has stack 0 in service runs `c` at the word `w`. -/
def roomP (c : Core) (w : Nat) : State := room (zp [secStacks, secWings]) c w

theorem witness_RoomArithmeticRuns : ∀ e ∈ [(0x01, 0x01 * 2 ^ 26), (0x02, wd 2 15 14 13 0), (0x03, wd 3 1 1 1 0), (0x04, wd 4 1 2 3 0),
    (0x05, wd 5 1 2 3 0), (0x06, wd 6 1 2 3 0), (0x07, wd 7 1 2 3 0), (0x07, wd 7 1 2 0 0x201F), (0x08, wd 8 1 2 3 0), (0x09, wd 9 1 2 3 0),
    (0x0A, wd 10 0 2 3 0), (0x0B, wd 11 1 2 3 0), (0x0B, wd 11 1 2 3 1), (0x0C, wd 12 1 2 15 0x3FFF), (0x0D, wd 13 15 15 15 0x3FFF),
    (0x32, wd 0x32 1 0 0 8), (0x32, wd 0x32 1 0 0 5), (0x32, wd 0x32 1 0 0 6), (0x2B, wd 0x2B 1 2 3 15), (0x2C, wd 0x2C 15 0 0 0)],
    Issues (room z core e.2) (0 : Fin 1048576) e.1 core e.2 := by
  unfold Issues
  decide +kernel

theorem witness_RoomFloatRuns : (∀ f ∈ List.range 11, f ≠ 4 → f ≠ 5 →
      Issues (room z core (wd 0x1B 1 2 3 f)) (0 : Fin 1048576) 0x1B core (wd 0x1B 1 2 3 f) ∧ iF (wd 0x1B 1 2 3 f) = f) ∧
    (∀ f ∈ [4, 5], Issues (room z core (wd 0x1B 1 2 0 f)) (0 : Fin 1048576) 0x1B core (wd 0x1B 1 2 0 f) ∧ iF (wd 0x1B 1 2 0 f) = f) ∧
    (regs [(2, 0x80000000)]).reg 2 = 0x80000000#32 ∧ core.reg 2 ≠ 0x80000000#32 ∧
    Issues (room z (regs [(2, 0x80000000)]) (wd 0x1B 1 2 0 5)) (0 : Fin 1048576) 0x1B (regs [(2, 0x80000000)]) (wd 0x1B 1 2 0 5) := by
  unfold Issues
  decide +kernel

/-- Branch words with the offset −1 (outside at word 0) and 0. -/
theorem witness_RoomBranchesRun :
    (∀ op ∈ [0x0E, 0x0F, 0x10, 0x11, 0x12], ∀ o ∈ [0, 2 ^ 18 - 1],
      Issues (room z (regs [(1, 1), (2, 2)]) (wd op 1 2 0 0 + o)) (0 : Fin 1048576) op (regs [(1, 1), (2, 2)]) (wd op 1 2 0 0 + o)) ∧
    (∀ o ∈ [0, 2 ^ 18 - 1], Issues (room z (regs [(2, 12287)]) (wd 0x13 0 2 0 0 + o)) (0 : Fin 1048576) 0x13 (regs [(2, 12287)]) (wd 0x13 0 2 0 0 + o)) ∧
    (∀ v ∈ [1, 2], Issues (room z (regs [(1, v)]) (wd 0x14 1 0 0 0)) (0 : Fin 1048576) 0x14 (regs [(1, v)]) (wd 0x14 1 0 0 0)) ∧
    Issues (room z (regs [(1, 2)]) (wd 0x14 1 0 15 0x3FFF)) (0 : Fin 1048576) 0x14 (regs [(1, 2)]) (wd 0x14 1 0 15 0x3FFF) ∧
    (((1#32 : Word) == 2#32) = false ∧ ((1#32 : Word) == 1#32) = true ∧ (1#32 : Word).slt 2#32 = true ∧ (2#32 : Word).slt 1#32 = false) ∧
    ((0 : Int) + (BitVec.ofNat 18 (2 ^ 18 - 1)).toInt < 0 ∧ (12287 : Int) + (BitVec.ofNat 18 0).toInt ≤ 12287 ∧
      12287 < (12287 : Int) + (BitVec.ofNat 18 1).toInt) := by
  unfold Issues
  decide +kernel

/-- Scratch 2,044 and 2,032 hold the last word and vector; 2,045 is misaligned and 2,048 outside; 65,532 and 65,520 in the code store. -/
theorem witness_RoomMemoryRuns :
    (∀ op ∈ [0x15, 0x16, 0x17, 0x18, 0x19, 0x1A], ∀ a ∈ [0, 2045, 2048, 65536],
      Issues (room z (regs [(2, a)]) (wd op 1 2 0 0)) (0 : Fin 1048576) op (regs [(2, a)]) (wd op 1 2 0 0)) ∧
    (∀ a ∈ [2044], a % 4 = 0 ∧ a + 4 ≤ 2048) ∧ (∀ a ∈ [2032], a % 16 = 0 ∧ a + 16 ≤ 2048) ∧ 2045 % 4 ≠ 0 ∧ 2048 < 2048 + 4 ∧
    (∀ a ∈ [2048, 65536], ((regs [(2, a)]).reg (iA (wd 0x15 1 2 0 0)) + BitVec.ofInt 32 (BitVec.ofNat 18 (wd 0x15 1 2 0 0)).toInt).toNat = a) := by
  unfold Issues
  decide +kernel

theorem witness_RoomVectorsRun :
    (∀ op ∈ [0x1C, 0x1D, 0x1E, 0x1F, 0x20], ∀ lt ∈ [2, 3], ∀ w ∈ [op * 2 ^ 26 + 7 * 2 ^ 23 + 6 * 2 ^ 20 + 5 * 2 ^ 17 + lt * 2 ^ 14],
      Issues (room z core w) (0 : Fin 1048576) op core w ∧ iLt w = lt ∧ iF w % 8 = 0 ∧ bit (iF w) 4 = false) ∧
    (∀ w ∈ [0x20 * 2 ^ 26 + 7], Issues (room z core w) (0 : Fin 1048576) 0x20 core w ∧ 2 < iF w % 8) ∧
    (∀ e ∈ [(0x21, 2), (0x22, 1), (0x22, 2)], Issues (room z core (wd e.1 7 7 0 e.2)) (0 : Fin 1048576) e.1 core (wd e.1 7 7 0 e.2) ∧
      iF (wd e.1 7 7 0 e.2) % 8 = e.2) ∧
    (∀ f ∈ [3, 0x2003], Issues (room z core (wd 0x23 1 2 0 f)) (0 : Fin 1048576) 0x23 core (wd 0x23 1 2 0 f)) ∧
    bit 3 13 = false ∧ bit 0x2003 13 = true := by
  unfold Issues
  decide +kernel

/-- A core whose event 3 is set, at rc `t`. -/
def eventful (t : Nat) : Core := { core with events := 8, evAt := [0, 0, 0, t, 0, 0, 0, 0] }
/-- A core with an RFETCH outstanding in slot 3. -/
def fetching : Core := { core with slots := core.slots.put 3 ⟨false, 0, 0, zeros 64, false, false, false, []⟩ }

theorem witness_RoomWaitsRun :
    ((∀ c ∈ [core, eventful 7, eventful 4800], Issues (room z c (wd 0x2F 0 0 0 8)) (0 : Fin 1048576) 0x2F c (wd 0x2F 0 0 0 8) ∧ c.failedIn 8 = false) ∧
    (wd 0x2F 0 0 0 8 % 256 = 8 ∧ core.ready 8 false = false ∧ (eventful 7).ready 8 false = true ∧
      (eventful 4800).ready 8 false = true ∧ (eventful 7).readyAt 8 false < z.callLimit 0 + (eventful 7).paused ∧
      z.callLimit 0 + (eventful 4800).paused ≤ (eventful 4800).readyAt 8 false ∧ core.lastAt < z.callLimit 0 + core.paused) ∧
    (∀ c ∈ [core, fetching], Issues (room z c (wd 0x31 0 0 0 0)) (0 : Fin 1048576) 0x31 c (wd 0x31 0 0 0 0) ∧ c.failedIn 15 = false) ∧
    core.idle = true ∧ fetching.idle = false ∧
    (∀ e ∈ [(0x33, 0), (0x30, 0x3F), (0x34, 0xFF)], Issues (room z core (wd e.1 0 0 0 e.2)) (0 : Fin 1048576) e.1 core (wd e.1 0 0 0 e.2))) ∧
    (∃ s : State, ∃ c, s.rooms.cores.at 0 = some c ∧ c.wait = .run ∧ c.cancelled = false ∧ s.limitRc c < s.callLimit 0 ∧ c.pc < 12288 ∧
      wordOk (s.progWord 0 c.pc) = false) ∧
    (∃ s : State, ∃ c, s.rooms.cores.at 0 = some c ∧ c.wait = .run ∧ c.cancelled = false ∧ s.limitRc c < s.callLimit 0 ∧ 12288 ≤ c.pc) ∧
    (∃ s : State, ∃ c, s.rooms.cores.at 0 = some c ∧ c.cancelled = false ∧ s.callLimit 0 ≤ s.limitRc c) ∧
    (∃ s : State, ∃ c, s.rooms.cores.at 0 = some c ∧ c.cancelled = true) := by
  unfold Issues
  exact ⟨by decide +kernel, ⟨room z core 0, core, by decide +kernel⟩, ⟨room z { core with pc := 12288 } 0, { core with pc := 12288 }, by decide +kernel⟩,
    ⟨room z { core with rc := 4800 } 0, { core with rc := 4800 }, by decide +kernel⟩,
    ⟨room z { core with cancelled := true } 0, { core with cancelled := true }, by decide +kernel⟩⟩

/-- d is g1, a is g2, b is g3. -/
def opnds (o a n : Nat) : Core := regs [(1, o), (2, a), (3, n)]

theorem witness_RoomRowsRun :
    (∀ op ∈ [0x24, 0x25], ∀ f ∈ [3, 7], ∀ c ∈ [opnds 1047552 1024 1024, opnds 1 0 64],
      Issues (roomP c (wd op 1 2 3 f)) (0 : Fin 1048576) op c (wd op 1 2 3 f) ∧ c.slots.at 3 = none ∧
        (roomP c (wd op 1 2 3 f)).roomChan c.home = .ready) ∧
    (∀ g ∈ [64, 256], 1047552 % g = 0 ∧ 1024 % g = 0 ∧ 1047552 + 1024 ≤ 1048576 ∧ 1024 + 1024 ≤ 2048 ∧ 1 % g ≠ 0) ∧
    (∀ e ∈ [(0x26, opnds 1984 0 64, 0), (0x28, opnds 0 2044 1, 0), (0x29, opnds 0 1024 16, 0x1801), (0x29, opnds 0 1024 16, 0x2000)],
      ∀ w ∈ [wd e.1 1 2 3 e.2.2], Issues (room z e.2.1 w) (0 : Fin 1048576) e.1 e.2.1 w) ∧
    (iF (wd 0x29 1 2 3 0x1801) / 2048 = 3 ∧ 3 < iF (wd 0x29 1 2 3 0x2000) / 2048) ∧
    (∀ c ∈ [opnds 0 2032 16, { opnds 0 2032 16 with call := { core.call with payload := zeros 16 } }],
      Issues (room z c (wd 0x2D 0 2 3 0)) (0 : Fin 1048576) 0x2D c (wd 0x2D 0 2 3 0) ∧ c.recv = none) ∧
    (Issues (room z (opnds 2032 0 16) (wd 0x2E 1 0 3 0x2000)) (0 : Fin 1048576) 0x2E (opnds 2032 0 16) (wd 0x2E 1 0 3 0x2000) ∧
      (opnds 2032 0 16).sends.length < 4) := by
  unfold Issues
  decide +kernel

/-- The selector of elements 0 to 15 of a record of dimension 16. -/
def sel16 : Nat := 15 * 1024 + 16 * 2 ^ 18
/-- A record of zeros of dimension 16, with its row check. -/
def rec16 (flags : Nat) : List Byte :=
  let r := blob 128 [(0, 4, 0x3F800000), (10, 2, flags)]
  r.take 12 ++ bytesOf (crc16 r) 2 ++ r.drop 14
/-- Room 0 holds a sound record at offset 0. -/
def recRoom (c : Core) (w flags : Nat) : State :=
  let s := roomP c w
  { s with ram := s.ram.poke (roomDpa 0 0) (rec16 flags) }
/-- FUPD of the record at 0 with parameters at 0xC000 and normalisers at 0xC020 of the program area. -/
def fupd : Core := { regs [(2, 0xC000)] with call := { core.call with update := true, payload := zeros 64 } }
/-- The word of it. -/
def fupdWord : Nat := wd 0x2A 1 2 14 0
/-- The program area holds the parameters: dimension 16. -/
def fupdState (flags : Nat) : State :=
  let s := recRoom fupd fupdWord flags
  { s with ram := s.ram.poke (progAddr 0 0 0xC000) (blob 32 [(28, 2, 16), (30, 2, 0xC020)]) }

theorem witness_RoomRecordsRun :
    (∀ k ∈ [0, 1, 2], ∀ c ∈ [regs [(3, sel16)]], ∀ w ∈ [wd 0x27 1 2 3 (512 * k)], ∀ s ∈ [recRoom c w 0],
      Issues s (0 : Fin 1048576) 0x27 c w ∧ iF w / 512 % 4 = k ∧ sel16 / 2 ^ 29 = 0 ∧ sel16 / 2 ^ 18 % 2048 = 16 ∧
      sel16 % 1024 + (sel16 / 1024 % 256 + 1) ≤ 16 ∧ s.roomChan c.home = .ready ∧ s.dramEcc c 0 (recLen 0 16) = true ∧
      rowCheckOk (s.dram c 0 (recLen 0 16)) = true) ∧
    (∃ s : State, ∃ c w, Issues s (0 : Fin 1048576) 0x27 c w ∧ s.roomChan c.home = .ready ∧ s.dramEcc c 0 (recLen 0 16) = true ∧
      rowCheckOk (s.dram c 0 (recLen 0 16)) = false) ∧
    Issues (room z core fupdWord) (0 : Fin 1048576) 0x2A core fupdWord ∧ core.call.update = false := by
  unfold Issues
  refine ⟨by decide +kernel, ⟨roomP (regs [(3, sel16)]) (wd 0x27 1 2 3 0), regs [(3, sel16)], wd 0x27 1 2 3 0, by decide +kernel⟩, by decide +kernel⟩

theorem witness_RoomRecordsRun_fupd : ∀ f ∈ [0, 1], ∀ s ∈ [fupdState f],
    Issues s (0 : Fin 1048576) 0x2A fupd fupdWord ∧ fupd.call.update = true ∧
    (updParams (s.ram.read (progAddr 0 0 0xC000) 32)).dim = 16 ∧ (updParams (s.ram.read (progAddr 0 0 0xC000) 32)).norm = 0xC020 ∧
    (s.plan.wingOf fupd.home).isSome = true ∧ (s.plan.table 0).map tDim = some 16 ∧ (s.plan.wingOf fupd.home).map wOwner = some 0 ∧
    fupd.ppos + 4 * 16 ≤ fupd.call.payload.length ∧ fupd.recv = none ∧ s.roomChan fupd.home = .ready ∧
    s.dramEcc fupd 0 (recLen 0 16) = true ∧ rowCheckOk (s.dram fupd 0 (recLen 0 16)) = true ∧
    bit (u8 (s.dram fupd 0 (recLen 0 16)) 10) 0 = (f == 1) := by
  unfold Issues
  decide +kernel

/-- A lookup of table 0 whose one part waits for its room-call. -/
def lookup1 : Lookup := ⟨.cmd 0, 0, 1, 0, 0, 0, 0, 0, 0, 0, [[(0, 0, 0#32, false)]], [], [⟨0, 0, some 0, 0, 0, 0, [(0, 0, 0#32)], .waiting, [], []⟩], 0, none⟩

theorem witness_RoomEventsRun :
    (∃ s : State, ∃ c op, s.rooms.cores.at (0 : Fin 1048576) = some c ∧ c.slots.at (3 : Fin 4) = some op ∧ op.put = false ∧ op.known = false ∧
      op.fail = false ∧ op.raced = []) ∧
    (∃ s : State, ∃ c op, s.rooms.cores.at (0 : Fin 1048576) = some c ∧ c.slots.at (3 : Fin 4) = some op ∧ op.put = true ∧ op.raced = []) ∧
    (∃ s : State, ∃ c, s.rooms.cores.at (0 : Fin 1048576) = some c ∧ c.recv = some (0, [])) ∧
    (∃ s : State, ∃ c o rest, s.rooms.cores.at (0 : Fin 1048576) = some c ∧ c.sends = o :: rest ∧ rest ≠ [] ∧ o.raced = []) ∧
    (∃ s t : State, s.callPart 0 0 = some t) ∧ (∃ s t : State, s.callRow 0 0 true = some t) ∧
    (z.barShut = false ∧ (1#32).getLsbD 0 = true) ∧
    (∃ s : State, s.plan.inService ((0 : Fin 1048576) / 65536 : Nat) = true ∧ s.roomChan (0 : Fin 1048576) ≠ .failed ∧
      s.dpaHeld (roomDpa (0 : Fin 1048576) (64 * (16383 : Fin 16384))) 64 = false) := by
  refine ⟨⟨room z fetching 0, fetching, ⟨false, 0, 0, zeros 64, false, false, false, []⟩, by decide +kernel⟩,
    ⟨room z { core with slots := core.slots.put 3 ⟨true, 0, 0, zeros 64, false, false, false, []⟩ } 0,
      { core with slots := core.slots.put 3 ⟨true, 0, 0, zeros 64, false, false, false, []⟩ }, ⟨true, 0, 0, zeros 64, false, false, false, []⟩,
      by decide +kernel⟩,
    ⟨room z { core with recv := some (0, []) } 0, { core with recv := some (0, []) }, by decide +kernel⟩,
    ⟨room z { core with sends := [⟨0, 0, [], []⟩, ⟨0, 0, [], []⟩] } 0, { core with sends := [⟨0, 0, [], []⟩, ⟨0, 0, [], []⟩] },
      ⟨0, 0, [], []⟩, [⟨0, 0, [], []⟩], by decide +kernel⟩,
    ⟨{ zp [secStacks, secWings] with wings := { z.wings with lookups := z.wings.lookups.put 0 lookup1 } }, _,
      (Option.some_get (by decide +kernel)).symm⟩,
    ⟨{ zp [secStacks, secWings] with upd := { z.upd with
        combiners := SMap.set (fun _ => Combiner.reset) [] 0 { Combiner.reset with go := true, drain := [⟨0, 0, 0, []⟩] }
        shards := SMap.set (fun _ => Shard.reset) [] 0 { Shard.reset with created := true, busy := true } } }, _,
      (Option.some_get (by decide +kernel)).symm⟩, by decide +kernel, ⟨zp [secStacks], by decide +kernel⟩⟩

end Sys2Proof.Tests
end

