-- ==== Sys2Proof/Tests/Witness9.lean ====
section
/-! SUPPORT. Tests/Witness9.lean: states and operands that meet the hypotheses of the statements on the queue, the fuses, the registers,
the loader's letterbox, the number formats and the room cores. -/

open Sys2Proof Sys2Proof.Machine Sys2Proof.Claims

namespace Sys2Proof.Tests

set_option Elab.async false

/-- What a command's outcome is. -/
def nexts (r : Result) : Prop := ∃ t, r = .next t
theorem nexts_next (s : State) : nexts (.next s) := ⟨s, rfl⟩

theorem witness_StepRunsFrontCommand : State.reset.pending = [] ∧ State.reset.mer.st = .off ∧ State.reset.fab.ports = [] ∧
    State.reset.serving = [] ∧ (∃ s : State, s.pending = [] ∧ s.mer.st ≠ .off) :=
  ⟨by decide +kernel, by decide +kernel, by decide +kernel, by decide +kernel, { z with mer := { z.mer with st := .free } }, by decide +kernel⟩

theorem witness_QueueIsFirstInFirstOut : nexts (exec (.fpAbort) z) ∧ nexts (step { z with pending := [.fpAbort] }) ∧
    nexts (step z) := ⟨⟨_, rfl⟩, ⟨_, rfl⟩, ⟨_, rfl⟩⟩

theorem witness_EveryStepKeepsInvariant : z.inv ∧ nexts (step z) := by
  refine ⟨?_, ⟨_, rfl⟩⟩
  show Fuses.legal _
  unfold Fuses.legal
  decide +kernel

theorem witness_FusesNeverGoBack : z.inv ∧ nexts (step { z with pending := [.fpAbort] }) :=
  ⟨witness_EveryStepKeepsInvariant.1, ⟨_, rfl⟩⟩

theorem witness_OnlyKeyCommandsBurn : Instr.fpAbort ∉ burners ∧ nexts (exec (.fpAbort) z) := ⟨by decide +kernel, ⟨_, rfl⟩⟩

theorem witness_UnassignedOffsets : ∀ off ∈ [0xFFC, 0x1500000], off % 4 = 0 ∧ noWindow off ∧ (findReg off = none ∨ 0x1500000 ≤ off) := by
  unfold noWindow
  decide +kernel

theorem witness_RegisterWriteRules :
    ∀ e ∈ [(0x10004, Reg.FP_STATUS, Access.ro), (0x10024, .FP_EVENT, .w1c), (0x10010, .FP_SRC_LO, .rw)], z.barShut = false ∧ z.se.result ≠ 3 ∧
      (BitVec.ofNat 25 e.1).toNat % 4 = 0 ∧ noWindow (BitVec.ofNat 25 e.1).toNat ∧ findReg (BitVec.ofNat 25 e.1).toNat = some (e.2.1, 0) ∧
      e.2.1.ownWrite = false ∧ z.noQueue e.2.1 0 = false ∧ e.2.1.spec.acc = e.2.2 := by
  unfold noWindow
  decide +kernel

/-- The loaderIn in a state. -/
def loaderIn (st : FpState) (p : Bool) : State := { z with fp := { z.fp with st := st, pending := p } }

theorem witness_AbortAndDiscard : ∀ e ∈ [(FpState.loading, false), (.verifying, false), (.verified, true), (.applying, false), (.loaded, false),
    (.failed, false)], (loaderIn e.1 e.2).barShut = false ∧ (loaderIn e.1 e.2).se.result ≠ 3 ∧ (loaderIn e.1 e.2).fp.st = e.1 ∧
    (loaderIn e.1 e.2).fp.pending = e.2 := by decide +kernel

/-- The shift amount comes from a register, and from a word with its immediate bit set. -/
theorem witness_ScalarResultsAndZero : (∀ e ∈ [(0x02, wd 2 0 14 13 0), (0x03, wd 3 1 1 1 0), (0x0A, wd 10 0 2 3 0), (0x0C, wd 12 1 2 15 0x3FFF),
    (0x07, wd 7 1 2 3 0), (0x07, wd 7 1 2 0 0x201F), (0x08, wd 8 1 2 3 0), (0x09, wd 9 0 2 0 0x2000)],
    Issues (room z core e.2) (0 : Fin 1048576) e.1 core e.2) ∧ iD (wd 2 0 14 13 0) = 0 ∧ iD (wd 3 1 1 1 0) ≠ 0 := by
  unfold Issues
  decide +kernel

/-- A fault log of a number of entries. -/
def logged (n : Nat) : State :=
  { z with rooms := { z.rooms with flog := [(0, List.replicate n ⟨0, 1, 0, false, 0, 0, 0⟩)] } }
theorem witness_FaultLogHoldsSixteen : ∀ n ∈ [0, 15, 16], 0 < n →
    (SMap.get (fun _ => []) (logged n).rooms.flog (0 / 65536)).length = n := by decide +kernel

theorem witness_NanGroups :
    (u8 (blob 64 [(32 + 16 * fmtBits 5 / 8 + 3 / 16, 1, 0xFF)]) (32 + 16 * fmtBits 5 / 8 + 3 / 16) = 0xFF) ∧
    (u8 (blob 256 [(240, 1, 0xFF)]) (240 + 3 / 16) = 0xFF) ∧ (u8 (blob 256 [(224, 1, 0xFF)]) (224 + 3 / 16) = 0xFF) ∧
    (∀ bs ∈ [blob 256 [(160, 1, 8), (200, 1, 0xFF)]], u8 bs (200 + 3 / 16) = 0xFF ∧ (occupancy 5 bs 3).testBit (3 % 8) = true) ∧
    (∀ v ∈ [0x7F, 0xFF], ∀ bs ∈ [blob 64 [(32 + 3, 1, v)]], u8 bs (32 + 16 + 3 / 16) ≠ 0xFF ∧ u8 bs (32 + 3) = v) ∧
    (∀ v ∈ [0x7F, 0xFF], ∀ bs ∈ [blob 256 [(3, 1, v)]], u8 bs (240 + 3 / 16) ≠ 0xFF ∧ u8 bs 3 = v) ∧
    (∀ v ∈ [0x7F, 0xFF], ∀ bs ∈ [blob 256 [(0, 1, v), (160, 1, 8)]], u8 bs (200 + 3 / 16) ≠ 0xFF ∧ (occupancy 5 bs 3).testBit (3 % 8) = true ∧
      u8 bs (8 * (3 / 16) + 4 * (3 / 8 % 2) + popBelow (occupancy 5 bs 3) (3 % 8)) = v) := by decide +kernel

theorem witness_WingRoomIndexes : ∀ w ∈ [slice secWings.2 64 16], 0 < wChans w ∧ wFirst w + wChans w ≤ 64 ∧
    Issues (roomP core (wd 0x32 1 0 0 3)) (0 : Fin 1048576) 0x32 core (wd 0x32 1 0 0 3) ∧ wd 0x32 1 0 0 3 % 16 = 3 ∧
    (roomP core (wd 0x32 1 0 0 3)).plan.wingOf core.ident = some w := by
  unfold Issues
  decide +kernel

theorem witness_MemoryIsCanonical : z.ram.wf ∧ ((z.ram.poke 0x10000 [1#8]).byte 0x10000 = 1#8) := by
  refine ⟨?_, by decide +kernel⟩
  show (⟨[], [], [], []⟩ : Ram).wf
  simp [Ram.wf, SMap.Wf]

theorem witness_RoomInstructionFrame : Instr.nop 0 ∈ quietRoom 0 ∧ nexts (exec (.nop 0) (room z core (0x01 * 2 ^ 26))) :=
  ⟨by decide +kernel, _, rfl⟩

theorem witness_NoRaceWithoutOperations : core.slots = [] ∧ core.sends = [] := ⟨rfl, rfl⟩

theorem witness_ShutBar0ChangesNothing : ({ z with pw := { z.pw with st := .tripped } } : State).barShut = true := by decide +kernel

end Sys2Proof.Tests
end

