-- ==== Sys2Proof/WellFormed.lean ====
section
/-! DEFINITION. WellFormed.lean: the operands that can arrive: what an operand's type does not bound already. A sender presents
well-formed commands; the meanings are total and do not lean on it. -/

namespace Sys2Proof

/-- The widths of a HELLO's fields (Table 11-5). -/
def Hello.wf (h : Hello) : Bool :=
  decide (h.device < 2 ^ 64) && decide (h.grid < 16384) && decide (h.fabric < 2 ^ 32) && decide (h.port < 64) &&
  decide (h.lanes < 256) && decide (h.merState < 8)

/-- The widths of a message's fields (Table 12-1). -/
def Msg.wf (m : Msg) : Bool :=
  decide (m.src < 16384) && decide (m.cls < 4) && decide (m.conn < 2 ^ 16) && decide (m.epoch < 2 ^ 16) && decide (m.mseq < 2 ^ 32) &&
  decide (m.window < 2 ^ 16) && decide (m.tag < 2 ^ 16) && decide (m.arg < 2 ^ 64) && decide (m.digest < 2 ^ 64) &&
  decide (m.payload.length ≤ 65536)

/-- Whether a command's operands can arrive as the spec describes them. Commands that are not listed have operands that their types
bound. -/
def Instr.wf : Instr → Bool
  | .fetchReadCompletion off bytes _ => decide (off < 2 ^ 22) && decide (bytes.length ≤ 4096)
  | .applicationComplete fault => match fault with | some (array, i) => decide (i < if array then 64 else 1024) | none => true
  | .rxDataFlit _ b => b.length == 256
  | .rxIdle _ b => b.length == 256
  | .rxNack _ b => b.length == 256
  | .rxCtrl _ b => b.length == 256
  | .rxHello _ h => h.wf
  | .rxTime _ far err rtt => decide (far < 2 ^ 64) && decide (err < 2 ^ 32) && decide (rtt < 2 ^ 32)
  | .rxRoute _ es => es.all (fun e => decide (e.1 < 16384) && decide (e.2 < 256))
  | .rxDepart _ origin seq effective reason => decide (origin < 16384) && decide (seq < 2 ^ 32) && decide (effective < 2 ^ 64) && decide (reason < 256)
  | .rxOpen _ m => m.wf
  | .rxAccept _ m => m.wf
  | .rxClose _ m => m.wf
  | .rxAck _ m => m.wf
  | .rxWrite _ m => m.wf
  | .rxSublist _ m => m.wf
  | .rxPartial _ m => m.wf
  | .rxGradlist _ m => m.wf
  | .rxColl _ m => m.wf
  | .rxDgram _ m => m.wf
  | .rxMcast _ m => m.wf
  | .rxPrune _ m => m.wf
  | .rxPull _ m => m.wf
  | .rxGraft _ m => m.wf
  | .rxTreeSetup _ _ m => m.wf
  | .rxVerdictUp _ _ _ step count => decide (step < 2 ^ 32) && decide (count < 32768)
  | .rxVerdictDown _ _ _ step count => decide (step < 2 ^ 32) && decide (count < 32768)
  | .doeRequest _ _ bytes => decide (bytes.length ≤ 2 ^ 20)
  | .letterboxWrite _ bytes _ _ => decide (0 < bytes.length) && decide (bytes.length ≤ 4096)
  | .dmaReadCompletion _ _ bytes _ => decide (0 < bytes.length) && decide (bytes.length ≤ 4096)
  | .walkEntryReturn _ bytes _ => bytes.length == 64
  | .entryFetchReturn _ bytes _ => decide (bytes.length ≤ 1024)
  | .challenge _ _ nonce => nonce.length == 32
  | .getMeasurements _ _ sign nonce => nonce.length == if sign then 32 else 0
  | .pldmComponentTransfer _ off bytes _ => decide (off + bytes.length ≤ 2 ^ 26)
  | _ => true

end Sys2Proof
end

