-- ==== Sys2Proof/Tests/Slice0.lean ====
section
/-! SUPPORT. Tests/Slice0.lean: operands that no sender can present are refused by the well-formedness check, and a few commands answer
what the spec's rules, worked by hand, say. -/

open Sys2Proof Sys2Proof.Machine Sys2Proof.Claims

namespace Sys2Proof.Tests

set_option Elab.async false

/-! ### Ill-formed operands -/

/-- A message of fields. -/
def msgW (src cls conn epoch mseq window tag arg digest len : Nat) : Msg := ⟨src, cls, conn, epoch, mseq, window, tag, arg, digest, zeros len⟩

/-- Each field of a message one above its width (Table 12-1); the largest values are well-formed. -/
theorem test_message_widths :
    (msgW 16383 3 65535 65535 (2 ^ 32 - 1) 65535 65535 (2 ^ 64 - 1) (2 ^ 64 - 1) 4).wf = true ∧
    ∀ m ∈ [msgW 16384 0 0 0 0 0 0 0 0 0, msgW 0 4 0 0 0 0 0 0 0 0, msgW 0 0 65536 0 0 0 0 0 0 0, msgW 0 0 0 65536 0 0 0 0 0 0,
      msgW 0 0 0 0 (2 ^ 32) 0 0 0 0 0, msgW 0 0 0 0 0 65536 0 0 0 0, msgW 0 0 0 0 0 0 65536 0 0 0, msgW 0 0 0 0 0 0 0 (2 ^ 64) 0 0,
      msgW 0 0 0 0 0 0 0 0 (2 ^ 64) 0], m.wf = false := by decide +kernel

/-- A message command with such a message is refused. -/
theorem test_message_commands_check : ∀ m ∈ [msgW 16384 0 0 0 0 0 0 0 0 0], ∀ i ∈ ([.rxOpen 0 m, .rxAccept 0 m, .rxClose 0 m, .rxAck 0 m,
    .rxWrite 0 m, .rxSublist 0 m, .rxPartial 0 m, .rxGradlist 0 m, .rxColl 0 m, .rxDgram 0 m, .rxMcast 0 m, .rxPrune 0 m, .rxPull 0 m,
    .rxGraft 0 m, .rxTreeSetup 0 0 m] : List Instr), i.wf = false := by decide +kernel

/-- Flits of 255 bytes, a HELLO of port 64, routes and departures of reference 16,384, and verdicts too wide (Tables 11-1, 11-5). -/
theorem test_link_operands_check : ∀ i ∈ ([.rxDataFlit 0 (zeros 255), .rxIdle 0 (zeros 257), .rxNack 0 [], .rxCtrl 0 (zeros 255),
    .rxHello 0 ⟨0, 0, 0, 64, 0, 0, false, false⟩, .rxHello 0 ⟨2 ^ 64, 0, 0, 0, 0, 0, false, false⟩, .rxHello 0 ⟨0, 16384, 0, 0, 0, 0, false, false⟩,
    .rxHello 0 ⟨0, 0, 2 ^ 32, 0, 0, 0, false, false⟩, .rxHello 0 ⟨0, 0, 0, 0, 256, 0, false, false⟩, .rxHello 0 ⟨0, 0, 0, 0, 0, 8, false, false⟩,
    .rxRoute 0 [(16384, 0)], .rxRoute 0 [(0, 256)], .rxDepart 0 16384 0 0 0, .rxDepart 0 0 (2 ^ 32) 0 0, .rxDepart 0 0 0 (2 ^ 64) 0,
    .rxDepart 0 0 0 0 256] : List Instr), i.wf = false := by decide +kernel

/-- Operands of the host's and the management controller's commands that cannot arrive. -/
theorem test_host_operands_check : ∀ i ∈ ([.fetchReadCompletion (2 ^ 22) [] false, .applicationComplete (some (true, 64)),
    .applicationComplete (some (false, 1024)), .letterboxWrite 0 [] 0 false, .dmaReadCompletion 0 0 [] false, .walkEntryReturn 0 (zeros 63) false,
    .challenge 0 0 (zeros 31), .getMeasurements 0 0 true [], .getMeasurements 0 0 false (zeros 32)] : List Instr), i.wf = false := by
  decide +kernel

/-! ### Numbers -/

/-- The check values of the two polynomials over the digits 1 to 9 (R127, R258). -/
theorem test_checks : crc16 [0x31#8, 0x32#8, 0x33#8, 0x34#8, 0x35#8, 0x36#8, 0x37#8, 0x38#8, 0x39#8] = 0x29B1 ∧
    crc32c [0x31#8, 0x32#8, 0x33#8, 0x34#8, 0x35#8, 0x36#8, 0x37#8, 0x38#8, 0x39#8] = 0xE3069283#32 := by decide +kernel

/-! ### The container's cryptography (R24, R28): the examples of the standards -/

/-- The digest of the three letters a, b, c in GB/T 32905. -/
theorem test_sm3 : sm3 [0x61#8, 0x62#8, 0x63#8] =
    beBytes 0x66c7f0f462eeedd9d1f2d46bdc10e4e24167c4875cf2f7a2297da02b8f4ba8e0 32 := by decide +kernel
/-- The example of GB/T 32907: the block is the key. -/
theorem test_sm4 : sm4Enc (sm4Keys (beBytes 0x0123456789abcdeffedcba9876543210 16)) (beBytes 0x0123456789abcdeffedcba9876543210 16) =
    beBytes 0x681edf34d206965e86b3e94f536e4246 16 := by decide +kernel
/-- The example of RFC 8998: its ciphertext decrypts, and a tag with one bit changed does not pass. -/
theorem test_sm4_gcm : ∀ e ∈ [(0x83de3541e4c2b58177e065a9bf7b62ec, true), (0x83de3541e4c2b58177e065a9bf7b62ed, false)],
    sm4gcm (beBytes 0x0123456789abcdeffedcba9876543210 16) (beBytes 0x00001234567800000000abcd 12)
      (beBytes 0xfeedfacedeadbeeffeedfacedeadbeefabaddad2 20)
      (beBytes 0x17f399f08c67d5ee19d0dc9969c4bb7d5fd46fd3756489069157b282bb200735 32 ++
        beBytes 0xd82710ca5c22f0ccfa7cbf93d496ac15a56834cbcf98c397b4024a2691233b8d 32) (beBytes e.1 16) =
    if e.2 then some (beBytes 0xaaaaaaaaaaaaaaaabbbbbbbbbbbbbbbbccccccccccccccccdddddddddddddddd 32 ++
      beBytes 0xeeeeeeeeeeeeeeeeffffffffffffffffeeeeeeeeeeeeeeeeaaaaaaaaaaaaaaaa 32) else none := by decide +kernel

/-! ### Room cores: one word of room 0, and register 3 after it -/

/-- Register 3 after an instruction, or none where it does not go on. -/
def r3 (i : Instr) (vs : List (Nat × Nat)) (w : Nat) : Option Nat :=
  match exec i (room z (regs vs) w) with
  | .next t => (t.rooms.cores.at 0).map (fun c => c.num 3)
  | _ => none
/-- The word that the core runs next. -/
def pcAfter (i : Instr) (vs : List (Nat × Nat)) (w : Nat) : Option Nat :=
  match exec i (room z (regs vs) w) with
  | .next t => (t.rooms.cores.at 0).map (fun c => c.pc)
  | _ => none

/-- 2^32 − 1 plus 1 wraps to 0 (R121). -/
theorem test_add_wraps : r3 (.add 0) [(1, 0xFFFFFFFF), (2, 1)] (wd 2 3 1 2 0) = some 0 := by decide +kernel
/-- 0 minus 1. -/
theorem test_sub_borrows : r3 (.sub 0) [(2, 1)] (wd 3 3 1 2 0) = some 0xFFFFFFFF := by decide +kernel
/-- The low half of a product. -/
theorem test_mul_low : r3 (.mul 0) [(1, 0x10001), (2, 0x10001)] (wd 0x0A 3 1 2 0) = some 0x20001 := by decide +kernel
/-- A shift by an amount in the word: bit 13 says so. -/
theorem test_sra_sign : r3 (.sra 0) [(1, 0x80000000)] (wd 9 3 1 0 0x201F) = some 0xFFFFFFFF := by decide +kernel
/-- A shift by a register takes its low five bits. -/
theorem test_shl_modulo : r3 (.shl 0) [(1, 3), (2, 33)] (wd 7 3 1 2 0) = some 6 := by decide +kernel
/-- An immediate of −1 (18 bits). -/
theorem test_addi_negative : r3 (.addi 0) [(1, 5)] (wd 0x0C 3 1 15 0x3FFF) = some 4 := by decide +kernel
/-- Signed and unsigned comparison of −1 with 1. -/
theorem test_slt_signs : r3 (.slt 0) [(1, 0xFFFFFFFF), (2, 1)] (wd 0x0B 3 1 2 0) = some 1 ∧
    r3 (.slt 0) [(1, 0xFFFFFFFF), (2, 1)] (wd 0x0B 3 1 2 1) = some 0 := by decide +kernel
/-- 1 + 2 = 3, 1.5 × 1.5 = 2.25, and 1 / 3 rounded to nearest. -/
theorem test_fp32 : r3 (.fadd 0) [(1, 0x3F800000), (2, 0x40000000)] (wd 0x1B 3 1 2 0) = some 0x40400000 ∧
    r3 (.fmul 0) [(1, 0x3FC00000), (2, 0x3FC00000)] (wd 0x1B 3 1 2 2) = some 0x40100000 ∧
    r3 (.fdiv 0) [(1, 0x3F800000), (2, 0x40400000)] (wd 0x1B 3 1 2 3) = some 0x3EAAAAAB := by decide +kernel
/-- A branch of +2 words, counted from itself, taken and not taken (R119). -/
theorem test_beq : pcAfter (.beq 0) [(1, 7), (3, 7)] (wd 0x0E 3 1 0 2) = some 2 ∧
    pcAfter (.beq 0) [(1, 7), (3, 8)] (wd 0x0E 3 1 0 2) = some 1 := by decide +kernel

/-! ### Registers -/

/-- A register after a write of a value (R10): reserved bits stay 0, and events are cleared by ones. -/
def written (s : State) (addr v : Nat) (r : Reg) : Option Word :=
  match exec (.registerWrite (BitVec.ofNat 25 addr) false (BitVec.ofNat 64 v)) s with
  | .next t => some (t.io.reg r 0)
  | _ => none
theorem test_register_writes : written z 0x1001C 0xFFFFFFFF .FP_STAGE_BASE = some 0xFFFF8000#32 ∧
    written { z with io := z.io.put .FP_EVENT 0 7#32 } 0x10024 2 .FP_EVENT = some 5#32 ∧
    written z 0x10004 5 .FP_STATUS = some 0#32 := by decide +kernel

end Sys2Proof.Tests
end

section
/-! PROOFS. The scope statements: REGISTER_WRITE by words and by access codes (O2, O51), and the canonical form of memory (O57). -/

open Sys2Proof Sys2Proof.Machine Sys2Proof.Claims

namespace Sys2Proof.Machine

/-! ### Canonical tables are determined by what they read -/

section
variable {α : Type} {d : Nat → α}

/-- A canonical table lists no key needlessly: at its first key it differs from every table whose keys all lie above. -/
theorem SMap.get_head_ne_of_below {e : Nat × α} {m l : SMap α} (hm : SMap.Wf d (e :: m)) (hl : ∀ x ∈ l, e.1 < x.1) :
    SMap.get d (e :: m) e.1 ≠ SMap.get d l e.1 := by
  rw [SMap.get_below hl]
  simpa [SMap.get] using hm.2 e List.mem_cons_self

/-- Where canonical tables agree at the first key of one, the other begins no later. -/
theorem SMap.head_le_of_get_eq {e f : Nat × α} {m l : SMap α} (hm : SMap.Wf d (e :: m)) (hl : SMap.Wf d (f :: l))
    (h : SMap.get d (e :: m) e.1 = SMap.get d (f :: l) e.1) : f.1 ≤ e.1 := by
  by_contra hlt
  have hef : e.1 < f.1 := Nat.lt_of_not_le hlt
  exact SMap.get_head_ne_of_below hm (List.forall_mem_cons.mpr ⟨hef, fun x hx => hef.trans (hl.above x hx)⟩) h

theorem SMap.get_tail {e : Nat × α} {m : SMap α} (hm : SMap.Wf d (e :: m)) (k : Nat) :
    SMap.get d m k = if e.1 < k then SMap.get d (e :: m) k else d k := by
  split
  · next hk => exact (SMap.get_cons_of_lt hk).symm
  · next hk => exact SMap.get_below fun x hx => (Nat.le_of_not_lt hk).trans_lt (hm.above x hx)

/-- Canonical tables that read alike at every key are the same list. -/
theorem SMap.eq_of_get {l m : SMap α} (hl : SMap.Wf d l) (hm : SMap.Wf d m) (h : ∀ k, SMap.get d l k = SMap.get d m k) :
    l = m := by
  induction l generalizing m with
  | nil =>
    cases m with
    | nil => rfl
    | cons f m => exact absurd (h f.1).symm (SMap.get_head_ne_of_below hm (by simp))
  | cons e l ih =>
    cases m with
    | nil => exact absurd (h e.1) (SMap.get_head_ne_of_below hl (by simp))
    | cons f m =>
      have hkey : e.1 = f.1 := Nat.le_antisymm (SMap.head_le_of_get_eq hm hl (h f.1).symm) (SMap.head_le_of_get_eq hl hm (h e.1))
      have hval : e.2 = f.2 := by simpa [SMap.get, hkey] using h e.1
      have htail : l = m := ih hl.tail hm.tail fun k => by rw [SMap.get_tail hl, SMap.get_tail hm, hkey, h k]
      rw [Prod.ext hkey hval, htail]
end

/-- Canonical memories with the same failed and undefined channels that read alike, bytes and checks, are equal. -/
theorem Ram.eq_of_reads {l m : Ram} (hl : l.wf) (hm : m.wf) (hdead : l.dead = m.dead) (hlost : l.lost = m.lost)
    (hbyte : ∀ a, l.byte a = m.byte a) (hblk : ∀ k, SMap.get l.blkD l.blks k = SMap.get m.blkD m.blks k) : l = m := by
  obtain ⟨lb, lk, ld, ll⟩ := l
  obtain ⟨mb, mk, md, ml⟩ := m
  cases hdead
  cases hlost
  obtain rfl : lb = mb := SMap.eq_of_get hl.1 hm.1 hbyte
  obtain rfl : lk = mk := SMap.eq_of_get hl.2 hm.2 hblk
  rfl

/-! ### REGISTER_WRITE -/

theorem exec_registerWrite (addr : BitVec 25) (wide : Bool) (v : BitVec 64) (s : State) :
    exec (.registerWrite addr wide v) s = execRegisterWrite addr wide v s := rfl

theorem State.barGone_of_barShut {s : State} (h : s.barShut = false) : s.barGone = false := by
  simp only [State.barShut, Bool.or_eq_false_iff] at h
  exact h.1.1

section
variable {s : State} (addr : BitVec 25) (v : BitVec 64) (hgone : s.barGone = false) (hres : s.se.result ≠ 3)
include hgone hres

theorem registerWrite_word (h : addr.toNat % 4 = 0) :
    Goes (.registerWrite addr false v) s (s.barWrite addr.toNat (v.setWidth 32)) := by
  simp [Goes, exec_registerWrite, execRegisterWrite, hgone, hres, h]

theorem registerWrite_pair (h : addr.toNat % 8 = 0) : Goes (.registerWrite addr true v) s
    ((s.barWrite addr.toNat (v.setWidth 32)).barWrite (addr.toNat + 4) ((v >>> 32).setWidth 32)) := by
  simp [Goes, exec_registerWrite, execRegisterWrite, hgone, hres, h]

theorem registerWrite_misaligned (wide : Bool) (h : addr.toNat % (if wide then 8 else 4) ≠ 0) :
    Goes (.registerWrite addr wide v) s s := by
  cases wide with
  | false =>
    have h4 : addr.toNat % 4 ≠ 0 := h
    simp [Goes, exec_registerWrite, execRegisterWrite, ignored, hgone, hres, h4]
  | true =>
    have h8 : addr.toNat % 8 ≠ 0 := h
    simp [Goes, exec_registerWrite, execRegisterWrite, ignored, hgone, hres, h8]
end

/-- Outside every window, a write of a word that a register holds is a write of that register. -/
theorem State.barWrite_register {s : State} {off : Nat} {r : Reg} {i : Nat} (hshut : s.barShut = false) (hwin : noWindow off)
    (hreg : findReg off = some (r, i)) (v : Word) : s.barWrite off v = s.regWrite r i v := by
  obtain ⟨hregion, hmsix, -, hkeys⟩ := hwin
  have htab : ¬ (0x48000 ≤ off ∧ off < 0x50000) := by omega
  simp [State.barWrite, hshut, if_neg hregion, if_neg htab, if_neg hkeys, hreg]

section
variable {s : State} {r : Reg} {i : Nat} (hown : r.ownWrite = false) (hq : s.noQueue r i = false) (v : Word)
include hown hq

theorem State.regWrite_of_ro (hacc : r.spec.acc = .ro) : s.regWrite r i v = s := by simp [State.regWrite, hown, hq, hacc]

theorem State.regWrite_of_w1c (hacc : r.spec.acc = .w1c) :
    s.regWrite r i v = s.mapIo (fun io => io.put r i (io.reg r i &&& ~~~(clearMask r v))) := by
  simp [State.regWrite, hown, hq, hacc]

theorem State.regWrite_of_rw (hacc : r.spec.acc = .rw) : s.regWrite r i v = s.store r i v := by
  simp [State.regWrite, hown, hq, hacc]
end

/-- An RW register is stored without its Reserved bits, but for XL_RING_CTRL and the three that write into an access-counter window. -/
theorem State.store_masked (s : State) {r : Reg} (i : Nat) (v : Word)
    (hr : r ∉ ([.XL_RING_CTRL, .XL_CW_AS, .XL_CW_BASE_LO, .XL_CW_BASE_HI] : List Reg)) :
    s.store r i v = s.mapIo (fun io => io.put r i (v &&& r.spec.mask)) := by
  unfold State.store
  split
  case h_5 => rfl
  all_goals simp at hr

end Sys2Proof.Machine

namespace Sys2Proof.Claims

/-- Settles O57: every writer keeps the canonical form, and a canonical table is determined by what it reads. -/
theorem memoryIsCanonical : Obligations.MemoryIsCanonical := by
  intro m hm
  refine ⟨fun a bs => ⟨Ram.poke_wf hm a bs, Ram.read_poke hm a bs, fun j hj => ?_⟩, Ram.write_wf hm, Ram.carry_wf hm,
    Ram.setBlk_wf hm, fun l hl => Ram.eq_of_reads hl hm⟩
  exact Ram.byte_poke_other hm (by omega)

/-- Settles O51: outside the windows a word's write is its register's, and that goes by the access code. -/
theorem registerWriteRules : Obligations.RegisterWriteRules := by
  intro s addr v r i hshut hres halign hwin hreg hown hq
  have hgoes := registerWrite_word addr v (State.barGone_of_barShut hshut) hres halign
  rw [State.barWrite_register hshut hwin hreg] at hgoes
  refine ⟨fun hacc => ?_, fun hacc => ?_, fun hacc hr => ?_⟩
  · rwa [State.regWrite_of_ro hown hq _ hacc] at hgoes
  · rwa [State.regWrite_of_w1c hown hq _ hacc] at hgoes
  · rwa [State.regWrite_of_rw hown hq _ hacc, State.store_masked s i _ hr] at hgoes

/-- Settles O2: an aligned write is its words in address order, any other is discarded. -/
theorem registerWriteByWords : Obligations.RegisterWriteByWords := by
  intro s addr v hgone hres
  exact ⟨registerWrite_word addr v hgone hres, registerWrite_pair addr v hgone hres,
    registerWrite_misaligned addr v hgone hres false, registerWrite_misaligned addr v hgone hres true⟩

end Sys2Proof.Claims
end

section
/-! PROOFS. The floor plan loader (chapter 2): its commands, ABORT and DISCARD, the busy loader, and the events that follow
(O3, O4, O5, O52). -/

open Sys2Proof Sys2Proof.Machine Sys2Proof.Claims

namespace Sys2Proof.Machine

/-! ### The loader's rows of the dispatch -/

theorem exec_fpFetch (s : State) : exec .fpFetch s = execFpFetch s := rfl
theorem exec_fpVerify (s : State) : exec .fpVerify s = execFpVerify s := rfl
theorem exec_fpApply (s : State) : exec .fpApply s = execFpApply s := rfl
theorem exec_fpAmend (s : State) : exec .fpAmend s = execFpAmend s := rfl
theorem exec_fpAbort (s : State) : exec .fpAbort s = execFpAbort s := rfl
theorem exec_fpDiscard (s : State) : exec .fpDiscard s = execFpDiscard s := rfl
theorem exec_fpBadCommand (cmd : Fin 16) (s : State) : exec (.fpBadCommand cmd) s = execFpBadCommand cmd s := rfl
theorem exec_fpLenWrite (v : BitVec 32) (s : State) : exec (.fpLenWrite v) s = execFpLenWrite v s := rfl
theorem exec_stagingWrite (off : Fin 32768) (wide : Bool) (v : BitVec 64) (s : State) :
    exec (.stagingWrite off wide v) s = execStagingWrite off wide v s := rfl
theorem exec_fetchReadCompletion (off : Nat) (bytes : List Byte) (ok : Bool) (s : State) :
    exec (.fetchReadCompletion off bytes ok) s = execFetchReadCompletion off bytes ok s := rfl
theorem exec_verifyComplete (s : State) : exec .verifyComplete s = execVerifyComplete s := rfl
theorem exec_applicationComplete (fault : Option (Bool × Nat)) (s : State) :
    exec (.applicationComplete fault) s = execApplicationComplete fault s := rfl
theorem exec_amendmentEffect (s : State) : exec .amendmentEffect s = execAmendmentEffect s := rfl
theorem exec_fpDrainWrite (k : Fin 5) (v : BitVec 32) (s : State) : exec (.fpDrainWrite k v) s = execFpDrainWrite k v s := rfl
theorem exec_unitDrained (kind : Fin 3) (n : Fin 64) (s : State) : exec (.unitDrained kind n) s = execUnitDrained kind n s := rfl

/-! ### When the loader answers, and when it is idle -/

theorem State.keeperUp_of_result {s : State} (h : s.se.result ≠ 3) : s.keeperUp = true := by simp [State.keeperUp, h]

/-- In the states between commands the loader is idle (Table 2-7). -/
theorem Loader.idle {l : Loader} (h : l.st = .empty ∨ l.st = .loaded ∨ l.st = .verified ∨ l.st = .failed) : l.busy = false := by
  rcases h with h | h | h | h <;> simp [Loader.busy, h]

/-! ### The empty image store -/

theorem SMap.get_of_absent {α : Type} {d : Nat → α} {m : SMap α} {k : Nat} (h : ∀ x ∈ m, x.1 ≠ k) : SMap.get d m k = d k := by
  induction m with
  | nil => rfl
  | cons e m ih =>
    have hne : k ≠ e.1 := (h e List.mem_cons_self).symm
    simp [SMap.get, hne, ih fun x hx => h x (List.mem_cons_of_mem _ hx)]

/-- No channel's loss reaches the stores above the sheets. -/
theorem Ram.dflt_of_store (m : Ram) {a : Nat} (h : 2 ^ 40 ≤ a) : m.dflt a = 0 := by
  have hlost : m.lostAt a = none := if_neg (Nat.not_lt.mpr h)
  simp [Ram.dflt, hlost, memDflt]

theorem Ram.byte_noImage (m : Ram) {n : Nat} (h : n < 4194304) : m.noImage.byte (imageAddr n) = 0 := by
  have habsent : ∀ x ∈ m.noImage.bytes, x.1 ≠ imageAddr n := by
    intro x hx hk
    simp only [Ram.noImage, SMap.drop, List.mem_filter, hk, imageAddr, Bool.not_eq_true', decide_eq_false_iff_not] at hx
    omega
  exact (SMap.get_of_absent habsent).trans (m.noImage.dflt_of_store (by simp only [imageAddr]; omega))

/-! ### The loader's commands, at an open window -/

section
variable {s : State} (hshut : s.barShut = false) (hup : s.keeperUp = true)
include hshut hup

/-- R53: while a command executes, the five other commands are refused. -/
theorem loaderCommand_busy (hbusy : s.fp.busy = true) {i : Instr}
    (hi : i ∈ ([.fpFetch, .fpVerify, .fpApply, .fpAmend, .fpDiscard] : List Instr)) : Goes i s (s.fpRefuse 0x13) := by
  simp only [List.mem_cons, List.not_mem_nil, or_false] at hi
  rcases hi with rfl | rfl | rfl | rfl | rfl
  · simp [Goes, exec_fpFetch, execFpFetch, hshut, hup, hbusy]
  · simp [Goes, exec_fpVerify, execFpVerify, hshut, hup, hbusy]
  · simp [Goes, exec_fpApply, execFpApply, State.fpApply, hshut, hup, hbusy]
  · simp [Goes, exec_fpAmend, execFpAmend, State.fpAmend, hshut, hup, hbusy]
  · simp [Goes, exec_fpDiscard, execFpDiscard, hshut, hup, hbusy]

theorem fpBadCommand_refused (cmd : Fin 16) (hcmd : cmd.val = 0 ∨ 6 < cmd.val) :
    Goes (.fpBadCommand cmd) s (s.fpRefuse (if s.fp.busy then 0x13 else 0x16)) := by
  have hunknown : ¬ (1 ≤ cmd.val ∧ cmd.val ≤ 6) := by omega
  simp only [Goes, exec_fpBadCommand, execFpBadCommand, hshut, hup, hunknown]
  simp

section
variable (hst : s.fp.st = .empty) (hsrc : s.fp.source = 0 ∨ s.fp.source = 2) (halign : s.io.val .FP_SRC_LO % 16 = 0)
include hst hsrc halign

theorem fpFetch_nothing (hlen : s.io.val .FP_LEN = 0) :
    Goes .fpFetch s (s.setFp fun l => { l with source := 2, st := .loaded, len := 0 }) := by
  have howner : ¬ (s.fp.source ≠ 0 ∧ s.fp.source ≠ 2) := by omega
  simp only [Goes, exec_fpFetch, execFpFetch, hshut, hup, Loader.idle (.inl hst), howner, hst, halign, hlen]
  rfl

theorem fpFetch_asks (hpos : 0 < s.io.val .FP_LEN) (hfit : s.io.val .FP_LEN ≤ 4194304) :
    Goes .fpFetch s ((s.hostAsk (s.io.val .FP_SRC_LO + s.io.val .FP_SRC_HI * 2 ^ 32) (s.io.val .FP_LEN)).setFp fun l =>
      { l with source := 2, st := .loading, want := s.io.val .FP_LEN, landed := [] }) := by
  have howner : ¬ (s.fp.source ≠ 0 ∧ s.fp.source ≠ 2) := by omega
  simp only [Goes, exec_fpFetch, execFpFetch, hshut, hup, Loader.idle (.inl hst), howner, hst, halign,
    if_neg (Nat.not_lt.mpr hfit), if_neg hpos.ne']
  rfl
end

section
variable (hst : s.fp.st = .loaded)
include hst

theorem fpVerify_starts : Goes .fpVerify s (s.startVerify .verify) := by
  simp [Goes, exec_fpVerify, execFpVerify, hshut, hup, Loader.idle (.inr (.inl hst)), hst]

theorem fpApply_starts (hkind : s.imageKind ≠ 2) : Goes .fpApply s (s.startVerify .apply) := by
  simp [Goes, exec_fpApply, execFpApply, State.fpApply, hshut, hup, Loader.idle (.inr (.inl hst)), hst, hkind]

theorem fpAmend_starts (hkind : s.imageKind ≠ 1) : Goes .fpAmend s (s.startVerify .amend) := by
  simp [Goes, exec_fpAmend, execFpAmend, State.fpAmend, hshut, hup, Loader.idle (.inr (.inl hst)), hst, hkind]
end

section
variable (hst : s.fp.st = .verified) (hpend : s.fp.pending = false)
include hst hpend

theorem fpApply_verified (hkind : s.imageKind ≠ 2) : Goes .fpApply s s.applyVerified := by
  simp [Goes, exec_fpApply, execFpApply, State.fpApply, hshut, hup, Loader.idle (.inr (.inr (.inl hst))), hst,
    hpend, hkind]

/-- An amendment without a cycle table has no boundary to be late for (R43). -/
theorem fpAmend_verified (hkind : s.imageKind ≠ 1) (htable : s.fp.sections.lookup 0x21 = none) :
    Goes .fpAmend s (s.setFp fun l => { l with pending := true }) := by
  simp [Goes, exec_fpAmend, execFpAmend, State.fpAmend, hshut, hup, Loader.idle (.inr (.inr (.inl hst))), hst,
    hpend, hkind, htable]
end

/-- R52: ABORT stops a load, a verification or a pending amendment. -/
theorem fpAbort_stops (hst : s.fp.st = .loading ∨ s.fp.st = .verifying ∨ (s.fp.st = .verified ∧ s.fp.pending = true)) :
    Goes .fpAbort s (s.fpFail ⟨0x15, 0, 0⟩) := by
  rcases hst with hst | hst | ⟨hst, hpend⟩
  · simp [Goes, exec_fpAbort, execFpAbort, hshut, hup, hst]
  · simp [Goes, exec_fpAbort, execFpAbort, hshut, hup, hst]
  · simp [Goes, exec_fpAbort, execFpAbort, hshut, hup, hst, hpend]

theorem fpAbort_applying (hst : s.fp.st = .applying) : Goes .fpAbort s (s.fpRefuse 0x13) := by
  simp [Goes, exec_fpAbort, execFpAbort, hshut, hup, hst]

/-- R52: DISCARD returns a settled store to EMPTY. -/
theorem fpDiscard_empties (hst : s.fp.st = .loaded ∨ s.fp.st = .verified ∨ s.fp.st = .failed) :
    Goes .fpDiscard s (s.fpEmpty.mapIo fun io => io.putN .FP_ERROR 0 0) := by
  have hidle := Loader.idle (.inr hst)
  rcases hst with hst | hst | hst <;> simp [Goes, exec_fpDiscard, execFpDiscard, hshut, hup, hidle, hst]

theorem fpLenWrite_stores (v : BitVec 32) (hst : ¬ (s.fp.st = .loading ∧ s.fp.source = 1)) :
    Goes (.fpLenWrite v) s (s.mapIo fun io => io.put .FP_LEN 0 v) := by
  simp [Goes, exec_fpLenWrite, execFpLenWrite, hshut, hup, hst]

/-- R33: FP_LEN ends a load through the boot window. -/
theorem fpLenWrite_completes (v : BitVec 32) (hst : s.fp.st = .loading) (hsrc : s.fp.source = 1) : Goes (.fpLenWrite v) s
    ((s.mapIo fun io => io.put .FP_LEN 0 v).setFp fun l => { l with st := .loaded, len := v.toNat }) := by
  simp [Goes, exec_fpLenWrite, execFpLenWrite, hshut, hup, hst, hsrc]

theorem stagingWrite_lands (off : Fin 32768) (v : BitVec 64) (halign : off.val % 4 = 0)
    (hfit : s.io.val .FP_STAGE_BASE + off + 4 ≤ 4194304) (hst : s.fp.st = .empty ∨ (s.fp.st = .loading ∧ s.fp.source = 1)) :
    Goes (.stagingWrite off false v) s
      ({ s with ram := s.ram.poke (imageAddr (s.io.val .FP_STAGE_BASE + off)) (bytesOf v.toNat 4) }.setFp fun l =>
        { l with st := .loading, source := 1 }) := by
  have hlands := And.intro hst hfit
  simp [Goes, exec_stagingWrite, execStagingWrite, State.barGone_of_barShut hshut, hup, halign, hlands]

theorem fpDrainWrite_stores (k : Fin 5) (v : BitVec 32) : Goes (.fpDrainWrite k v) s (s.mapIo fun io =>
    (io.put (drainRegs k).1 0 (v &&& (drainRegs k).1.spec.mask)).put (drainRegs k).2 0
      (io.reg (drainRegs k).2 &&& (v &&& (drainRegs k).1.spec.mask))) := by
  simp [Goes, exec_fpDrainWrite, execFpDrainWrite, hshut, hup]
end

/-! ### A fetch's bytes, and a verification's end -/

section
variable {s : State}

theorem fetchReadCompletion_lands {off : Nat} {bytes : List Byte} (hst : s.fp.st = .loading) (hsrc : s.fp.source = 2)
    (hbytes : bytes ≠ []) (hfit : off + bytes.length ≤ s.fp.want) (hnew : runMeets off bytes.length s.fp.landed = false) :
    Goes (.fetchReadCompletion off bytes true) s ({ s with ram := s.ram.poke (imageAddr off) bytes }.setFp fun l => { l with
      landed := addRun off bytes.length s.fp.landed, len := l.want
      st := if runBytes (addRun off bytes.length s.fp.landed) = l.want then .loaded else l.st }) := by
  simp [Goes, exec_fetchReadCompletion, execFetchReadCompletion, hst, hsrc, hbytes, hfit, hnew]

/-- What a passed verification leaves in the loader (R34). -/
def State.passed (s : State) (secs : List (Nat × List Byte)) (e : Nat) : State :=
  s.setFp fun l => { l with st := .verified, sections := secs, effective := e }

section
variable (hst : s.fp.st = .verifying)
include hst

theorem verifyComplete_fails {b : Bad}
    (h : s.verify s.image' (if s.fp.cmd = .verify then none else some s.fp.amendAt) = .inr b) :
    Goes .verifyComplete s (s.fpFail b) := by
  simp [Goes, exec_verifyComplete, execVerifyComplete, hst, h]

variable {secs : List (Nat × List Byte)} {e : Nat}
  (h : s.verify s.image' (if s.fp.cmd = .verify then none else some s.fp.amendAt) = .inl (secs, e))
include h

theorem verifyComplete_verified (hcmd : s.fp.cmd = .verify) : Goes .verifyComplete s (s.passed secs e) := by
  simp only [Goes, exec_verifyComplete, execVerifyComplete, hst, h]
  simp only [State.setFp_fp, hcmd]
  rfl

theorem verifyComplete_pending (hcmd : s.fp.cmd = .amend) :
    Goes .verifyComplete s ((s.passed secs e).setFp fun l => { l with pending := true }) := by
  simp only [Goes, exec_verifyComplete, execVerifyComplete, hst, h]
  simp only [State.setFp_fp, hcmd]
  rfl

theorem verifyComplete_applies (hcmd : s.fp.cmd = .apply) : Goes .verifyComplete s (s.passed secs e).applyVerified := by
  simp only [Goes, exec_verifyComplete, execVerifyComplete, hst, h]
  simp only [State.setFp_fp, hcmd]
  rfl
end
end

/-- The drain check looks at the plan and the units, not at the loader. -/
theorem State.drainBad_passed (s : State) (secs' secs : List (Nat × List Byte)) (e : Nat) :
    (s.passed secs' e).drainBad secs = s.drainBad secs := rfl

theorem State.applyVerified_of_drained {s : State} (h : s.drainBad s.fp.sections = none) : s.applyVerified = s.startApply := by
  simp [State.applyVerified, h]

/-! ### What installing a section leaves of the plan -/

theorem foldl_plan {α : Type} (f : State → α → State) (h : ∀ s x, (f s x).plan = s.plan) (l : List α) (s : State) :
    (l.foldl f s).plan = s.plan := by
  induction l generalizing s with
  | nil => rfl
  | cons x l ih => rw [List.foldl_cons, ih, h]

@[simp] theorem State.fpEmpty_plan (s : State) : s.fpEmpty.plan = s.plan := rfl

@[simp] theorem State.recap_plan (s : State) : s.recap.plan = s.plan := by
  unfold State.recap
  have hcaps := foldl_plan (fun (u : State) st => u.setStk st (fun k => { k with cap := u.govCap st })) (fun _ _ => rfl) s.serving s
  dsimp only
  split
  · exact hcaps
  · exact hcaps

@[simp] theorem State.realert_plan (s : State) : s.realert.plan = s.plan := rfl

@[simp] theorem State.stepPorch_plan (s : State) : s.stepPorch.plan = s.plan := by
  unfold State.stepPorch
  dsimp only
  split
  · rfl
  · simp [State.installPorch]

@[simp] theorem State.electMaster_plan (s : State) : s.electMaster.plan = s.plan := by
  unfold State.electMaster
  dsimp only
  split_ifs <;> rfl

@[simp] theorem State.toHoldover_plan (s : State) : s.toHoldover.plan = s.plan := by simp [State.toHoldover]

@[simp] theorem State.loseSource_plan (s : State) : s.loseSource.plan = s.plan := by
  unfold State.loseSource
  dsimp only
  split_ifs <;> simp

@[simp] theorem State.dropLocal_plan (s : State) : s.dropLocal.plan = s.plan := rfl

@[simp] theorem State.stepMeridian_plan (s : State) (old : Plan) (c : Nat) : (s.stepMeridian old c).plan = s.plan := by
  unfold State.stepMeridian
  dsimp only
  split_ifs <;> simp

/-- The sections that the verified amendment carries replace those of the plan in force (R44). -/
def State.amended (s : State) : State :=
  { s with plan := { s.plan with sections := mergeSecs s.plan.sections s.fp.sections } }

theorem amendmentEffect_replaces {s : State} (hdue : s.amendDue = true) (hactive : s.plan.active = true)
    (hfirst : s.comesFirst s.fp.effective 2 = true) : Goes .amendmentEffect s
      ((s.amended.stepPorch.stepMeridian s.plan s.fp.effective).fpEmpty.mapIo fun io =>
        (io.putN .FP_AMEND_SEQ 0 (s.io.val .FP_AMEND_SEQ + 1)).event .FP_EVENT 0 2) := by
  rw [Goes, exec_amendmentEffect, execAmendmentEffect, if_pos ⟨hdue, hactive, hfirst⟩]
  rfl

/-! ### A drained unit -/

theorem unitDrained_answers {s : State} {kind : Fin 3} {i : Fin 64} {k : Nat} (hstack : kind.val = 0 → i.val < 16)
    (hk : k = (if kind.val = 0 then 0 else 2 * kind.val - 1 + i.val / 32))
    (hreq : (s.io.reg (drainRegs k).1).getLsbD (i.val % 32) = true) (hidle : s.unitIdle kind i = true) :
    Goes (.unitDrained kind i) s (s.mapIo fun io => io.setBit (drainRegs k).2 0 (i.val % 32) true) := by
  obtain ⟨kind, hkind⟩ := kind
  interval_cases kind
  · obtain rfl : k = 0 := hk
    have h16 : i.val < 16 := hstack rfl
    simp [Goes, exec_unitDrained, execUnitDrained, hreq, h16, hidle]
  · have hk : k = 1 + i.val / 32 := hk
    have hindex : k = if i.val < 32 then 1 else 2 := by split <;> omega
    simp [Goes, exec_unitDrained, execUnitDrained, ← hindex, hreq, hidle]
  · have hk : k = 3 + i.val / 32 := hk
    have hindex : k = if i.val < 32 then 3 else 4 := by split <;> omega
    simp [Goes, exec_unitDrained, execUnitDrained, ← hindex, hreq, hidle]

end Sys2Proof.Machine

namespace Sys2Proof.Claims

/-- Settles O5: each event by what it does where it applies; an amendment's installation leaves the merged plan alone. -/
theorem loaderEventsRun : Obligations.LoaderEventsRun := by
  intro s
  refine ⟨fun off bytes hst hsrc hbytes hfit hnew => ?_, fun hst r hr => ⟨fun b hb => ?_, fun secs e hpass => ⟨?_, ?_, ?_⟩⟩,
    fun fault hst => ?_, fun hdue hactive hfirst => ?_,
    fun k v hshut hres => fpDrainWrite_stores hshut (State.keeperUp_of_result hres) k v, fun _ _ _ => unitDrained_answers⟩
  · have hgoes := fetchReadCompletion_lands hst hsrc hbytes hfit hnew
    rwa [State.setFp, hst] at hgoes
  · exact verifyComplete_fails hst (hr.symm.trans hb)
  · exact verifyComplete_verified hst (hr.symm.trans hpass)
  · exact verifyComplete_pending hst (hr.symm.trans hpass)
  · intro hcmd hdrained
    have hgoes := verifyComplete_applies hst (hr.symm.trans hpass) hcmd
    rw [State.applyVerified_of_drained ((s.drainBad_passed secs secs e).trans hdrained)] at hgoes
    exact ⟨_, hgoes, rfl, rfl, rfl, rfl⟩
  · simp [Goes, exec_applicationComplete, execApplicationComplete, hst]
  · exact ⟨_, amendmentEffect_replaces hdue hactive hfirst, rfl, by simp [State.amended]⟩

/-- Settles O52: the store's states that ABORT stops, the one that refuses it, and those that DISCARD empties. -/
theorem abortAndDiscard : Obligations.AbortAndDiscard := by
  intro s hshut hres
  have hup := State.keeperUp_of_result hres
  refine ⟨fpAbort_stops hshut hup, fpAbort_applying hshut hup, fun hst => ?_⟩
  exact ⟨_, fpDiscard_empties hshut hup hst, rfl, rfl, rfl, fun n hn => s.ram.byte_noImage hn⟩

/-- Settles O3: each command's outcome in the store's states that let it run. -/
theorem loaderCommandsRun : Obligations.LoaderCommandsRun := by
  intro s hshut hres
  have hup := State.keeperUp_of_result hres
  refine ⟨fun hst hsrc halign => ⟨fpFetch_nothing hshut hup hst hsrc halign, fpFetch_asks hshut hup hst hsrc halign⟩,
    fun hst => ⟨fpVerify_starts hshut hup hst, fpApply_starts hshut hup hst, fpAmend_starts hshut hup hst,
      fpDiscard_empties hshut hup (.inl hst)⟩,
    fun hst hpend => ⟨fpApply_verified hshut hup hst hpend, fpAmend_verified hshut hup hst hpend⟩,
    fun hst => fpAbort_stops hshut hup (.inl hst), fpLenWrite_stores hshut hup, fpLenWrite_completes hshut hup,
    fun cmd hcmd hidle => ?_, stagingWrite_lands hshut hup⟩
  have hgoes := fpBadCommand_refused hshut hup cmd hcmd
  rwa [hidle] at hgoes

/-- Settles O4: BUSY is judged before anything else of a command. -/
theorem busyLoaderRefuses : Obligations.BusyLoaderRefuses := by
  intro s hshut hres hbusy
  have hup := State.keeperUp_of_result hres
  refine ⟨fun i hi => loaderCommand_busy hshut hup hbusy hi, fun cmd hcmd => ?_⟩
  have hgoes := fpBadCommand_refused hshut hup cmd hcmd
  rwa [hbusy] at hgoes

end Sys2Proof.Claims
end

section
/-! PROOFS. The step and meridian time (chapter 3): the queue and the tick (O44, O43), the latched reads (O1), and the register
table out of order that TIME's clause does not exclude (O6). -/

open Sys2Proof Sys2Proof.Machine Sys2Proof.Claims

namespace Sys2Proof.Machine

/-! ### What a command leaves of the queue and the fuses -/

/-- Every command but the six that burn leaves the queue and the fuses as they were: the dispatch, arm by arm. -/
theorem exec_keeps {i : Instr} (hi : i ∉ burners) (s : State) : Keeps s (exec i s) :=
  match i, hi with
  | .registerWrite addr wide v, _ => exec_registerWrite_keeps addr wide v s
  | .merCountLoRead, _ => exec_merCountLoRead_keeps s
  | .merFrameStartLoRead, _ => exec_merFrameStartLoRead_keeps s
  | .wgRowsLoRead st, _ => exec_wgRowsLoRead_keeps st s
  | .wgBatchStepLoRead st, _ => exec_wgBatchStepLoRead_keeps st s
  | .mxFeedLoRead a, _ => exec_mxFeedLoRead_keeps a s
  | .mxAtticHitsLoRead, _ => exec_mxAtticHitsLoRead_keeps s
  | .veBusyLoRead a, _ => exec_veBusyLoRead_keeps a s
  | .upContribLoRead st, _ => exec_upContribLoRead_keeps st s
  | .upCloseLoRead, _ => exec_upCloseLoRead_keeps s
  | .fbFecCorrLoRead p, _ => exec_fbFecCorrLoRead_keeps p s
  | .fbTxFlitsLoRead p, _ => exec_fbTxFlitsLoRead_keeps p s
  | .fbRxFlitsLoRead p, _ => exec_fbRxFlitsLoRead_keeps p s
  | .hcLbAcceptedLoRead, _ => exec_hcLbAcceptedLoRead_keeps s
  | .xlHitsLoRead, _ => exec_xlHitsLoRead_keeps s
  | .cfCommandsLoRead, _ => exec_cfCommandsLoRead_keeps s
  | .cfCapCountLoRead, _ => exec_cfCapCountLoRead_keeps s
  | .scGrpEngineLoRead, _ => exec_scGrpEngineLoRead_keeps s
  | .scGrpGrantsLoRead, _ => exec_scGrpGrantsLoRead_keeps s
  | .scGrpFlitsLoRead, _ => exec_scGrpFlitsLoRead_keeps s
  | .scGrpDmaLoRead, _ => exec_scGrpDmaLoRead_keeps s
  | .rlEccCorrLoRead, _ => exec_rlEccCorrLoRead_keeps s
  | .rlLogCountLoRead, _ => exec_rlLogCountLoRead_keeps s
  | .trLatchLoRead, _ => exec_trLatchLoRead_keeps s
  | .fpFetch, _ => exec_fpFetch_keeps s
  | .fpVerify, _ => exec_fpVerify_keeps s
  | .fpApply, _ => exec_fpApply_keeps s
  | .fpAmend, _ => exec_fpAmend_keeps s
  | .fpAbort, _ => exec_fpAbort_keeps s
  | .fpDiscard, _ => exec_fpDiscard_keeps s
  | .fpBadCommand cmd, _ => exec_fpBadCommand_keeps cmd s
  | .stagingWrite off wide v, _ => exec_stagingWrite_keeps off wide v s
  | .fpLenWrite v, _ => exec_fpLenWrite_keeps v s
  | .fetchReadCompletion off bytes ok, _ => exec_fetchReadCompletion_keeps off bytes ok s
  | .verifyComplete, _ => exec_verifyComplete_keeps s
  | .applicationComplete fault, _ => exec_applicationComplete_keeps fault s
  | .amendmentEffect, _ => exec_amendmentEffect_keeps s
  | .fpDrainWrite k v, _ => exec_fpDrainWrite_keeps k v s
  | .unitDrained kind i, _ => exec_unitDrained_keeps kind i s
  | .pulseEdge falling, _ => exec_pulseEdge_keeps falling s
  | .refLost noEdges, _ => exec_refLost_keeps noEdges s
  | .holdoverAlarm, _ => exec_holdoverAlarm_keeps s
  | .masterChange, _ => exec_masterChange_keeps s
  | .merCtrlStep v, _ => exec_merCtrlStep_keeps v s
  | .countStep, _ => exec_countStep_keeps s
  | .slotBoundary, _ => exec_slotBoundary_keeps s
  | .epochClose, _ => exec_epochClose_keeps s
  | .flip, _ => exec_flip_keeps s
  | .digestComparison g, _ => exec_digestComparison_keeps g s
  | .watchdogExpiry launch id, _ => exec_watchdogExpiry_keeps launch id s
  | .plannedRetrain st ph, _ => exec_plannedRetrain_keeps st ph s
  | .unplannedRetrain st ph, _ => exec_unplannedRetrain_keeps st ph s
  | .retrainDone st ph ok, _ => exec_retrainDone_keeps st ph ok s
  | .channelFail st ph, _ => exec_channelFail_keeps st ph s
  | .burnRow st, _ => exec_burnRow_keeps st s
  | .burnColumn st, _ => exec_burnColumn_keeps st s
  | .burnRoom st, _ => exec_burnRoom_keeps st s
  | .repairBadArg st, _ => exec_repairBadArg_keeps st s
  | .burnDone st ok, _ => exec_burnDone_keeps st ok s
  | .softRowSpare st, _ => exec_softRowSpare_keeps st s
  | .refresh st ph storey, _ => exec_refresh_keeps st ph storey s
  | .scrubWindow k, _ => exec_scrubWindow_keeps k s
  | .scrubBlock st corrected raced unc, _ => exec_scrubBlock_keeps st corrected raced unc s
  | .scrubWindowEnd, _ => exec_scrubWindowEnd_keeps s
  | .calibrateWindow k, _ => exec_calibrateWindow_keeps k s
  | .calibrationStep st, _ => exec_calibrationStep_keeps st s
  | .calWindowEnd, _ => exec_calWindowEnd_keeps s
  | .contentAccept st, _ => exec_contentAccept_keeps st s
  | .contentClear st, _ => exec_contentClear_keeps st s
  | .contentVerifyDone st, _ => exec_contentVerifyDone_keeps st s
  | .contentClearDone st, _ => exec_contentClearDone_keeps st s
  | .roomCall wk, _ => exec_roomCall_keeps wk s
  | .directRead r o, _ => exec_directRead_keeps r o s
  | .illegal r, _ => exec_illegal_keeps r s
  | .nop r, _ => exec_nop_keeps r s
  | .add r, _ => exec_add_keeps r s
  | .sub r, _ => exec_sub_keeps r s
  | .and r, _ => exec_and_keeps r s
  | .or r, _ => exec_or_keeps r s
  | .xor r, _ => exec_xor_keeps r s
  | .shl r, _ => exec_shl_keeps r s
  | .shr r, _ => exec_shr_keeps r s
  | .sra r, _ => exec_sra_keeps r s
  | .mul r, _ => exec_mul_keeps r s
  | .slt r, _ => exec_slt_keeps r s
  | .addi r, _ => exec_addi_keeps r s
  | .lui r, _ => exec_lui_keeps r s
  | .beq r, _ => exec_beq_keeps r s
  | .bne r, _ => exec_bne_keeps r s
  | .blt r, _ => exec_blt_keeps r s
  | .bge r, _ => exec_bge_keeps r s
  | .jal r, _ => exec_jal_keeps r s
  | .jr r, _ => exec_jr_keeps r s
  | .loop r, _ => exec_loop_keeps r s
  | .lds r, _ => exec_lds_keeps r s
  | .sts r, _ => exec_sts_keeps r s
  | .ldsv r, _ => exec_ldsv_keeps r s
  | .stsv r, _ => exec_stsv_keeps r s
  | .ldc r, _ => exec_ldc_keeps r s
  | .ldcv r, _ => exec_ldcv_keeps r s
  | .fadd r, _ => exec_fadd_keeps r s
  | .fsub r, _ => exec_fsub_keeps r s
  | .fmul r, _ => exec_fmul_keeps r s
  | .fdiv r, _ => exec_fdiv_keeps r s
  | .fsqrt r, _ => exec_fsqrt_keeps r s
  | .frsq r, _ => exec_frsq_keeps r s
  | .fmin r, _ => exec_fmin_keeps r s
  | .fmax r, _ => exec_fmax_keeps r s
  | .itof r, _ => exec_itof_keeps r s
  | .ftoi r, _ => exec_ftoi_keeps r s
  | .flt r, _ => exec_flt_keeps r s
  | .vadd r, _ => exec_vadd_keeps r s
  | .vmul r, _ => exec_vmul_keeps r s
  | .vfma r, _ => exec_vfma_keeps r s
  | .vmax r, _ => exec_vmax_keeps r s
  | .vcvt r, _ => exec_vcvt_keeps r s
  | .vsplat r, _ => exec_vsplat_keeps r s
  | .vsum r, _ => exec_vsum_keeps r s
  | .vmovGet r, _ => exec_vmovGet_keeps r s
  | .vmovPut r, _ => exec_vmovPut_keeps r s
  | .rfetch r, _ => exec_rfetch_keeps r s
  | .rput r, _ => exec_rput_keeps r s
  | .rfetchDone r slot, _ => exec_rfetchDone_keeps r slot s
  | .rputDone r slot, _ => exec_rputDone_keeps r slot s
  | .rcheck r, _ => exec_rcheck_keeps r s
  | .dqaccAssign r, _ => exec_dqaccAssign_keeps r s
  | .dqaccAdd r, _ => exec_dqaccAdd_keeps r s
  | .dqaccMax r, _ => exec_dqaccMax_keeps r s
  | .scale r, _ => exec_scale_keeps r s
  | .pack r, _ => exec_pack_keeps r s
  | .fupd r, _ => exec_fupd_keeps r s
  | .rseed r, _ => exec_rseed_keeps r s
  | .rand r, _ => exec_rand_keeps r s
  | .recv r, _ => exec_recv_keeps r s
  | .recvDone r, _ => exec_recvDone_keeps r s
  | .send r, _ => exec_send_keeps r s
  | .sendDone r, _ => exec_sendDone_keeps r s
  | .wait r, _ => exec_wait_keeps r s
  | .evt r, _ => exec_evt_keeps r s
  | .fence r, _ => exec_fence_keeps r s
  | .gets r, _ => exec_gets_keeps r s
  | .endCall r, _ => exec_endCall_keeps r s
  | .trap r, _ => exec_trap_keeps r s
  | .limit r, _ => exec_limit_keeps r s
  | .callCancel r, _ => exec_callCancel_keeps r s
  | .rmFlogClear st v, _ => exec_rmFlogClear_keeps st v s
  | .batchBoundary b, _ => exec_batchBoundary_keeps b s
  | .tileAccept a, _ => exec_tileAccept_keeps a s
  | .tileFinish a, _ => exec_tileFinish_keeps a s
  | .atticFillDone line, _ => exec_atticFillDone_keeps line s
  | .chainStart a, _ => exec_chainStart_keeps a s
  | .chainComplete a, _ => exec_chainComplete_keeps a s
  | .chainLoadApply a, _ => exec_chainLoadApply_keeps a s
  | .engineRun a, _ => exec_engineRun_keeps a s
  | .engineGather a, _ => exec_engineGather_keeps a s
  | .engineMerge a, _ => exec_engineMerge_keeps a s
  | .engineScatter a, _ => exec_engineScatter_keeps a s
  | .engineDescriptorDone a, _ => exec_engineDescriptorDone_keeps a s
  | .scanComplete st, _ => exec_scanComplete_keeps st s
  | .scanDeadline, _ => exec_scanDeadline_keeps s
  | .verdictDeadline, _ => exec_verdictDeadline_keeps s
  | .gradientContribution l i, _ => exec_gradientContribution_keeps l i s
  | .paramBlockWrite wing, _ => exec_paramBlockWrite_keeps wing s
  | .denseWritesComplete, _ => exec_denseWritesComplete_keeps s
  | .denseDeadline, _ => exec_denseDeadline_keeps s
  | .stateLoadEffect wing, _ => exec_stateLoadEffect_keeps wing s
  | .portDisable p, _ => exec_portDisable_keeps p s
  | .portEnable p, _ => exec_portEnable_keeps p s
  | .requalify p, _ => exec_requalify_keeps p s
  | .fecLock p, _ => exec_fecLock_keeps p s
  | .trainingRetry p, _ => exec_trainingRetry_keeps p s
  | .rxDataFlit p b, _ => exec_rxDataFlit_keeps p b s
  | .rxIdle p b, _ => exec_rxIdle_keeps p b s
  | .rxNack p b, _ => exec_rxNack_keeps p b s
  | .rxCtrl p b, _ => exec_rxCtrl_keeps p b s
  | .nackRepeat p, _ => exec_nackRepeat_keeps p s
  | .laneFail p lane, _ => exec_laneFail_keeps p lane s
  | .helloSend p, _ => exec_helloSend_keeps p s
  | .rxHello p h, _ => exec_rxHello_keeps p h s
  | .helloMiss p, _ => exec_helloMiss_keeps p s
  | .timeSend, _ => exec_timeSend_keeps s
  | .rxTime p far err rtt, _ => exec_rxTime_keeps p far err rtt s
  | .rxRoute p es, _ => exec_rxRoute_keeps p es s
  | .routeRefresh, _ => exec_routeRefresh_keeps s
  | .routeRecompute, _ => exec_routeRecompute_keeps s
  | .rxDepart p origin seq effective reason, _ => exec_rxDepart_keeps p origin seq effective reason s
  | .departEffective ref, _ => exec_departEffective_keeps ref s
  | .rxMaster p origin seq eligible locked holdover, _ => exec_rxMaster_keeps p origin seq eligible locked holdover s
  | .masterSend, _ => exec_masterSend_keeps s
  | .rxOpen p m, _ => exec_rxOpen_keeps p m s
  | .rxAccept p m, _ => exec_rxAccept_keeps p m s
  | .rxClose p m, _ => exec_rxClose_keeps p m s
  | .rxAck p m, _ => exec_rxAck_keeps p m s
  | .rxWrite p m, _ => exec_rxWrite_keeps p m s
  | .rxSublist p m, _ => exec_rxSublist_keeps p m s
  | .rxPartial p m, _ => exec_rxPartial_keeps p m s
  | .rxGradlist p m, _ => exec_rxGradlist_keeps p m s
  | .rxColl p m, _ => exec_rxColl_keeps p m s
  | .rxDgram p m, _ => exec_rxDgram_keeps p m s
  | .rxMcast p m, _ => exec_rxMcast_keeps p m s
  | .rxPrune p m, _ => exec_rxPrune_keeps p m s
  | .rxPull p m, _ => exec_rxPull_keeps p m s
  | .rxGraft p m, _ => exec_rxGraft_keeps p m s
  | .rxTreeSetup p dest m, _ => exec_rxTreeSetup_keeps p dest m s
  | .rxVtree p child count, _ => exec_rxVtree_keeps p child count s
  | .vtreeSend, _ => exec_vtreeSend_keeps s
  | .rxVerdictUp p flip raised step count, _ => exec_rxVerdictUp_keeps p flip raised step count s
  | .rxVerdictDown p flip raised step count, _ => exec_rxVerdictDown_keeps p flip raised step count s
  | .verdictRootDeadline flip, _ => exec_verdictRootDeadline_keeps flip s
  | .rxMark p origin seq id m, _ => exec_rxMark_keeps p origin seq id m s
  | .rxBadKind p kind, _ => exec_rxBadKind_keeps p kind s
  | .retransmit k, _ => exec_retransmit_keeps k s
  | .connBreak k, _ => exec_connBreak_keeps k s
  | .connectTimeout k, _ => exec_connectTimeout_keeps k s
  | .treeSetupTimeout tr, _ => exec_treeSetupTimeout_keeps tr s
  | .branchPrune tr p, _ => exec_branchPrune_keeps tr p s
  | .branchRebuild tr p, _ => exec_branchRebuild_keeps tr p s
  | .linkUp lanes rate flit, _ => exec_linkUp_keeps lanes rate flit s
  | .linkDown, _ => exec_linkDown_keeps s
  | .linkRecovery done, _ => exec_linkRecovery_keeps done s
  | .hostGraceExpiry, _ => exec_hostGraceExpiry_keeps s
  | .hotReset, _ => exec_hotReset_keeps s
  | .functionLevelReset, _ => exec_functionLevelReset_keeps s
  | .resetComplete, _ => exec_resetComplete_keeps s
  | .perstAssert, _ => exec_perstAssert_keeps s
  | .perstDeassert, _ => exec_perstDeassert_keeps s
  | .configRequest d w, _ => exec_configRequest_keeps d w s
  | .powerStateChange d3, _ => exec_powerStateChange_keeps d3 s
  | .doeRequest vendor type bytes, _ => exec_doeRequest_keeps vendor type bytes s
  | .writebackInvalidate, _ => exec_writebackInvalidate_keeps s
  | .snoop addr, _ => exec_snoop_keeps addr s
  | .msixUnmask v, _ => exec_msixUnmask_keeps v s
  | .regionValidate i v hi, _ => exec_regionValidate_keeps i v hi s
  | .regionEnd i v hi, _ => exec_regionEnd_keeps i v hi s
  | .letterboxWrite off bytes req poisoned, _ => exec_letterboxWrite_keeps off bytes req poisoned s
  | .bar2Read off req, _ => exec_bar2Read_keeps off req s
  | .hcLbFence v, _ => exec_hcLbFence_keeps v s
  | .lbFenceDone, _ => exec_lbFenceDone_keeps s
  | .dmaReadCompletion k off bytes ok, _ => exec_dmaReadCompletion_keeps k off bytes ok s
  | .asEnable, _ => exec_asEnable_keeps s
  | .asDisable, _ => exec_asDisable_keeps s
  | .asRootWrite high v, _ => exec_asRootWrite_keeps high v s
  | .translateUnit k, _ => exec_translateUnit_keeps k s
  | .walkEntryReturn k bytes ok, _ => exec_walkEntryReturn_keeps k bytes ok s
  | .prqRetry req, _ => exec_prqRetry_keeps req s
  | .prqFail req, _ => exec_prqFail_keeps req s
  | .xlRingHeadWrite v, _ => exec_xlRingHeadWrite_keeps v s
  | .xlInvGo, _ => exec_xlInvGo_keeps s
  | .invalidationDone i, _ => exec_invalidationDone_keeps i s
  | .xlCwCountWrite v, _ => exec_xlCwCountWrite_keeps v s
  | .xlCntClear, _ => exec_xlCntClear_keeps s
  | .dbSqWrite q v, _ => exec_dbSqWrite_keeps q v s
  | .dbCqWrite q v, _ => exec_dbCqWrite_keeps q v s
  | .qEnable q, _ => exec_qEnable_keeps q s
  | .qDisable q, _ => exec_qDisable_keeps q s
  | .qReset q, _ => exec_qReset_keeps q s
  | .queueResetDone q, _ => exec_queueResetDone_keeps q s
  | .cqAck q, _ => exec_cqAck_keeps q s
  | .qResume q, _ => exec_qResume_keeps q s
  | .entryFetchReturn k bytes ok, _ => exec_entryFetchReturn_keeps k bytes ok s
  | .cmdNop id, _ => exec_cmdNop_keeps id s
  | .cmdDmaIn id, _ => exec_cmdDmaIn_keeps id s
  | .cmdDmaOut id, _ => exec_cmdDmaOut_keeps id s
  | .cmdWriteInline id, _ => exec_cmdWriteInline_keeps id s
  | .cmdLaunch id, _ => exec_cmdLaunch_keeps id s
  | .cmdItinLoad id, _ => exec_cmdItinLoad_keeps id s
  | .cmdBuffer id, _ => exec_cmdBuffer_keeps id s
  | .cmdAbort id, _ => exec_cmdAbort_keeps id s
  | .cmdLookup id, _ => exec_cmdLookup_keeps id s
  | .cmdGradient id, _ => exec_cmdGradient_keeps id s
  | .cmdProgramLoad id, _ => exec_cmdProgramLoad_keeps id s
  | .cmdChainLoad id, _ => exec_cmdChainLoad_keeps id s
  | .cmdRowFlag id, _ => exec_cmdRowFlag_keeps id s
  | .cmdJoin id, _ => exec_cmdJoin_keeps id s
  | .cmdLeave id, _ => exec_cmdLeave_keeps id s
  | .cmdUpdateParam id, _ => exec_cmdUpdateParam_keeps id s
  | .cmdStateLoad id, _ => exec_cmdStateLoad_keeps id s
  | .cmdStateRead id, _ => exec_cmdStateRead_keeps id s
  | .cmdConnect id, _ => exec_cmdConnect_keeps id s
  | .cmdClose id, _ => exec_cmdClose_keeps id s
  | .cmdTree id, _ => exec_cmdTree_keeps id s
  | .cmdGroup id, _ => exec_cmdGroup_keeps id s
  | .cmdCollective id, _ => exec_cmdCollective_keeps id s
  | .cmdSend id, _ => exec_cmdSend_keeps id s
  | .cmdDatagram id, _ => exec_cmdDatagram_keeps id s
  | .cmdMcast id, _ => exec_cmdMcast_keeps id s
  | .cmdInvalidate id, _ => exec_cmdInvalidate_keeps id s
  | .cmdMigrate id, _ => exec_cmdMigrate_keeps id s
  | .cmdReturn id, _ => exec_cmdReturn_keeps id s
  | .cmdStream id, _ => exec_cmdStream_keeps id s
  | .cmdMark id, _ => exec_cmdMark_keeps id s
  | .cmdInvalid id, _ => exec_cmdInvalid_keeps id s
  | .itinNodeDispatch l n, _ => exec_itinNodeDispatch_keeps l n s
  | .launchStart l, _ => exec_launchStart_keeps l s
  | .unitTile ctx, _ => exec_unitTile_keeps ctx s
  | .unitEngine ctx, _ => exec_unitEngine_keeps ctx s
  | .unitFetch ctx, _ => exec_unitFetch_keeps ctx s
  | .unitHostIn ctx, _ => exec_unitHostIn_keeps ctx s
  | .unitHostOut ctx, _ => exec_unitHostOut_keeps ctx s
  | .unitCopy ctx, _ => exec_unitCopy_keeps ctx s
  | .unitLookup ctx, _ => exec_unitLookup_keeps ctx s
  | .unitGradient ctx, _ => exec_unitGradient_keeps ctx s
  | .unitNop ctx, _ => exec_unitNop_keeps ctx s
  | .unitRetire ctx iter unit, _ => exec_unitRetire_keeps ctx iter unit s
  | .preemptRequest a, _ => exec_preemptRequest_keeps a s
  | .quantumExpiry a, _ => exec_quantumExpiry_keeps a s
  | .preemptSaveDone a, _ => exec_preemptSaveDone_keeps a s
  | .preemptResume a, _ => exec_preemptResume_keeps a s
  | .shadowCompare k sig, _ => exec_shadowCompare_keeps k sig s
  | .arbiterDone k sig unit, _ => exec_arbiterDone_keeps k sig unit s
  | .twinCompare k agree first second, _ => exec_twinCompare_keeps k agree first second s
  | .digestDecide g, _ => exec_digestDecide_keeps g s
  | .rejoinCopyDone g, _ => exec_rejoinCopyDone_keeps g s
  | .rlRestartWrite v, _ => exec_rlRestartWrite_keeps v s
  | .rlCkptGo, _ => exec_rlCkptGo_keeps s
  | .rlLogClear v, _ => exec_rlLogClear_keeps v s
  | .pwShutter, _ => exec_pwShutter_keeps s
  | .pwWake, _ => exec_pwWake_keeps s
  | .shutterEntry, _ => exec_shutterEntry_keeps s
  | .wakeAt, _ => exec_wakeAt_keeps s
  | .wakeComplete, _ => exec_wakeComplete_keeps s
  | .powerProjection watts, _ => exec_powerProjection_keeps watts s
  | .powerWindow watts, _ => exec_powerWindow_keeps watts s
  | .sensorSample c v, _ => exec_sensorSample_keeps c v s
  | .railOutOfRegulation rail, _ => exec_railOutOfRegulation_keeps rail s
  | .poTripClear v, _ => exec_poTripClear_keeps v s
  | .poRuleClear v, _ => exec_poRuleClear_keeps v s
  | .heartbeatLost core, _ => exec_heartbeatLost_keeps core s
  | .inputApplied, _ => exec_inputApplied_keeps s
  | .inputLost, _ => exec_inputLost_keeps s
  | .bootStage read, _ => exec_bootStage_keeps read s
  | .bootComplete, _ => exec_bootComplete_keeps s
  | .seSubmit, _ => exec_seSubmit_keeps s
  | .advanceFw, hi => absurd (by simp [burners]) hi
  | .advancePlan, hi => absurd (by simp [burners]) hi
  | .program, hi => absurd (by simp [burners]) hi
  | .revoke, hi => absurd (by simp [burners]) hi
  | .setPlanKey, hi => absurd (by simp [burners]) hi
  | .debugUnlock, _ => exec_debugUnlock_keeps s
  | .raiseLock, hi => absurd (by simp [burners]) hi
  | .getVersion doe, _ => exec_getVersion_keeps doe s
  | .getCapabilities doe, _ => exec_getCapabilities_keeps doe s
  | .negotiateAlgorithms doe sm2 sm3, _ => exec_negotiateAlgorithms_keeps doe sm2 sm3 s
  | .getDigests doe, _ => exec_getDigests_keeps doe s
  | .getCertificate doe slot off len, _ => exec_getCertificate_keeps doe slot off len s
  | .challenge doe slot nonce, _ => exec_challenge_keeps doe slot nonce s
  | .getMeasurements doe index sign nonce, _ => exec_getMeasurements_keeps doe index sign nonce s
  | .setCertificate doe slot chain, _ => exec_setCertificate_keeps doe slot chain s
  | .chunkSend doe last bytes, _ => exec_chunkSend_keeps doe last bytes s
  | .chunkGet doe i, _ => exec_chunkGet_keeps doe i s
  | .setEndpointId id, _ => exec_setEndpointId_keeps id s
  | .getEndpointId, _ => exec_getEndpointId_keeps s
  | .getMctpVersionSupport type, _ => exec_getMctpVersionSupport_keeps type s
  | .getMessageTypeSupport, _ => exec_getMessageTypeSupport_keeps s
  | .getEndpointUuid, _ => exec_getEndpointUuid_keeps s
  | .gettid, _ => exec_gettid_keeps s
  | .getpldmversion type, _ => exec_getpldmversion_keeps type s
  | .getpldmtypes, _ => exec_getpldmtypes_keeps s
  | .getpldmcommands type, _ => exec_getpldmcommands_keeps type s
  | .querydeviceidentifiers, _ => exec_querydeviceidentifiers_keeps s
  | .pldmSensorRead c, _ => exec_pldmSensorRead_keeps c s
  | .stateSetWake, _ => exec_stateSetWake_keeps s
  | .stateSetShutter, _ => exec_stateSetShutter_keeps s
  | .pldmComponentTransfer id off bytes last, _ => exec_pldmComponentTransfer_keeps id off bytes last s
  | .pldmVerify, _ => exec_pldmVerify_keeps s
  | .activatefirmware, _ => exec_activatefirmware_keeps s
  | .debugMessage bytes, _ => exec_debugMessage_keeps bytes s
  | .markLatch, _ => exec_markLatch_keeps s
  | .markInstant k, _ => exec_markInstant_keeps k s
  | .trMark id, _ => exec_trMark_keeps id s
  | .trRelease, _ => exec_trRelease_keeps s
  | .trDump, _ => exec_trDump_keeps s
  | .dumpDone, _ => exec_dumpDone_keeps s
  | .telemetryWindow k, _ => exec_telemetryWindow_keeps k s
  | .snapshotDone, _ => exec_snapshotDone_keeps s
  | .telemetryWindowEnd, _ => exec_telemetryWindowEnd_keeps s
  | .merRefEdgesDetected, _ => exec_merRefEdgesDetected_keeps s
  | .xlRingCtrlEnable, _ => exec_xlRingCtrlEnable_keeps s
  | .oldRuleCapsExpiry, _ => exec_oldRuleCapsExpiry_keeps s
  | .departureForwardingEnd, _ => exec_departureForwardingEnd_keeps s

/-- Every command leaves the queue as it was, and the fuses as they were or with more burned. -/
theorem exec_burns (i : Instr) (s : State) : BurnsR s (exec i s) := by
  by_cases hi : i ∈ burners
  · simp only [burners, List.mem_cons, List.not_mem_nil, or_false] at hi
    rcases hi with rfl | rfl | rfl | rfl | rfl | rfl
    · exact exec_advanceFw_burns s
    · exact exec_advancePlan_burns s
    · exact exec_program_burns s
    · exact exec_revoke_burns s
    · exact exec_setPlanKey_burns s
    · exact exec_raiseLock_burns s
  · exact .of_keeps (exec_keeps hi s)

theorem exec_pending {i : Instr} {s t : State} (h : exec i s = .next t) : t.pending = s.pending := (exec_burns i s t h).1

theorem State.clock_pending (s : State) : s.clock.pending = s.pending := congrArg Prod.fst s.clock_fixed

/-! ### A step -/

theorem step_of_cons {c : Instr} {cs : List Instr} {s : State} (h : s.pending = c :: cs) :
    step s = exec c { s with pending := cs } := by simp [step, h]

theorem step_of_nil {s : State} (h : s.pending = []) : step s = .next s.clock := by simp [step, h]

theorem step_pending {s t : State} (h : step s = .next t) : t.pending = s.pending.tail := by
  cases hq : s.pending with
  | nil =>
    rw [step_of_nil hq] at h
    cases h
    exact s.clock_pending.trans hq
  | cons c cs =>
    rw [step_of_cons hq] at h
    exact exec_pending h

/-! ### The tick -/

theorem State.tick_frame (s : State) : s.tick.ram = s.ram ∧ s.tick.plan = s.plan ∧ s.tick.fab = s.fab := by
  simp only [State.tick, State.applyTick, State.tickCount]
  split_ifs <;> exact ⟨rfl, rfl, rfl⟩

theorem State.tick_mer (s : State) : s.tick.mer = s.tickCount.mer := by
  simp only [State.tick, State.applyTick]
  split <;> rfl

theorem State.tickCount_now (s : State) : s.tickCount.mer.now = s.mer.now + 1 := by
  simp only [State.tickCount]
  split_ifs <;> rfl

theorem State.tickCount_count_of_off {s : State} (hoff : s.mer.st = .off) : s.tickCount.mer.count = s.mer.count := by
  simp [State.tickCount, hoff]

theorem State.tickCount_count {s : State} (hon : s.mer.st ≠ .off) : s.tickCount.mer.count =
    (s.mer.count + 1 + Mer.adjust { s.mer with now := s.mer.now + 1 } s.draw).toNat % 2 ^ 64 := by
  simp only [State.tickCount, if_neg hon]
  split <;> rfl

/-! ### What a mt of the ports and the governors leaves -/

theorem foldl_same {α β : Type} (π : State → β) (f : State → α → State) (h : ∀ s x, π (f s x) = π s) (l : List α)
    (s : State) : π (l.foldl f s) = π s := by
  induction l generalizing s with
  | nil => rfl
  | cons x l ih => rw [List.foldl_cons, ih, h]

/-- What a mt changes in the tick alone: the meridian block, the memory and the plan in force. -/
def State.timed (s : State) : Mer × Ram × Plan := (s.mer, s.ram, s.plan)

theorem State.govTime_timed (s : State) (st : Nat) : (s.govTime st).timed = s.timed := rfl
theorem State.grantTime_timed (n : Nat) (s : State) (g : Nat) : (s.grantTime n g).timed = s.timed := rfl
theorem State.fecTime_timed (s : State) (p : Nat) : (s.fecTime p).timed = s.timed := rfl

theorem State.rcTime_timed (s : State) : s.rcTime.timed = s.timed := by
  unfold State.rcTime
  split
  · rfl
  · rw [foldl_same State.timed _ (State.grantTime_timed _), foldl_same State.timed _ State.govTime_timed]

/-- The stalls that a flit time counts are registers, and an IDLE changes the port that sends it. -/
theorem State.portTime_timed (s : State) (p : Nat) : (s.portTime p).timed = s.timed := by
  have hstalls : ∀ (u : State) (c : Nat), (if (s.port p).waiting.any (fun t => t.flit.cls == c) && (s.port p).credits.getD c 0 == 0
      then u.mapIo (fun io => io.inc (creditStall c) p) else u).timed = u.timed := fun u c => by split <;> rfl
  unfold State.portTime
  dsimp only
  split
  · have hcounted := (foldl_same State.timed _ hstalls [0, 1, 2, 3] (s.fecTime p)).trans (s.fecTime_timed p)
    split
    · exact hcounted
    · exact hcounted
  · rfl

theorem State.clock_timed (s : State) : s.clock.timed = s.tick.timed := by
  unfold State.clock
  dsimp only
  rw [foldl_same State.timed _ State.portTime_timed]
  split
  · exact s.tick.rcTime_timed
  · rfl

theorem State.clock_frame (s : State) : s.clock.mer = s.tickCount.mer ∧ s.clock.ram = s.ram ∧ s.clock.plan = s.plan := by
  obtain ⟨hram, hplan, -⟩ := s.tick_frame
  have htimed := s.clock_timed
  simp only [State.timed, Prod.mk.injEq, s.tick_mer, hram, hplan] at htimed
  exact htimed

/-- Without a port and without a stack in service, a mt is the tick alone. -/
theorem State.clock_of_idle {s : State} (hports : s.fab.ports = []) (hserving : s.serving = []) : s.clock = s.tick := by
  obtain ⟨-, hplan, hfab⟩ := s.tick_frame
  have hstill : s.tick.rcTime = s.tick := by
    have htick : s.tick.serving = [] := by rw [State.serving, hplan]; exact hserving
    simp [State.rcTime, htick]
  simp [State.clock, hstill, hfab, hports]

/-! ### Reads that latch the high half -/

/-- The two halves of a 64-bit value, one after the other, are the value. -/
theorem append_halves (v : DWord) : ((v >>> 32).setWidth 32 : Word) ++ (v.setWidth 32 : Word) = v := by
  refine BitVec.eq_of_getLsbD_eq fun i hi => ?_
  rw [BitVec.getLsbD_append]
  by_cases hlow : i < 32
  · simp [hlow]
  · have hhigh : i - 32 < 32 := by omega
    simp [hlow, hhigh, Nat.add_sub_cancel' (Nat.le_of_not_lt hlow)]

theorem State.readLo_of_open {s : State} (hopen : s.barShut = false) (r : Reg) (i : Nat) :
    s.readLo r i = s.mapIo fun io =>
      (io.put r.high i ((s.wideView r i >>> 32).setWidth 32)).send (.readData (s.wideLo r i)) := by
  simp [State.readLo, hopen]

/-- Each of these reads is the one read of a _LO register. -/
theorem loReads_readLo {st : Fin 16} {a p : Fin 64} {e : Instr × Reg × Nat} (he : e ∈ loReads st a p) (s : State) :
    Goes e.1 s (s.readLo e.2.1 e.2.2) := by
  revert e
  simp only [loReads, List.forall_mem_cons, List.not_mem_nil, false_imp_iff, implies_true, and_true]
  exact ⟨rfl, rfl, rfl, rfl, rfl, rfl, rfl, rfl, rfl, rfl, rfl, rfl, rfl, rfl, rfl, rfl, rfl, rfl, rfl, rfl, rfl, rfl, rfl⟩

/-! ### TIME over a register table out of order -/

theorem exec_rxTime (p : Fin 64) (far err rtt : Nat) (s : State) :
    exec (.rxTime p far err rtt) s = execRxTime p far err rtt s := rfl

/-- R58: TIME on a port that, its link's delay noted, is not on the route to the master measures the link and does no more. -/
theorem rxTime_unrouted {s : State} {p : Fin 64} (hlink : (s.port p.val).linked = true) (far err rtt : Nat)
    (hroute : (s.mapIo fun io => io.putN .FB_LINK_DELAY p (rtt / 2)).route s.mer.master 3 0 ≠ some p.val) :
    Goes (.rxTime p far err rtt) s (s.mapIo fun io => io.putN .FB_LINK_DELAY p (rtt / 2)) := by
  rw [Goes, exec_rxTime, execRxTime, if_neg (by simp [hlink])]
  exact if_pos (.inr (.inr hroute))

/-- Registers out of the canonical order: FP_DRAIN_PORTS_LO stands behind FB_LINK_DELAY of port 0, where no read finds it. -/
def disorderedIo : Io :=
  { Io.reset with regs := [(Reg.key .FB_LINK_DELAY 0, 1#32), (Reg.key .FP_DRAIN_PORTS_LO 0, 1#32)] }

/-- A device in ACQUIRING that follows device 2 through its linked port 0, with such registers. -/
def hiddenDrain : State := { State.reset with
  io := disorderedIo
  plan := ⟨true, 0, 0, [(0x20, [0, 0, 0, 0, 1]), (0x50, [])]⟩
  mer := { Mer.reset with st := .acquiring, masterValid := true, master := 2 }
  fab := { Fabric.reset with ports := [(0, { Port.reset with st := .up })], choices := [(2, [(false, 0)])] } }

theorem hiddenDrain_route : hiddenDrain.route hiddenDrain.mer.master 3 0 = some 0 := by decide

/-- A link delay of 0 is FB_LINK_DELAY's reset value, so storing it drops the register's entry and uncovers the drain of port 0. -/
theorem hiddenDrain_route_measured :
    (hiddenDrain.mapIo fun io => io.putN .FB_LINK_DELAY 0 0).route hiddenDrain.mer.master 3 0 = none := by decide

end Sys2Proof.Machine

namespace Sys2Proof.Claims

/-- Settles O44: no arm of the dispatch touches the queue, and the clock does not either. -/
theorem queueIsFirstInFirstOut : Obligations.QueueIsFirstInFirstOut :=
  ⟨fun _ _ _ h => exec_pending h, fun _ _ h => step_pending h⟩

/-- Settles O43: the ports and the governors leave the meridian block, the memory and the plan as the tick left them. -/
theorem stepRunsFrontCommand : Obligations.StepRunsFrontCommand := by
  refine ⟨fun c rest s => step_of_cons rfl, fun s hempty => ?_⟩
  obtain ⟨hmer, hram, hplan⟩ := s.clock_frame
  refine ⟨step_of_nil hempty, s.clock_pending.trans hempty, hram, hplan, ?_, fun hoff => ?_, fun hon => ?_, State.clock_of_idle⟩
  · rw [hmer, s.tickCount_now]
  · rw [hmer, State.tickCount_count_of_off hoff]
  · rw [hmer, State.tickCount_count hon]

/-- Settles O1: the latched half and the half answered are those of one value. -/
theorem lowReadLatchesHigh : Obligations.LowReadLatchesHigh := by
  intro s st a p hopen e he
  refine ⟨(s.wideView e.2.1 e.2.2 >>> 32).setWidth 32, (s.wideView e.2.1 e.2.2).setWidth 32, append_halves _, ?_⟩
  have hgoes := loReads_readLo he s
  rwa [State.readLo_of_open hopen] at hgoes

/-- Refutes O6: the statement takes every register table, canonical or not. In `hiddenDrain` a request to drain port 0 stands where
no read finds it until TIME on port 0 stores a link delay of 0; then port 0 drains, no route leads to the master, and the error
stays 0 where the clause says 4. No put uncovers anything in a canonical table (`SMap.get_set`). -/
theorem not_meridianEventsRun : ¬ Obligations.MeridianEventsRun := by
  intro h
  obtain ⟨-, -, -, -, -, -, -, -, -, -, htime, -⟩ := h hiddenDrain
  have hlink : (hiddenDrain.port 0).linked = true := by decide
  obtain ⟨-, hfollows⟩ := htime 0 0 0 0 hlink
  obtain ⟨t, hgoes, -, herror, -⟩ := hfollows 0 (by decide) (by decide) (by decide) hiddenDrain_route (by decide)
  have hunrouted := rxTime_unrouted (p := 0) hlink 0 0 0 (by simp [hiddenDrain_route_measured])
  cases hgoes.symm.trans hunrouted
  exact absurd herror (by decide)

end Sys2Proof.Claims
end

section
/-! PROOFS. The number formats (chapter 4): what a block scale of 0xFF and an FP8-E4 NaN decode to in the three layouts of groups
(O55). -/

open Sys2Proof Sys2Proof.Machine Sys2Proof.Claims

namespace Sys2Proof.Machine

/-! ### A block scale and the element it scales (R76, R77) -/

/-- A NaN block hides the element. -/
@[simp] theorem scaled_nanScale (v : Val) : scaled v 0xFF = .nan false := rfl

/-- A valid scale keeps a NaN and its sign. -/
theorem scaled_nan {x : Nat} (hx : x ≠ 0xFF) (neg : Bool) : scaled (.nan neg) x = .nan neg := if_neg hx

theorem decode_e4_nan_pos : Fp.e4.decode 0x7F = .nan false := by decide

theorem decode_e4_nan_neg : Fp.e4.decode 0xFF = .nan true := by decide

theorem plainElem_bs8 (bs : List Byte) (o j : Nat) : plainElem 5 bs o j = Fp.e4.decode (u8 bs (o + j)) := rfl

/-- Under a valid scale the two NaN codes of FP8-E4 keep their signs, wherever a layout puts the element. -/
theorem scaled_bs8_nan {bs : List Byte} {o j x : Nat} (hx : x ≠ 0xFF) :
    (u8 bs (o + j) = 0x7F → scaled (plainElem 5 bs o j) x = .nan false) ∧
    (u8 bs (o + j) = 0xFF → scaled (plainElem 5 bs o j) x = .nan true) := by
  rw [plainElem_bs8]
  constructor <;> intro hcode <;> rw [hcode]
  · rw [decode_e4_nan_pos, scaled_nan hx]
  · rw [decode_e4_nan_neg, scaled_nan hx]

/-! ### Where the three layouts keep an element of a group and its scale -/

section
variable {fmt : Nat} (hfmt : fmt = 5 ∨ fmt = 6) (bs : List Byte) (j : Nat)
include hfmt

/-- Table 7-6: a record's scales follow its elements. -/
theorem recElem_of_group (d : Nat) :
    recElem fmt d bs j = scaled (plainElem fmt bs 32 j) (u8 bs (32 + d * fmtBits fmt / 8 + j / 16)) := by
  obtain rfl | rfl := hfmt <;> rfl

/-- Table 4-2: a tensor block's scales. -/
theorem blockElem_of_group :
    blockElem fmt bs j = scaled (plainElem fmt bs 0 j) (u8 bs ((if fmt = 5 then 240 else 224) + j / 16)) := by
  obtain rfl | rfl := hfmt <;> rfl

/-- Table 8-7: an occupied place of a sparse block, its value position and its scale. -/
theorem sparseElem_of_occupied (hocc : (occupancy fmt bs j).testBit (j % 8) = true) :
    sparseElem fmt bs j =
      scaled (plainElem fmt bs 0 (8 * (j / 16) + 4 * (j / 8 % 2) + popBelow (occupancy fmt bs j) (j % 8)))
        (u8 bs ((if fmt = 5 then 200 else 216) + j / 16)) := by
  obtain rfl | rfl := hfmt <;> simp [sparseElem, hocc]

end

end Sys2Proof.Machine

namespace Sys2Proof.Claims

/-- Settles O55: each layout decodes an element of a group as its stored element times its group's scale. -/
theorem nanGroups : Obligations.NanGroups := by
  refine ⟨fun fmt d j bs hfmt => ⟨fun hscale => ?_, fun hscale => ?_, fun hscale hocc => ?_⟩, fun d j bs hscale => ?_,
    fun j bs hscale => ?_, fun j k bs hscale hocc hk => ?_⟩
  · rw [recElem_of_group hfmt, hscale, scaled_nanScale]
  · rw [blockElem_of_group hfmt, hscale, scaled_nanScale]
  · rw [sparseElem_of_occupied hfmt bs j hocc, hscale, scaled_nanScale]
  · have hplace : d * fmtBits 5 / 8 = d := Nat.mul_div_cancel d (by decide)
    rw [recElem_of_group (.inl rfl), hplace]
    exact scaled_bs8_nan hscale
  · rw [blockElem_of_group (.inl rfl), if_pos rfl]
    simpa using scaled_bs8_nan (bs := bs) (o := 0) (j := j) hscale
  · rw [sparseElem_of_occupied (.inl rfl) bs j hocc, if_pos rfl, ← hk]
    simpa using scaled_bs8_nan (bs := bs) (o := 0) (j := k) hscale

end Sys2Proof.Claims
end

section
/-! PROOFS. The stacks (chapters 5 and 20): retraining and failure of channels, sparing and refresh (O15), repairs, scrub, calibration and
preserved contents (O16). -/

open Sys2Proof Sys2Proof.Machine Sys2Proof.Claims

namespace Sys2Proof.Machine

/-! ### The stacks' rows of the dispatch -/

theorem exec_plannedRetrain (st : Fin 16) (ph : Fin 64) (s : State) : exec (.plannedRetrain st ph) s = execPlannedRetrain st ph s := rfl
theorem exec_unplannedRetrain (st : Fin 16) (ph : Fin 64) (s : State) :
    exec (.unplannedRetrain st ph) s = execUnplannedRetrain st ph s := rfl
theorem exec_retrainDone (st : Fin 16) (ph : Fin 64) (ok : Bool) (s : State) :
    exec (.retrainDone st ph ok) s = execRetrainDone st ph ok s := rfl
theorem exec_channelFail (st : Fin 16) (ph : Fin 64) (s : State) : exec (.channelFail st ph) s = execChannelFail st ph s := rfl
theorem exec_softRowSpare (st : Fin 16) (s : State) : exec (.softRowSpare st) s = execSoftRowSpare st s := rfl
theorem exec_refresh (st : Fin 16) (ph : Fin 64) (storey : Fin 8) (s : State) :
    exec (.refresh st ph storey) s = execRefresh st ph storey s := rfl
theorem exec_burnRow (st : Fin 16) (s : State) : exec (.burnRow st) s = execBurnRow st s := rfl
theorem exec_burnColumn (st : Fin 16) (s : State) : exec (.burnColumn st) s = execBurnColumn st s := rfl
theorem exec_burnRoom (st : Fin 16) (s : State) : exec (.burnRoom st) s = execBurnRoom st s := rfl
theorem exec_repairBadArg (st : Fin 16) (s : State) : exec (.repairBadArg st) s = execRepairBadArg st s := rfl
theorem exec_burnDone (st : Fin 16) (ok : Bool) (s : State) : exec (.burnDone st ok) s = execBurnDone st ok s := rfl
theorem exec_scrubWindow (k : Nat) (s : State) : exec (.scrubWindow k) s = execScrubWindow k s := rfl
theorem exec_scrubBlock (st : Fin 16) (corrected raced : Bool) (unc : Fin 16) (s : State) :
    exec (.scrubBlock st corrected raced unc) s = execScrubBlock st corrected raced unc s := rfl
theorem exec_scrubWindowEnd (s : State) : exec .scrubWindowEnd s = execScrubWindowEnd s := rfl
theorem exec_calibrateWindow (k : Nat) (s : State) : exec (.calibrateWindow k) s = execCalibrateWindow k s := rfl
theorem exec_calibrationStep (st : Fin 16) (s : State) : exec (.calibrationStep st) s = execCalibrationStep st s := rfl
theorem exec_calWindowEnd (s : State) : exec .calWindowEnd s = execCalWindowEnd s := rfl
theorem exec_contentAccept (st : Fin 16) (s : State) : exec (.contentAccept st) s = execContentAccept st s := rfl
theorem exec_contentClear (st : Fin 16) (s : State) : exec (.contentClear st) s = execContentClear st s := rfl
theorem exec_contentVerifyDone (st : Fin 16) (s : State) : exec (.contentVerifyDone st) s = execContentVerifyDone st s := rfl
theorem exec_contentClearDone (st : Fin 16) (s : State) : exec (.contentClearDone st) s = execContentClearDone st s := rfl

/-! ### Retraining and failure (R97 to R100) -/

section
variable {s : State} {st : Fin 16} {ph : Fin 64}

/-- R97: one channel of a stack retrains at a time, and the slot leaves it its 25,000 mt. -/
theorem plannedRetrain_starts (hlive : (s.liveChan st ph).isSome = true) (hready : ((s.stack st).chan ph).st = .ready)
    (hdue : s.retrainDue st ph = true) (hslot : s.inMaintenance = true) (hfit : s.mer.count + 25000 ≤ s.slotEnd)
    (halone : ∀ p < 64, ((s.stack st).chan p).st ≠ .planned) :
    Goes (.plannedRetrain st ph) s
      ((s.setStk st (fun k => k.setChan ph (fun c => { c with st := .planned, since := s.mer.now }))).mapIo
        (fun io => io.incHi .ST_RETRAIN_COUNT st)) := by
  have hall : (List.range 64).all (fun p => ((s.stack st).chan p).st != .planned) = true := by simpa using halone
  rw [Goes, exec_plannedRetrain, execPlannedRetrain, if_pos ⟨hlive, hready, hdue, hslot, hfit, hall⟩]

/-- R98, R99: a retraining of another channel is abandoned, and cores that a retraining held are excused; neither is seen in what
the stack holds of this one. -/
theorem unplannedRetrain_starts (hlive : (s.liveChan st ph).isSome = true) (hfew : (s.recentLosses st ph).length < 2) :
    ∃ t : State, Goes (.unplannedRetrain st ph) s t ∧
      t.stk = setStack (s.abandonPlanned st ph).stk st (fun k => k.setChan ph (fun c => { c with
        st := .unplanned, losses := s.recentLosses st ph ++ [(s.abandonPlanned st ph).frameNow]
        since := (s.abandonPlanned st ph).mer.now })) := by
  simp only [Goes, exec_unplannedRetrain, execUnplannedRetrain, if_pos hlive, if_neg (Nat.not_le.mpr hfew)]
  split
  · exact ⟨_, rfl, rfl⟩
  · exact ⟨_, rfl, rfl⟩
  · exact ⟨_, rfl, rfl⟩

/-- R100: the third loss within 1,000 frames fails the channel. -/
theorem unplannedRetrain_fails (hlive : (s.liveChan st ph).isSome = true) (hmany : 2 ≤ (s.recentLosses st ph).length) :
    Goes (.unplannedRetrain st ph) s (s.failChannel st ph) := by
  simp only [Goes, exec_unplannedRetrain, execUnplannedRetrain, if_pos hlive, if_pos hmany]

theorem channelFail_fails (hlive : (s.liveChan st ph).isSome = true) (hmany : 2 ≤ (s.recentLosses st ph).length) :
    Goes (.channelFail st ph) s (s.failChannel st ph) := by
  rw [Goes, exec_channelFail, execChannelFail, if_pos ⟨hlive, .inl hmany⟩]

/-- R100: a retraining whose check fails, or that has taken more than 30,000 mt, fails the channel. -/
theorem retrainDone_fails {ok : Bool} (hst : ((s.stack st).chan ph).st = .planned)
    (hbad : ok = false ∨ ((s.stack st).chan ph).since + 30000 < s.mer.now) :
    Goes (.retrainDone st ph ok) s (s.failChannel st ph) := by
  rw [Goes, exec_retrainDone, execRetrainDone, if_pos (.inl hst), if_pos hbad]

/-- R97: a channel outside the map has no core that waited for it. -/
theorem retrainDone_ready (hst : ((s.stack st).chan ph).st = .planned) (htime : s.mer.now ≤ ((s.stack st).chan ph).since + 30000)
    (hspare : s.plan.logicalOf st ph = none) :
    Goes (.retrainDone st ph true) s
      (s.setStk st (fun k => k.setChan ph (fun c => { c with st := .ready, temps := k.temps, frame := s.frameNow }))) := by
  have hgood : ¬ (true = false ∨ ((s.stack st).chan ph).since + 30000 < s.mer.now) := by simpa using htime
  rw [Goes, exec_retrainDone, execRetrainDone, if_pos (.inl hst), if_neg hgood, hspare]

end

/-! ### Sparing and refresh (R102, R104) -/

@[simp] theorem State.sparesLow_stk (s : State) (st ph : Nat) : (s.sparesLow st ph).stk = s.stk := by
  unfold State.sparesLow
  dsimp only
  split <;> rfl

/-- A storey of a channel has been refreshed now. -/
def State.refreshedAt (s : State) (st ph storey : Nat) : State :=
  s.setStk st (fun k => { k with refreshed := SMap.set (fun _ => 0) k.refreshed (8 * ph + storey) s.mer.now })

section
variable {s : State} {st : Fin 16}

section
variable {r : Repair} {rest : List Repair} (hdue : (s.stack st).spareDue = r :: rest) (hserves : s.plan.inService st = true)
  (hslot : s.inMaintenance = true) (hfit : s.mer.count + 2000 ≤ s.slotEnd)
include hdue hserves hslot hfit

/-- R102: the first row scheduled takes a spare of its storey. -/
theorem softRowSpare_takes (hleft : 0 < ((s.setStk st (fun k => { k with spareDue := rest })).stack st).rowsLeft r.channel r.storey) :
    Goes (.softRowSpare st) s ((((s.setStk st (fun k => { k with spareDue := rest })).setStk st
      (fun k => { k with soft := k.soft ++ [r] })).mapIo (fun io => io.incLo .ST_SOFT_REPAIRS st)).sparesLow st r.channel) := by
  simp only [Goes, exec_softRowSpare, execSoftRowSpare, hdue, if_pos (And.intro hserves (And.intro hslot hfit)), if_pos hleft]

/-- R102: without a spare the row is dropped from the schedule. -/
theorem softRowSpare_drops (hleft : ¬ 0 < ((s.setStk st (fun k => { k with spareDue := rest })).stack st).rowsLeft r.channel r.storey) :
    Goes (.softRowSpare st) s (s.setStk st (fun k => { k with spareDue := rest })) := by
  simp only [Goes, exec_softRowSpare, execSoftRowSpare, hdue, if_pos (And.intro hserves (And.intro hslot hfit)), if_neg hleft]
end

section
variable (ph : Fin 64) (storey : Fin 8) (hserves : s.plan.inService st = true) (hawake : (s.stack st).selfRefresh = false)
include hserves hawake

theorem refresh_spare (hspare : s.plan.logicalOf st ph = none) :
    Goes (.refresh st ph storey) s (s.refreshedAt st ph storey) := by
  rw [Goes, exec_refresh, execRefresh, if_pos ⟨hserves, hawake⟩]
  simp only [State.setStk_plan, hspare]
  rfl

/-- R139: a refresh of a mapped channel closes the open rows of its storey's segments. -/
theorem refresh_closes {l : Nat} (hmap : s.plan.logicalOf st ph = some l) :
    Goes (.refresh st ph storey) s { s.refreshedAt st ph storey with
      rooms := { s.rooms with
        openRow := SMap.drop (fun k => k / 8 / 1024 == 64 * st.val + l && k % 8 == storey.val) s.rooms.openRow } } := by
  rw [Goes, exec_refresh, execRefresh, if_pos ⟨hserves, hawake⟩]
  simp only [State.setStk_plan, hmap]
  rfl
end
end

/-! ### Repairs, scrub, calibration and preserved contents (R101, R105 to R107, R465, R466) -/

/-- A block of a stack's pass has been taken from the window's quota, and the pass stands at the next (R105). -/
def State.scrubMoved (s : State) (st : Nat) (w : OpenWindow) : State :=
  let next := s.io.val .ST_SCRUB_POS st % s.plan.blocks st + 1
  (s.setStk st (fun k => { k with
    scrub := some { w with quota := w.quota - 1 }
    scrubPass := if next = s.plan.blocks st then k.scrubPass + 1 else k.scrubPass })).mapIo
      (fun io => io.putN .ST_SCRUB_POS st (if next = s.plan.blocks st then 0 else next))

section
variable {s : State} {st : Fin 16}

section
variable (hopen : s.barShut = false)
include hopen

theorem burnRow_burns : Goes (.burnRow st) s (s.burn st 1) := by simp [Goes, exec_burnRow, execBurnRow, hopen]

theorem burnColumn_burns : Goes (.burnColumn st) s (s.burn st 2) := by simp [Goes, exec_burnColumn, execBurnColumn, hopen]

theorem burnRoom_burns : Goes (.burnRoom st) s (s.burn st 3) := by simp [Goes, exec_burnRoom, execBurnRoom, hopen]

theorem repairBadArg_refused : Goes (.repairBadArg st) s (s.repairStatus st 4 (s.stack st).burn.isSome) := by
  simp [Goes, exec_repairBadArg, execRepairBadArg, hopen]
end

/-- R101: a failed burn leaves no record, RESULT 3 and BURN_FAILED. -/
theorem burnDone_fails {r : Repair} (hburn : (s.stack st).burn = some r) (hkept : (s.stack st).burnLost = false) :
    Goes (.burnDone st false) s
      (((s.setStk st (fun k => { k with burn := none, burnLost := false })).repairStatus st 3 false).stEvent st 5) := by
  simp [Goes, exec_burnDone, execBurnDone, hburn, hkept]

/-- R105: a window opens on each stack in service, with what the one before it left. -/
theorem scrubWindow_opens {k c : Nat} {i : Instant} (hdue : s.dueInstant k = some (i, c)) (hkind : i.kind = 4) :
    Goes (.scrubWindow k) s (s.serving.foldl (fun (u : State) q => (u.endScrub q).setStk q (fun x => { x with
      scrub := some ⟨c + i.len, (u.endScrub q).plan.scrubQuota q + x.scrubCarry⟩, scrubCarry := 0 })) (s.fired k c)) := by
  have hscrub : ¬ i.kind ≠ 4 := not_not.mpr hkind
  simp only [Goes, exec_scrubWindow, execScrubWindow, hdue, if_neg hscrub]

/-- R105: a block that reads without error only moves the pass on. -/
theorem scrubBlock_clean {w : OpenWindow} (hwin : (s.stack st).scrub = some w) (hserves : s.plan.inService st = true)
    (hquota : w.quota ≠ 0) (htime : s.mer.count < w.ends) (hblocks : s.plan.blocks st ≠ 0)
    (hclean : (s.ram.blk (st * 2 ^ 36 + 256 * (s.io.val .ST_SCRUB_POS st % s.plan.blocks st))).unc = 0) :
    Goes (.scrubBlock st false false 0) s (s.scrubMoved st w) := by
  have hruns : ¬ (s.plan.inService st = false ∨ w.quota = 0 ∨ w.ends ≤ s.mer.count ∨ s.plan.blocks st = 0) := by
    simp [hserves, hquota, htime, hblocks]
  have hpasses : (s.ram.blk (st * 2 ^ 36 + 256 * (s.io.val .ST_SCRUB_POS st % s.plan.blocks st))).unc ||| (0 : Fin 16).val = 0 := by
    simpa using hclean
  simp only [Goes, exec_scrubBlock, execScrubBlock, hwin, if_neg hruns, Bool.false_eq_true, if_false, State.mapIo_ram,
    State.setStk_ram, if_pos hpasses, ite_self]
  rfl

/-- R107: a window opens for one channel of each stack in service, and for those that the one before it left. -/
theorem calibrateWindow_opens {k c : Nat} {i : Instant} (hdue : s.dueInstant k = some (i, c)) (hkind : i.kind = 5) :
    Goes (.calibrateWindow k) s (s.serving.foldl (fun (u : State) q => (u.endCal q).setStk q (fun x => { x with
      cal := some ⟨c + i.len, 1 + x.calCarry⟩, calCarry := 0 })) (s.fired k c)) := by
  have hcal : ¬ i.kind ≠ 5 := not_not.mpr hkind
  simp only [Goes, exec_calibrateWindow, execCalibrateWindow, hdue, if_neg hcal]

/-- R107: a storey is calibrated, and the eighth of them ends its channel. -/
theorem calibrationStep_advances {w : OpenWindow} (hwin : (s.stack st).cal = some w) (hserves : s.plan.inService st = true)
    (hquota : w.quota ≠ 0) (htime : s.mer.count < w.ends) :
    Goes (.calibrationStep st) s (s.setStk st (fun k =>
      if k.calStep < 7 then { k with calStep := k.calStep + 1 }
      else { k with
        calStep := 0, calChannel := (k.calChannel + 1) % s.plan.channels st, cal := some { w with quota := w.quota - 1 } })) := by
  have hruns : ¬ (s.plan.inService st = false ∨ w.quota = 0 ∨ w.ends ≤ s.mer.count) := by simp [hserves, hquota, htime]
  simp only [Goes, exec_calibrationStep, execCalibrationStep, hwin, if_neg hruns]

/-- R465: what is preserved unbroken under the same channel map goes to verification. -/
theorem contentAccept_verifies {p : Preserve} (hopen : s.barShut = false) (hclear : (s.stack st).clearing = false)
    (hverify : (s.stack st).verifying = false) (hrecord : (s.stack st).preserve = some p)
    (hcontent : (s.stack st).content = .preserved) (hunbroken : p.continuous = true) (hmap : p.mapMatch = true) :
    Goes (.contentAccept st) s (((s.setStk st (fun k => { k with verifying := true })).refusedBit st false).mapIo
      (fun io => io.putN .ST_VERIFY st 0)) := by
  simp [Goes, exec_contentAccept, execContentAccept, hopen, hclear, hverify, hrecord, hcontent, hunbroken, hmap]

theorem contentClear_clears (hopen : s.barShut = false) (hcontent : (s.stack st).content ≠ .none) :
    Goes (.contentClear st) s
      ((s.setStk st (fun k => { k with verifying := false, clearing := true })).refusedBit st false) := by
  simp [Goes, exec_contentClear, execContentClear, hopen, hcontent]

/-- R465: without a listed failure and without tables only the blocks of failed channels count. -/
theorem contentVerifyDone_live (hverify : (s.stack st).verifying = true) (hgood : (s.badBlocks st).1 = [])
    (htables : s.plan.tableWings = []) :
    Goes (.contentVerifyDone st) s ((s.mapIo (fun io =>
      (io.putN .ST_VERIFY st (min (s.badBlocks st).2 65535)).add .RL_BCV_FAILS 0 0)).setStk st
        (fun k => { k with verifying := false, content := .live, preserve := none })) := by
  simp [Goes, exec_contentVerifyDone, execContentVerifyDone, hverify, hgood, htables]

/-- R466: the sheet is zero, its copies in the attic are gone, and it is LIVE. -/
theorem contentClearDone_live (hclear : (s.stack st).clearing = true) :
    ∃ t, Goes (.contentClearDone st) s t ∧ t.ram = s.ram.clearSheet st (s.plan.channels st) ∧
      t.stk = setStack s.stk st (fun k => { k with clearing := false, content := .live, preserve := none }) := by
  simp only [Goes, exec_contentClearDone, execContentClearDone, if_pos hclear]
  exact ⟨_, rfl, rfl, rfl⟩

end

end Sys2Proof.Machine

namespace Sys2Proof.Claims

/-- Settles O15: each event of a channel where it applies. -/
theorem channelEventsRun : Obligations.ChannelEventsRun := by
  intro s st ph
  refine ⟨plannedRetrain_starts, unplannedRetrain_starts,
    fun hlive hmany => ⟨unplannedRetrain_fails hlive hmany, channelFail_fails hlive hmany⟩, fun _ => retrainDone_fails,
    retrainDone_ready, fun r rest hdue hserves hslot hfit => ?_, fun storey hserves hawake => ?_⟩
  · by_cases hleft : 0 < ((s.setStk st (fun k => { k with spareDue := rest })).stack st).rowsLeft r.channel r.storey
    · exact ⟨_, softRowSpare_takes hdue hserves hslot hfit hleft, fun _ => State.sparesLow_stk ..⟩
    · exact ⟨_, softRowSpare_drops hdue hserves hslot hfit hleft, fun h => absurd h hleft⟩
  · cases hmap : s.plan.logicalOf st ph with
    | none => exact ⟨_, refresh_spare ph storey hserves hawake hmap, rfl, fun l hl => by simp at hl⟩
    | some l =>
      refine ⟨_, refresh_closes ph storey hserves hawake hmap, rfl, fun l' hl => ?_⟩
      cases hl
      rfl

/-- Settles O16: each command and event of a stack's repair, scrub, calibration and content, where it applies. -/
theorem stackCommandsRun : Obligations.StackCommandsRun := by
  intro s st
  refine ⟨fun hopen => ⟨burnRow_burns hopen, burnColumn_burns hopen, burnRoom_burns hopen, repairBadArg_refused hopen⟩,
    fun _ => burnDone_fails, fun _ _ _ => scrubWindow_opens, fun w hwin hserves hquota htime hblocks hclean => ?_,
    exec_scrubWindowEnd s, fun _ _ _ => calibrateWindow_opens, fun w hwin hserves hquota htime => ?_, exec_calWindowEnd s,
    fun p hopen hclear hverify hrecord hcontent hunbroken hmap => ?_, contentClear_clears, contentVerifyDone_live,
    contentClearDone_live⟩
  · exact ⟨_, scrubBlock_clean hwin hserves hquota htime hblocks hclean, rfl, rfl⟩
  · exact ⟨_, calibrationStep_advances hwin hserves hquota htime, rfl⟩
  · exact ⟨_, contentAccept_verifies hopen hclear hverify hrecord hcontent hunbroken hmap, rfl⟩

end Sys2Proof.Claims
end

section
/-! PROOFS. The rooms (chapter 6): what completes for a running call, room-calls, direct reads, the fault log and program loads (O26). -/

open Sys2Proof Sys2Proof.Machine Sys2Proof.Claims

namespace Sys2Proof.Machine

/-! ### The rooms' rows of the dispatch -/

theorem exec_rfetchDone (r : Fin 1048576) (slot : Fin 4) (s : State) : exec (.rfetchDone r slot) s = execRfetchDone r slot s := rfl
theorem exec_rputDone (r : Fin 1048576) (slot : Fin 4) (s : State) : exec (.rputDone r slot) s = execRputDone r slot s := rfl
theorem exec_recvDone (r : Fin 1048576) (s : State) : exec (.recvDone r) s = execRecvDone r s := rfl
theorem exec_sendDone (r : Fin 1048576) (s : State) : exec (.sendDone r) s = execSendDone r s := rfl
theorem exec_roomCall (wk : Work) (s : State) : exec (.roomCall wk) s = execRoomCall wk s := rfl
theorem exec_rmFlogClear (st : Fin 16) (v : BitVec 32) (s : State) : exec (.rmFlogClear st v) s = execRmFlogClear st v s := rfl
theorem exec_directRead (r : Fin 1048576) (o : Fin 16384) (s : State) : exec (.directRead r o) s = execDirectRead r o s := rfl
theorem exec_cmdProgramLoad (id : Nat) (s : State) : exec (.cmdProgramLoad id) s = execCmdProgramLoad id s := rfl

/-! ### What completes for a running call (R124, R126, R136, R137) -/

section
variable {s : State} {r : Fin 1048576} {c : Core} (hcore : s.rooms.cores.at r = some c)
include hcore

/-- R126: data that nothing touched meanwhile lands as it was read. -/
theorem rfetchDone_lands {slot : Fin 4} {op : SlotOp} (hslot : c.slots.at slot = some op) (hfetch : op.put = false)
    (hnew : op.known = false) (hpass : op.fail = false) (hquiet : op.raced = []) :
    Goes (.rfetchDone r slot) s ((s.drew 0).wake r ((c.poke op.scratch op.data).doneSlot slot)) := by
  simp [Goes, exec_rfetchDone, execRfetchDone, hcore, hslot, hfetch, hnew, hpass, hquiet]

theorem rputDone_sets {slot : Fin 4} {op : SlotOp} (hslot : c.slots.at slot = some op) (hput : op.put = true)
    (hquiet : op.raced = []) : Goes (.rputDone r slot) s (((s.drew 0).setCore r (c.doneSlot slot)).wakeRoom r) := by
  simp [Goes, exec_rputDone, execRputDone, hcore, hslot, hput, hquiet]

theorem recvDone_lands {b : Nat} {bs : List Byte} (hrecv : c.recv = some (b, bs)) :
    Goes (.recvDone r) s (s.wake r ({ c.poke b bs with recv := none }.setEvent 4)) := by
  simp only [Goes, exec_recvDone, execRecvDone, hcore, hrecv]

/-- R137: a SEND that is not the last outstanding one sets no event. -/
theorem sendDone_leaves {o : SendOp} {rest : List SendOp} (hsends : c.sends = o :: rest) (hmore : rest ≠ [])
    (hquiet : o.raced = []) : Goes (.sendDone r) s
      ((s.drew 0).wake r { c with sends := rest, sent := c.sent ++ [(o.kind, o.data)] }) := by
  simp [Goes, exec_sendDone, execSendDone, Core.carried, hcore, hsends, hmore, hquiet]
end

/-! ### The landing (R109, R140, R142) -/

section
variable {s : State}

theorem roomCall_part {l i : Nat} {t : State} (h : s.callPart l i = some t) : Goes (.roomCall (.lookup l i)) s t := by
  simp only [Goes, exec_roomCall, execRoomCall, h]

theorem roomCall_row {wing row : Nat} {primary : Bool} {t : State} (h : s.callRow wing row primary = some t) :
    Goes (.roomCall (.update wing row primary)) s t := by
  simp only [Goes, exec_roomCall, execRoomCall, h]

theorem rmFlogClear_empties {st : Fin 16} {v : BitVec 32} (hopen : s.barShut = false) (hclear : v.getLsbD 0 = true) :
    Goes (.rmFlogClear st v) s { s with
      rooms := { s.rooms with flog := SMap.set (fun _ => []) s.rooms.flog st [] } } := by
  simp only [Goes, exec_rmFlogClear, execRmFlogClear, hopen, hclear]
  rfl

theorem directRead_opens {r : Fin 1048576} {o : Fin 16384} (hserves : s.plan.inService (r / 65536) = true)
    (hchan : s.roomChan r ≠ .failed) (hfree : s.dpaHeld (roomDpa r (64 * o)) 64 = false) :
    Goes (.directRead r o) s
      ((if s.ram.eccOk (roomDpa r (64 * o)) 64 then s else s.logCheck (roomDpa r (64 * o)) r).opened r (64 * o) 64) := by
  rw [Goes, exec_directRead, execDirectRead, if_pos ⟨hserves, hchan, hfree⟩]

/-! ### Program loads (R115) -/

/-- The stores of some channels hold bytes at an offset, and each channel counts the load (R115). -/
def State.storesLoaded (s : State) (chans : List Nat) (off : Nat) (bytes : List Byte) : State := { s with
  ram := chans.foldl (fun m ch => m.poke (progAddr (ch / 64) (ch % 64) off) bytes) s.ram
  rooms := { s.rooms with
    loads := chans.foldl (fun m ch => SMap.set (fun _ => 0) m ch (min 65535 (SMap.get (fun _ => 0) m ch + 1))) s.rooms.loads } }

section
variable {id : Nat} {c : Cmd} (hready : s.readyCmd id 11 = some c) (hinline : u64 c.entry 0x18 = 0)
include hready hinline

/-- Fewer inline bytes than the count are invalid. -/
theorem cmdProgramLoad_short (hshort : cLen c.entry < cCount c.entry) :
    Goes (.cmdProgramLoad id) s ((s.unlockStores (.load id)).finish id stInvalid 0) := by
  simp [Goes, exec_cmdProgramLoad, execCmdProgramLoad, hready, hinline, hshort]

/-- Once no call runs in the channels, the inline bytes go to each of their stores. -/
theorem cmdProgramLoad_loads {chans : List Nat} (hserves : s.plan.inService (u8 c.entry 0x10) = true)
    (hsome : 0 < u8 c.entry 0x12) (hfits : u8 c.entry 0x11 + u8 c.entry 0x12 ≤ s.plan.channels (u8 c.entry 0x10))
    (halign : u32 c.entry 0x14 % 16 = 0) (hwhole : cCount c.entry % 16 = 0) (hstore : u32 c.entry 0x14 + cCount c.entry ≤ 65536)
    (hlen : cCount c.entry ≤ cLen c.entry) (hfree : s.stackHeld (u8 c.entry 0x10) = false)
    (hchans : chans = (List.range (u8 c.entry 0x12)).map (fun i => 64 * u8 c.entry 0x10 + u8 c.entry 0x11 + i))
    (hidle : chans.any s.rooms.busyChan = false) :
    Goes (.cmdProgramLoad id) s
      ((((s.unlockStores (.load id)).storesLoaded chans (u32 c.entry 0x14) ((cInline c.entry).take (cCount c.entry))).touch id 0
        (2 ^ u8 c.entry 0x10)).finish id stDone 0) := by
  subst hchans
  have hvalid : ¬ (s.plan.inService (u8 c.entry 0x10) = false ∨ u8 c.entry 0x12 = 0 ∨
      s.plan.channels (u8 c.entry 0x10) < u8 c.entry 0x11 + u8 c.entry 0x12 ∨ u32 c.entry 0x14 % 16 ≠ 0 ∨
      cCount c.entry % 16 ≠ 0 ∨ 65536 < u32 c.entry 0x14 + cCount c.entry ∨
      (u64 c.entry 0x18 = 0 ∧ cLen c.entry < cCount c.entry) ∨
      (u64 c.entry 0x18 ≠ 0 ∧ s.plan.dpaOk (u64 c.entry 0x18) (cCount c.entry) = false)) := by
    simp [hserves, hinline, halign, hwhole]
    omega
  have hnow : ¬ ((u64 c.entry 0x18 ≠ 0 ∧ s.dpaHeld (u64 c.entry 0x18) (cCount c.entry) = true) ∨
      s.stackHeld (u8 c.entry 0x10) = true) := by simp [hinline, hfree]
  have hchecked : ¬ (u64 c.entry 0x18 ≠ 0 ∧ s.ram.moverOk (u64 c.entry 0x18) (cCount c.entry) = false) := by simp [hinline]
  simp only [Goes, exec_cmdProgramLoad, execCmdProgramLoad, hready, if_neg hvalid, if_neg hnow, if_neg hchecked, hidle, if_pos hinline]
  rfl
end
end

end Sys2Proof.Machine

namespace Sys2Proof.Claims

/-- Settles O26: each completion, call, load and read, where it applies. -/
theorem roomEventsRun : Obligations.RoomEventsRun := by
  intro s r slot
  refine ⟨fun _ _ hcore => rfetchDone_lands hcore, fun _ _ hcore => rputDone_sets hcore, fun _ _ _ hcore => recvDone_lands hcore,
    fun _ _ _ hcore => sendDone_leaves hcore, fun _ _ _ => roomCall_part, fun _ _ _ _ => roomCall_row, fun _ _ => rmFlogClear_empties,
    fun o a ha hserves hchan hfree => ?_, fun _ _ => cmdProgramLoad_short,
    fun id c chans hready hserves hsome hfits halign hwhole hstore hinline hlen hfree hchans hidle => ?_⟩
  · subst ha
    exact directRead_opens hserves hchan hfree
  · exact ⟨_, cmdProgramLoad_loads hready hinline hserves hsome hfits halign hwhole hstore hlen hfree hchans hidle, rfl⟩

end Sys2Proof.Claims
end

section
/-! PROOFS. What a room core's instructions do (chapter 6): scalar, floating-point, branch, memory, vector, waiting, DRAM, record and
message words (O18 to O25), wrapping arithmetic and g0 (O53), the fault log (O54), the frame of quiet words (O58) and races (O59). -/

open Sys2Proof Sys2Proof.Machine Sys2Proof.Claims

namespace Sys2Proof.Machine

/-! ### The instructions' rows of the dispatch -/

section
variable (r : Fin 1048576) (s : State)

theorem exec_nop : exec (.nop r) s = execNop r s := rfl
theorem exec_add : exec (.add r) s = execAdd r s := rfl
theorem exec_sub : exec (.sub r) s = execSub r s := rfl
theorem exec_and : exec (.and r) s = execAnd r s := rfl
theorem exec_or : exec (.or r) s = execOr r s := rfl
theorem exec_xor : exec (.xor r) s = execXor r s := rfl
theorem exec_shl : exec (.shl r) s = execShl r s := rfl
theorem exec_shr : exec (.shr r) s = execShr r s := rfl
theorem exec_sra : exec (.sra r) s = execSra r s := rfl
theorem exec_mul : exec (.mul r) s = execMul r s := rfl
theorem exec_slt : exec (.slt r) s = execSlt r s := rfl
theorem exec_addi : exec (.addi r) s = execAddi r s := rfl
theorem exec_lui : exec (.lui r) s = execLui r s := rfl
theorem exec_gets : exec (.gets r) s = execGets r s := rfl
theorem exec_rseed : exec (.rseed r) s = execRseed r s := rfl
theorem exec_rand : exec (.rand r) s = execRand r s := rfl
theorem exec_fadd : exec (.fadd r) s = execFadd r s := rfl
theorem exec_fsub : exec (.fsub r) s = execFsub r s := rfl
theorem exec_fmul : exec (.fmul r) s = execFmul r s := rfl
theorem exec_fdiv : exec (.fdiv r) s = execFdiv r s := rfl
theorem exec_fsqrt : exec (.fsqrt r) s = execFsqrt r s := rfl
theorem exec_frsq : exec (.frsq r) s = execFrsq r s := rfl
theorem exec_fmin : exec (.fmin r) s = execFmin r s := rfl
theorem exec_fmax : exec (.fmax r) s = execFmax r s := rfl
theorem exec_itof : exec (.itof r) s = execItof r s := rfl
theorem exec_ftoi : exec (.ftoi r) s = execFtoi r s := rfl
theorem exec_flt : exec (.flt r) s = execFlt r s := rfl
theorem exec_beq : exec (.beq r) s = execBeq r s := rfl
theorem exec_bne : exec (.bne r) s = execBne r s := rfl
theorem exec_blt : exec (.blt r) s = execBlt r s := rfl
theorem exec_bge : exec (.bge r) s = execBge r s := rfl
theorem exec_jal : exec (.jal r) s = execJal r s := rfl
theorem exec_jr : exec (.jr r) s = execJr r s := rfl
theorem exec_loop : exec (.loop r) s = execLoop r s := rfl
theorem exec_lds : exec (.lds r) s = execLds r s := rfl
theorem exec_sts : exec (.sts r) s = execSts r s := rfl
theorem exec_ldsv : exec (.ldsv r) s = execLdsv r s := rfl
theorem exec_stsv : exec (.stsv r) s = execStsv r s := rfl
theorem exec_ldc : exec (.ldc r) s = execLdc r s := rfl
theorem exec_ldcv : exec (.ldcv r) s = execLdcv r s := rfl
theorem exec_vadd : exec (.vadd r) s = execVadd r s := rfl
theorem exec_vmul : exec (.vmul r) s = execVmul r s := rfl
theorem exec_vfma : exec (.vfma r) s = execVfma r s := rfl
theorem exec_vmax : exec (.vmax r) s = execVmax r s := rfl
theorem exec_vcvt : exec (.vcvt r) s = execVcvt r s := rfl
theorem exec_vsplat : exec (.vsplat r) s = execVsplat r s := rfl
theorem exec_vsum : exec (.vsum r) s = execVsum r s := rfl
theorem exec_vmovGet : exec (.vmovGet r) s = execVmovGet r s := rfl
theorem exec_vmovPut : exec (.vmovPut r) s = execVmovPut r s := rfl
theorem exec_wait : exec (.wait r) s = execWait r s := rfl
theorem exec_fence : exec (.fence r) s = execFence r s := rfl
theorem exec_endCall : exec (.endCall r) s = execEndCall r s := rfl
theorem exec_evt : exec (.evt r) s = execEvt r s := rfl
theorem exec_trap : exec (.trap r) s = execTrap r s := rfl
theorem exec_illegal : exec (.illegal r) s = execIllegal r s := rfl
theorem exec_limit : exec (.limit r) s = execLimit r s := rfl
theorem exec_callCancel : exec (.callCancel r) s = execCallCancel r s := rfl
theorem exec_dqaccAssign : exec (.dqaccAssign r) s = execDqaccAssign r s := rfl
theorem exec_dqaccAdd : exec (.dqaccAdd r) s = execDqaccAdd r s := rfl
theorem exec_dqaccMax : exec (.dqaccMax r) s = execDqaccMax r s := rfl
theorem exec_scale : exec (.scale r) s = execScale r s := rfl
theorem exec_fupd : exec (.fupd r) s = execFupd r s := rfl
end

/-! ### How a room core issues a word (R117, R119) -/

/-- A core that issues a word runs, is not cancelled, is below its limit, and the word is the one its program counter names. -/
theorem State.issues_eq_some {s : State} {r : Nat} {c : Core} {w : Nat} (h : s.issues r = some (c, w)) :
    s.rooms.cores.at r = some c ∧ c.wait = .run ∧ c.cancelled = false ∧ s.limitRc c < s.callLimit (r / 65536) ∧ c.pc < 12288 ∧
      w = s.progWord r c.pc := by
  unfold State.issues at h
  split at h
  · next c' hcore =>
    split at h
    · next hruns =>
      obtain ⟨hrun, hlive, hbelow, hpc⟩ := hruns
      cases h
      exact ⟨hcore, hrun, hlive, hbelow, hpc, rfl⟩
    · cases h
  · cases h

/-- What the effect of a word that core `c` of room `r` issues gives. -/
def RoomEff.answer (s : State) (r : Nat) (c : Core) : RoomEff → Result
  | .next c' n => .next (roomNext s r c' n)
  | .go c' pc n => .next (roomGoes s r c' pc n)
  | .stall => ignored s
  | .fault code st => .next (s.endCall r c st (some code))
  | .whole t => .next t

section
variable {s : State} {i : Instr} {r op : Nat} {c : Core} {w : Nat} {p : Nat → Bool} {f : Core → Nat → RoomEff}

theorem State.runRoom_of_issues (hissues : Issues s r op c w) (hform : p w = true) : s.runRoom r op p f = (f c w).answer s r c := by
  obtain ⟨hcore, hop, hok⟩ := hissues
  simp only [State.runRoom, hcore, if_pos (And.intro hop (And.intro hok hform))]
  cases f c w <;> rfl

variable (hrow : exec i s = s.runRoom r op p f) (hissues : Issues s r op c w) (hform : p w = true)
include hrow hissues hform

theorem goes_answer {t : State} (hanswer : (f c w).answer s r c = .next t) : Goes i s t :=
  hrow.trans ((State.runRoom_of_issues hissues hform).trans hanswer)

theorem goes_next {c' : Core} {n : Nat} (heff : f c w = .next c' n) : Goes i s (roomNext s r c' n) :=
  goes_answer hrow hissues hform (congrArg _ heff)

theorem goes_jumps {c' : Core} {pc n : Nat} (heff : f c w = .go c' pc n) : Goes i s (roomGoes s r c' pc n) :=
  goes_answer hrow hissues hform (congrArg _ heff)

theorem goes_fault {code st : Nat} (heff : f c w = .fault code st) : Goes i s (s.endCall r c st (some code)) :=
  goes_answer hrow hissues hform (congrArg _ heff)

theorem goes_whole {t : State} (heff : f c w = .whole t) : Goes i s t :=
  goes_answer hrow hissues hform (congrArg _ heff)
end

/-! ### Fields of a word (Table 6-4) -/

/-- The low bits of f are those of the word. -/
theorem iF_mod_two_pow (w : Nat) {k : Nat} (hk : k ≤ 14) : iF w % 2 ^ k = w % 2 ^ k := Nat.mod_mod_of_dvd w (Nat.pow_dvd_pow 2 hk)

theorem bit_iF_zero (w : Nat) : bit (iF w) 0 = decide (w % 2 = 1) := by
  have hlow : iF w % 2 = w % 2 := iF_mod_two_pow w (k := 1) (by decide)
  rw [bit, Nat.testBit_zero, hlow]

theorem iD_lt (w : Nat) : iD w < 16 := Nat.mod_lt _ (by decide)

/-! ### Registers (R113, R121) -/

section
variable (c : Core) (i : Nat) (v : Word)

theorem Core.setReg_zero : c.setReg 0 v = c := rfl

theorem Core.reg_zero : c.reg 0 = 0#32 := rfl

theorem Core.reg_setReg_same (hi : i < 16) (hne : i ≠ 0) : (c.setReg i v).reg i = v := by
  simp [Core.setReg, Core.reg, hne, hi]

/-- Apart from the general registers a core is as before. -/
theorem Core.setReg_eq : c.setReg i v = { c with g := (c.setReg i v).g } := by
  unfold Core.setReg
  split <;> rfl
end

section
variable {s : State} {r : Fin 1048576} {c : Core} {w : Nat}

/-- R121: a register instruction's result. -/
theorem goes_alu {i : Instr} {op : Nat} {g : Word → Word → Word} (hrow : exec i s = s.alu r op g) (h : Issues s r op c w) :
    Goes i s (roomNext s r (c.setReg (iD w) (g (c.reg (iA w)) (c.reg (iB w)))) 1) := goes_next hrow h rfl rfl

/-- Table 6-6: a FOP function's result at its cost. -/
theorem goes_fop {i : Instr} {fn cost : Nat} {g : Word → Word → Word} (hrow : exec i s = s.fop r fn cost g)
    (h : Issues s r 0x1B c w) (hfn : iF w = fn) :
    Goes i s (roomNext s r (c.setReg (iD w) (g (c.reg (iA w)) (c.reg (iB w)))) cost) := goes_next hrow h (beq_iff_eq.mpr hfn) rfl

theorem slt_signed (h : Issues s r 0x0B c w) (hf : w % 2 = 0) : Goes (.slt r) s
    (roomNext s r (c.setReg (iD w) (if (c.reg (iA w)).slt (c.reg (iB w)) then 1#32 else 0#32)) 1) :=
  goes_next (exec_slt r s) h rfl (by simp [bit_iF_zero, hf])

theorem slt_unsigned (h : Issues s r 0x0B c w) (hf : w % 2 = 1) : Goes (.slt r) s
    (roomNext s r (c.setReg (iD w) (if (c.reg (iA w)).ult (c.reg (iB w)) then 1#32 else 0#32)) 1) :=
  goes_next (exec_slt r s) h rfl (by simp [bit_iF_zero, hf])

theorem gets_reads (h : Issues s r 0x32 c w) (h5 : w % 16 ≠ 5) (h6 : w % 16 ≠ 6) : Goes (.gets r) s
    (roomNext s r (c.setReg (iD w) (BitVec.ofNat 32 (s.special c (w % 16)))) 1) :=
  goes_next (exec_gets r s) h rfl (if_neg (not_or.mpr ⟨h5, h6⟩))

/-- R408: the two values of time void a sample; without one they are read like the others. -/
theorem gets_time (h : Issues s r 0x32 c w) (hsample : c.sample = none) (htime : w % 16 = 5 ∨ w % 16 = 6) : Goes (.gets r) s
    (s.setCore r { c.setReg (iD w) (BitVec.ofNat 32 (s.special c (w % 16))) with pc := c.pc + 1, rc := c.rc + 1 }) := by
  refine goes_whole (exec_gets r s) h rfl ((if_pos htime).trans ?_)
  rw [Core.setReg_eq]
  simp only [State.voidSample, hsample]

theorem rseed_seeds (h : Issues s r 0x2B c w) : Goes (.rseed r) s (roomNext s r { c with
    key := genKey (c.num (iD w)) (c.num (iA w) % 4096) (w % 16), row := c.num (iB w), ctr := 0 } 2) := by
  have hstream : iF w % 16 = w % 16 := iF_mod_two_pow w (k := 4) (by decide)
  exact goes_next (exec_rseed r s) h rfl (by rw [hstream])

theorem rand_draws (h : Issues s r 0x2C c w) : Goes (.rand r) s
    (roomNext s r { c.setReg (iD w) ((genDraw c.key c.row c.ctr >>> 32).setWidth 32) with ctr := (c.ctr + 1) % 2 ^ 32 } 4) := by
  refine goes_next (exec_rand r s) h rfl ?_
  rw [Core.setReg_eq]
  rfl

end

/-! ### Branches and jumps (R119) -/

section
variable {s : State} {r : Fin 1048576} {c : Core} {w : Nat} {target : Int} {n : Nat}

theorem jump_inside (hlow : 0 ≤ target) (hhigh : target ≤ 12287) : jump c target n = .go c target.toNat n :=
  if_neg (by omega)

theorem jump_outside (hout : target < 0 ∨ 12287 < target) : jump c target n = .fault 2 stInvalid := if_pos hout

/-- A branch not taken goes on with the next word; one taken goes to its target, where that lies in the code area. -/
theorem goes_branch {i : Instr} {op : Nat} {p : Word → Word → Bool} (hrow : exec i s = s.branch r op p) (h : Issues s r op c w) :
    (p (c.reg (iD w)) (c.reg (iA w)) = false → Goes i s (roomNext s r c 1)) ∧
    (p (c.reg (iD w)) (c.reg (iA w)) = true → 0 ≤ (c.pc : Int) + iImm w → (c.pc : Int) + iImm w ≤ 12287 →
      Goes i s (roomGoes s r c ((c.pc : Int) + iImm w).toNat 2)) ∧
    (p (c.reg (iD w)) (c.reg (iA w)) = true → ((c.pc : Int) + iImm w < 0 ∨ 12287 < (c.pc : Int) + iImm w) →
      Goes i s (s.endCall r c stInvalid (some 2))) := by
  refine ⟨fun hcond => goes_next hrow h rfl ?_, fun hcond hlow hhigh => goes_jumps hrow h rfl ?_,
    fun hcond hout => goes_fault hrow h rfl ?_⟩
  · simp only [hcond, Bool.false_eq_true, if_false]
  · exact (if_pos hcond).trans (jump_inside hlow hhigh)
  · exact (if_pos hcond).trans (jump_outside hout)

section
variable (h : Issues s r 0x14 c w)
include h

/-- R119: a LOOP that ends still needs a target in the code area. -/
theorem loop_ends (hlast : c.reg (iD w) = 1#32) (hlow : 0 ≤ (c.pc : Int) + iImm w) (hhigh : (c.pc : Int) + iImm w ≤ 12287) :
    Goes (.loop r) s (roomNext s r (c.setReg (iD w) 0#32) 1) := by
  have hzero : c.reg (iD w) - 1#32 = 0#32 := by rw [hlast]; rfl
  refine goes_next (exec_loop r s) h rfl ?_
  simp only [hzero, if_neg (show ¬ ((c.pc : Int) + iImm w < 0 ∨ 12287 < (c.pc : Int) + iImm w) by omega), if_true]

theorem loop_repeats (hmore : c.reg (iD w) ≠ 1#32) (hlow : 0 ≤ (c.pc : Int) + iImm w) (hhigh : (c.pc : Int) + iImm w ≤ 12287) :
    Goes (.loop r) s (roomGoes s r (c.setReg (iD w) (c.reg (iD w) - 1#32)) ((c.pc : Int) + iImm w).toNat 2) := by
  have hnonzero : c.reg (iD w) - 1#32 ≠ 0#32 := fun h0 => hmore (sub_eq_zero.mp h0)
  refine goes_jumps (exec_loop r s) h rfl ?_
  simp only [if_neg hnonzero, if_neg (show ¬ ((c.pc : Int) + iImm w < 0 ∨ 12287 < (c.pc : Int) + iImm w) by omega),
    jump_inside hlow hhigh]

theorem loop_outside (hout : (c.pc : Int) + iImm w < 0 ∨ 12287 < (c.pc : Int) + iImm w) :
    Goes (.loop r) s (s.endCall r c stInvalid (some 2)) := goes_fault (exec_loop r s) h rfl (if_pos hout)
end
end

/-! ### Scratch and the code store (R114, R115) -/

theorem scratchAt_fault {a n al : Nat} {k : RoomEff} (hbad : a % al ≠ 0 ∨ 2048 < a + n) : scratchAt a n al k = .fault 3 stInvalid :=
  if_pos hbad

theorem scratchAt_moves {a n al : Nat} {k : RoomEff} (halign : a % al = 0) (hin : a + n ≤ 2048) : scratchAt a n al k = k :=
  if_neg (by omega)

/-! ### Vector words (R123) -/

theorem lanesOf_length (x : BitVec 128) (lt : Nat) : (lanesOf x lt).length = 128 / laneBits lt := by simp [lanesOf]

section
variable {s : State} {r : Fin 1048576} {c : Core} {w : Nat}

section
variable {i : Instr} {op : Nat} {fl : Val → Val → Val → Val} {ig : Word → Word → Word → Word} (hrow : exec i s = s.vop r op fl ig)
  (h : Issues s r op c w)
include hrow h

theorem goes_vop_reserved (hlt : 2 < iLt w) : Goes i s (s.endCall r c stInvalid (some 11)) :=
  goes_fault hrow h rfl (if_pos hlt)

theorem goes_vop_lanes (hlt : iLt w ≤ 2) : Goes i s (roomNext s r (c.setVec (iVd w) (ofLanes (iLt w)
    ((List.range (128 / laneBits (iLt w))).map (fun i => laneOp (iLt w) fl ig ((lanesOf (c.vec (iVa w)) (iLt w)).getD i 0)
      ((lanesOf (c.vec (iVb w)) (iLt w)).getD i 0) ((lanesOf (c.vec (iVd w)) (iLt w)).getD i 0))))) 1) :=
  goes_next hrow h rfl (by simp only [if_neg (Nat.not_lt.mpr hlt), lanesOf_length])
end

theorem vcvt_reserved (h : Issues s r 0x20 c w) (hty : 2 < iLt w ∨ 2 < iF w % 8) :
    Goes (.vcvt r) s (s.endCall r c stInvalid (some 11)) := goes_fault (exec_vcvt r s) h rfl (if_pos hty)

/-- R86: INT32 to FP32 under RNE keeps the number of lanes and draws nothing. -/
theorem vcvt_int_to_float (h : Issues s r 0x20 c w) (hsrc : iLt w = 2) (hdst : iF w % 8 = 0) (hrne : bit (iF w) 4 = false) :
    Goes (.vcvt r) s (roomNext s r ((c.setVec (iVd w)
      (ofLanes 0 (((lanesOf (c.vec (iVa w)) 2).zipIdx).map (fun p => cvtLane 2 0 .rne p.1)))).drawn 0) 1) :=
  goes_next (exec_vcvt r s) h rfl (by simp [hsrc, hdst, hrne, Core.rnd])

theorem vsplat_fills (h : Issues s r 0x21 c w) (hlt : iF w % 8 ≤ 2) : Goes (.vsplat r) s (roomNext s r (c.setVec (iD w % 8)
    (ofLanes (iF w % 8) (List.replicate (128 / laneBits (iF w % 8)) (c.num (iA w))))) 1) :=
  goes_next (exec_vsplat r s) h rfl (if_neg (Nat.not_lt.mpr hlt))

theorem vsum_sums (h : Issues s r 0x22 c w) (hlt : iF w % 8 ≤ 1) : Goes (.vsum r) s (roomNext s r (c.setReg (iD w)
    (treeSum (if iF w % 8 = 1 then 3 else 2) ((lanesOf (c.vec (iA w % 8)) (iF w % 8)).map (fun (x : Nat) =>
      vf ((laneFp (iF w % 8)).decode x))))) 2) :=
  goes_next (exec_vsum r s) h rfl (if_neg (Nat.not_lt.mpr hlt))

theorem vsum_reserved (h : Issues s r 0x22 c w) (hlt : 1 < iF w % 8) : Goes (.vsum r) s (s.endCall r c stInvalid (some 11)) :=
  goes_fault (exec_vsum r s) h rfl (if_pos hlt)
end

/-! ### Waits and the end of a call (R117, R118, R124, R137, R138) -/

section
variable {s : State} {r : Nat} {c : Core} {x : RoomWait} {mask at' : Nat} {go : State}

/-- A core that begins to wait below its limit waits while what it awaits has not come. -/
theorem State.waitOver_waits (hbelow : s.limitRc c < s.callLimit (r / 65536)) (hsound : c.failedIn mask = false) :
    s.waitOver r { c with wait := x } mask false at' go = s.setCore r { c with wait := x } := by
  have hlimit : s.limitRc { c with wait := x } < s.callLimit (r / 65536) := hbelow
  have hfailed : Core.failedIn { c with wait := x } mask = false := hsound
  simp [State.waitOver, hlimit, hfailed]

theorem State.waitOver_goes (hbelow : s.limitRc c < s.callLimit (r / 65536)) (hsound : c.failedIn mask = false)
    (htime : at' < s.callLimit (r / 65536) + c.paused) : s.waitOver r { c with wait := x } mask true at' go = go := by
  have hlimit : s.limitRc { c with wait := x } < s.callLimit (r / 65536) := hbelow
  have hfailed : Core.failedIn { c with wait := x } mask = false := hsound
  simp [State.waitOver, hlimit, hfailed, htime]

/-- R117: a wait that ends at the limit or beyond takes LIMIT. -/
theorem State.waitOver_limit (htime : s.callLimit (r / 65536) + c.paused ≤ at') :
    s.waitOver r { c with wait := x } mask true at' go = s.endCall r { c with wait := x } stWatchdog (some 9) :=
  if_pos (.inr ⟨rfl, htime⟩)
end

section
variable {s : State} {r : Fin 1048576} {c : Core} {w : Nat}

theorem not_cancelled_of_issues {op : Nat} (h : Issues s r op c w) : ¬ c.cancelled = true := by
  obtain ⟨-, -, hlive, -⟩ := State.issues_eq_some h.1
  simp [hlive]

theorem limitRc_lt_of_issues {op : Nat} (h : Issues s r op c w) : s.limitRc c < s.callLimit (r / 65536) := by
  obtain ⟨-, -, -, hbelow, -⟩ := State.issues_eq_some h.1
  exact hbelow

theorem goes_await {i : Instr} {op : Nat} {f : Core → Nat → RoomWait} {t : State} (hrow : exec i s = s.await r op f)
    (h : Issues s r op c w) (hwake : s.wake r { c with wait := f c w } = t) : Goes i s t :=
  goes_whole hrow h rfl (congrArg RoomEff.whole hwake)

theorem wait_looks (h : Issues s r 0x2F c w) : Goes (.wait r) s
    (s.waitOver r { c with wait := .events (w % 256) (bit w 8) } (w % 256) (c.ready (w % 256) (bit w 8)) (c.readyAt (w % 256) (bit w 8))
      (s.setCore r { c with wait := .run, pc := c.pc + 1, rc := max c.rc (c.readyAt (w % 256) (bit w 8)) + 1 })) :=
  goes_await (exec_wait r s) h (if_neg (not_cancelled_of_issues h))

theorem fence_looks (h : Issues s r 0x31 c w) : Goes (.fence r) s
    (s.waitOver r { c with wait := .fence } 15 c.idle c.lastAt
      (s.setCore r { c with wait := .run, pc := c.pc + 1, rc := max c.rc c.lastAt + 1 })) :=
  goes_await (exec_fence r s) h (if_neg (not_cancelled_of_issues h))

theorem endCall_looks (h : Issues s r 0x33 c w) : Goes (.endCall r) s
    (s.waitOver r { c with wait := .endOf (endStatus (c.num (iA w) % 256)) } 15 c.idle c.lastAt
      (s.endCall r { c with wait := .endOf (endStatus (c.num (iA w) % 256)), rc := max c.rc c.lastAt + 2 }
        (endStatus (c.num (iA w) % 256)) none)) :=
  goes_await (exec_endCall r s) h (if_neg (not_cancelled_of_issues h))

section
variable (hcore : s.rooms.cores.at r = some c)
include hcore

/-- R119: a word that Table 6-5 does not assign. -/
theorem illegal_word (hrun : c.wait = .run) (hlive : c.cancelled = false) (hbelow : s.limitRc c < s.callLimit (r / 65536))
    (hpc : c.pc < 12288) (hword : wordOk (s.progWord r c.pc) = false) : Goes (.illegal r) s (s.endCall r c stInvalid (some 1)) := by
  simp only [Goes, exec_illegal, execIllegal, hcore, if_pos (And.intro hrun (And.intro hlive hbelow)), if_neg (Nat.not_le.mpr hpc), hword,
    Bool.false_eq_true, if_false]
  rfl

theorem illegal_pc (hrun : c.wait = .run) (hlive : c.cancelled = false) (hbelow : s.limitRc c < s.callLimit (r / 65536))
    (hpc : 12288 ≤ c.pc) : Goes (.illegal r) s (s.endCall r c stInvalid (some 2)) := by
  simp only [Goes, exec_illegal, execIllegal, hcore, if_pos (And.intro hrun (And.intro hlive hbelow)), if_pos hpc]
  rfl

theorem limit_ends (hlive : c.cancelled = false) (hlimit : s.callLimit (r / 65536) ≤ s.limitRc c) :
    Goes (.limit r) s (s.endCall r c stWatchdog (some 9)) := by
  simp only [Goes, exec_limit, execLimit, hcore, if_pos (And.intro hlimit hlive)]

/-- R118: what a cancelled call held of its sample's writes reaches DRAM, and its core is free. -/
theorem callCancel_frees (hcancel : c.cancelled = true) : ∃ t, Goes (.callCancel r) s t ∧
    t.rooms.cores = (c.held.foldl (fun (u : State) h => u.roomWrite (coreWriter h.1) c.home h.2.1 h.2.2) s).rooms.cores.del r ∧
    t.ram = (c.held.foldl (fun (u : State) h => u.roomWrite (coreWriter h.1) c.home h.2.1 h.2.2) s).ram := by
  simp only [Goes, exec_callCancel, execCallCancel, hcore, if_pos hcancel]
  exact ⟨_, rfl, rfl, rfl⟩
end
end

/-! ### What a table reads after a record was put, whatever its order -/

section
variable {α : Type} [DecidableEq α] {d : Nat → α} {k : Nat} {v : α}

/-- A value that no unlisted key reads as uncovers nothing, so no canonical form is needed (`SMap.get_set` needs it). -/
theorem SMap.get_set_of_ne (hv : v ≠ d k) (m : SMap α) (j : Nat) :
    SMap.get d (SMap.set d m k v) j = if j = k then v else SMap.get d m j := by
  have hcons : ∀ m : SMap α, SMap.cons d k v m = (k, v) :: m := fun m => if_neg hv
  induction m with
  | nil => simp [SMap.set, hcons, SMap.get]
  | cons e m ih =>
    obtain ⟨a, u⟩ := e
    rcases lt_trichotomy k a with hbefore | rfl | hafter
    · simp only [SMap.set, if_neg hbefore.ne, if_pos hbefore, hcons, SMap.get]
      grind
    · simp only [SMap.set, if_true, hcons, SMap.get]
      grind
    · simp only [SMap.set, if_neg hafter.ne', if_neg hafter.not_gt, SMap.get, ih]
      grind
end

theorem Tab.at_put {α : Type} [DecidableEq α] (t : Tab α) (k : Nat) (v : α) (j : Nat) :
    (t.put k v).at j = if j = k then some v else t.at j := SMap.get_set_of_ne (by simp) t j

/-! ### The fault log (R142) -/

section
variable {s : State} {r : Nat} (c : Core) (code : Nat)

theorem State.faultLog_enters (h : (SMap.get (fun _ => []) s.rooms.flog (r / 65536)).length < 16) :
    (s.faultLog r c code).rooms.flog = SMap.set (fun _ => []) s.rooms.flog (r / 65536)
      (SMap.get (fun _ => []) s.rooms.flog (r / 65536) ++ [⟨r, code, c.call.cls, c.call.update, c.pc, c.call.entry, c.call.tag⟩]) ∧
    (s.faultLog r c code).io = (s.io.inc .RM_FAULTS (r / 65536)).event .RM_EVENT (r / 65536) 0 := by
  simp only [State.faultLog, if_pos h, State.mapIo_rooms, State.mapIo_io, and_self]

theorem State.faultLog_counts (h : 16 ≤ (SMap.get (fun _ => []) s.rooms.flog (r / 65536)).length) :
    s.faultLog r c code = (s.mapIo (fun io => (io.inc .RM_FAULTS (r / 65536)).event .RM_EVENT (r / 65536) 0)).mapIo
      (fun io => io.event .RM_EVENT (r / 65536) 1) := by
  simp only [State.faultLog, if_neg (Nat.not_lt.mpr h)]
end

/-! ### Races (R126) -/

theorem Core.race_of_nothing {c : Core} (hslots : c.slots = []) (hsends : c.sends = []) (fr a n : Nat) (write : Bool) :
    c.race fr a n write = c := by
  cases c
  cases hslots
  cases hsends
  rfl

/-! ### Wrapping arithmetic (R121) -/

section
variable (x y : Word)

theorem toNat_sub_wraps : (x - y).toNat = (2 ^ 32 + x.toNat - y.toNat) % 2 ^ 32 := by
  rw [BitVec.toNat_sub]
  omega

theorem toNat_add_ofInt (i : Int) : (x + BitVec.ofInt 32 i).toNat = (((x.toNat : Int) + i) % 2 ^ 32).toNat := by
  have hsum : x + BitVec.ofInt 32 i = BitVec.ofInt 32 (x.toNat + i) := by
    rw [BitVec.ofInt_add, BitVec.ofInt_natCast, BitVec.ofNat_toNat, BitVec.setWidth_eq]
  rw [hsum, BitVec.toNat_ofInt]
  rfl

/-- An arithmetic shift divides, rounding down. -/
theorem toNat_sshiftRight (k : Nat) : (x.sshiftRight k).toNat = ((x.toInt / 2 ^ k) % 2 ^ 32).toNat := by
  rw [← BitVec.ofInt_toInt (x := x.sshiftRight k), BitVec.toInt_sshiftRight, Int.shiftRight_eq_div_pow, BitVec.toNat_ofInt]
  rfl
end

theorem shiftAmount_eq (c : Core) (w : Nat) : shiftAmount c w = (if bit (iF w) 13 then iF w else c.num (iB w)) % 32 := by
  unfold shiftAmount
  split <;> rfl

/-! ### Quiet words (R121 to R123) -/

/-- What a core's quiet word leaves of it: its scratch, its call and what it has outstanding. -/
def Core.SameCall (c c' : Core) : Prop := c'.scratch = c.scratch ∧ c'.call = c.call ∧
  c'.slots = c.slots ∧ c'.sends = c.sends ∧ c'.recv = c.recv ∧ c'.ppos = c.ppos ∧ c'.wait = c.wait

theorem Core.sameCall_refl (c : Core) : c.SameCall c := ⟨rfl, rfl, rfl, rfl, rfl, rfl, rfl⟩

theorem Core.sameCall_setReg (c : Core) (i : Nat) (v : Word) : c.SameCall (c.setReg i v) := by
  rw [Core.setReg_eq]
  exact c.sameCall_refl

/-- An instruction whose row gives, for every core and word, a core with the same call after a cost. -/
def QuietRow (s : State) (r : Nat) (i : Instr) : Prop :=
  ∃ op p f, exec i s = s.runRoom r op p f ∧ ∀ c w, ∃ c' n, f c w = .next c' n ∧ c.SameCall c'

section
variable {s t : State} {r : Nat} {i : Instr}

theorem quietRow_of_setReg {op n : Nat} {p : Nat → Bool} {d : Nat → Nat} {v : Core → Nat → Word}
    (hrow : exec i s = s.runRoom r op p (fun c w => .next (c.setReg (d w) (v c w)) n)) : QuietRow s r i :=
  ⟨op, p, _, hrow, fun c _ => ⟨_, _, rfl, c.sameCall_setReg ..⟩⟩

theorem quietRow_of_alu {op : Nat} {g : Word → Word → Word} (hrow : exec i s = s.alu r op g) : QuietRow s r i := quietRow_of_setReg hrow

theorem quietRow_of_fop {fn cost : Nat} {g : Word → Word → Word} (hrow : exec i s = s.fop r fn cost g) : QuietRow s r i :=
  quietRow_of_setReg hrow

/-- A quiet row either does nothing or puts its core, with the same call, and counts free values. -/
theorem QuietRow.answers (hquiet : QuietRow s r i) (h : exec i s = .next t) :
    t = s ∨ ∃ c c' n, s.rooms.cores.at r = some c ∧ c.SameCall c' ∧ t = (s.drew n).setCore r c' := by
  obtain ⟨op, p, f, hrow, hnext⟩ := hquiet
  rw [hrow, State.runRoom] at h
  split at h
  · exact .inl (Host.Outcome.next.inj h).symm
  · next c w hissues =>
    obtain ⟨c', n, heff, hsame⟩ := hnext c w
    split at h
    · rw [heff] at h
      exact .inr ⟨c, { c' with pc := c'.pc + 1, rc := c'.rc + n }, _, (State.issues_eq_some hissues).1, hsame,
        (Host.Outcome.next.inj h).symm⟩
    · exact .inl (Host.Outcome.next.inj h).symm

end

theorem quietRow_of_quietRoom (s : State) (r : Fin 1048576) : ∀ i ∈ quietRoom r, QuietRow s r i := by
  simp only [quietRoom, List.forall_mem_cons, List.not_mem_nil, false_implies, implies_true, and_true]
  exact ⟨⟨_, _, _, exec_nop r s, fun c _ => ⟨_, _, rfl, c.sameCall_refl⟩⟩, quietRow_of_alu (exec_add r s), quietRow_of_alu (exec_sub r s),
    quietRow_of_alu (exec_and r s), quietRow_of_alu (exec_or r s), quietRow_of_alu (exec_xor r s), quietRow_of_setReg (exec_shl r s),
    quietRow_of_setReg (exec_shr r s), quietRow_of_setReg (exec_sra r s), quietRow_of_alu (exec_mul r s),
    quietRow_of_setReg (exec_slt r s), quietRow_of_setReg (exec_addi r s), quietRow_of_setReg (exec_lui r s),
    quietRow_of_fop (exec_fadd r s), quietRow_of_fop (exec_fsub r s), quietRow_of_fop (exec_fmul r s), quietRow_of_fop (exec_fdiv r s),
    quietRow_of_fop (exec_fsqrt r s), quietRow_of_fop (exec_frsq r s), quietRow_of_fop (exec_fmin r s), quietRow_of_fop (exec_fmax r s),
    quietRow_of_fop (exec_itof r s), quietRow_of_fop (exec_ftoi r s), quietRow_of_fop (exec_flt r s),
    quietRow_of_setReg (exec_vmovGet r s), ⟨_, _, _, exec_vmovPut r s, fun c _ => ⟨_, _, rfl, c.sameCall_refl⟩⟩,
    ⟨_, _, _, exec_rseed r s, fun c _ => ⟨_, _, rfl, c.sameCall_refl⟩⟩,
    ⟨_, _, _, exec_rand r s, fun c _ => ⟨_, _, rfl, c.sameCall_setReg ..⟩⟩,
    ⟨_, _, _, exec_evt r s, fun c _ => ⟨_, _, rfl, Core.sameCall_setReg { c with events := _ } ..⟩⟩⟩

/-! ### SCALE of a NaN by a NaN (R74, R129) -/

/-- R129: the factor in register a is the first operand of each product, which R74 lets decide between two NaNs. -/
theorem scale_scales {s : State} {r : Fin 1048576} {c : Core} {w : Nat} (h : Issues s r 0x28 c w) (halign : c.num (iA w) % 4 = 0)
    (hin : c.num (iA w) + 4 * c.num (iB w) ≤ 2048) {c1 : Core} (hc1 : c1 = c.race s.free (c.num (iA w)) (4 * c.num (iB w)) true) :
    Goes (.scale r) s (roomNext s r (c1.poke (c.num (iA w)) ((List.range (c.num (iB w))).flatMap (fun i =>
      bytesOf (f32mul (c.reg (iD w)) (c1.word (c.num (iA w) + 4 * i))).toNat 4))) (2 + (c.num (iB w) + 3) / 4)) := by
  subst hc1
  exact goes_next (exec_scale r s) h rfl (if_neg (by omega))

/-- The word SCALE of g2 words from the address in g0 by g1. -/
def nanScaleWord : Nat := 0x28 * 2 ^ 26 + 1 * 2 ^ 22 + 0 * 2 ^ 18 + 2 * 2 ^ 14

/-- A core whose g1 is the NaN of sign −, whose g2 is 1, and whose scratch begins with the NaN of sign +. -/
def nanCore : Core where
  g := #v[0#32, 0xFFC00000#32, 1#32, 0#32, 0#32, 0#32, 0#32, 0#32, 0#32, 0#32, 0#32, 0#32, 0#32, 0#32, 0#32, 0#32]
  v := Vector.replicate 8 0#128
  pc := 0
  events := 0
  key := 0#64
  row := 0
  ctr := 0
  ppos := 0
  scratch := [(2, 0xC0#8), (3, 0x7F#8)]
  call := ⟨0, 0, false, 0, [], [], .lookup 0 0⟩
  slots := []
  recv := none
  sends := []
  sent := []
  rc := 0
  entered := 0
  evAt := List.replicate 8 0
  sendAt := []
  paused := 0
  wait := .run
  home := 0
  ident := 0
  sample := none
  held := []
  cancelled := false

/-- Room 0 runs that core at that word. -/
def nanScale : State := { State.reset with
  ram := State.reset.ram.poke (progAddr 0 0 0) (bytesOf nanScaleWord 4)
  rooms := { Rooms.reset with cores := [(0, some nanCore)] } }

theorem nanScale_issues : Issues nanScale (0 : Fin 1048576) 0x28 nanCore nanScaleWord := by
  unfold Issues
  decide +kernel

/-! ### Records (R126 to R128, R130 to R132) -/

theorem State.dramGate_ready {s : State} {c : Core} {k : RoomEff} (hready : s.roomChan c.home = .ready) : s.dramGate c k = k := by
  simp only [State.dramGate, hready]

/-- The operands that a DQACC word names, its record at `o`, the words from `b`, and the selector's elements `j0` on, `k` of
them, of dimension `d`; and that they pass the checks made before the record is read. -/
structure DqaccFits (c : Core) (w o b fmt j0 k d : Nat) : Prop where
  o_eq : o = c.num (iD w)
  b_eq : b = c.num (iA w)
  fmt_eq : fmt = iF w / 2048
  j0_eq : j0 = c.num (iB w) % 1024
  k_eq : k = c.num (iB w) / 1024 % 256 + 1
  d_eq : d = c.num (iB w) / 2 ^ 18 % 2048
  selector : ¬ (iF w / 512 % 4 = 3 ∨ c.num (iB w) / 2 ^ 29 ≠ 0 ∨ d < 16 ∨ 1024 < d ∨ d % 16 ≠ 0 ∨ d < j0 + k ∨ b % 16 ≠ 0 ∨
    2048 < b + 4 * k)
  range : ¬ (o % 64 ≠ 0 ∨ 1048576 < o + recLen fmt d)

/-- The operands that a FUPD word names in an update call, its parameters `p`, its record at `o` and the wing and table it belongs
to; and that they pass the checks made before the record is read. -/
structure FupdFits (s : State) (r : Nat) (c : Core) (w o : Nat) (p : UpdParams) (wing t : List Byte) : Prop where
  o_eq : o = c.num (iD w)
  params : updParams (s.storeBytes r (c.num (iA w)) 32) = p
  home_wing : s.plan.wingOf c.home = some wing
  wing_table : s.plan.table (wOwner wing % 4096) = some t
  dim : tDim t = p.dim
  update : ¬ c.call.update = false
  block : ¬ (c.num (iA w) % 16 ≠ 0 ∨ c.num (iA w) < 0xC000 ∨ 65536 < c.num (iA w) + 32)
  dim_ok : ¬ (p.dim ≠ p.dim ∨ p.dim < 16 ∨ 1024 < p.dim)
  norm : ¬ (p.norm % 16 ≠ 0 ∨ p.norm < 0xC000 ∨ 65536 < p.norm + 4 * p.dim)
  payload : ¬ c.call.payload.length < c.ppos + 4 * p.dim
  range : ¬ (o % 64 ≠ 0 ∨ 1048576 < o + recLen (iF w / 2048) p.dim)
  recv : ¬ c.recv.isSome = true

section
variable {s : State} {r : Fin 1048576} {c : Core} {w : Nat}

section
variable {i : Instr} {mode o b fmt j0 k d : Nat} {f : Word → Word → Word → Word} (hrow : exec i s = s.dqacc r mode f)
  (h : Issues s r 0x27 c w) (hmode : iF w / 512 % 4 = mode) (hfits : DqaccFits c w o b fmt j0 k d) (hready : s.roomChan c.home = .ready)
  (hecc : s.dramEcc c o (recLen fmt d) = true)
include hrow h hmode hfits hready hecc

/-- R128: the elements of a sound record are combined with the words in scratch. -/
theorem goes_dqacc_sound (hsound : rowCheckOk (s.dram c o (recLen fmt d)) = true) {c1 : Core} (hc1 : c1 = c.race s.free b (4 * k) true) :
    Goes i s (((s.opened c.home o (recLen fmt d)).drew (if c.racy then 128 else 0)).setCore r
      { c1.poke b ((List.range k).flatMap (fun m =>
          bytesOf (f (c.reg (iF w / 32 % 16)) (recVal fmt d (s.dram c o (recLen fmt d)) (j0 + m)) (c1.word (b + 4 * m))).toNat 4)) with
        pc := c.pc + 1, rc := c.rc + (16 + max (recLen fmt d / 4) ((k + 3) / 4) + s.rowCost r c o) }) := by
  obtain ⟨rfl, rfl, rfl, rfl, rfl, rfl, hselector, hrange⟩ := hfits
  subst hc1
  refine goes_whole hrow h (by simp [hmode]) ((if_neg hselector).trans ((if_neg hrange).trans ?_))
  exact (State.dramGate_ready hready).trans ((if_neg (ne_true_of_eq_false (congrArg not hecc))).trans
    (if_neg (ne_true_of_eq_false (congrArg not hsound))))

/-- R127: a record whose check fails ends the call. -/
theorem goes_dqacc_damaged (hbad : rowCheckOk (s.dram c o (recLen fmt d)) = false) :
    Goes i s (((s.opened c.home o (recLen fmt d)).logRow c.home false).endCall r c stCheck (some 7)) := by
  obtain ⟨rfl, rfl, rfl, rfl, rfl, rfl, hselector, hrange⟩ := hfits
  refine goes_whole hrow h (by simp [hmode]) ((if_neg hselector).trans ((if_neg hrange).trans ?_))
  exact (State.dramGate_ready hready).trans ((if_neg (ne_true_of_eq_false (congrArg not hecc))).trans
    (if_pos (congrArg not hbad)))
end

section
variable {o l : Nat} {p : UpdParams} {wing t rec : List Byte} (h : Issues s r 0x2A c w) (hfits : FupdFits s r c w o p wing t)
  (hl : l = recLen (iF w / 2048) p.dim) (hready : s.roomChan c.home = .ready) (hecc : s.dramEcc c o l = true)
  (hrec : rec = s.dram c o l) (hsound : rowCheckOk rec = true)
include h hfits hl hready hecc hrec hsound

/-- R131: FUPD of a sound record that is frozen. -/
theorem fupd_frozen (hfrozen : bit (u8 rec 10) 0 = true) {q : Nat} (hq : q = max c.rc (c.evAt.getD 4 0)) : Goes (.fupd r) s
    (((s.opened c.home o l).mapIo (fun io => io.inc .RM_FROZEN (r / 65536))).setCore r
      { ((({ c with rc := q, ppos := c.ppos + 4 * p.dim } : Core).setReg (iB w) 7#32).setReg (iB w + 1) 0#32) with
        pc := c.pc + 1, rc := q + (20 + l / 4 + s.rowCost r c o) }) := by
  obtain ⟨rfl, hparams, hwing, htable, hdim, hupdate, hblock, hdimok, hnorm, hpayload, hrange, hrecv⟩ := hfits
  subst hl hrec hq
  refine goes_whole (exec_fupd r s) h rfl ?_
  simp only [hparams, hwing, Option.getD_some, htable, hdim, if_neg hupdate, if_neg hblock, if_neg hdimok, if_neg hnorm,
    if_neg hpayload, if_neg hrange, if_neg hrecv, State.dramGate_ready hready]
  exact (if_neg (ne_true_of_eq_false (congrArg not hecc))).trans ((if_neg (ne_true_of_eq_false (congrArg not hsound))).trans
    (if_pos hfrozen))

/-- R131, R132: FUPD of a sound record that is not frozen writes it back updated. -/
theorem fupd_updated (hlive : bit (u8 rec 10) 0 = false) {q : Nat} (hq : q = max c.rc (c.evAt.getD 4 0)) {out : List Byte × Word}
    (hout : out = updRecord (iF w / 2048) (wOwner wing % 4096) (c.num (iB w)) p
      ((List.range p.dim).map (fun j => BitVec.ofNat 32 (u32 (s.storeBytes r p.norm (4 * p.dim)) (4 * j))))
      ((List.range p.dim).map (fun j => BitVec.ofNat 32 (u32 (slice c.call.payload c.ppos (4 * p.dim)) (4 * j)))) rec) :
    Goes (.fupd r) s (((s.opened c.home o l).mapIo (fun io => io.inc .RM_UPDATES (r / 65536))).dramWrite r
      { ((({ c with rc := q, ppos := c.ppos + 4 * p.dim } : Core).setReg (iB w) 0#32).setReg (iB w + 1) out.2) with
        pc := c.pc + 1, rc := q + (20 + l / 4 + s.rowCost r c o) + p.dim / 2 + l / 4 } false o out.1) := by
  obtain ⟨rfl, hparams, hwing, htable, hdim, hupdate, hblock, hdimok, hnorm, hpayload, hrange, hrecv⟩ := hfits
  subst hl hrec hq hout
  refine goes_whole (exec_fupd r s) h rfl ?_
  simp only [hparams, hwing, Option.getD_some, htable, hdim, if_neg hupdate, if_neg hblock, if_neg hdimok, if_neg hnorm,
    if_neg hpayload, if_neg hrange, if_neg hrecv, State.dramGate_ready hready]
  exact (if_neg (ne_true_of_eq_false (congrArg not hecc))).trans ((if_neg (ne_true_of_eq_false (congrArg not hsound))).trans
    (if_neg (ne_true_of_eq_false hlive)))
end

end

end Sys2Proof.Machine

namespace Sys2Proof.Claims

/-- Settles O18: each row's function of the word's operands, and GETS with and without a sample to void. -/
theorem roomArithmeticRuns : Obligations.RoomArithmeticRuns := by
  intro s r c w
  exact ⟨fun h => goes_next (exec_nop r s) h rfl rfl, goes_alu (exec_add r s), goes_alu (exec_sub r s), goes_alu (exec_and r s),
    goes_alu (exec_or r s), goes_alu (exec_xor r s), fun h => goes_next (exec_shl r s) h rfl rfl,
    fun h => goes_next (exec_shr r s) h rfl rfl, fun h => goes_next (exec_sra r s) h rfl rfl, goes_alu (exec_mul r s), slt_signed,
    slt_unsigned, fun h => goes_next (exec_addi r s) h rfl rfl, fun h => goes_next (exec_lui r s) h rfl rfl, gets_reads, gets_time,
    rseed_seeds, rand_draws⟩

/-- Settles O19: each function's row, and FRSQ by whether a is -0. -/
theorem roomFloatRuns : Obligations.RoomFloatRuns := by
  intro s r c w h
  refine ⟨fun e he hfn => goes_fop (?_ : exec e.1 s = s.fop r e.2.1 e.2.2.1 e.2.2.2) h hfn, fun hfn hzero => ?_, fun hfn hzero => ?_⟩
  · clear hfn
    revert e
    simp only [List.forall_mem_cons, List.not_mem_nil, false_implies, implies_true, and_true]
    exact ⟨exec_fadd r s, exec_fsub r s, exec_fmul r s, exec_fdiv r s, exec_fsqrt r s, exec_fmin r s, exec_fmax r s, exec_itof r s,
      exec_ftoi r s, exec_flt r s⟩
  · have hresult : roomRsqrt (c.reg (iA w)) = 0xFF800000#32 := if_pos hzero
    simpa only [hresult] using goes_fop (exec_frsq r s) h hfn
  · have hresult : roomRsqrt (c.reg (iA w)) = within 1 9 (c.reg (iA w)) (f32rsqrtExact (c.reg (iA w))) := if_neg hzero
    simpa only [hresult] using goes_fop (exec_frsq r s) h hfn

/-- Settles O20: a branch by its condition and its target, and the three jumps by their targets. -/
theorem roomBranchesRun : Obligations.RoomBranchesRun := by
  rintro s r c w _ _ _ rfl rfl rfl
  refine ⟨?_, ?_, ?_, fun h => ⟨loop_ends h, loop_repeats h, loop_outside h⟩⟩
  · simp only [List.forall_mem_cons, List.not_mem_nil, false_implies, implies_true, and_true]
    exact ⟨goes_branch (exec_beq r s), goes_branch (exec_bne r s), goes_branch (exec_blt r s), goes_branch (exec_bge r s)⟩
  · rintro h _ rfl
    exact ⟨fun hlow hhigh => goes_jumps (exec_jal r s) h rfl (jump_inside hlow hhigh),
      fun hout => goes_fault (exec_jal r s) h rfl (jump_outside hout)⟩
  · rintro h _ rfl
    exact ⟨fun hlow hhigh => goes_jumps (exec_jr r s) h rfl (jump_inside hlow hhigh),
      fun hout => goes_fault (exec_jr r s) h rfl (jump_outside hout)⟩

/-- Settles O21: each access by its two checks; the address wraps before them. -/
theorem roomMemoryRuns : Obligations.RoomMemoryRuns := by
  rintro s r c w _ rfl
  refine ⟨?_, ?_, ?_, fun h halign hin => goes_next (exec_sts r s) h rfl (scratchAt_moves halign hin), ?_,
    fun h halign hin => goes_next (exec_stsv r s) h rfl (scratchAt_moves halign hin),
    fun h halign hin => goes_next (exec_ldc r s) h rfl (if_neg (not_or.mpr ⟨not_not.mpr halign, Nat.not_lt.mpr hin⟩)),
    fun h halign hin => goes_next (exec_ldcv r s) h rfl (if_neg (not_or.mpr ⟨not_not.mpr halign, Nat.not_lt.mpr hin⟩))⟩
  · simp only [List.forall_mem_cons, List.not_mem_nil, false_implies, implies_true, and_true]
    exact ⟨fun h hbad => goes_fault (exec_lds r s) h rfl (scratchAt_fault hbad),
      fun h hbad => goes_fault (exec_sts r s) h rfl (scratchAt_fault hbad),
      fun h hbad => goes_fault (exec_ldsv r s) h rfl (scratchAt_fault hbad),
      fun h hbad => goes_fault (exec_stsv r s) h rfl (scratchAt_fault hbad)⟩
  · simp only [List.forall_mem_cons, List.not_mem_nil, false_implies, implies_true, and_true]
    exact ⟨fun h hbad => goes_fault (exec_ldc r s) h rfl (if_pos hbad),
      fun h hbad => goes_fault (exec_ldcv r s) h rfl (if_pos hbad)⟩
  · rintro _ rfl h halign hin
    exact goes_next (exec_lds r s) h rfl (scratchAt_moves halign hin)
  · rintro _ rfl h halign hin
    exact goes_next (exec_ldsv r s) h rfl (scratchAt_moves halign hin)

/-- Settles O22: the four lanewise rows by their lane type, and conversions, splats, sums and moves. -/
theorem roomVectorsRun : Obligations.RoomVectorsRun := by
  intro s r c w
  refine ⟨fun e he h => ?_, vcvt_reserved, vcvt_int_to_float, vsplat_fills, vsum_sums, vsum_reserved,
    fun h hform => goes_next (exec_vmovGet r s) h (by simpa using hform) rfl,
    fun h hform => goes_next (exec_vmovPut r s) h hform rfl⟩
  have hrow : exec e.1 s = s.vop r e.2.1 e.2.2.1 e.2.2.2 := by
    clear h
    revert e
    simp only [List.forall_mem_cons, List.not_mem_nil, false_implies, implies_true, and_true]
    exact ⟨exec_vadd r s, exec_vmul r s, exec_vfma r s, exec_vmax r s⟩
  exact ⟨goes_vop_reserved hrow h, goes_vop_lanes hrow h⟩

/-- Settles O23: a wait, FENCE and END look once as they begin, and END and TRAP, LIMIT and CALL_CANCEL end the call. -/
theorem roomWaitsRun : Obligations.RoomWaitsRun := by
  intro s r c w
  refine ⟨fun h hsound hunset => ?_, fun h hsound hset => ⟨fun htime => ?_, fun htime => ?_⟩, fun h hsound hidle htime => ?_,
    fun h hsound hbusy => ?_, fun h hsound hidle htime => ?_, fun h => goes_next (exec_evt r s) h rfl rfl,
    fun h => goes_fault (exec_trap r s) h rfl rfl,
    fun c hcore hrun hlive hbelow => ⟨illegal_word hcore hrun hlive hbelow, illegal_pc hcore hrun hlive hbelow⟩,
    fun c hcore hlive hlimit => limit_ends hcore hlive hlimit, ?_⟩
  · simpa only [hunset, State.waitOver_waits (limitRc_lt_of_issues h) hsound] using wait_looks h
  · simpa only [hset, State.waitOver_goes (limitRc_lt_of_issues h) hsound htime] using wait_looks h
  · simpa only [hset, State.waitOver_limit htime] using wait_looks h
  · simpa only [hidle, State.waitOver_goes (limitRc_lt_of_issues h) hsound htime] using fence_looks h
  · simpa only [hbusy, State.waitOver_waits (limitRc_lt_of_issues h) hsound] using fence_looks h
  · simpa only [hidle, State.waitOver_goes (limitRc_lt_of_issues h) hsound htime] using endCall_looks h
  · rintro c _ hcore hcancel rfl
    exact callCancel_frees hcore hcancel

/-- Settles O53: each result is the operands' exact result modulo 2^32. -/
theorem scalarResultsAndZero : Obligations.ScalarResultsAndZero := by
  rintro s r c w k rfl
  refine ⟨?_, ?_⟩
  · rintro _ v rfl
    exact ⟨fun hzero => by rw [hzero, Core.setReg_zero], Core.reg_setReg_same c _ v (iD_lt w), Core.reg_zero _⟩
  · rw [← shiftAmount_eq]
    simp only [List.forall_mem_cons, List.not_mem_nil, false_implies, implies_true, and_true]
    refine ⟨fun h => ⟨_, ?_, goes_alu (exec_add r s) h⟩, fun h => ⟨_, ?_, goes_alu (exec_sub r s) h⟩,
      fun h => ⟨_, ?_, goes_alu (exec_mul r s) h⟩, fun h => ⟨_, ?_, goes_next (exec_addi r s) h rfl rfl⟩,
      fun h => ⟨_, ?_, goes_next (exec_shl r s) h rfl rfl⟩, fun h => ⟨_, ?_, goes_next (exec_shr r s) h rfl rfl⟩,
      fun h => ⟨_, ?_, goes_next (exec_sra r s) h rfl rfl⟩⟩
    · exact BitVec.toNat_add ..
    · exact toNat_sub_wraps ..
    · exact BitVec.toNat_mul ..
    · exact toNat_add_ofInt ..
    · rw [BitVec.toNat_shiftLeft, Nat.shiftLeft_eq]
      rfl
    · rw [BitVec.toNat_ushiftRight, Nat.shiftRight_eq_div_pow]
      rfl
    · exact toNat_sshiftRight ..

/-- Settles O54: an entry is never the empty log, so it reads back whatever the table of logs held. -/
theorem faultLogHoldsSixteen : Obligations.FaultLogHoldsSixteen := by
  rintro s r code c _ rfl
  refine ⟨fun hroom => ?_, fun hfull => ?_⟩
  · obtain ⟨hlog, hio⟩ := State.faultLog_enters c code hroom
    exact ⟨by rw [hlog, SMap.get_set_of_ne (by simp), if_pos rfl], hio⟩
  · rw [State.faultLog_counts c code hfull]
    exact ⟨rfl, rfl⟩

/-- Settles O58: every row of the list is quiet, and a quiet row puts one core and counts free values. -/
theorem roomInstructionFrame : Obligations.RoomInstructionFrame := by
  intro r s t i hi hexec
  rcases (quietRow_of_quietRoom s r i hi).answers hexec with rfl | ⟨c, c', n, hcore, hsame, rfl⟩
  · refine ⟨fun _ _ => rfl, rfl, fun c c' hc hc' => ?_⟩
    obtain rfl : c = c' := Option.some.inj (hc.symm.trans hc')
    exact c.sameCall_refl
  · have hcores : ((s.drew n).setCore r c').rooms.cores = s.rooms.cores.put r c' := rfl
    refine ⟨fun q hq => by rw [hcores, Tab.at_put, if_neg hq], rfl, fun d d' hd hd' => ?_⟩
    obtain rfl : c = d := Option.some.inj (hcore.symm.trans hd)
    obtain rfl : c' = d' := by simpa [hcores, Tab.at_put] using hd'
    exact hsame

/-- Settles O59: the noted lines and the drawn ones are those of outstanding operations. -/
theorem noRaceWithoutOperations : Obligations.NoRaceWithoutOperations := by
  intro c fr a n write hslots hsends
  exact ⟨Core.race_of_nothing hslots hsends fr a n write, by simp [Core.racy, hslots, hsends]⟩

/-- Refutes O24: its SCALE clause multiplies the scratch word by the factor, the model the factor by the word, and R74 gives a product of
two NaNs the sign of the first. In `nanScale` a NaN of sign + is scaled by one of sign −: the clause stores sign +, the model
sign −. -/
theorem not_roomRowsRun : ¬ Obligations.RoomRowsRun := by
  intro h
  obtain ⟨-, -, -, -, hscale, -⟩ := h nanScale 0 nanCore { nanCore with rc := max nanCore.rc (nanCore.evAt.getD 0 0) }
    (nanCore.race nanScale.free 0 (4 * 1) true) nanScaleWord 0xFFC00000 0 1 64 0 (by decide) (by decide) (by decide) (by decide) (by decide) rfl
  have hclaimed := hscale nanScale_issues (by decide) (by decide) rfl
  have hmodel := scale_scales nanScale_issues (by decide) (by decide) rfl
  have hsame := Host.Outcome.next.inj (hclaimed.symm.trans hmodel)
  have hscratch := congrArg (fun t : State => (t.rooms.cores.at 0).map Core.scratch) hsame
  exact absurd hscratch (by decide +kernel)

/-- Settles O25: DQACC by its record's check in each of its three modes, and FUPD outside an update call, of a frozen record and of
one that it updates. -/
theorem roomRecordsRun : Obligations.RoomRecordsRun := by
  intro s r c w o b sl fmt j0 k d ho hb hsl hfmt hj0 hk hd
  refine ⟨fun e he h hmode hreserved hmin hmax halign hslice hbalign hscratch hoalign hrange hready hecc => ?_,
    fun h hcall => goes_fault (exec_fupd r s) h rfl (if_pos hcall), ?_⟩
  · have hrow : exec e.1 s = s.dqacc r e.2.1 e.2.2 ∧ e.2.1 < 3 := by
      clear hmode
      revert e
      simp only [List.forall_mem_cons, List.not_mem_nil, false_implies, implies_true, and_true]
      exact ⟨⟨exec_dqaccAssign r s, by decide⟩, ⟨exec_dqaccAdd r s, by decide⟩, ⟨exec_dqaccMax r s, by decide⟩⟩
    subst hsl
    have hfits : DqaccFits c w o b fmt j0 k d := ⟨ho, hb, hfmt, hj0, hk, hd, by omega, by omega⟩
    exact ⟨fun hsound _ hc1 => goes_dqacc_sound hrow.1 h hmode hfits hready hecc hsound hc1,
      goes_dqacc_damaged hrow.1 h hmode hfits hready hecc⟩
  · intro p l wing t rec h hcall hp hwing htable hdim hmin hmax hl hbalign hblow hbhigh hnalign hnlow hnhigh hpayload hoalign hrange
      hrecv hready hecc hrec hsound q hq
    subst hb hfmt
    have hfits : FupdFits s r c w o p wing t :=
      ⟨ho, hp.symm, hwing, htable, hdim, by simp [hcall], by omega, by omega, by omega, by omega, hl ▸ by omega, by simp [hrecv]⟩
    exact ⟨fun hfrozen => ⟨(s.opened c.home o l).mapIo _, rfl, fupd_frozen h hfits hl hready hecc hrec hsound hfrozen hq⟩,
      fun hlive out hout => ⟨(s.opened c.home o l).mapIo _, rfl, fupd_updated h hfits hl hready hecc hrec hsound hlive hq hout⟩⟩

end Sys2Proof.Claims
end

section
/-! PROOFS. Wings, tables and lookups (chapter 7): the wing room index and its inverse (O56); lists, sublists, remote answers and
row flags (O35). -/

open Sys2Proof Sys2Proof.Machine Sys2Proof.Claims

namespace Sys2Proof.Machine

/-! ### The wing room index (R144) -/

section
variable {w : List Byte}

/-- R144: the index of the room in logical channel `c` at logical room `r`. -/
theorem roomIndex_room (st : Nat) {c r : Nat} (hc : c < 64) (hr : r < 1024) :
    roomIndex w (st * 65536 + c * 1024 + r) = r * wChans w + (c - wFirst w) := by
  have hroom : (st * 65536 + c * 1024 + r) % 1024 = r := by omega
  have hchan : (st * 65536 + c * 1024 + r) / 1024 % 64 = c := by omega
  rw [roomIndex, hroom, hchan]

/-- R144: the index of the wing's room `i` is `i`: its logical room is the quotient by C, its place among the channels the
remainder. -/
theorem roomIndex_wingRoom {i : Nat} (hsome : 0 < wChans w) (hfits : wFirst w + wChans w ≤ 64) (hi : i < 1024 * wChans w) :
    roomIndex w (wingRoom w i) = i := by
  have hmod : i % wChans w < wChans w := Nat.mod_lt i hsome
  have hdiv : i / wChans w < 1024 := Nat.div_lt_of_lt_mul (by rwa [Nat.mul_comm] at hi)
  rw [wingRoom, roomIndex_room _ (by omega) hdiv, Nat.add_sub_cancel_left, Nat.div_add_mod']
end

/-- GETS value 3 (Table 6-8): the index of the core's room in the wing that holds it. -/
theorem State.special_three {s : State} {c : Core} {w : List Byte} (hwing : s.plan.wingOf c.ident = some w) :
    s.special c 3 = roomIndex w c.ident := by
  simp only [State.special, hwing, Option.getD_some]

/-! ### The rows of the dispatch of lookups and row flags -/

theorem exec_cmdLookup (id : Nat) (s : State) : exec (.cmdLookup id) s = execCmdLookup id s := rfl
theorem exec_rxSublist (p : Fin 64) (m : Msg) (s : State) : exec (.rxSublist p m) s = execRxSublist p m s := rfl
theorem exec_rxPartial (p : Fin 64) (m : Msg) (s : State) : exec (.rxPartial p m) s = execRxPartial p m s := rfl
theorem exec_cmdRowFlag (id : Nat) (s : State) : exec (.cmdRowFlag id) s = execCmdRowFlag id s := rfl

/-! ### CMD_LOOKUP (R153 to R157) -/

section
variable {s : State} {id : Nat} {c : Cmd} (hready : s.readyCmd id 9 = some c)
include hready

/-- A list that is not taken up ends with its status; CHECK is logged at the list's address. -/
theorem cmdLookup_over {st : Nat} (hlist : s.readList (.cmd id) (u64 c.entry 0x10) c.cls = .over st) :
    Goes (.cmdLookup id) s ((if st = stCheck then s.logCheck (u64 c.entry 0x10) (dpaRoom (u64 c.entry 0x10)) else s).finish id st 0) := by
  simp only [Goes, exec_cmdLookup, execCmdLookup, hready, hlist]

/-- A list that is taken up runs as one part of its command, on its destination's array and the stacks that serve it. -/
theorem cmdLookup_begins {x : Lookup} {oor : Nat} (hlist : s.readList (.cmd id) (u64 c.entry 0x10) c.cls = .go x oor) :
    ∃ arr stk, Goes (.cmdLookup id) s (((s.runCmd id 1).touch id arr stk).beginList x oor) :=
  ⟨_, _, by simp only [Goes, exec_cmdLookup, execCmdLookup, hready, hlist]; rfl⟩
end

/-! ### RX_SUBLIST (R162) -/

section
variable {s : State} {p : Fin 64} {m : Msg} {k : Nat} (hlinked : (s.port p).linked = true)
include hlinked

/-- R284: a message that is not the next one expected is answered as the last accepted was. -/
theorem rxSublist_again (hserving : s.host.parked = false) (htakes : s.connTakes m = some (k, false)) :
    Goes (.rxSublist p m) s (s.ackAgain k) := by
  simp [Goes, exec_rxSublist, execRxSublist, hlinked, hserving, htakes]

section
variable (hserving : s.host.parked = false) (htakes : s.connTakes m = some (k, true))
include hserving htakes

/-- A sublist of a table that the plan does not have is refused. -/
theorem rxSublist_refused (htable : (s.accepted k 0).plan.table (u16 m.payload 0) = none) :
    Goes (.rxSublist p m) s ((s.accepted k 0).connSend k 0x16
      { Msg.blank with tag := m.tag, arg := m.arg, payload := bytesOf stInvalid 4 } none none none) := by
  simp [Goes, exec_rxSublist, execRxSublist, hlinked, hserving, htakes, htable]

/-- A sublist whose wing holds the shard of every entry is taken up at the wing's landing. -/
theorem rxSublist_served {t w : List Byte} {ws : List Nat} {bags : List (List (Nat × Nat × Word))}
    (htable : (s.accepted k 0).plan.table (u16 m.payload 0) = some t) (hwing : (s.accepted k 0).plan.wing (u16 m.payload 2) = some w)
    (hws : ws = (List.range (u32 m.payload 8)).map (fun i => u32 m.payload (16 + 4 * i)))
    (hbags : bags = bagEntries m.payload (16 + 4 * u32 m.payload 8) 0 (ws.map (· % 2 ^ 31)))
    (hvalid : wKind w = 1 ∧ wOwner w % 4096 = tId t ∧ u8 m.payload 4 ≤ 5 ∧ u8 m.payload 7 = 0 ∧
      endsOk 0 (ws.map (· % 2 ^ 31)) (u32 m.payload 12) = true ∧
      bags.all (fun es => es.all (fun e => e.2.1 % tShards t == wParam w && decide (e.2.1 < tRows t))) = true) :
    Goes (.rxSublist p m) s (((s.accepted k 0).mapIo (fun io => io.inc .WG_REMOTE_IN (wStack w))).beginList
      ⟨.remote k m.arg, tId t, u8 m.payload 4, u8 m.payload 6, u8 m.payload 5, 0, 0, 0, 0, m.cls,
        bags.map (fun es => es.map (fun e => (e.1, e.2.1, e.2.2, true))), ws.map (fun e => bit e 31),
        bags.zipIdx.flatMap (fun g => localParts t w (u8 m.payload 4) g.2 (wParam w)
          (if u8 m.payload 4 = 4 then g.1.take (u8 m.payload 5) else g.1)), wStack w, none⟩ 0) := by
  have hopen : ¬ ((s.port p).linked = false ∨ s.host.parked = true) := by simp [hlinked, hserving]
  subst hbags hws
  simp only [Goes, exec_rxSublist, execRxSublist, if_neg hopen, htakes, htable, hwing]
  exact if_pos hvalid
end

/-! ### RX_PARTIAL (R162, R163) -/

theorem rxPartial_again (htakes : s.connTakes m = some (k, false)) : Goes (.rxPartial p m) s (s.ackAgain k) := by
  simp [Goes, exec_rxPartial, execRxPartial, hlinked, htakes]

/-- The elements of the vectors of list `l`: those of its table's rows, or 16 where the list or its table is gone. -/
def State.listDim (s : State) (l : Nat) : Nat :=
  match s.wings.lookups.at l with
  | some x => ((s.plan.table x.table).map tDim).getD 16
  | none => 16

/-- An answer of DONE is taken for the parts of the shard that it names. -/
theorem rxPartial_taken (htakes : s.connTakes m = some (k, true)) (hdone : endStatus (u32 m.payload 0) = stDone) :
    Goes (.rxPartial p m) s (((s.accepted k 0).setList (m.arg / 2 ^ 20) (fun x =>
      x.takeAnswer ((s.accepted k 0).listDim (m.arg / 2 ^ 20)) (m.arg % 2 ^ 20) m.payload)).settleList (m.arg / 2 ^ 20)) := by
  have hopen : ¬ (s.port p).linked = false := by simp [hlinked]
  simp only [Goes, exec_rxPartial, execRxPartial, if_neg hopen, htakes, if_pos hdone]
  rfl
end

/-! ### CMD_ROW_FLAG (R152) -/

/-- R152: the bytes of a record with its FROZEN flag set to `v`, under a new check. -/
def flagged (bytes : List Byte) (v : Nat) : List Byte :=
  withCheck (bytes.take 10 ++ [BitVec.ofNat 8 (u8 bytes 10 / 2 * 2 + v)] ++ bytes.drop 11)

section
variable {s : State} {id : Nat} {c : Cmd} (hready : s.readyCmd id 13 = some c)
include hready

theorem cmdRowFlag_noTable (htable : s.plan.table (u16 c.entry 0x10) = none) :
    Goes (.cmdRowFlag id) s (s.finish id stInvalid 0) := by
  simp only [Goes, exec_cmdRowFlag, execCmdRowFlag, hready, htable]

/-- A sound record of a row that one wing holds is rewritten in 64-byte bursts. -/
theorem cmdRowFlag_rewrites {t w bytes : List Byte} {row room o : Nat} (htable : s.plan.table (u16 c.entry 0x10) = some t)
    (hflag : u8 c.entry 0x12 ≤ 1) (hrow : row = u32 c.entry 0x14) (hin : row < tRows t)
    (hwing : s.plan.shardWings (tId t) (row % tShards t) = [w]) (hfree : s.stackHeld (wStack w) = false)
    (hroom : room = wingRoom w (row / tShards t % wRooms w)) (ho : o = row / tShards t / wRooms w * tRecLen t)
    (hchan : s.roomChan room = .ready)
    (hbytes : bytes = (List.range (tRecLen t / 64)).flatMap (fun i => s.ram.read (roomDpa room (o + 64 * i)) 64))
    (hecc : (List.range (tRecLen t / 64)).all (fun i => s.ram.eccOk (roomDpa room (o + 64 * i)) 64) = true)
    (hsound : rowCheckOk bytes = true) :
    Goes (.cmdRowFlag id) s ((((List.range (tRecLen t / 64)).foldl (fun (u : State) i =>
      u.sheetWrite .row (roomDpa room (o + 64 * i)) (slice (flagged bytes (u8 c.entry 0x12)) (64 * i) 64)) s).touch
        id 0 (0 ||| 2 ^ wStack w)).finish id stDone 0) := by
  subst hrow hroom ho hbytes
  have hvalid : ¬ (1 < u8 c.entry 0x12 ∨ tRows t ≤ u32 c.entry 0x14 ∨ [w] = []) := by simpa using ⟨hflag, hin⟩
  have hnow : ¬ (([w].any fun w => s.stackHeld (wStack w) ||
      s.roomChan (wingRoom w (u32 c.entry 0x14 / tShards t % wRooms w)) == .planned ||
      s.roomChan (wingRoom w (u32 c.entry 0x14 / tShards t % wRooms w)) == .unplanned) = true) := by simp [hfree, hchan]
  simp only [Goes, exec_cmdRowFlag, execCmdRowFlag, hready, htable, hwing, if_neg hvalid, if_neg hnow, List.foldl_cons, List.foldl_nil,
    hchan, hecc, hsound]
  rfl
end

end Sys2Proof.Machine

namespace Sys2Proof.Claims

/-- Settles O56: a room number is its stack, channel and logical room, and division by C undoes the index. -/
theorem wingRoomIndexes : Obligations.WingRoomIndexes := by
  intro w c0 n st hc0 hn hst hsome hfits
  subst hc0 hn hst
  refine ⟨fun c r _ hc hr => roomIndex_room _ (by omega) hr, fun i hi => ⟨rfl, roomIndex_wingRoom hsome hfits hi⟩,
    fun s r c x hissues hthree hwing => ?_⟩
  have hreads := gets_reads hissues (by omega) (by omega)
  rwa [hthree, State.special_three hwing] at hreads

/-- Settles O35: each command where it applies: a list by what reading it gives, a message by whether it is the next one expected,
and a row flag by its table and its record. -/
theorem lookupCommandsRun : Obligations.LookupCommandsRun := by
  intro s p m
  refine ⟨fun id c st hready hlist => ?_, fun _ _ _ _ hready => cmdLookup_begins hready,
    fun k hlinked htakes => ⟨fun hserving => rxSublist_again hlinked hserving htakes, rxPartial_again hlinked htakes⟩,
    fun _ => rxSublist_refused,
    fun k t w ws bags hlinked hserving htakes htable hwing hws hbags hkind howner hmode hpolicy hends hheld =>
      rxSublist_served hlinked hserving htakes htable hwing hws hbags ⟨hkind, howner, hmode, hpolicy, hends, hheld⟩,
    fun k d hlinked htakes hdone hd => ?_, fun _ _ => cmdRowFlag_noTable, fun _ _ _ _ _ _ _ _ hready => cmdRowFlag_rewrites hready⟩
  · have hover := cmdLookup_over hready hlist
    exact ⟨fun hst => by rwa [if_neg hst] at hover, fun hst => by rwa [if_pos hst, hst] at hover⟩
  · subst hd
    exact rxPartial_taken hlinked htakes hdone

end Sys2Proof.Claims
end

section
/-! PROOFS. Matrix arrays (chapter 8): tiles taken up and drained, fills of the attic, chains and chain-loads (O33). -/

open Sys2Proof Sys2Proof.Machine Sys2Proof.Claims

namespace Sys2Proof.Machine

/-! ### The arrays' rows of the dispatch -/

theorem exec_tileAccept (a : Fin 64) (s : State) : exec (.tileAccept a) s = execTileAccept a s := rfl
theorem exec_tileFinish (a : Fin 64) (s : State) : exec (.tileFinish a) s = execTileFinish a s := rfl
theorem exec_atticFillDone (line : Nat) (s : State) : exec (.atticFillDone line) s = execAtticFillDone line s := rfl
theorem exec_chainStart (a : Fin 64) (s : State) : exec (.chainStart a) s = execChainStart a s := rfl
theorem exec_chainComplete (a : Fin 64) (s : State) : exec (.chainComplete a) s = execChainComplete a s := rfl
theorem exec_chainLoadApply (a : Fin 64) (s : State) : exec (.chainLoadApply a) s = execChainLoadApply a s := rfl
theorem exec_cmdChainLoad (id : Nat) (s : State) : exec (.cmdChainLoad id) s = execCmdChainLoad id s := rfl

/-! ### Tiles (R189, R191, R204) -/

section
variable {s : State} {a : Fin 64} {t : Tile}

/-- R191: an array that holds no next tile and is not quarantined takes up the descriptor at the front of its port. -/
theorem tileAccept_takes {rest : List Tile} (hinbox : (s.arr a).inbox = t :: rest) (hnext : (s.arr a).next = none)
    (hserves : (s.arr a).quarantined = false) : Goes (.tileAccept a) s (acceptTile s a t rest) := by
  simp [Goes, exec_tileAccept, execTileAccept, hinbox, hnext, hserves]

section
variable (hrunning : (s.arr a).running = some t)
include hrunning

/-- R189, R204: a tile does not drain into a full queue. -/
theorem tileFinish_waits (hfull : 4 ≤ (s.arr a).slots) : Goes (.tileFinish a) s s := by
  have hclosed : ¬ ((s.arr a).slots < 4 ∧ (s.arr a).loads = []) := fun hopen => absurd hopen.1 (Nat.not_lt.mpr hfull)
  simp only [Goes, exec_tileFinish, execTileFinish, hrunning, if_neg hclosed, ignored]

section
variable (hroom : (s.arr a).slots < 4) (hloads : (s.arr a).loads = [])
include hroom hloads

theorem tileFinish_drains (hsound : tileStop t.desc (tileBlk s a) (storeBlkOk s a) = none) :
    Goes (.tileFinish a) s (finishTile s a t) := by
  simp only [Goes, exec_tileFinish, execTileFinish, hrunning, if_pos (And.intro hroom hloads), hsound]

theorem tileFinish_stops {w : TileStop} (hstop : tileStop t.desc (tileBlk s a) (storeBlkOk s a) = some w) :
    Goes (.tileFinish a) s (stopTile s a t w) := by
  simp only [Goes, exec_tileFinish, execTileFinish, hrunning, if_pos (And.intro hroom hloads), hstop]
end
end
end

/-! ### The attic (R198, R199) -/

/-- R199: the fill of the line at `a` is reissued, so a write it missed no longer spoils it. -/
def State.reissueFill (s : State) (a : Nat) : State := { s with
  mx := { s.mx with attic := s.mx.attic.map (fun x => if x.line = a then { x with spoiled := false } else x) } }

/-- R198: the line at `a` is resident with the sheet's bytes and checks, the most recently used one, and its miss is counted. -/
def State.fillLine (s : State) (a : Nat) : State := { s with
  mx := { s.mx with attic := ⟨a, false, false, s.ram.read a 4096, (List.range 16).map (fun i => s.ram.blk (a + 256 * i))⟩ ::
    s.mx.attic.filter (fun x => x.line != a) }
  io := s.io.inc .MX_ATTIC_MISSES }

section
variable {s : State} {line : Nat} {l : AtticLine} (hline : s.mx.attic.find? (fun l => l.line == line * 4096) = some l)
  (hfilling : l.filling = true) (hfree : s.chanHeld (line / 262144) = false)
include hline hfilling hfree

/-- R199: a fill that a write reached is reissued. -/
theorem atticFillDone_reissues (hspoiled : l.spoiled = true) : Goes (.atticFillDone line) s (s.reissueFill (line * 4096)) := by
  simp [Goes, exec_atticFillDone, execAtticFillDone, State.reissueFill, hline, hfilling, hfree, hspoiled]

/-- R198: any other fill is delivered to the stores that wait for the line, and the fills that lacked room begin. -/
theorem atticFillDone_delivers (hclean : l.spoiled = false) :
    Goes (.atticFillDone line) s ((s.fillLine (line * 4096)).deliver (line * 4096)).startFills := by
  simp [Goes, exec_atticFillDone, execAtticFillDone, State.fillLine, hline, hfilling, hfree, hclean]
end

/-! ### Chains (R204, R223) -/

section
variable {s : State} {a : Fin 64} {q : QTile}

/-- R223: the engine takes the tile at the front of the queue once no chain runs and no earlier descriptor is left. -/
theorem chainStart_takes {rest : List QTile} (hqueue : (s.arr a).queue = q :: rest) (hidle : (s.arr a).chain = none)
    (hturn : (s.arr a).descBefore q.seq = false) : Goes (.chainStart a) s (startTile s a q rest) := by
  simp [Goes, exec_chainStart, execChainStart, hqueue, hidle, hturn]

theorem chainComplete_completes (hchain : (s.arr a).chain = some q) : Goes (.chainComplete a) s (completeChain s a q) := by
  simp only [Goes, exec_chainComplete, execChainComplete, hchain]
end

/-! ### Chain-loads (R209) -/

/-- A checked entry waits at an array for its queue to empty, as the one part of its command. -/
def State.queueLoad (s : State) (id a e : Nat) (bytes : List Byte) : State :=
  ((s.runCmd id 1).touch id (2 ^ a) 0).setArr a (fun r => { r with loads := r.loads ++ [⟨e, bytes, id⟩] })

/-- R209: an inline entry of an array that is not draining is judged by `chainOk` alone. -/
theorem cmdChainLoad_judged {s : State} {id : Nat} {c : Cmd} (hready : s.readyCmd id 0x0C = some c) (hinline : u64 c.entry 0x18 = 0)
    (hlen : 128 ≤ cLen c.entry) (hcount : cCount c.entry = 128) (harr : (s.plan.fab (u8 c.entry 0x10)).isSome = true)
    (hopen : s.arrDraining (u8 c.entry 0x10) = false) :
    Goes (.cmdChainLoad id) s (if chainOk ((cInline c.entry).take 128) = false then s.finish id stInvalid 0
      else s.queueLoad id (u8 c.entry 0x10) (u8 c.entry 0x11) ((cInline c.entry).take 128)) := by
  have hvalid : ¬ (cCount c.entry ≠ 128 ∨ (s.plan.fab (u8 c.entry 0x10)).isNone = true ∨
      (u64 c.entry 0x18 = 0 ∧ cLen c.entry < 128) ∨
      (u64 c.entry 0x18 ≠ 0 ∧ s.plan.dpaOk (u64 c.entry 0x18) 128 = false)) := by
    rw [← Option.not_isSome, harr]
    simp [hcount, hinline, hlen]
  have hnow : ¬ (u64 c.entry 0x18 ≠ 0 ∧ s.dpaHeld (u64 c.entry 0x18) 128 = true ∨ s.arrDraining (u8 c.entry 0x10) = true) := by
    simp [hinline, hopen]
  have hchecked : ¬ (u64 c.entry 0x18 ≠ 0 ∧ s.ram.consumerOk (u64 c.entry 0x18) 128 = false) := by simp [hinline]
  simp only [Goes, exec_cmdChainLoad, execCmdChainLoad, hready, if_neg hvalid, if_neg hnow, if_neg hchecked, if_pos hinline,
    State.queueLoad, apply_ite Host.Outcome.next]

/-- R209: the load at the front is applied once the queue is empty and no chain runs, and its command is done. -/
theorem chainLoadApply_applies {s : State} {a : Fin 64} {l : ChainLoad} {rest : List ChainLoad}
    (hloads : (s.arr a).loads = l :: rest) (hqueue : (s.arr a).queue = []) (hidle : (s.arr a).chain = none) :
    Goes (.chainLoadApply a) s (({ s.setArr a (fun r => { r with loads := rest }) with
      ram := s.ram.poke (chainAddr a l.entry 0) l.bytes } : State).finish l.cmd stDone 0) := by
  simp only [Goes, exec_chainLoadApply, execChainLoadApply, hloads, if_pos (And.intro hqueue hidle)]

end Sys2Proof.Machine

namespace Sys2Proof.Claims

/-- Settles O33: each event of an array or of the attic where it applies, and a chain-load by the judgement of its entry. -/
theorem arrayEventsRun : Obligations.ArrayEventsRun := by
  intro s a
  refine ⟨fun _ _ => tileAccept_takes,
    fun _ hrunning hroom hloads => ⟨tileFinish_drains hrunning hroom hloads, fun _ => tileFinish_stops hrunning hroom hloads⟩,
    fun _ => tileFinish_waits,
    fun _ _ hline hfilling hfree => ⟨atticFillDone_reissues hline hfilling hfree, atticFillDone_delivers hline hfilling hfree⟩,
    fun _ _ => chainStart_takes, fun _ => chainComplete_completes,
    fun id c bs hready hinline hlen hcount hbytes harr hopen => ?_, fun _ _ => chainLoadApply_applies⟩
  subst hbytes
  have hjudged := cmdChainLoad_judged hready hinline hlen hcount harr hopen
  exact ⟨fun hbad => by rwa [if_pos hbad] at hjudged, fun hok => by rwa [if_neg (ne_false_of_eq_true hok)] at hjudged⟩

end Sys2Proof.Claims
end

section
/-! PROOFS. Vector engines (chapter 9): engine descriptors run in their turn and report their status (O34). -/

open Sys2Proof Sys2Proof.Machine Sys2Proof.Claims

namespace Sys2Proof.Machine

/-! ### The vector engines' rows of the dispatch -/

theorem exec_engineRun (a : Fin 64) (s : State) : exec (.engineRun a) s = execEngineRun a s := rfl
theorem exec_engineGather (a : Fin 64) (s : State) : exec (.engineGather a) s = execEngineGather a s := rfl
theorem exec_engineMerge (a : Fin 64) (s : State) : exec (.engineMerge a) s = execEngineMerge a s := rfl
theorem exec_engineScatter (a : Fin 64) (s : State) : exec (.engineScatter a) s = execEngineScatter a s := rfl
theorem exec_engineDescriptorDone (a : Fin 64) (s : State) :
    exec (.engineDescriptorDone a) s = execEngineDescriptorDone a s := rfl

section
variable {s : State} {a : Fin 64}

/-! ### A descriptor whose turn has come (R223 to R225) -/

section
variable {d : EDesc × List EDesc}

theorem engineRun_runs (hturn : s.frontDesc a 1 = some d) : Goes (.engineRun a) s (runDesc s a d.1 d.2) := by
  simp only [Goes, exec_engineRun, execEngineRun, hturn]

theorem engineGather_gathers (hturn : s.frontDesc a 2 = some d) : Goes (.engineGather a) s (gatherDesc s a d.1 d.2) := by
  simp only [Goes, exec_engineGather, execEngineGather, hturn]

theorem engineMerge_merges (hturn : s.frontDesc a 3 = some d) : Goes (.engineMerge a) s (mergeDesc s a d.1 d.2) := by
  simp only [Goes, exec_engineMerge, execEngineMerge, hturn]

theorem engineScatter_scatters (hturn : s.frontDesc a 4 = some d) : Goes (.engineScatter a) s (scatterDesc s a d.1 d.2) := by
  simp only [Goes, exec_engineScatter, execEngineScatter, hturn]
end

/-! ### The end of a descriptor (R223) -/

section
variable {d : EDesc}

/-- R223: the descriptor at work leaves the engine, is counted, and its unit gets the status it finished with. -/
theorem engineDescriptorDone_reports {st : Nat} (hfinished : (s.arr a).eact = some (d, some st)) :
    Goes (.engineDescriptorDone a) s
      (({ s.setArr a (fun r => { r with eact := none }) with io := s.io.inc .VE_CHAINS a } : State).unitStatus
        d.ctx d.iter d.unit st) := by
  simp only [Goes, exec_engineDescriptorDone, execEngineDescriptorDone, hfinished]

/-- R223: no engine takes the descriptor to work, for its OP is unassigned or its array is not enabled. -/
def State.descRefused (s : State) (a : Nat) (d : EDesc) : Prop :=
  u8 d.desc 0 = 0 ∨ 4 < u8 d.desc 0 ∨ s.plan.fab a = none

/-- The model's test of a refused descriptor is `State.descRefused`. -/
theorem State.descRefused_iff (s : State) (a : Nat) (d : EDesc) :
    (decide (u8 d.desc 0 = 0 ∨ 4 < u8 d.desc 0) || (s.plan.fab a).isNone) = true ↔ s.descRefused a d := by
  rw [Bool.or_eq_true, decide_eq_true_iff, Option.isNone_iff_eq_none, or_assoc, State.descRefused]

/-- R223: a refused descriptor leaves the engine's port in its turn, and its unit gets INVALID_COMMAND. -/
theorem engineDescriptorDone_refuses {rest : List EDesc} (hidle : (s.arr a).eact = none)
    (hport : (s.arr a).edescs = d :: rest) (hready : (s.arr a).descReady d = true) (hrefused : s.descRefused a d) :
    Goes (.engineDescriptorDone a) s
      ((s.setArr a (fun r => { r with edescs := rest })).unitStatus d.ctx d.iter d.unit stInvalid) := by
  simp only [Goes, exec_engineDescriptorDone, execEngineDescriptorDone, hidle, hport, hready,
    (s.descRefused_iff a d).mpr hrefused, Bool.and_self, if_true]
end
end

end Sys2Proof.Machine

namespace Sys2Proof.Claims

/-- Settles O34: each OP's row runs the front descriptor of that OP, and the row of the end reports a finished descriptor or
refuses one that no engine takes. -/
theorem engineDescriptorsRun : Obligations.EngineDescriptorsRun := fun _ _ =>
  ⟨fun _ => engineRun_runs, fun _ => engineGather_gathers, fun _ => engineMerge_merges, fun _ => engineScatter_scatters,
    fun _ _ => engineDescriptorDone_reports, fun _ _ => engineDescriptorDone_refuses⟩

end Sys2Proof.Claims
end

section
/-! PROOFS. Online update (chapter 10): gradients, the close and the scan, the verdict tree, parameter blocks and dense writes (O36);
the flip, parameters and the state of shards (O37). -/

open Sys2Proof Sys2Proof.Machine Sys2Proof.Claims

namespace Sys2Proof.Machine

/-! ### The update block's rows of the dispatch -/

theorem exec_gradientContribution (l i : Nat) (s : State) :
    exec (.gradientContribution l i) s = execGradientContribution l i s := rfl
theorem exec_cmdGradient (id : Nat) (s : State) : exec (.cmdGradient id) s = execCmdGradient id s := rfl
theorem exec_rxGradlist (p : Fin 64) (m : Msg) (s : State) : exec (.rxGradlist p m) s = execRxGradlist p m s := rfl
theorem exec_rxVtree (p : Fin 64) (child : Bool) (count : Fin 32768) (s : State) :
    exec (.rxVtree p child count) s = execRxVtree p child count s := rfl
theorem exec_vtreeSend (s : State) : exec .vtreeSend s = execVtreeSend s := rfl
theorem exec_rxVerdictUp (p : Fin 64) (flip raised : Bool) (step count : Nat) (s : State) :
    exec (.rxVerdictUp p flip raised step count) s = execRxVerdictUp p flip raised step count s := rfl
theorem exec_rxVerdictDown (p : Fin 64) (flip raised : Bool) (step count : Nat) (s : State) :
    exec (.rxVerdictDown p flip raised step count) s = execRxVerdictDown p flip raised step count s := rfl
theorem exec_verdictRootDeadline (flip : Bool) (s : State) :
    exec (.verdictRootDeadline flip) s = execVerdictRootDeadline flip s := rfl
theorem exec_epochClose (s : State) : exec .epochClose s = execEpochClose s := rfl
theorem exec_scanComplete (st : Fin 16) (s : State) : exec (.scanComplete st) s = execScanComplete st s := rfl
theorem exec_scanDeadline (s : State) : exec .scanDeadline s = execScanDeadline s := rfl
theorem exec_verdictDeadline (s : State) : exec .verdictDeadline s = execVerdictDeadline s := rfl
theorem exec_paramBlockWrite (wing : Fin 1024) (s : State) : exec (.paramBlockWrite wing) s = execParamBlockWrite wing s := rfl
theorem exec_denseWritesComplete (s : State) : exec .denseWritesComplete s = execDenseWritesComplete s := rfl
theorem exec_denseDeadline (s : State) : exec .denseDeadline s = execDenseDeadline s := rfl
theorem exec_flip (s : State) : exec .flip s = execFlip s := rfl
theorem exec_cmdUpdateParam (id : Nat) (s : State) : exec (.cmdUpdateParam id) s = execCmdUpdateParam id s := rfl
theorem exec_cmdStateLoad (id : Nat) (s : State) : exec (.cmdStateLoad id) s = execCmdStateLoad id s := rfl
theorem exec_stateLoadEffect (wing : Fin 1024) (s : State) : exec (.stateLoadEffect wing) s = execStateLoadEffect wing s := rfl
theorem exec_cmdStateRead (id : Nat) (s : State) : exec (.cmdStateRead id) s = execCmdStateRead id s := rfl

/-! ### Contributions of a gradient list (R243, R244, R246) -/

/-- Contribution `i` has left list `l` for its landing. -/
def State.sendGrad (s : State) (l i : Nat) : State := s.setGrad l (fun g => { g with todo := g.todo.eraseIdx i })

section
variable {s : State} {l i shard row : Nat} {g : GradList} {weight : Word} {v : List Word} {t : List Byte} {x : Nat}
  (hlist : s.upd.lists.at l = some g) (htodo : g.todo[i]? = some (x, shard, row, weight, v)) (htable : s.plan.table g.table = some t)
include hlist htodo htable

/-- R244: a landing of this device refuses a contribution as stale or takes it for the open epoch. -/
theorem gradientContribution_lands {w : List Byte} {refused : Bool} {u : State} (howner : (s.sendGrad l i).ownerOf t shard = .here w)
    (hfree : s.landingHeld w = false) (htaken : (s.sendGrad l i).contribute t w row weight v = (refused, u)) :
    Goes (.gradientContribution l i) s ((u.setGrad l (fun g =>
      if refused then { g with rejected := true } else { g with openEpoch := true })).settleGrad l) := by
  have hnow : ¬ s.landingHeld w = true := ne_true_of_eq_false hfree
  unfold State.sendGrad at howner htaken
  simp only [Goes, exec_gradientContribution, execGradientContribution, hlist, htodo, htable, howner, htaken, if_neg hnow]

/-- R246: a shard whose owner cannot be read leaves the list's contribution unreachable. -/
theorem gradientContribution_unread (howner : (s.sendGrad l i).ownerOf t shard = .unread) :
    Goes (.gradientContribution l i) s (((s.sendGrad l i).setGrad l (fun g => { g with unreach := true })).settleGrad l) := by
  unfold State.sendGrad at howner ⊢
  simp only [Goes, exec_gradientContribution, execGradientContribution, hlist, htodo, htable, howner]

/-- R246: a shard without an owner makes the list invalid. -/
theorem gradientContribution_bad (howner : (s.sendGrad l i).ownerOf t shard = .bad) :
    Goes (.gradientContribution l i) s (((s.sendGrad l i).setGrad l (fun g => { g with invalid := true })).settleGrad l) := by
  unfold State.sendGrad at howner ⊢
  simp only [Goes, exec_gradientContribution, execGradientContribution, hlist, htodo, htable, howner]
end

/-! ### CMD_GRADIENT (R243) -/

section
variable {s : State} {id : Nat} {c : Cmd} (hready : s.readyCmd id 10 = some c)
include hready

theorem cmdGradient_begins {g : GradList} (hlist : s.readGrad (.cmd id) (u64 c.entry 0x10) = .go g) :
    Goes (.cmdGradient id) s ((s.runCmd id 1).beginGrad g) := by
  simp only [Goes, exec_cmdGradient, execCmdGradient, hready, hlist]

/-- A list that is over ends its command; only CHECK and FROZEN leave a trace of their own. -/
theorem cmdGradient_over {st : Nat} (hlist : s.readGrad (.cmd id) (u64 c.entry 0x10) = .over st) (hcheck : st ≠ stCheck)
    (hfrozen : st ≠ stFrozen) : Goes (.cmdGradient id) s (s.finish id st 0) := by
  simp only [Goes, exec_cmdGradient, execCmdGradient, hready, hlist, if_neg hcheck, if_neg hfrozen]
end

/-! ### RX_GRADLIST (R162, R243) -/

section
variable {s : State} {p : Fin 64} {m : Msg} {k : Nat} (hlinked : (s.port p).linked = true) (hserving : s.host.parked = false)
include hlinked hserving

/-- A linked port of a device that is not parked takes the fabric's gradients. -/
theorem State.takes_of_linked : ¬ ((s.port p).linked = false ∨ s.host.parked = true) := by simp [hlinked, hserving]

/-- R284: a message that is not the next one expected is answered as the last accepted was. -/
theorem rxGradlist_again (htakes : s.connTakes m = some (k, false)) : Goes (.rxGradlist p m) s (s.ackAgain k) := by
  simp only [Goes, exec_rxGradlist, execRxGradlist, if_neg (State.takes_of_linked hlinked hserving), htakes]

section
variable (htakes : s.connTakes m = some (k, true))
include htakes

theorem rxGradlist_noTable (htable : s.plan.table (u16 m.payload 0) = none) : Goes (.rxGradlist p m) s (s.accepted k stInvalid) := by
  simp only [Goes, exec_rxGradlist, execRxGradlist, if_neg (State.takes_of_linked hlinked hserving), htakes, htable]

/-- The vector of a contribution's message: `d` words from byte 12. -/
def gradWords (b : List Byte) (d : Nat) : List Word := (List.range d).map (fun j => BitVec.ofNat 32 (u32 b (12 + 4 * j)))

/-- R243: a contribution to a row of the wing's shard reaches the landing, and the ACK says whether it was refused as stale. -/
theorem rxGradlist_lands {t w : List Byte} {refused : Bool} {u : State} (htable : s.plan.table (u16 m.payload 0) = some t)
    (hwing : s.plan.wing (u16 m.payload 2) = some w)
    (hvalid : wKind w = 1 ∧ wOwner w % 4096 = tId t ∧ u32 m.payload 4 % tShards t = wParam w ∧ u32 m.payload 4 < tRows t ∧
      m.payload.length = 12 + 4 * tDim t) (hfree : s.landingHeld w = false)
    (htaken : s.contribute t w (u32 m.payload 4) (BitVec.ofNat 32 (u32 m.payload 8)) (gradWords m.payload (tDim t)) = (refused, u)) :
    Goes (.rxGradlist p m) s (u.accepted k (if refused then stRejected else stDone)) := by
  have hnow : ¬ s.landingHeld w = true := ne_true_of_eq_false hfree
  unfold gradWords at htaken
  simp only [Goes, exec_rxGradlist, execRxGradlist, if_neg (State.takes_of_linked hlinked hserving), htakes, htable, hwing, if_pos hvalid,
    if_neg hnow, htaken]
end
end

/-! ### The verdict tree (R301 to R303) -/

/-- R301: what a neighbour says of its parent and its subtree. -/
def State.heardVtree (s : State) (p : Nat) (child : Bool) (count : Nat) : State :=
  s.setPort p (fun x => { x with child := child, childCount := count, childAt := s.mer.count })

/-- R302: a neighbour that is no child has no aggregate in either reduction. -/
def State.dropAggregates (s : State) (p : Nat) : State :=
  { s with fab := { s.fab with commit := s.fab.commit.dropPort p, flip := s.fab.flip.dropPort p } }

/-- R301: VTREE leaves every linked port, and names the parent at its own. -/
def State.sendVtree (s : State) : State :=
  s.linkedPorts.foldl (fun u p => u.sendNear p 0x20 { Msg.blank with
    cls := 3, payload := bytesOf (if s.parentPort = some p then 1 else 0) 1 ++ zeros 1 ++ bytesOf s.subtree 2 }) s

/-- R302: an open aggregate of a device that is not the root goes to the parent again. -/
def State.repeatAggregate (s : State) (flip : Bool) : State :=
  if (s.fab.verdict flip).close.isSome && !(s.fab.verdict flip).root then s.pushVerdict flip else s

theorem State.repeatAggregate_of_closed {s : State} {flip : Bool} (hclose : (s.fab.verdict flip).close = none) :
    s.repeatAggregate flip = s := by
  simp [State.repeatAggregate, hclose]

/-- R301: once per frame VTREE leaves and the open aggregates go to the parent again. -/
theorem vtreeSend_repeats {s : State} (hgrid : s.plan.hasGrid = true) :
    Goes .vtreeSend s ((s.sendVtree.repeatAggregate false).repeatAggregate true) := by
  simp only [Goes, exec_vtreeSend, execVtreeSend]
  exact if_neg (ne_false_of_eq_true hgrid)

/-- R301: while no reduction is open, VTREE is all that leaves. -/
theorem vtreeSend_sends {s : State} (hgrid : s.plan.hasGrid = true) (hcommit : s.sendVtree.fab.commit.close = none)
    (hflip : s.sendVtree.fab.flip.close = none) : Goes .vtreeSend s s.sendVtree := by
  have hrepeats := vtreeSend_repeats hgrid
  rwa [State.repeatAggregate_of_closed (flip := false) hcommit, State.repeatAggregate_of_closed (flip := true) hflip] at hrepeats

theorem State.sendVtree_of_alone {s : State} (hports : s.linkedPorts = []) : s.sendVtree = s := by
  rw [State.sendVtree, hports, List.foldl_nil]

section
variable {s : State} {p : Fin 64} (hlinked : (s.port p).linked = true)
include hlinked

theorem rxVtree_hears (child : Bool) (count : Fin 32768) : Goes (.rxVtree p child count) s
    (if child then s.heardVtree p child count else (s.heardVtree p child count).dropAggregates p) := by
  have hopen : ¬ (s.port p).linked = false := by simp [hlinked]
  simp only [Goes, exec_rxVtree, execRxVtree, if_neg hopen]
  rfl

section
variable {flip : Bool} (hclose : (s.fab.verdict flip).close.isNone = false) (hopen : (s.fab.verdict flip).decided = false)
include hclose hopen

/-- R302: the child's aggregate replaces its last one in the open reduction. -/
theorem rxVerdictUp_replaces (hchild : s.childPorts.contains p.val = true) (raised : Bool) (step count : Nat) :
    Goes (.rxVerdictUp p flip raised step count) s ((s.setVerdict flip (fun v =>
      { v with kids := v.kids.filter (fun (k : Aggregate) => k.port != p) ++ [(⟨p, raised, step, count⟩ : Aggregate)] })).pushVerdict flip) := by
  have htaken : ¬ ((s.port p).linked = false ∨ s.childPorts.contains p.val = false ∨ (s.fab.verdict flip).close.isNone = true ∨
      (s.fab.verdict flip).decided = true) := by simp [hlinked, hclose, hopen, -List.contains_eq_mem, hchild]
  simp only [Goes, exec_rxVerdictUp, execRxVerdictUp, if_neg htaken]

/-- R303: the first verdict of an open reduction is forwarded, reported and acted on. -/
theorem rxVerdictDown_decides (raised : Bool) (step count : Nat) :
    Goes (.rxVerdictDown p flip raised step count) s ((((s.setVerdict flip (fun v => { v with decided := true })).verdictDown flip
      raised step count).reportVerdict flip raised step count).actOn flip raised step) := by
  have htaken : ¬ ((s.port p).linked = false ∨ (s.fab.verdict flip).close.isNone = true ∨ (s.fab.verdict flip).decided = true) := by
    simp [hlinked, hclose, hopen]
  simp only [Goes, exec_rxVerdictDown, execRxVerdictDown, if_neg htaken]
end
end

/-- R303: the root decides with what it has once its deadline is reached. -/
theorem verdictRootDeadline_decides {s : State} {flip : Bool} (hclose : (s.fab.verdict flip).close.isSome = true)
    (hroot : (s.fab.verdict flip).root = true) (hopen : (s.fab.verdict flip).decided = false)
    (htime : s.mer.reached (s.upd.close + (if flip then s.plan.epochF - s.plan.epochF / 16 else 3 * s.plan.epochF / 8)) = true) :
    Goes (.verdictRootDeadline flip) s (s.decideRoot flip) := by
  simp only [Goes, exec_verdictRootDeadline, execVerdictRootDeadline]
  exact if_pos ⟨hclose, hroot, hopen, htime⟩

/-! ### The close (R237, R244) -/

/-- R237: the step of the epoch that closes at `c` is scanned from then on, and the open epoch of each list is the closed one. -/
def State.closeAt (s : State) (c : Nat) : State :=
  (s.mapIo (fun io => (io.putN .UP_CAUSE 0 0).putWide .UP_CLOSE_LO 0 (BitVec.ofNat 64 c))).setUpd (fun u => { u with
    phase := .scanning, close := c, commitSent := false, flipSent := false, flipVerdict := none
    denseNonfinite := false, denseAbsurd := false, denseDamaged := false, denseFault := false
    lists := u.lists.map (fun e => (e.1, e.2.map (fun g => { g with
      closedEpoch := g.closedEpoch || g.openEpoch, openEpoch := false }))) })

/-- R244: an overrun of a landing that is not drained is a cause. -/
def State.noteOverrun (s : State) : State :=
  if stackIds.any (fun k => (s.comb k).overClosed && !s.draining k) then s.mapIo (fun io => io.setBit .UP_CAUSE 0 2 true) else s

/-- R244: every landing swaps its banks. -/
def State.swapBanks (s : State) : State := stackIds.foldl State.swapBank s

/-- R237: the overruns of the swaps are noted and the reductions of the step that closes at `c` open. -/
def State.openStep (s : State) (c : Nat) : State :=
  (s.noteOverrun.openVerdict false c).setVerdict true (fun _ => Verdict.reset)

/-- The plan, the phase and T of a step: what a swap of banks has no part in. -/
def State.epoch (s : State) : Plan × UpPhase × Nat := (s.plan, s.upd.phase, s.upd.close)

@[simp] theorem State.swapBank_epoch (s : State) (k : Nat) : (s.swapBank k).epoch = s.epoch := by
  unfold State.swapBank
  extract_lets
  split <;> rfl

@[simp] theorem State.noteOverrun_epoch (s : State) : s.noteOverrun.epoch = s.epoch := by
  unfold State.noteOverrun
  split <;> rfl

theorem State.setVerdict_epoch (s : State) (flip : Bool) (g : Verdict → Verdict) : (s.setVerdict flip g).epoch = s.epoch := rfl

@[simp] theorem State.swapBanks_epoch (s : State) : s.swapBanks.epoch = s.epoch :=
  foldl_same State.epoch _ State.swapBank_epoch stackIds s

@[simp] theorem State.openStep_epoch (s : State) (c : Nat) : (s.openStep c).epoch = s.epoch := by
  rw [State.openStep, State.setVerdict_epoch, State.openVerdict, State.setVerdict_epoch, State.noteOverrun_epoch]

@[simp] theorem State.closeAt_epoch (s : State) (c : Nat) : (s.closeAt c).epoch = (s.plan, .scanning, c) := rfl

theorem State.epoch_eq_iff {s : State} {plan : Plan} {phase : UpPhase} {c : Nat} :
    s.epoch = (plan, phase, c) ↔ s.plan = plan ∧ s.upd.phase = phase ∧ s.upd.close = c := by
  simp [State.epoch]

@[simp] theorem State.foldl_swapBank_plan (s : State) : (stackIds.foldl State.swapBank s).plan = s.plan :=
  (State.epoch_eq_iff.mp s.swapBanks_epoch).1

@[simp] theorem State.openVerdict_plan (s : State) (flip : Bool) (c : Nat) : (s.openVerdict flip c).plan = s.plan := rfl

/-- The epoch that closes at `c` leaves the device scanning for the step of T = `c`, under the same plan. -/
theorem State.closedEpoch_epoch (s : State) (k c : Nat) :
    (((s.fired k c).closeAt c).swapBanks.openStep c).epoch = (s.plan, .scanning, c) := by
  rw [State.openStep_epoch, State.swapBanks_epoch, State.closeAt_epoch, State.fired_plan]

/-- R237, R304: a device without a fabric closes its epoch and opens the reductions of the step. -/
theorem epochClose_scans {s : State} {k c : Nat} {i : Instant} (hinstant : s.plan.instantOf 1 = some k)
    (hdue : s.dueInstant k = some (i, c)) (halone : s.plan.hasGrid = false) :
    Goes .epochClose s (((s.fired k c).closeAt c).swapBanks.openStep c) := by
  simp only [Goes, exec_epochClose, execEpochClose, hinstant, hdue, State.setVerdict_plan, State.openVerdict_plan, apply_ite State.plan,
    State.mapIo_plan, ite_self, State.foldl_swapBank_plan, State.setUpd_plan, State.fired_plan, halone, Bool.false_and,
    Bool.false_eq_true, if_false]
  rfl

/-! ### The scan (R238, R245) -/

/-- R242: the rows of a landing's closed bank that fail a test and are frozen. Rows of stale shards are not tested. -/
def State.frozenRows (s : State) (st : Nat) : List AccRow :=
  ((s.comb st).drain.filter (fun r => !(s.shard r.wing).stale)).filter (fun r => !(s.scanRow r).1)

/-- R245: the scan of a bank whose rows an earlier step still sends keeps the rows, and finds neither fault. -/
def State.scanSending (s : State) (st : Nat) : State :=
  (s.setComb st (fun c => { c with scanned := true, nonfinite := false, absurd := false })).mapIo (fun io =>
    if (s.frozenRows st).isEmpty then io else io.add .UP_FROZEN 0 (s.frozenRows st).length)

theorem scanComplete_sending {s : State} {st : Fin 16} (hphase : s.upd.phase = .scanning) (hfirst : (s.comb st).scanned = false)
    (hserves : s.plan.inService st = true) (hgo : (s.comb st).go = true) :
    Goes (.scanComplete st) s
      (if (s.scanSending st).scansDone = true then (s.scanSending st).contributeScan else s.scanSending st) := by
  have hscans : ¬ (s.upd.phase ≠ .scanning ∨ (s.comb st).scanned = true ∨ s.plan.inService st = false) := by
    simp [hphase, hfirst, hserves]
  have hrows : (((s.comb st).drain.filter (fun r => !(s.shard r.wing).stale)).map (fun r => (r, s.scanRow r))).filter
      (fun r => !r.2.1) = (s.frozenRows st).map (fun r => (r, s.scanRow r)) := by
    rw [List.filter_map]
    rfl
  simp only [Goes, exec_scanComplete, execScanComplete, if_neg hscans, hrows, List.isEmpty_map, List.length_map, hgo, Bool.not_true,
    Bool.false_and, Bool.false_eq_true, if_false, State.scanSending, State.setComb, if_true]

/-- R237: at T + F/4 the device contributes a raised bit with cause LATE_SCAN. -/
theorem scanDeadline_contributes {s : State} (hphase : s.upd.phase = .scanning)
    (htime : s.mer.reached (s.upd.close + s.plan.epochF / 4) = true) :
    Goes .scanDeadline s (((s.mapIo (fun io => io.setBit .UP_CAUSE 0 3 true)).setUpd (fun u => { u with
      phase := .await, commitSent := true })).contributeBit false true) := by
  simp only [Goes, exec_scanDeadline, execScanDeadline]
  exact if_pos ⟨hphase, htime⟩

/-- R239: at T + F/2 a device without a verdict skips its step and every shard and layer of it is stale. -/
theorem verdictDeadline_skips {s : State} (hphase : s.upd.phase = .scanning ∨ s.upd.phase = .await)
    (htime : s.mer.reached (s.upd.close + s.plan.epochF / 2) = true) :
    Goes .verdictDeadline s (((s.setVerdict false (fun v => { v with decided := true })).mapIo (fun io =>
      io.event .UP_EVENT 0 2)).skipStep.staleAll) := by
  simp only [Goes, exec_verdictDeadline, execVerdictDeadline]
  exact if_pos ⟨hphase, htime⟩

/-! ### Parameter blocks (R115, R247) -/

/-- The channels of a wing and of its twin. -/
def State.pairChans (s : State) (w : List Byte) : List Nat :=
  wingChans w ++ (match s.plan.twin w with | some v => wingChans v | none => [])

/-- Whether rows of a wing's twin are still out. -/
def State.twinOut (s : State) (w : List Byte) : Bool := match s.plan.twin w with | some v => s.rowsOut v | none => false

/-- R247: the block of a wing's next step stands in every channel of the wing and of its twin, and what it stopped goes on. -/
def State.writeBlock (s : State) (wing : Nat) (w t e : List Byte) : State := { s.unlockStores (.block wing) with
  ram := (s.pairChans w).foldl
    (fun m c => m.poke (progAddr (c / 64) (c % 64) 0xC000) (s.paramBlock w t e (s.blockStep wing))) s.ram
  upd := { s.upd with blocks := s.upd.blocks.filter (· != wing) } }

/-- R115, R247: a due block is written once no room-call runs in the channels, which are locked until then. -/
theorem paramBlockWrite_proceeds {s : State} {wing : Fin 1024} {w t e : List Byte} (hdue : s.upd.blocks.contains wing.val = true)
    (hwing : s.plan.wing wing = some w) (htable : s.plan.table (wOwner w % 4096) = some t)
    (hentry : s.entryFor (tableKey (wOwner w % 4096)) (s.blockStep wing) = some e) (hrows : s.rowsOut w = false)
    (htwin : s.twinOut w = false) :
    Goes (.paramBlockWrite wing) s (if (s.pairChans w).any s.rooms.busyChan then s.lockStores (.block wing) (s.pairChans w)
      else s.writeBlock wing w t e) := by
  have hpresent : ¬ s.upd.blocks.contains wing.val = false := ne_false_of_eq_true hdue
  have hback : ¬ (s.rowsOut w || s.twinOut w) = true := by simp [hrows, htwin]
  simp only [Goes, exec_paramBlockWrite, execParamBlockWrite, if_neg hpresent, hwing, htable, hentry]
  refine (if_neg hback).trans ?_
  rw [apply_ite Host.Outcome.next]
  rfl

/-! ### Dense writes (R237, R240) -/

section
variable {s : State} (hphase : s.upd.phase = .applying)
include hphase

/-- R237: complete dense writes contribute the problem bit, or a raised bit past T + F − F/8. -/
theorem denseWritesComplete_contributes (hwritten : s.denseMissing = false) : Goes .denseWritesComplete s
    (if s.upd.close + s.plan.epochF - s.plan.epochF / 8 < s.mer.count then (s.denseProblem 10).contributeFlip true
      else s.contributeFlip s.denseBit) := by
  simp only [Goes, exec_denseWritesComplete, execDenseWritesComplete, if_pos (And.intro hphase hwritten), apply_ite Host.Outcome.next]

theorem denseDeadline_contributes
    (htime : s.mer.reached (s.upd.close + s.plan.epochF - s.plan.epochF / 8) = true) : Goes .denseDeadline s
      (if s.denseMissing then (s.denseProblem 10).contributeFlip true else s.contributeFlip s.denseBit) := by
  simp only [Goes, exec_denseDeadline, execDenseDeadline, if_pos (And.intro hphase htime), apply_ite Host.Outcome.next]
end

/-! ### The flip (R240) -/

/-- R240: the step under way ends with the verdict that it has. -/
def State.endStep (s : State) : State :=
  ((s.dueDigests s.upd.deciding).setUpd (fun x => { x with
    phase := .collecting, lastFlipSkipped := s.upd.flipVerdict != some false })).setVerdict true (fun v => { v with decided := true })

section
variable {s : State} {k c : Nat} {i : Instant} (hinstant : s.plan.instantOf 2 = some k) (hdue : s.dueInstant k = some (i, c))
include hinstant hdue

theorem flip_idle (hphase : s.upd.phase = .collecting) : Goes .flip s (s.fired k c) := by
  have hnone : (s.fired k c).upd.phase ≠ .applying ∧ (s.fired k c).upd.phase ≠ .awaitFlip := by simp [hphase]
  simp only [Goes, exec_flip, execFlip, hinstant, hdue, if_pos hnone]

theorem flip_clear (hphase : s.upd.phase = .awaitFlip) (hverdict : s.upd.flipVerdict = some false) :
    Goes .flip s ((s.fired k c).endStep.layerEntries.foldl (fun u q => u.flipLayer s.upd.deciding q) (s.fired k c).endStep) := by
  have hstep : ¬ ((s.fired k c).upd.phase ≠ .applying ∧ (s.fired k c).upd.phase ≠ .awaitFlip) := by simp [hphase]
  have hclear : ((s.fired k c).dueDigests (s.fired k c).upd.deciding).upd.flipVerdict = some false := hverdict
  have hkept : (s.fired k c).upd.flipVerdict = some false := hverdict
  simp only [Goes, exec_flip, execFlip, hinstant, hdue, if_neg hstep, hclear, State.endStep, hkept]
  rfl
end

/-! ### CMD_UPDATE_PARAM (R235) -/

section
variable {s : State} {id : Nat} {c : Cmd} (hready : s.readyCmd id 16 = some c)
include hready

theorem cmdUpdateParam_refused (hbad : ((cInline c.entry).take 64).length ≠ 64 ∨ entryOk ((cInline c.entry).take 64) = false) :
    Goes (.cmdUpdateParam id) s (s.finish id stInvalid 0) := by
  simp only [Goes, exec_cmdUpdateParam, execCmdUpdateParam, hready, if_pos hbad]

/-- R235: a layer's entry becomes its pending one, and no parameter block is due for it. -/
theorem cmdUpdateParam_layer (hlen : ((cInline c.entry).take 64).length = 64) (hok : entryOk ((cInline c.entry).take 64) = true)
    (hlayer : u8 ((cInline c.entry).take 64) 0 ≠ 1) :
    Goes (.cmdUpdateParam id) s ((s.setUpd (fun u => { u with
      params := SMap.set paramDflt u.params (layerKey (u16 ((cInline c.entry).take 64) 2))
        ⟨(SMap.get paramDflt u.params (layerKey (u16 ((cInline c.entry).take 64) 2))).now, some ((cInline c.entry).take 64)⟩
      blocks := u.blocks ++ [] })).finish id stDone 0) := by
  have hvalid : ¬ (((cInline c.entry).take 64).length ≠ 64 ∨ entryOk ((cInline c.entry).take 64) = false) := by simp [hlen, hok]
  simp only [Goes, exec_cmdUpdateParam, execCmdUpdateParam, hready, if_neg hvalid, if_neg hlayer, List.filter_nil]
  rfl
end

/-! ### STATE_LOAD and STATE_READ (R241) -/

section
variable {s : State} {id : Nat} {c : Cmd} (hready : s.readyCmd id 17 = some c)
include hready

theorem cmdStateLoad_noTarget (htarget : stateTarget s c.entry = none) : Goes (.cmdStateLoad id) s (s.finish id stInvalid 0) := by
  simp only [Goes, exec_cmdStateLoad, execCmdStateLoad, hready, htarget]

/-- R241: a stale shard without a load takes up its own record. -/
theorem cmdStateLoad_loads {w t : List Byte} {a n : Nat} (htarget : stateTarget s c.entry = some (w, t)) (ha : a = u64 c.entry 0x18)
    (hn : n = 32 + 4 * tDim t) (hinside : s.plan.dpaOk a n = true) (hstale : (s.shard (wId w)).stale = true)
    (hnone : (s.shard (wId w)).load = none) (hfree : s.dpaHeld a n = false) (hsound : s.ram.consumerOk a n = true)
    (htable : u16 (s.ram.read a n) 0 = tId t) (hwing : u16 (s.ram.read a n) 2 = wId w) :
    Goes (.cmdStateLoad id) s ((s.runCmd id 1).setShard (wId w) (fun x => { x with load := some (id, s.ram.read a n) })) := by
  subst ha hn
  simp [Goes, exec_cmdStateLoad, execCmdStateLoad, hready, htarget, hinside, hstale, hnone, hfree, hsound, htable, hwing]
end

/-- R241: the shard holds what a loaded record says, is not stale, and its parameter block is due. -/
def State.takeState (s : State) (wing : Nat) (r : List Byte) : State :=
  (s.setShard wing (fun x => { x with
    load := none, stale := false, step := u32 r 4, q := f32At r 8, cmean := f32At r 0xC, fresh := false
    c := (List.range ((r.length - 32) / 4)).map (fun j => f32At r (0x20 + 4 * j)) })).setUpd (fun u => { u with
      blocks := u.blocks.filter (· != wing) ++ [wing] })

/-- R241: between steps a loaded record takes effect where its STEP is UP_STEP, and is refused where it is not. -/
theorem stateLoadEffect_judged {s : State} {wing : Fin 1024} {id : Nat} {r : List Byte} (hload : (s.shard wing).load = some (id, r))
    (hphase : s.upd.phase = .collecting) (hrows : (s.shard wing).running = []) :
    Goes (.stateLoadEffect wing) s (if u32 r 4 = s.upStep then (s.takeState wing r).finish id stDone 0
      else (s.setShard wing (fun x => { x with load := none })).finish id stRejected 0) := by
  have hbetween : ¬ (s.upd.phase ≠ .collecting ∧ s.upd.phase ≠ .off ∨ (s.shard wing).running.isEmpty = false) := by
    simp [hphase, hrows]
  simp only [Goes, exec_stateLoadEffect, execStateLoadEffect, hload, if_neg hbetween, apply_ite Host.Outcome.next]
  rfl

/-- R241: the shard's record is written; a destination that a stack has lost is reported. -/
theorem cmdStateRead_writes {s : State} {id : Nat} {c : Cmd} {w t : List Byte} {a : Nat} (hready : s.readyCmd id 18 = some c)
    (htarget : stateTarget s c.entry = some (w, t)) (ha : a = u64 c.entry 0x18)
    (hinside : s.plan.dpaOk a (32 + 4 * tDim t) = true) (hfree : s.dpaHeld a (32 + 4 * tDim t) = false) :
    Goes (.cmdStateRead id) s ((s.sheetWrite .device a ((s.shard (wId w)).record (tId t) (wId w))).finish id
      (if s.ram.goneIn a (32 + 4 * tDim t) then stCheck else stDone) 0) := by
  subst ha
  simp [Goes, exec_cmdStateRead, execCmdStateRead, hready, htarget, hinside, hfree]

end Sys2Proof.Machine

namespace Sys2Proof.Claims

/-- Settles O36: each event of the update block where it applies. The close is that of a device without a fabric, and the scan that
of a landing whose bank is being sent. -/
theorem updateEventsRun : Obligations.UpdateEventsRun := by
  intro s p
  refine ⟨fun l i g w t v shard row weight hlist htodo htable s1 hs1 => ?_, fun _ _ _ hready => cmdGradient_begins hready,
    fun _ _ _ hready => cmdGradient_over hready, fun _ _ => rxGradlist_noTable, fun _ _ => rxGradlist_again,
    fun m k t w b u hlinked hserving htakes htable hwing hkind howner hshard hrow hlen =>
      rxGradlist_lands hlinked hserving htakes htable hwing ⟨hkind, howner, hshard, hrow, hlen⟩,
    fun count hlinked => rxVtree_hears hlinked true count, fun count u hlinked hu => hu ▸ rxVtree_hears hlinked false count,
    fun hgrid hcommit hflip hports => ?_, fun parent n u hgrid hparent hn hu hcommit hflip => ?_,
    fun _ raised step count hlinked hchild hclose hopen => rxVerdictUp_replaces hlinked hclose hopen hchild raised step count,
    fun _ raised step count hlinked hclose hopen => rxVerdictDown_decides hlinked hclose hopen raised step count,
    fun _ => verdictRootDeadline_decides,
    fun k i c hinstant hdue halone => ⟨_, epochClose_scans hinstant hdue halone,
      (State.epoch_eq_iff.mp (s.closedEpoch_epoch k c)).2⟩,
    fun st hphase hfirst hserves hgo => ⟨s.scanSending st, hphase, rfl, rfl, scanComplete_sending hphase hfirst hserves hgo⟩,
    scanDeadline_contributes, verdictDeadline_skips,
    fun wing hdue w t e chans hwing htable hentry hchans hrows htwin => ?_,
    fun hphase hwritten => ?_, fun hphase htime => ?_⟩
  · subst hs1
    exact ⟨fun _ howner hfree _ _ => gradientContribution_lands hlist htodo htable howner hfree,
      gradientContribution_unread hlist htodo htable, gradientContribution_bad hlist htodo htable⟩
  · have hsends := vtreeSend_sends (s := s) hgrid
    rw [State.sendVtree_of_alone hports] at hsends
    exact hsends hcommit hflip
  · subst hparent hn hu
    exact vtreeSend_sends hgrid hcommit hflip
  · have hwrites := paramBlockWrite_proceeds hdue hwing htable hentry hrows htwin
    rw [show s.pairChans w = chans from hchans.symm] at hwrites
    subst hchans
    exact ⟨fun hbusy => by rwa [if_pos hbusy] at hwrites, fun hidle => by rwa [if_neg (ne_true_of_eq_false hidle)] at hwrites⟩
  · have hcontributes := denseWritesComplete_contributes hphase hwritten
    exact ⟨fun hearly => by rwa [if_neg (Nat.not_lt.mpr hearly)] at hcontributes, fun hlate => by rwa [if_pos hlate] at hcontributes⟩
  · have hcontributes := denseDeadline_contributes hphase htime
    exact ⟨fun hmissing => by rwa [if_pos hmissing] at hcontributes,
      fun hwritten => by rwa [if_neg (ne_true_of_eq_false hwritten)] at hcontributes⟩

/-- Settles O37: the flip instant without a step and with a clear verdict, and each command and event of an entry or a record. -/
theorem flipAndStateRun : Obligations.FlipAndStateRun := by
  intro s
  refine ⟨fun _ _ _ hinstant hdue hphase _ => flip_idle hinstant hdue hphase,
    fun k i c hinstant hdue hphase t u ht hu hverdict => ?_, fun id c e hready he => ?_, fun _ _ => cmdStateLoad_noTarget,
    fun id c w t a r hready htarget ha hinside hstale hnone hfree hsound hr htable hwing => ?_,
    fun wing id r hload hphase hrows => ?_, fun _ _ _ _ _ => cmdStateRead_writes⟩
  · subst ht hu
    exact flip_clear hinstant hdue hphase hverdict
  · subst he
    exact ⟨cmdUpdateParam_refused hready, cmdUpdateParam_layer hready⟩
  · subst hr
    exact cmdStateLoad_loads hready htarget ha rfl hinside hstale hnone hfree hsound htable hwing
  · have hjudged := stateLoadEffect_judged hload hphase hrows
    exact ⟨fun hother => by rwa [if_neg hother] at hjudged, fun hsame => by rwa [if_pos hsame] at hjudged⟩

end Sys2Proof.Claims
end

section
/-! PROOFS. Fabric links and survey (chapter 11): ports and the flits they take (O38); routes, departures and messages of a Reserved
kind (O39). -/

open Sys2Proof Sys2Proof.Machine Sys2Proof.Claims

namespace Sys2Proof.Machine

/-! ### The ports' and survey's rows of the dispatch -/

theorem exec_portDisable (p : Fin 64) (s : State) : exec (.portDisable p) s = execPortDisable p s := rfl
theorem exec_portEnable (p : Fin 64) (s : State) : exec (.portEnable p) s = execPortEnable p s := rfl
theorem exec_requalify (p : Fin 64) (s : State) : exec (.requalify p) s = execRequalify p s := rfl
theorem exec_fecLock (p : Fin 64) (s : State) : exec (.fecLock p) s = execFecLock p s := rfl
theorem exec_trainingRetry (p : Fin 64) (s : State) : exec (.trainingRetry p) s = execTrainingRetry p s := rfl
theorem exec_rxDataFlit (p : Fin 64) (b : List Byte) (s : State) : exec (.rxDataFlit p b) s = execRxDataFlit p b s := rfl
theorem exec_rxIdle (p : Fin 64) (b : List Byte) (s : State) : exec (.rxIdle p b) s = execRxIdle p b s := rfl
theorem exec_rxNack (p : Fin 64) (b : List Byte) (s : State) : exec (.rxNack p b) s = execRxNack p b s := rfl
theorem exec_rxCtrl (p : Fin 64) (b : List Byte) (s : State) : exec (.rxCtrl p b) s = execRxCtrl p b s := rfl
theorem exec_nackRepeat (p : Fin 64) (s : State) : exec (.nackRepeat p) s = execNackRepeat p s := rfl
theorem exec_laneFail (p : Fin 64) (lane : Fin 8) (s : State) : exec (.laneFail p lane) s = execLaneFail p lane s := rfl
theorem exec_helloSend (p : Fin 64) (s : State) : exec (.helloSend p) s = execHelloSend p s := rfl
theorem exec_rxHello (p : Fin 64) (h : Hello) (s : State) : exec (.rxHello p h) s = execRxHello p h s := rfl
theorem exec_helloMiss (p : Fin 64) (s : State) : exec (.helloMiss p) s = execHelloMiss p s := rfl
theorem exec_rxRoute (p : Fin 64) (es : List (Nat × Nat)) (s : State) : exec (.rxRoute p es) s = execRxRoute p es s := rfl
theorem exec_routeRefresh (s : State) : exec .routeRefresh s = execRouteRefresh s := rfl
theorem exec_routeRecompute (s : State) : exec .routeRecompute s = execRouteRecompute s := rfl
theorem exec_rxDepart (p : Fin 64) (origin seq effective reason : Nat) (s : State) :
    exec (.rxDepart p origin seq effective reason) s = execRxDepart p origin seq effective reason s := rfl
theorem exec_departEffective (ref : Fin 16384) (s : State) : exec (.departEffective ref) s = execDepartEffective ref s := rfl
theorem exec_masterSend (s : State) : exec .masterSend s = execMasterSend s := rfl
theorem exec_rxBadKind (p : Fin 64) (kind : Fin 256) (s : State) : exec (.rxBadKind p kind) s = execRxBadKind p kind s := rfl

section
variable {s : State} {p : Fin 64}

/-- Registers and messages of the device leave its ports alone. -/
theorem State.mapIo_port (s : State) (f : Io → Io) (q : Nat) : (s.mapIo f).port q = s.port q := rfl

/-! ### Lasers and lanes (R256, R264, R265) -/

section
variable (hopen : s.barShut = false)
include hopen

/-- R256: FB_CTRL.DISABLE makes the port DARK, which takes one whose laser is on out of service. -/
theorem portDisable_darkens : Goes (.portDisable p) s ((if (s.port p).st = .dark then s else s.portLost p .dark).setPort p fun y =>
    { y with disabled := true, cause := 0, failed := 0 }) := by
  simp [Goes, exec_portDisable, execPortDisable, hopen]

/-- R256: FB_CTRL.ENABLE starts the training of a DARK or DOWN port that the plan enables. -/
theorem portEnable_trains (hon : s.plan.portOn p = true) (hst : (s.port p).st = .dark ∨ (s.port p).st = .down) :
    Goes (.portEnable p) s ((s.setPort p fun y => { y with disabled := false }).trainPort p) := by
  simp [Goes, exec_portEnable, execPortEnable, hopen, hst, hon]

/-- R256: a port that the plan does not enable stays DARK, and one in service or training goes on (log entry 38). -/
theorem portEnable_allows (hstays : s.plan.portOn p = false ∨ ((s.port p).st ≠ .dark ∧ (s.port p).st ≠ .down)) :
    Goes (.portEnable p) s (s.setPort p fun y => { y with disabled := false }) := by
  have hnot : ¬ (((s.port p).st = .dark ∨ (s.port p).st = .down) ∧ s.plan.portOn p = true) := by
    rintro ⟨hst, hon⟩
    rcases hstays with hoff | ⟨hdark, hdown⟩
    · simp [hon] at hoff
    · exact hst.elim hdark hdown
  simp only [Goes, exec_portEnable, execPortEnable, hopen, Bool.false_eq_true, if_false]
  exact congrArg _ (if_neg hnot)

theorem requalify_restores (hst : (s.port p).st = .degraded) (hslot : s.inMaintenance = true) :
    Goes (.requalify p) s ((s.setPort p fun y => { y with st := .up, inUse := 255, failed := 0 }).pump p) := by
  simp [Goes, exec_requalify, execRequalify, hopen, hst, hslot]
end

/-- R256: a lock after 5,000,000 mt is too late. -/
theorem fecLock_late (hlate : 5000000 < s.mer.now - (s.port p).since) : Goes (.fecLock p) s s := by
  simp [Goes, exec_fecLock, execFecLock, Nat.not_le.mpr hlate, ignored]

section
variable (hst : (s.port p).st = .training)
include hst

theorem fecLock_surveys (hbegun : (s.port p).since ≤ s.mer.now) (hsoon : s.mer.now - (s.port p).since ≤ 5000000) :
    Goes (.fecLock p) s (s.setPort p fun y => { y with
      st := .survey, inUse := 255, failed := 0, helloAt := s.mer.now - s.plan.helloMt, heard := s.mer.now }) := by
  simp only [Goes, exec_fecLock, execFecLock, if_pos (And.intro hst (And.intro hbegun hsoon))]

theorem trainingRetry_restarts (hdue : (s.port p).since + 100000000 ≤ s.mer.now) :
    Goes (.trainingRetry p) s (s.setPort p fun y => { y with since := s.mer.now }) := by
  simp only [Goes, exec_trainingRetry, execTrainingRetry, if_pos (And.intro hst hdue)]
end

/-! ### What a port that sends does in its own time (R260, R264, R267, R268) -/

section
variable (hsends : (s.port p).sends = true)
include hsends

theorem laneFail_degrades (lane : Fin 8) : Goes (.laneFail p lane) s (s.degrade p ((s.port p).failed ||| 2 ^ lane.val) true) := by
  simp [Goes, exec_laneFail, execLaneFail, hsends]

theorem nackRepeat_repeats {t : Nat} (hnacked : (s.port p).nacked = some t) (hdue : t + 2000 ≤ s.mer.now) :
    Goes (.nackRepeat p) s (s.nack p) := by
  simp only [Goes, exec_nackRepeat, execNackRepeat, hnacked, if_pos (And.intro hsends hdue)]

theorem helloSend_sends (hdue : (s.port p).helloAt + s.plan.helloMt ≤ s.mer.now) : Goes (.helloSend p) s
    ((s.setPort p fun y => { y with helloAt := s.mer.now }).sendLocal p 1 (s.helloBytes p)) := by
  simp only [Goes, exec_helloSend, execHelloSend, if_pos (And.intro hsends hdue)]

theorem helloMiss_downs (hmissed : (s.port p).heard + s.plan.deadHellos * s.plan.helloMt ≤ s.mer.now) (hpaced : 0 < s.plan.helloMt) :
    Goes (.helloMiss p) s (s.portDown p) := by
  simp only [Goes, exec_helloMiss, execHelloMiss, if_pos (And.intro hsends (And.intro hmissed hpaced))]
end

/-! ### HELLOs (R268) -/

/-- R267: a port has heard a HELLO from its neighbour. -/
def State.heardHello (s : State) (p : Nat) (h : Hello) : State :=
  s.setPort p fun y => { y with heard := s.mer.now, nbrState := h.merState, nbrEligible := h.eligible }

/-- R268: a port in SURVEY knows its neighbour by the first HELLO. -/
def State.metHello (s : State) (p : Nat) (h : Hello) : State :=
  (s.heardHello p h).setPort p fun y => { y with nbr := some (h.grid, h.port) }

/-- R262, R268, R270: a port goes UP with the neighbour's full allocation of credits, the neighbour being at distance 0 of itself. -/
def State.helloUp (s : State) (p : Nat) (h : Hello) : State :=
  let u := (s.metHello p h).setPort p fun y => { y with st := .up, credits := [512, 640, 768, 128] }
  (({ u with fab := { u.fab with heard := SMap.set (fun _ => 255) u.fab.heard (16384 * p + h.grid) 0 } } : State).mapIo
    fun io => io.event .FB_EVENT p 0).pump p

/-- R268: a port goes MISWIRED for a cause, with the cause's event. -/
def State.helloMiswired (s : State) (p : Nat) (h : Hello) (c : Nat) : State :=
  ((s.metHello p h).setPort p fun y => { y with st := .miswired, cause := c }).mapIo
    fun io => io.event .FB_EVENT p (match c with | 1 => 3 | 2 => 6 | 3 => 4 | _ => 5)

section
variable {h : Hello} (hsends : (s.port p).sends = true)
include hsends

theorem rxHello_alive (hst : (s.port p).st ≠ .survey) : Goes (.rxHello p h) s (s.heardHello p h) := by
  simp only [Goes, exec_rxHello, execRxHello, hsends, Bool.true_eq_false, if_false, if_neg hst, State.heardHello]

/-- R268: the first HELLO of a port in SURVEY decides between UP and MISWIRED. -/
theorem rxHello_decides (hst : (s.port p).st = .survey) : Goes (.rxHello p h) s
    (if (s.heardHello p h).miswire p h = 0 then s.helloUp p h else s.helloMiswired p h ((s.heardHello p h).miswire p h)) := by
  simp only [Goes, exec_rxHello, execRxHello, hsends, Bool.true_eq_false, if_false, if_pos hst]
  split
  · next hnone => exact congrArg _ (if_pos hnone).symm
  · next hcause => exact congrArg _ (if_neg hcause).symm
end

/-! ### Flits (R258 to R260, R264) -/

section
variable {b : List Byte} (hsends : (s.port p).sends = true) (hlen : b.length = 256)
include hsends hlen

/-- A whole flit arrives at a port that sends. -/
theorem flit_arrives : ¬ ((s.port p).sends = false ∨ b.length ≠ 256) := by simp [hsends, hlen]

/-- R258: of a flit whose CRC fails, no field counts, whatever the row that brings it. -/
theorem rxFlit_bad (hbad : flitOk b = false) {i : Instr}
    (hi : i ∈ ([.rxDataFlit p b, .rxIdle p b, .rxNack p b, .rxCtrl p b] : List Instr)) : Goes i s (s.badFlit p b) := by
  have harrives := flit_arrives hsends hlen
  simp only [List.mem_cons, List.not_mem_nil, or_false] at hi
  rcases hi with rfl | rfl | rfl | rfl
  · simp only [Goes, exec_rxDataFlit, execRxDataFlit, if_neg harrives, if_pos hbad]
  · simp only [Goes, exec_rxIdle, execRxIdle, if_neg harrives, if_pos hbad]
  · simp only [Goes, exec_rxNack, execRxNack, if_neg harrives, if_pos hbad]
  · simp only [Goes, exec_rxCtrl, execRxCtrl, if_neg harrives, if_pos hbad]

section
variable (hok : flitOk b = true)
include hok

/-- R258: a sound flit of the type that its row brings is taken: none of the three guards of the row stops it. -/
theorem soundFlit_taken {ty : Nat} (htype : flitType b = ty) {x y z w : Result} :
    (if (s.port p).sends = false ∨ b.length ≠ 256 then x else if flitOk b = false then y
      else if flitType b ≠ ty then z else w) = w := by
  rw [if_neg (flit_arrives hsends hlen), if_neg (ne_false_of_eq_true hok), if_neg (not_not.mpr htype)]

theorem rxIdle_taken (htype : flitType b = 0) : Goes (.rxIdle p b) s (s.takeLink p (flitLink b)) := by
  simp only [Goes, exec_rxIdle, execRxIdle, soundFlit_taken hsends hlen hok htype]

section
variable (htype : flitType b = 1)
include htype

/-- R260: a port has counted the DATA flit of the SEQ it expected, and expects the next one. -/
def State.expectNext (s : State) (p : Nat) : State :=
  (s.setPort p fun y => { y with rxSeq := (y.rxSeq + 1) % 4096, nacked := none }).mapIo fun io => io.addWide .FB_RX_FLITS_LO p 1

/-- R260, R268: a DATA flit of the expected SEQ is accepted and acknowledged; at a MISWIRED port all but HELLO go no further. -/
theorem rxDataFlit_accepts (hseq : (flitOf b).seq = ((s.takeLink p (flitLink b)).port p).rxSeq) : Goes (.rxDataFlit p b) s
    ((if (s.port p).st = .miswired ∧ (flitOf b).kind ≠ 1 then
        ((s.takeLink p (flitLink b)).expectNext p).owe (some p.val) (flitOf b).cls
      else ((s.takeLink p (flitLink b)).expectNext p).acceptFlit p (flitOf b)).sendLink p 0 []) := by
  simp only [Goes, exec_rxDataFlit, execRxDataFlit, soundFlit_taken hsends hlen hok htype, if_pos hseq, State.expectNext]

/-- R260: a DATA flit of another SEQ is discarded, and one NACK sent. -/
theorem rxDataFlit_discards (hseq : (flitOf b).seq ≠ ((s.takeLink p (flitLink b)).port p).rxSeq) : Goes (.rxDataFlit p b) s
    (if ((s.takeLink p (flitLink b)).port p).nacked.isSome then s.takeLink p (flitLink b) else (s.takeLink p (flitLink b)).nack p) := by
  simp only [Goes, exec_rxDataFlit, execRxDataFlit, soundFlit_taken hsends hlen hok htype, if_neg hseq]
end

section
variable (htype : flitType b = 2)
include htype

/-- R260: a NACK has been taken and counted. -/
def State.countNack (s : State) (p : Nat) (b : List Byte) : State :=
  (s.takeLink p (flitLink b)).mapIo fun io => io.inc .FB_NACK_RX p

/-- R260: with nothing to resend a NACK is only counted. -/
theorem rxNack_nothing (hempty : ((s.takeLink p (flitLink b)).port p).replay = []) : Goes (.rxNack p b) s (s.countNack p b) := by
  simp only [Goes, exec_rxNack, execRxNack, soundFlit_taken hsends hlen hok htype, State.mapIo_port, hempty, List.isEmpty_nil, if_true,
    State.countNack]

theorem rxNack_resends (hheld : ((s.takeLink p (flitLink b)).port p).replay ≠ [])
    (hfew : ((s.takeLink p (flitLink b)).port p).resent < 8) :
    Goes (.rxNack p b) s (((s.countNack p b).setPort p fun y => { y with resent := y.resent + 1 }).resend p) := by
  simp only [Goes, exec_rxNack, execRxNack, soundFlit_taken hsends hlen hok htype, State.mapIo_port, List.isEmpty_iff,
    if_neg hheld, Nat.not_le.mpr hfew, if_false, State.countNack]

/-- R260: the eighth resend without acknowledgement was the last. -/
theorem rxNack_downs (hheld : ((s.takeLink p (flitLink b)).port p).replay ≠ [])
    (hmany : 8 ≤ ((s.takeLink p (flitLink b)).port p).resent) :
    Goes (.rxNack p b) s (((s.countNack p b).mapIo fun io => io.event .FB_EVENT p 7).portDown p) := by
  simp only [Goes, exec_rxNack, execRxNack, soundFlit_taken hsends hlen hok htype, State.mapIo_port, List.isEmpty_iff,
    if_neg hheld, hmany, if_true, State.countNack]
end

/-- R264: the neighbour's DEGRADE carries the lanes it has lost. -/
theorem rxCtrl_judged (htype : flitType b = 3) : Goes (.rxCtrl p b) s (if u8 b 16 = 1 then
    (s.takeLink p (flitLink b)).degrade p (((s.takeLink p (flitLink b)).port p).failed ||| u8 b 17) false
      else s.takeLink p (flitLink b)) := by
  simp only [Goes, exec_rxCtrl, execRxCtrl, soundFlit_taken hsends hlen hok htype]
  split <;> rfl
end
end

/-! ### Distances and departures heard (R267, R269, R270), and Reserved kinds (R267, R277) -/

section
variable (hlinked : (s.port p).linked = true)
include hlinked

theorem rxRoute_hears (es : List (Nat × Nat)) : Goes (.rxRoute p es) s { s with fab := { s.fab with
    heard := (es.take 58).foldl (fun m e => SMap.set (fun _ => 255) m (16384 * p + e.1 % 16384) (e.2 % 256)) s.fab.heard } } := by
  simp only [Goes, exec_rxRoute, execRxRoute, hlinked, Bool.true_eq_false, if_false]

section
variable {origin seq : Nat} (effective reason : Nat)

/-- R269: a departure is noted in place of an older one of its device. -/
def State.noteDepart (s : State) (ref effective reason : Nat) : State :=
  ({ s with fab := { s.fab with departs := s.fab.departs.filter (fun (d : Depart) => d.ref != ref) ++
    [(⟨ref, effective, reason⟩ : Depart)] } } : State).mapIo fun io => io.event .FB_EVENT_GLOBAL 0 2

theorem rxDepart_floods {u : State} (hnew : s.newer (origin % 16384) (seq % 2 ^ 32) = some u) :
    Goes (.rxDepart p origin seq effective reason) s ((u.noteDepart (origin % 16384) effective reason).floodFrom p 0 4
      (origin % 16384) (departBytes (origin % 16384) (seq % 2 ^ 32) effective reason)) := by
  simp only [Goes, exec_rxDepart, execRxDepart, hlinked, Bool.true_eq_false, if_false, hnew, State.noteDepart]

/-- R267: a flooded message that is not newer than the last one held goes no further. -/
theorem rxDepart_stale (hold : s.newer (origin % 16384) (seq % 2 ^ 32) = none) :
    Goes (.rxDepart p origin seq effective reason) s s := by
  simp only [Goes, exec_rxDepart, execRxDepart, hlinked, Bool.true_eq_false, if_false, hold, ignored]
end

theorem rxBadKind_counts {kind : Fin 256}
    (hkind : kind.val = 0 ∨ (0x06 ≤ kind.val ∧ kind.val < 0x10) ∨ (0x1F ≤ kind.val ∧ kindKnown kind.val = false)) :
    Goes (.rxBadKind p kind) s (s.mapIo fun io => io.inc .FB_BAD_KIND) := by
  have hreserved : (0x06 ≤ kind.val ∧ kind.val < 0x10) ∨ kind.val = 0 ∨ (0x10 ≤ kind.val ∧ kindKnown kind.val = false) := by
    rcases hkind with hzero | hsurvey | ⟨habove, hunknown⟩
    · exact .inr (.inl hzero)
    · exact .inl hsurvey
    · exact .inr (.inr ⟨by omega, hunknown⟩)
  simp only [Goes, exec_rxBadKind, execRxBadKind, if_pos (And.intro hlinked hreserved)]
end

/-! ### Distances advertised and recomputed (R267, R270) -/

section
variable (hgrid : s.plan.hasGrid = true)
include hgrid

theorem routeRefresh_advertises (hframe : 0 < s.plan.frameLen) (hdue : s.mer.count / s.plan.frameLen % 1000 = 0) :
    Goes .routeRefresh s
      (s.linkedPorts.foldl (fun u q => u.sendRoutes q (u.plan.ref :: u.fab.dests.filter (· != u.plan.ref))) s) := by
  simp only [Goes, exec_routeRefresh, execRouteRefresh, if_pos (And.intro hgrid (And.intro hframe hdue))]

/-- R270: with no destination, no distance changes: the recomputation is counted and the master elected anew. -/
theorem routeRecompute_alone (hdests : s.fab.dests = []) (hdist : s.fab.dist = []) :
    Goes .routeRecompute s (s.mapIo fun io => io.inc .FB_ROUTE_EPOCH).electMaster := by
  have hnone : (s.fab.dests ++ s.fab.dist.map (·.1)).eraseDups.filter (· != s.plan.ref) = [] := by simp [hdests, hdist]
  simp only [Goes, exec_routeRecompute, execRouteRecompute, hgrid, hnone]
  rfl

/-! ### The master's message (R267) -/

/-- R267: what the device says of its mastership is said for this frame. -/
def State.saying (s : State) : State :=
  { s with mer := { s.mer with saidFrame := s.mer.count / s.plan.frameLen + 1, said := some s.masterSays } }

/-- R267: a change of eligibility or of the meridian's state is flooded under the device's next sequence. -/
theorem masterSend_floods (hon : s.mer.st ≠ .off) (hframe : 0 < s.plan.frameLen) (hchange : s.mer.said ≠ some s.masterSays)
    {q : Nat} {u : State} (hseq : s.saying.nextSeq = (q, u)) :
    Goes .masterSend s (u.floodOn 0 5 (masterBytes u.plan.ref q u.plan.eligible u.mer.ownLock u.mer.ownHold)) := by
  rw [State.saying] at hseq
  simp only [Goes, exec_masterSend, execMasterSend, if_pos (And.intro hgrid (And.intro hon (And.intro hframe (Or.inl hchange)))), hseq]
end

/-- R267: what has been said in this frame is not said again. -/
theorem masterSend_said (hsame : s.mer.said = some s.masterSays) (hframe : s.mer.saidFrame = s.mer.count / s.plan.frameLen + 1) :
    Goes .masterSend s s := by
  simp [Goes, exec_masterSend, execMasterSend, hsame, hframe, ignored]

/-! ### A departure becomes effective (R269) -/

/-- R269: the ports whose link leads to a device. -/
def State.portsTo (s : State) (ref : Nat) : List Nat :=
  (List.range 64).filter fun q => (s.port q).linked && (s.port q).nbr.map (·.1) == some ref

theorem State.portsTo_eq_nil {ref : Nat} (hnone : ∀ q : Nat, (s.port q).nbr.map (·.1) ≠ some ref) : s.portsTo ref = [] := by
  simp [State.portsTo, List.filter_eq_nil_iff, hnone]

/-- R269: a device whose departure is over is in no list of departures or masters. -/
def State.forget (s : State) (ref : Nat) : State := { s with fab := { s.fab with
  departs := s.fab.departs.filter (fun (e : Depart) => e.ref != ref)
  masters := s.fab.masters.filter (fun (m : MasterInfo) => m.ref != ref) } }

/-- R269: the links of a departed device leave the routes, as if they were DOWN. -/
def State.unlink (s : State) (q : Nat) : State :=
  { s.setPort q (fun x => { x with gone := true }) with fab := (s.setPort q (fun x => { x with gone := true })).fab.dropPort q }

theorem departEffective_forgets {ref : Fin 16384} {d : Depart} (hnoted : s.fab.departs.find? (fun d => d.ref == ref.val) = some d)
    (hother : ref.val ≠ s.plan.ref) (hdue : s.mer.reached d.effective = true) :
    Goes (.departEffective ref) s (((s.portsTo ref).foldl State.unlink s).forget ref).electMaster := by
  have href : d.ref = ref.val := by simpa using List.find?_some hnoted
  simp only [Goes, exec_departEffective, execDepartEffective, hnoted, if_pos (And.intro (href ▸ hother) hdue)]
  rfl
end

end Sys2Proof.Machine

namespace Sys2Proof.Claims

/-- Settles O38: each event of a port where it applies, and each flit by its CRC, its type and its SEQ. -/
theorem portEventsRun : Obligations.PortEventsRun := by
  rintro s p _ rfl
  refine ⟨fun hopen => ⟨fun hdark => ?_, fun hlit => ?_⟩,
    fun | _, rfl, hopen => ⟨portEnable_trains hopen, portEnable_allows hopen⟩,
    fecLock_surveys, fun _ => fecLock_late, trainingRetry_restarts, requalify_restores, fun lane hsends => laneFail_degrades hsends lane,
    fun _ hnacked hsends => nackRepeat_repeats hsends hnacked, helloSend_sends, helloMiss_downs,
    fun h u v hsends hu hv => ?_, fun b hsends hlen hbad => ?_, fun b u hsends hlen hok hu => ?_⟩
  · have hgoes := portDisable_darkens (p := p) hopen
    rwa [if_pos hdark] at hgoes
  · have hgoes := portDisable_darkens (p := p) hopen
    rwa [if_neg hlit] at hgoes
  · subst hu hv
    refine ⟨rxHello_alive hsends, fun hst hnone => ?_, fun hst hcause => ?_⟩
    · exact (rxHello_decides hsends hst).trans (congrArg _ (if_pos hnone))
    · exact (rxHello_decides hsends hst).trans (congrArg _ (if_neg hcause))
  · have hbadRow := fun i => rxFlit_bad hsends hlen hbad (i := i)
    exact ⟨hbadRow _ (by simp), hbadRow _ (by simp), hbadRow _ (by simp), hbadRow _ (by simp)⟩
  · subst hu
    refine ⟨rxIdle_taken hsends hlen hok, fun v hv htype hseq => ?_, fun htype hseq hfirst => ?_, fun htype hseq hagain => ?_,
      fun v hv htype => ?_, fun htype hdegrade => ?_, fun htype hother => ?_⟩
    · subst hv
      have haccepts := rxDataFlit_accepts hsends hlen hok htype hseq
      refine ⟨fun htakes => ?_, fun hmis hkind => ?_⟩
      · rwa [if_neg fun ⟨hmis, hkind⟩ => htakes.elim (· hmis) hkind] at haccepts
      · rwa [if_pos ⟨hmis, hkind⟩] at haccepts
    · have hgoes := rxDataFlit_discards hsends hlen hok htype hseq
      rwa [hfirst] at hgoes
    · have hgoes := rxDataFlit_discards hsends hlen hok htype hseq
      rwa [if_pos hagain] at hgoes
    · subst hv
      exact ⟨rxNack_nothing hsends hlen hok htype, rxNack_resends hsends hlen hok htype, rxNack_downs hsends hlen hok htype⟩
    · have hgoes := rxCtrl_judged hsends hlen hok htype
      rwa [if_pos hdegrade] at hgoes
    · have hgoes := rxCtrl_judged hsends hlen hok htype
      rwa [if_neg hother] at hgoes

/-- Settles O39: each event of routing where it applies; the departure is that of a device that is no neighbour. -/
theorem routingEventsRun : Obligations.RoutingEventsRun := by
  intro s p
  refine ⟨fun es hlinked => rxRoute_hears hlinked es, routeRefresh_advertises, routeRecompute_alone,
    fun _ _ effective reason _ hlinked => rxDepart_floods hlinked effective reason,
    fun _ _ effective reason hlinked => rxDepart_stale hlinked effective reason,
    fun ref d hnoted hother hdue hfar => ?_,
    fun _ _ hgrid hon hframe hchange => masterSend_floods hgrid hon hframe hchange, masterSend_said,
    fun _ hlinked => rxBadKind_counts hlinked⟩
  have hgoes := departEffective_forgets hnoted hother hdue
  rwa [State.portsTo_eq_nil hfar] at hgoes

end Sys2Proof.Claims
end

section
/-! PROOFS. The fuses under every step (O45, O47, O48), the security block (chapter 19): boot and key records (O12), SPDM (O13) and the
management bus (O14), and the state after reset (O46, O49). -/

open Sys2Proof Sys2Proof.Machine Sys2Proof.Claims

namespace Sys2Proof.Machine

/-! ### What a step leaves of the fuses -/

/-- A step burns or leaves the fuses as they were: the front command, or the clock. -/
theorem step_fuses {s t : State} (h : step s = .next t) :
    s.se.fuses.le t.se.fuses ∧ (s.se.fuses.legal → t.se.fuses.legal) := by
  cases hq : s.pending with
  | nil =>
    rw [step_of_nil hq] at h
    cases h
    exact (Burns.of_fixed s.clock_fixed).2
  | cons c cs =>
    rw [step_of_cons hq] at h
    exact (exec_burns c { s with pending := cs } t h).2

/-! ### The security block's rows of the dispatch -/

theorem exec_bootStage (read : Bool) (s : State) : exec (.bootStage read) s = execBootStage read s := rfl
theorem exec_bootComplete (s : State) : exec .bootComplete s = execBootComplete s := rfl
theorem exec_advanceFw (s : State) : exec .advanceFw s = execAdvanceFw s := rfl
theorem exec_advancePlan (s : State) : exec .advancePlan s = execAdvancePlan s := rfl
theorem exec_seSubmit (s : State) : exec .seSubmit s = execSeSubmit s := rfl
theorem exec_program (s : State) : exec .program s = execProgram s := rfl
theorem exec_revoke (s : State) : exec .revoke s = execRevoke s := rfl
theorem exec_setPlanKey (s : State) : exec .setPlanKey s = execSetPlanKey s := rfl
theorem exec_debugUnlock (s : State) : exec .debugUnlock s = execDebugUnlock s := rfl
theorem exec_raiseLock (s : State) : exec .raiseLock s = execRaiseLock s := rfl
theorem exec_getVersion (doe : Bool) (s : State) : exec (.getVersion doe) s = execGetVersion doe s := rfl
theorem exec_getCapabilities (doe : Bool) (s : State) : exec (.getCapabilities doe) s = execGetCapabilities doe s := rfl
theorem exec_negotiateAlgorithms (doe a b : Bool) (s : State) :
    exec (.negotiateAlgorithms doe a b) s = execNegotiateAlgorithms doe a b s := rfl
theorem exec_getDigests (doe : Bool) (s : State) : exec (.getDigests doe) s = execGetDigests doe s := rfl
theorem exec_getCertificate (doe : Bool) (slot : Fin 4) (off len : BitVec 16) (s : State) :
    exec (.getCertificate doe slot off len) s = execGetCertificate doe slot off len s := rfl
theorem exec_challenge (doe : Bool) (slot : Fin 4) (nonce : List Byte) (s : State) :
    exec (.challenge doe slot nonce) s = execChallenge doe slot nonce s := rfl
theorem exec_getMeasurements (doe : Bool) (i : Fin 256) (sign : Bool) (nonce : List Byte) (s : State) :
    exec (.getMeasurements doe i sign nonce) s = execGetMeasurements doe i sign nonce s := rfl
theorem exec_setCertificate (doe : Bool) (slot : Fin 4) (chain : List Byte) (s : State) :
    exec (.setCertificate doe slot chain) s = execSetCertificate doe slot chain s := rfl
theorem exec_chunkSend (doe last : Bool) (bytes : List Byte) (s : State) :
    exec (.chunkSend doe last bytes) s = execChunkSend doe last bytes s := rfl
theorem exec_chunkGet (doe : Bool) (i : Nat) (s : State) : exec (.chunkGet doe i) s = execChunkGet doe i s := rfl

/-! ### Boot, advances and records (R442 to R445) -/

section
variable {s : State}

theorem bootStage_ends {read : Bool} (hinput : s.pw.input = true) (hperst : s.pw.perst = false) (hst : s.pw.st ≠ .tripped) :
    Goes (.bootStage read) s (s.setSe fun e => e.stage read) := if_pos ⟨hinput, hperst, hst⟩

theorem bootComplete_answers (hboot : s.se.boot = .done) (hresult : s.se.result = 0) :
    Goes .bootComplete s (s.freshNonce.setSe fun e => { e with result := if e.retry then 2 else 1 }) := if_pos ⟨hboot, hresult⟩

theorem advanceFw_advances (hopen : s.barShut = false) (hresult : s.se.result = 1)
    (hnew : s.se.fuses.minFw < u16 s.se.bank.keeper 0x10) (hleft : s.se.fuses.fwAdvances < 64) :
    Goes .advanceFw s ((s.setFuses fun f => { f with
      minFw := max f.minFw (u16 s.se.bank.keeper 0x10), fwAdvances := f.fwAdvances + 1 }).seResult 0) := by
  simp only [Goes, exec_advanceFw, execAdvanceFw, hopen, hresult, if_neg (Nat.not_le.mpr hnew), if_neg (Nat.not_le.mpr hleft)]
  rfl

theorem advancePlan_advances (hopen : s.barShut = false) (hactive : s.plan.active = true)
    (hnew : s.se.fuses.minPlan < s.plan.version) (hleft : s.se.fuses.planAdvances < 64) :
    Goes .advancePlan s ((s.setFuses fun f => { f with
      minPlan := max f.minPlan s.plan.version, planAdvances := f.planAdvances + 1 }).seResult 0) := by
  simp only [Goes, exec_advancePlan, execAdvancePlan, hopen, hactive, if_neg (Nat.not_le.mpr hnew), if_neg (Nat.not_le.mpr hleft)]
  rfl

theorem seSubmit_submits (hopen : s.barShut = false) (hactive : s.plan.active = true) :
    Goes .seSubmit s (s.takeRecord (s.ram.read (keyrecAddr 0) 272)).1 := by
  simp [Goes, exec_seSubmit, execSeSubmit, hopen, hactive]

@[simp] theorem State.freshNonce_nonce (s : State) : s.freshNonce.se.nonce = s.freeBytes 16 := rfl
@[simp] theorem State.freshNonce_free (s : State) : s.freshNonce.free = s.free + 16 := rfl
@[simp] theorem State.freshNonce_record (s : State) : s.freshNonce.se.record = s.se.record := rfl

@[simp] theorem State.seResult_se (s : State) (code : Nat) : (s.seResult code).se = s.se := rfl
@[simp] theorem State.recordEnds_se (s : State) (code : Nat) : (s.recordEnds code).se = s.se := rfl
@[simp] theorem State.recordDone_se (s : State) (code : Nat) : (s.recordDone code).se = { s.se with record := none } := rfl
@[simp] theorem State.setFuses_se (s : State) (g : Fuses → Fuses) : (s.setFuses g).se = { s.se with fuses := g s.se.fuses } := rfl

/-- R444: a submitted record draws a nonce, accepted or not, and is kept only where it is accepted. -/
theorem State.takeRecord_se (s : State) (r : List Byte) : (s.takeRecord r).1.se = { s.se with
    nonce := s.freeBytes 16, record := if s.se.recordCode r = 0 then some r else s.se.record } := by
  simp only [State.takeRecord]
  split
  · rfl
  · rfl

section
variable {r : List Byte}

theorem program_fills (hrec : s.se.processing 1 = some r) (hempty : (s.se.fuses.slot (krSlot r)).1 = .empty) :
    Goes .program s ((s.setFuses fun f => f.setSlot (krSlot r) (.active, (krPayload r).take 32)).recordDone 0) := by
  simp [Goes, exec_program, execProgram, hrec, hempty]

theorem revoke_revokes (hrec : s.se.processing 2 = some r)
    (hother : ∃ k < 4, k ≠ krSlot r ∧ (s.se.fuses.slot k).1 = .active) :
    Goes .revoke s ((s.setFuses fun f => f.setSlot (krSlot r) (.revoked, (f.slot (krSlot r)).2)).recordDone 0) := by
  have hleft : (List.range 4).any (fun k => k != krSlot r && (s.se.fuses.slot k).1 == .active) = true := by
    simpa [List.any_eq_true] using hother
  simp only [Goes, exec_revoke, execRevoke, hrec, hleft, if_true]

theorem setPlanKey_burns {k : List Byte} (hrec : s.se.processing 3 = some r) (hleft : s.se.fuses.keys.length < 4)
    (hkey : sm2Decrypt Config.deviceKey (krPayload r) = some k) :
    Goes .setPlanKey s ((s.setFuses fun f => { f with keys := f.keys ++ [k] }).recordDone 0) := by
  simp [Goes, exec_setPlanKey, execSetPlanKey, hrec, hleft, hkey]

theorem setPlanKey_refuses (hrec : s.se.processing 3 = some r) (hleft : s.se.fuses.keys.length < 4)
    (hkey : sm2Decrypt Config.deviceKey (krPayload r) = none) : Goes .setPlanKey s (s.recordDone 1) := by
  simp [Goes, exec_setPlanKey, execSetPlanKey, hrec, hleft, hkey]

theorem debugUnlock_opens (hrec : s.se.processing 4 = some r) :
    Goes .debugUnlock s (((s.setSe fun e => { e with debug := true }).recordDone 0).seEvent 2) := by
  simp [Goes, exec_debugUnlock, execDebugUnlock, hrec]

theorem raiseLock_raises (hrec : s.se.processing 5 = some r) (hhigher : s.se.fuses.lock < u8 r 2) (hmost : u8 r 2 ≤ 2) :
    Goes .raiseLock s ((s.setFuses fun f => { f with lock := max f.lock (u8 r 2) }).recordDone 0) := by
  simp [Goes, exec_raiseLock, execRaiseLock, hrec, hhigher, hmost]
end
end

/-! ### SPDM (R448) -/

section
variable {s : State} {doe : Bool}

theorem State.spdmAgreed_answers (hon : s.spdmOn doe 3 = true) (hagreed : s.se.agreed = true) (f : State → State) :
    s.spdmAgreed doe f = .next (f s) := by simp [State.spdmAgreed, hon, hagreed]

theorem getVersion_answers (hon : s.spdmOn doe 1 = true) :
    Goes (.getVersion doe) s ((s.setSe fun e => { e with version := true, agreed := false }).spdm 0 [0x12] []) := if_pos hon

theorem getCapabilities_answers (hon : s.spdmOn doe 2 = true) (hversion : s.se.version = true) :
    Goes (.getCapabilities doe) s (s.spdm 0 [1, 1, 2, 1] []) := by
  simp [Goes, exec_getCapabilities, execGetCapabilities, hon, hversion]

theorem negotiateAlgorithms_agrees (hon : s.spdmOn doe 3 = true) (hversion : s.se.version = true) :
    Goes (.negotiateAlgorithms doe true true) s ((s.setSe fun e => { e with agreed := true }).spdm 0 [1, 1, 1] []) := by
  simp [Goes, exec_negotiateAlgorithms, execNegotiateAlgorithms, hon, hversion]

section
variable (hon : s.spdmOn doe 3 = true) (hagreed : s.se.agreed = true)
include hon hagreed

theorem getDigests_answers : Goes (.getDigests doe) s (s.spdm 0 ((List.range 4).filter (fun i => s.chain i != []))
    (((List.range 4).filter (fun i => s.chain i != [])).flatMap (fun i => sm3 (s.chain i)))) := by
  simp only [Goes, exec_getDigests, execGetDigests, State.spdmAgreed_answers hon hagreed]

theorem getCertificate_answers {slot : Fin 4} {off len : BitVec 16} (hchain : s.chain slot ≠ [])
    (hoff : off.toNat ≤ (s.chain slot).length) :
    Goes (.getCertificate doe slot off len) s (s.spdm 0 [slot, (slice (s.chain slot) off.toNat len.toNat).length,
      (s.chain slot).length - off.toNat - (slice (s.chain slot) off.toNat len.toNat).length]
      (slice (s.chain slot) off.toNat len.toNat)) := by
  simp only [Goes, exec_getCertificate, execGetCertificate, State.spdmAgreed_answers hon hagreed,
    if_neg (not_or.mpr ⟨hchain, Nat.not_lt.mpr hoff⟩)]

theorem challenge_signs {slot : Fin 4} (nonce : List Byte) (hchain : s.chain slot ≠ []) :
    Goes (.challenge doe slot nonce) s ((s.drew 32).spdm 0 [slot] (s.signed nonce (sm3 (s.chain slot) ++ s.freeBytes 32))) := by
  simp only [Goes, exec_challenge, execChallenge, State.spdmAgreed_answers hon hagreed, if_neg hchain]

theorem getMeasurements_answers_one {i : Fin 256} (nonce : List Byte) (hlow : 1 ≤ i.val) (hhigh : i.val ≤ 6) :
    Goes (.getMeasurements doe i false nonce) s (s.spdm 0 [i] (s.measurement i)) := by
  have hzero : i.val ≠ 0 := by omega
  have hall : i.val ≠ 255 := by omega
  have hbeyond : ¬ 7 ≤ i.val := by omega
  simp [Goes, exec_getMeasurements, execGetMeasurements, State.spdmAgreed_answers hon hagreed, hzero, hall, hbeyond]

theorem setCertificate_judges {slot : Fin 4} (chain : List Byte) (hslot : slot.val ≠ 0) :
    Goes (.setCertificate doe slot chain) s (if Config.endsInDevice chain = true then
      (s.setSe fun e => { e with certs := SMap.set (fun _ => []) e.certs slot.val chain }).spdm 0 [slot] []
      else s.spdm 1 [] []) := by
  cases hends : Config.endsInDevice chain <;>
    simp [Goes, exec_setCertificate, execSetCertificate, State.spdmAgreed_answers hon hagreed, hslot, hends]

theorem chunkSend_gathers (bytes : List Byte) : Goes (.chunkSend doe false bytes) s
    ((s.setSe fun e => { e with chunkIn := s.se.chunkIn ++ bytes }).spdm 0 [(s.se.chunkIn ++ bytes).length] []) := by
  simp [Goes, exec_chunkSend, execChunkSend, State.spdmAgreed_answers hon hagreed]

/-- A part that is not the last leaves the large response waiting. -/
theorem chunkGet_answers_part {i : Nat} (hsome : slice s.se.chunkOut (4096 * i) 4096 ≠ [])
    (hmore : 4096 * (i + 1) < s.se.chunkOut.length) :
    Goes (.chunkGet doe i) s (s.spdm 0 [i, 0] (slice s.se.chunkOut (4096 * i) 4096)) := by
  have hlast : ¬ s.se.chunkOut.length ≤ 4096 * (i + 1) := Nat.not_le.mpr hmore
  simp only [Goes, exec_chunkGet, execChunkGet, State.spdmAgreed_answers hon hagreed, if_neg hsome, decide_eq_false hlast]
  rfl
end
end

/-! ### The management bus (R440, R443, R449, R450) -/

theorem exec_setEndpointId (id : Fin 256) (s : State) : exec (.setEndpointId id) s = execSetEndpointId id s := rfl
theorem exec_getEndpointId (s : State) : exec .getEndpointId s = execGetEndpointId s := rfl
theorem exec_getMctpVersionSupport (t : Fin 256) (s : State) :
    exec (.getMctpVersionSupport t) s = execGetMctpVersionSupport t s := rfl
theorem exec_getMessageTypeSupport (s : State) : exec .getMessageTypeSupport s = execGetMessageTypeSupport s := rfl
theorem exec_getEndpointUuid (s : State) : exec .getEndpointUuid s = execGetEndpointUuid s := rfl
theorem exec_gettid (s : State) : exec .gettid s = execGettid s := rfl
theorem exec_getpldmversion (t : Fin 64) (s : State) : exec (.getpldmversion t) s = execGetpldmversion t s := rfl
theorem exec_getpldmtypes (s : State) : exec .getpldmtypes s = execGetpldmtypes s := rfl
theorem exec_getpldmcommands (t : Fin 64) (s : State) : exec (.getpldmcommands t) s = execGetpldmcommands t s := rfl
theorem exec_querydeviceidentifiers (s : State) : exec .querydeviceidentifiers s = execQuerydeviceidentifiers s := rfl
theorem exec_pldmSensorRead (c : Option (Fin 256)) (s : State) : exec (.pldmSensorRead c) s = execPldmSensorRead c s := rfl
theorem exec_stateSetWake (s : State) : exec .stateSetWake s = execStateSetWake s := rfl
theorem exec_stateSetShutter (s : State) : exec .stateSetShutter s = execStateSetShutter s := rfl
theorem exec_pldmComponentTransfer (id : BitVec 16) (off : Nat) (bytes : List Byte) (last : Bool) (s : State) :
    exec (.pldmComponentTransfer id off bytes last) s = execPldmComponentTransfer id off bytes last s := rfl
theorem exec_pldmVerify (s : State) : exec .pldmVerify s = execPldmVerify s := rfl
theorem exec_activatefirmware (s : State) : exec .activatefirmware s = execActivatefirmware s := rfl
theorem exec_debugMessage (bytes : List Byte) (s : State) : exec (.debugMessage bytes) s = execDebugMessage bytes s := rfl

section
variable {s : State}

theorem State.mctp_answers (hlevel : 1 ≤ s.mgmtLevel) (fields : List Nat) (bytes : List Byte) :
    s.mctp fields bytes = .next (s.answer 0 0 fields bytes) := if_pos hlevel

theorem State.pldm_answers {level : Nat} (hlevel : level ≤ s.mgmtLevel) (code : Nat) (fields : List Nat) (bytes : List Byte) :
    s.pldm level code fields bytes = .next (s.answer 2 code fields bytes) := if_pos hlevel

/-- R449: an MCTP control query's answer, where its row gives the fields and bytes. -/
theorem goes_mctp {i : Instr} {fields : List Nat} {bytes : List Byte} (hrow : exec i s = s.mctp fields bytes)
    (hlevel : s.mgmtLevel = 3) : Goes i s (s.answer 0 0 fields bytes) := hrow.trans (State.mctp_answers (by omega) _ _)

/-- R450: a PLDM query's answer, where its row gives the code, the fields and the bytes. -/
theorem goes_pldm {i : Instr} {level code : Nat} {fields : List Nat} {bytes : List Byte}
    (hrow : exec i s = s.pldm level code fields bytes) (hlevel : s.mgmtLevel = 3) (hserved : level ≤ 3) :
    Goes i s (s.answer 2 code fields bytes) := hrow.trans (State.pldm_answers (by omega) _ _ _)

section
variable (hlevel : s.mgmtLevel = 3)
include hlevel

theorem setEndpointId_takes (id : Fin 256) :
    Goes (.setEndpointId id) s ((s.setSe fun e => { e with eid := id }).answer 0 0 [id] []) := by
  simp [Goes, exec_setEndpointId, execSetEndpointId, hlevel]

theorem getpldmversion_answers {t : Fin 64} (htype : t.val = 0 ∨ t.val = 2 ∨ t.val = 5) :
    Goes (.getpldmversion t) s (s.answer 2 0 [t, Config.pldmVersion t % 2 ^ 32] []) :=
  goes_pldm ((exec_getpldmversion t s).trans (if_pos htype)) hlevel le_rfl

theorem pldmSensorRead_answers {c : Fin 256} (hchan : channelReserved c = false) :
    Goes (.pldmSensorRead (some c)) s (s.answer 2 0 [] (bytesOf (s.po.sensor c).value.toNat 4)) :=
  goes_pldm ((exec_pldmSensorRead (some c) s).trans (if_neg (by simp [hchan]))) hlevel le_rfl

theorem stateSetWake_asks : Goes .stateSetWake s (s.requestWake.answer 2 0 [] []) := if_pos hlevel.ge

theorem stateSetShutter_asks : Goes .stateSetShutter s (s.requestShutter.answer 2 0 [] []) := if_pos hlevel.ge

theorem pldmComponentTransfer_begins (bytes : List Byte) (last : Bool) :
    Goes (.pldmComponentTransfer 1 0 bytes last) s
      ((s.setSe fun e => { e with comp := 1, compBytes := putBytes [] 0 bytes, verified := false }).answer 2 0 [] []) := by
  simp [Goes, exec_pldmComponentTransfer, execPldmComponentTransfer, hlevel]

theorem pldmVerify_record (hcomp : s.se.comp = 0x20) :
    Goes .pldmVerify s ((s.setSe fun e => { e with verified := true }).answer 2 0 [] []) := by
  simp [Goes, exec_pldmVerify, execPldmVerify, hlevel, hcomp]

theorem pldmVerify_image (hcomp : s.se.comp = 1) (hgood : fwBad s.se.fuses s.se.compBytes = none) :
    Goes .pldmVerify s ((s.setSe fun e => { e with verified := true }).answer 2 0 [] []) := by
  simp [Goes, exec_pldmVerify, execPldmVerify, hlevel, hcomp, hgood]

theorem activatefirmware_installs (hcomp : s.se.comp = 1) (hverified : s.se.verified = true) :
    Goes .activatefirmware s ((s.setSe Se.newFirmware).answer 2 0 [] []) := by
  simp [Goes, exec_activatefirmware, execActivatefirmware, hlevel, hcomp, hverified]

theorem debugMessage_answers (hopen : s.se.debugOpen = true) (bytes : List Byte) :
    Goes (.debugMessage bytes) s (s.answer 4 0 [] (Config.debugAnswer bytes)) := if_pos ⟨hlevel.ge, hopen⟩
end
end

/-! ### The state after reset -/

theorem Reg.ctorIdx_lt (r : Reg) : r.ctorIdx < 512 := by
  cases r <;> decide

/-- A register's key names the register, whichever copy of it the key is of. -/
theorem regOf_key (r : Reg) (i : Nat) : regOf (r.key i) = r := by
  have hidx : r.key i % 512 = r.ctorIdx := by
    have := r.ctorIdx_lt
    simp only [Reg.key]
    omega
  rw [regOf, hidx, Reg.ofNat_ctorIdx]

theorem Io.reset_reg (r : Reg) (i : Nat) : Io.reset.reg r i = r.spec.reset := congrArg (·.spec.reset) (regOf_key r i)

end Sys2Proof.Machine

namespace Sys2Proof.Claims

/-- Settles O45: a step burns or leaves the fuses, and burning keeps them within what can be burned. -/
theorem everyStepKeepsInvariant : Obligations.EveryStepKeepsInvariant := fun _ _ hinv h => (step_fuses h).2 hinv

/-- Settles O47: a step burns or leaves the fuses, and burning undoes nothing. -/
theorem fusesNeverGoBack : Obligations.FusesNeverGoBack := fun _ _ _ h => (step_fuses h).1

/-- Settles O48: every arm of the dispatch but those of the six keeps the fuses. -/
theorem onlyKeyCommandsBurn : Obligations.OnlyKeyCommandsBurn := fun _ s t hi h => congrArg Prod.snd (exec_keeps hi s t h)

/-- Settles O12: each stage, advance and record where it applies; a minimum or a level that rises is the greater of the two. -/
theorem keyCommandsRun : Obligations.KeyCommandsRun := by
  intro s
  refine ⟨fun _ hinput hperst hst => bootStage_ends hinput hperst hst,
    fun hboot hresult => ⟨_, bootComplete_answers hboot hresult, rfl, rfl, rfl⟩,
    fun hopen hresult hnew hleft => ⟨_, advanceFw_advances hopen hresult hnew hleft, ?_, rfl⟩,
    fun hopen hactive hnew hleft => ⟨_, advancePlan_advances hopen hactive hnew hleft, ?_, rfl⟩,
    fun hopen hactive => ⟨_, seSubmit_submits hopen hactive, ?_, ?_⟩,
    fun r hrec hempty => ⟨_, program_fills hrec hempty, rfl, rfl⟩,
    fun r hrec hother => ⟨_, revoke_revokes hrec hother, rfl, rfl⟩,
    fun r hrec hleft => ?_,
    fun r hrec => ⟨_, debugUnlock_opens hrec, rfl, rfl, rfl⟩,
    fun r hrec hhigher hmost => ⟨_, raiseLock_raises hrec hhigher hmost, ?_, rfl⟩⟩
  · simp [Nat.max_eq_right hnew.le]
  · simp [Nat.max_eq_right hnew.le]
  · rw [State.takeRecord_se]
  · rw [State.takeRecord_se]
  · cases hkey : sm2Decrypt Config.deviceKey (krPayload r) with
    | some k => exact ⟨_, setPlanKey_burns hrec hleft hkey, rfl, rfl⟩
    | none => exact ⟨_, setPlanKey_refuses hrec hleft hkey, rfl, rfl⟩
  · simp [Nat.max_eq_right hhigher.le]

/-- Settles O13: each request where the versions, the algorithms and the slot's chain are in place. -/
theorem spdmRequestsAnswered : Obligations.SpdmRequestsAnswered := by
  intro s doe hversionOn hcapabilitiesOn hon
  exact ⟨getVersion_answers hversionOn,
    fun hversion => ⟨getCapabilities_answers hcapabilitiesOn hversion, negotiateAlgorithms_agrees hon hversion⟩,
    fun hagreed => ⟨getDigests_answers hon hagreed, fun _ _ _ => getCertificate_answers hon hagreed,
      fun _ nonce => challenge_signs hon hagreed nonce, fun _ nonce => getMeasurements_answers_one hon hagreed nonce,
      fun _ chain => setCertificate_judges hon hagreed chain, chunkSend_gathers hon hagreed,
      fun _ => chunkGet_answers_part hon hagreed⟩⟩

/-- Settles O14: with the whole bus served, each row's answer. -/
theorem managementCommandsAnswered : Obligations.ManagementCommandsAnswered := by
  intro s hlevel
  refine ⟨setEndpointId_takes hlevel, goes_mctp (exec_getEndpointId s) hlevel,
    fun t => goes_mctp (exec_getMctpVersionSupport t s) hlevel, goes_mctp (exec_getMessageTypeSupport s) hlevel,
    goes_mctp (exec_getEndpointUuid s) hlevel, goes_pldm (exec_gettid s) hlevel le_rfl, fun _ => getpldmversion_answers hlevel,
    goes_pldm (exec_getpldmtypes s) hlevel le_rfl, goes_pldm (exec_getpldmcommands 2 s) hlevel le_rfl,
    goes_pldm (exec_querydeviceidentifiers s) hlevel (by decide), fun _ => pldmSensorRead_answers hlevel,
    goes_pldm (exec_pldmSensorRead none s) hlevel le_rfl, stateSetWake_asks hlevel, stateSetShutter_asks hlevel,
    pldmComponentTransfer_begins hlevel, ?_, activatefirmware_installs hlevel,
    fun bytes hopen => debugMessage_answers hlevel hopen bytes⟩
  rintro (hcomp | ⟨hcomp, hgood⟩)
  · exact pldmVerify_record hlevel hcomp
  · exact pldmVerify_image hlevel hcomp hgood

/-- Settles O46: nothing is burned, and no byte and no check has been written. -/
theorem resetMeetsInvariant : Obligations.ResetMeetsInvariant :=
  ⟨by simp [State.inv, Fuses.legal, State.reset, Se.reset, Fuses.reset], SMap.wf_nil, SMap.wf_nil⟩

/-- Settles O49: each block's state after reset, and each register's key names the register whose reset value it reads as. -/
theorem resetLeaves : Obligations.ResetLeaves :=
  ⟨rfl, rfl, rfl, rfl, rfl, rfl, rfl, rfl, fun _ => rfl, fun _ => rfl, fun _ => rfl, fun _ => rfl, fun _ => ⟨rfl, rfl⟩,
    fun _ => ⟨rfl, rfl, rfl⟩, fun _ => ⟨rfl, rfl⟩, Io.reset_reg⟩

end Sys2Proof.Claims
end

section
/-! PROOFS. The host side of the device: the shut BAR0 (O60), tracing and telemetry (O11), resets (O8), the letterbox (O9), the host link
and its neighbours (O10), and power with the porch (O7). -/

open Sys2Proof Sys2Proof.Machine Sys2Proof.Claims

namespace Sys2Proof.Machine

/-! ### A BAR0 that does not answer (R330, R432) -/

/-- A command of BAR0 whose row looks at the window first changes nothing while it is shut. -/
theorem goes_shut {s : State} {i : Instr} {r : Result} (hshut : s.barShut = true)
    (hrow : exec i s = if s.barShut then ignored s else r) : Goes i s s := hrow.trans (if_pos hshut)

/-- What an open window leaves of such a command. -/
theorem goes_open {s t : State} {i : Instr} {r : Result} (hopen : s.barShut = false)
    (hrow : exec i s = if s.barShut then ignored s else r) (hgoes : r = .next t) : Goes i s t :=
  (hrow.trans (if_neg (by simp [hopen]))).trans hgoes

/-! ### Rows of the dispatch: tracing -/

theorem exec_cmdMark (id : Nat) (s : State) : exec (.cmdMark id) s = execCmdMark id s := rfl
theorem exec_rxMark (p : Fin 64) (origin : Fin 16384) (seq : BitVec 32) (id : Fin 256) (m : BitVec 64) (s : State) :
    exec (.rxMark p origin seq id m) s = execRxMark p origin seq id m s := rfl
theorem exec_markInstant (k : Nat) (s : State) : exec (.markInstant k) s = execMarkInstant k s := rfl
theorem exec_trMark (id : Fin 256) (s : State) : exec (.trMark id) s = execTrMark id s := rfl
theorem exec_markLatch (s : State) : exec .markLatch s = execMarkLatch s := rfl
theorem exec_trRelease (s : State) : exec .trRelease s = execTrRelease s := rfl
theorem exec_trDump (s : State) : exec .trDump s = execTrDump s := rfl
theorem exec_dumpDone (s : State) : exec .dumpDone s = execDumpDone s := rfl
theorem exec_telemetryWindow (k : Nat) (s : State) : exec (.telemetryWindow k) s = execTelemetryWindow k s := rfl
theorem exec_snapshotDone (s : State) : exec .snapshotDone s = execSnapshotDone s := rfl
theorem exec_telemetryWindowEnd (s : State) : exec .telemetryWindowEnd s = execTelemetryWindowEnd s := rfl

/-! ### Marks, the bank and its dump (R452 to R455) -/

section
variable {s : State}

theorem cmdMark_schedules {id : Nat} {c : Cmd} (hready : s.readyCmd id 0x1F = some c) (hlocal : u8 c.entry 0x11 = 0)
    (hahead : s.mer.count ≤ u64 c.entry 0x18) (hgiven : u64 c.entry 0x18 ≠ 0) :
    Goes (.cmdMark id) s ((s.runCmd id 1).addMark (u8 c.entry 0x10) (u64 c.entry 0x18) 2 false (some id) s.plan.ref) := by
  have hlate : ¬ u64 c.entry 0x18 < (s.runCmd id 1).mer.count := Nat.not_lt.mpr hahead
  simp only [Goes, exec_cmdMark, execCmdMark, hready, hlocal, if_neg hgiven, if_neg hlate]
  rfl

section
variable {p : Fin 64} {origin : Fin 16384} {seq : BitVec 32} {id : Fin 256} {m : BitVec 64} {t : State}
  (hlinked : (s.port p.val).linked = true) (hnewer : s.newer origin seq.toNat = some t)
include hlinked hnewer

theorem rxMark_schedules {u : State} (hu : u = t.floodFrom p 0x8000 0x23 origin (markBytes origin seq.toNat id m.toNat))
    (hahead : u.mer.count < m.toNat) : Goes (.rxMark p origin seq id m) s (u.addMark id m.toNat 3 true none origin) := by
  subst hu
  simp [Goes, exec_rxMark, execRxMark, hlinked, hnewer, Nat.not_le.mpr hahead]

theorem rxMark_late {u : State} (hu : u = t.floodFrom p 0x8000 0x23 origin (markBytes origin seq.toNat id m.toNat))
    (hlate : m.toNat ≤ u.mer.count) : Goes (.rxMark p origin seq id m) s
      ((u.addMark id u.mer.count 3 true none origin).mapIo fun io => io.event .FB_TRAFFIC_EVENT 0 6) := by
  subst hu
  simp [Goes, exec_rxMark, execRxMark, hlinked, hnewer, hlate]
end

theorem markInstant_marks {k c : Nat} {i : Instant} (hdue : s.dueInstant k = some (i, c)) (hkind : i.kind = 3) :
    Goes (.markInstant k) s ((s.fired k c).addMark i.arg c 1 false none (s.fired k c).plan.ref) := by
  simp [Goes, exec_markInstant, execMarkInstant, hdue, hkind]

theorem trMark_marks (hopen : s.barShut = false) (id : Fin 256) : Goes (.trMark id) s (s.markNow id 5) :=
  goes_open hopen (exec_trMark id s) rfl

/-- R455: a release that finds a dump at work waits for its end. -/
theorem trRelease_waits (hopen : s.barShut = false) (hdumping : s.tr.dumping = true) :
    Goes .trRelease s { s with tr := { s.tr with releaseAsked := true } } :=
  goes_open hopen (exec_trRelease s) (if_pos hdumping)

theorem trRelease_releases (hopen : s.barShut = false) (hidle : s.tr.dumping = false) :
    Goes .trRelease s { s with tr := { s.tr with mark := { s.tr.mark with held := false } } } :=
  goes_open hopen (exec_trRelease s) (if_neg (by simp [hidle]))

theorem trDump_starts (hopen : s.barShut = false) (hheld : s.tr.mark.held = true) (hidle : s.tr.dumping = false)
    (halign : s.io.dumpAddr % 256 = 0) (hfits : s.plan.dpaOk s.io.dumpAddr s.tr.mark.dumpLen = true) :
    Goes .trDump s { s with tr := { s.tr with dumping := true, dumpAt := s.io.dumpAddr } } :=
  goes_open hopen (exec_trDump s) ((if_neg (by simp [hheld, hidle])).trans (if_pos ⟨halign, hfits⟩))

theorem State.dumpWrite_of_fits (hfits : s.plan.dpaOk s.tr.dumpAt s.tr.mark.dumpLen = true) :
    s.dumpWrite = s.sheetWrite .device s.tr.dumpAt s.tr.mark.dump := if_pos hfits

/-- A dump that no release waits for leaves its bank as it was. -/
theorem State.dumpOver_of_unasked (h : s.tr.releaseAsked = false) : s.dumpOver = { s with tr := { s.tr with dumping := false } } := by
  simp [State.dumpOver, h]

theorem dumpDone_ends (hdumping : s.tr.dumping = true) : Goes .dumpDone s (s.dumpWrite.dumpOver.trEvent 2) := if_pos hdumping

/-! ### Snapshots (R451) -/

theorem State.dropSnapshot_of_none (h : s.tr.snapshot = none) : s.dropSnapshot = s := by
  simp [State.dropSnapshot, h]

theorem telemetryWindow_opens {k c : Nat} {i : Instant} (hdue : s.dueInstant k = some (i, c)) (hkind : i.kind = 6)
    (hfree : s.tr.snapshot = none) : Goes (.telemetryWindow k) s { s.fired k c with
      tr := { s.tr with snapshot := some (c + i.len, 1 - s.tr.cur, s.tr.seq + 1, c) } } := by
  have hnone : (s.fired k c).dropSnapshot = s.fired k c := State.dropSnapshot_of_none hfree
  simp only [Goes, exec_telemetryWindow, execTelemetryWindow, hdue, hkind, hnone]
  rfl

section
variable {ends page seq at' : Nat} (hopened : s.tr.snapshot = some (ends, page, seq, at'))
include hopened

theorem snapshotDone_completes (hwithin : s.mer.count < ends) : Goes .snapshotDone s { s with
    ram := s.ram.poke (telemAddr page 0) (s.telemetry seq at')
    tr := { s.tr with snapshot := none, cur := page, seq := seq } } := by
  simp [Goes, exec_snapshotDone, execSnapshotDone, hopened, hwithin]

theorem telemetryWindowEnd_abandons (hover : ends ≤ s.mer.count) :
    Goes .telemetryWindowEnd s ({ s with tr := { s.tr with snapshot := none } }.trEvent 5) := by
  simp [Goes, exec_telemetryWindowEnd, execTelemetryWindowEnd, State.dropSnapshot, hopened, hover]
end
end

/-! ### Resets (R332, R460 to R462) -/

theorem exec_perstAssert (s : State) : exec .perstAssert s = execPerstAssert s := rfl
theorem exec_perstDeassert (s : State) : exec .perstDeassert s = execPerstDeassert s := rfl
theorem exec_functionLevelReset (s : State) : exec .functionLevelReset s = execFunctionLevelReset s := rfl
theorem exec_hotReset (s : State) : exec .hotReset s = execHotReset s := rfl
theorem exec_resetComplete (s : State) : exec .resetComplete s = execResetComplete s := rfl

section
variable {s : State}

theorem perstAssert_resets (hinput : s.pw.input = true) (hhigh : s.pw.perst = false) (hst : s.pw.st ≠ .tripped) :
    Goes .perstAssert s s.perst := by simp [Goes, exec_perstAssert, execPerstAssert, hinput, hhigh, hst]

/-- R463: a tripped device only notes PERST_N. -/
theorem perstAssert_tripped (hinput : s.pw.input = true) (hhigh : s.pw.perst = false) (hst : s.pw.st = .tripped) :
    Goes .perstAssert s (s.setPw fun w => { w with perst := true }) := by
  simp [Goes, exec_perstAssert, execPerstAssert, hinput, hhigh, hst]

theorem perstDeassert_boots (hlow : s.pw.perst = true) (hinput : s.pw.input = true) (hst : s.pw.st ≠ .tripped) :
    Goes .perstDeassert s { s with
      pw := { s.pw with perst := false }, se := s.se.startBoot, io := { s.io with link := 1 } } := by
  simp [Goes, exec_perstDeassert, execPerstDeassert, hlow, hinput, hst, State.setPw]

/-- The queues that a function-level reset empties (R332). -/
def State.queuesEmptied (s : State) : State :=
  ((s.cf.queues.map (·.1)).filter (fun q => (s.cf.queue q).st != .disabled)).foldl
    (fun (t : State) q => (t.emptyQueue q .disabled).setQueue q (fun _ => Queue.reset)) s

theorem functionLevelReset_clears (hreach : s.resettable = true) :
    Goes .functionLevelReset s ((s.queuesEmptied.dropImage.clearHost 1).mapIo fun io => io.incHi .HC_RESETS) := if_pos hreach

theorem hotReset_clears (hreach : s.resettable = true) : Goes .hotReset s
    ((((s.hostLost 1 true).dropImage.clearHost 2).clearStores).mapIo fun io => io.incLo .HC_RESETS) := if_pos hreach

theorem resetComplete_ends (hreset : s.host.resetting ≠ 0) :
    Goes .resetComplete s (s.setHost fun h => { h with resetting := 0 }) := if_pos hreset

/-- A command outside the six that burn leaves the fuses as they were. -/
theorem goes_fuses {i : Instr} {t : State} (hgoes : Goes i s t) (hi : i ∉ burners) : t.se.fuses = s.se.fuses :=
  congrArg Prod.snd (exec_keeps hi s t hgoes)

@[simp] theorem Io.incHi_msixOn (io : Io) (r : Reg) (i : Nat) : (io.incHi r i).msixOn = io.msixOn := by
  unfold Io.incHi
  split <;> rfl

@[simp] theorem Io.incLo_msixOn (io : Io) (r : Reg) (i : Nat) : (io.incLo r i).msixOn = io.msixOn := by
  unfold Io.incLo
  split <;> rfl
end

/-! ### The letterbox (R313, R315 to R318) -/

theorem exec_regionValidate (i : Fin 65536) (v : BitVec 32) (hi : Option (BitVec 32)) (s : State) :
    exec (.regionValidate i v hi) s = execRegionValidate i v hi s := rfl
theorem exec_regionEnd (i : Fin 65536) (v : BitVec 32) (hi : Option (BitVec 32)) (s : State) :
    exec (.regionEnd i v hi) s = execRegionEnd i v hi s := rfl
theorem exec_bar2Read (off : BitVec 36) (req : BitVec 16) (s : State) : exec (.bar2Read off req) s = execBar2Read off req s := rfl
theorem exec_letterboxWrite (off : BitVec 36) (bytes : List Byte) (req : BitVec 16) (poisoned : Bool) (s : State) :
    exec (.letterboxWrite off bytes req poisoned) s = execLetterboxWrite off bytes req poisoned s := rfl
theorem exec_hcLbFence (v : BitVec 32) (s : State) : exec (.hcLbFence v) s = execHcLbFence v s := rfl
theorem exec_lbFenceDone (s : State) : exec .lbFenceDone s = execLbFenceDone s := rfl

section
variable {s : State}

theorem regionValidate_writes {v : BitVec 32} (hopen : s.barShut = false) (hvalid : v.getLsbD 0 = true) (i : Fin 65536)
    (hi : Option (BitVec 32)) : Goes (.regionValidate i v hi) s (s.regionFirst i v hi) :=
  goes_open hopen (exec_regionValidate i v hi s) (if_pos hvalid)

theorem regionEnd_writes {v : BitVec 32} (hopen : s.barShut = false) (hvalid : v.getLsbD 0 = false) (i : Fin 65536)
    (hi : Option (BitVec 32)) : Goes (.regionEnd i v hi) s (s.regionFirst i v hi) :=
  goes_open hopen (exec_regionEnd i v hi s) (if_neg (ne_true_of_eq_false hvalid))

theorem bar2Read_rejects (hreach : s.hostReaches = true) (off : BitVec 36) (req : BitVec 16) :
    Goes (.bar2Read off req) s (s.lbReject 5 off.toNat req.toNat) := if_pos hreach

section
variable {off : BitVec 36} {bytes : List Byte} {req : BitVec 16} {p : Bool} (hreach : s.hostReaches = true) (hsome : bytes ≠ [])
include hreach hsome

/-- R317: a write to a region without a flag word lands as one sheet write. -/
theorem letterboxWrite_lands {i : Nat} (hcause : s.lbCause off.toNat bytes.length req.toNat p = (0, i))
    (hflag : rgFlag (s.host.entry i) = 0xFFFFFFFF)
    (hfirst : s.chanHeld ((rgBase (s.host.entry i) + (off.toNat - i * 2 ^ 20)) / 2 ^ 30) = false)
    (hlast : s.chanHeld ((rgBase (s.host.entry i) + (off.toNat - i * 2 ^ 20) + bytes.length - 1) / 2 ^ 30) = false) :
    Goes (.letterboxWrite off bytes req p) s ((s.mapIo fun io => io.addWide .HC_LB_ACCEPTED_LO 0 1).sheetWrite .host
      (rgBase (s.host.entry i) + (off.toNat - i * 2 ^ 20)) bytes) := by
  simp only [Goes, exec_letterboxWrite, execLetterboxWrite, hreach, hsome, hcause, hflag, hfirst, hlast]
  rfl

theorem letterboxWrite_rejects {c i : Nat} (hcause : s.lbCause off.toNat bytes.length req.toNat p = (c, i)) (hbad : c ≠ 0) :
    Goes (.letterboxWrite off bytes req p) s (s.lbReject c off.toNat req.toNat) := by
  obtain ⟨k, rfl⟩ := Nat.exists_eq_succ_of_ne_zero hbad
  simp [Goes, exec_letterboxWrite, execLetterboxWrite, hreach, hsome, hcause]
end

theorem hcLbFence_waits (hopen : s.barShut = false) (v : BitVec 32) : Goes (.hcLbFence v) s
    ((s.setHost fun h => { h with fence := some (v.toNat % 65536) }).mapIo fun io => io.putN .HC_LB_FENCE_STATUS 0 1) :=
  goes_open hopen (exec_hcLbFence v s) rfl

theorem lbFenceDone_ends {i : Nat} (hfence : s.host.fence = some i) (hnone : s.flagsHeld i = 0) : Goes .lbFenceDone s
    ((s.setHost fun h => { h with fence := none }).mapIo fun io => io.putN .HC_LB_FENCE_STATUS 0 0) := by
  simp [Goes, exec_lbFenceDone, execLbFenceDone, hfence, hnone]
end

/-! ### The host link and its neighbours (R306, R310, R311, R314, R329, R330, R333, R457) -/

theorem exec_linkDown (s : State) : exec .linkDown s = execLinkDown s := rfl
theorem exec_linkUp (lanes rate : Fin 16) (flit : Bool) (s : State) : exec (.linkUp lanes rate flit) s = execLinkUp lanes rate flit s := rfl
theorem exec_linkRecovery (done : Bool) (s : State) : exec (.linkRecovery done) s = execLinkRecovery done s := rfl
theorem exec_hostGraceExpiry (s : State) : exec .hostGraceExpiry s = execHostGraceExpiry s := rfl
theorem exec_msixUnmask (v : Fin 2048) (s : State) : exec (.msixUnmask v) s = execMsixUnmask v s := rfl
theorem exec_configRequest (d : Fin 1024) (w : Option (BitVec 32)) (s : State) :
    exec (.configRequest d w) s = execConfigRequest d w s := rfl
theorem exec_doeRequest (vendor : BitVec 16) (type : BitVec 8) (bytes : List Byte) (s : State) :
    exec (.doeRequest vendor type bytes) s = execDoeRequest vendor type bytes s := rfl

section
variable {s : State}

theorem linkDown_loses (hup : s.linkUp = true) :
    Goes .linkDown s (((s.hostLost 0 false).mapIo fun io => io.inc .HC_LINK_DOWNS).hcEvent 0) := if_pos hup

/-- Without a queue that the driver has reset, a parked device stays parked (log entry 50). -/
theorem State.unpark_of_no_driver (h : s.host.driverBack = false) : s.unpark = s := by simp [State.unpark, h]

theorem linkUp_trains (hdown : s.linkUp = false) (hperst : s.pw.perst = false) (hinput : s.pw.input = true)
    (hst : s.pw.st ≠ .tripped) (hdriver : s.host.driverBack = false) (lanes rate : Fin 16) (flit : Bool) :
    Goes (.linkUp lanes rate flit) s ((s.mapIo fun io =>
      { io.putN .HC_LINK 0 (lanes.val + 16 * rate.val + fieldIf flit 8) with link := 2 }).hcEvent 1) := by
  simp only [Goes, exec_linkUp, execLinkUp, hdown, hperst, hinput, hst]
  exact (if_neg (by simp)).trans (congrArg _ (State.unpark_of_no_driver hdriver))

theorem linkRecovery_ends (hrecovery : s.io.link = 3) : Goes (.linkRecovery true) s (s.mapIo fun io => { io with link := 2 }) :=
  if_pos hrecovery

theorem linkRecovery_begins (hup : s.io.link = 2) : Goes (.linkRecovery false) s
    ((s.mapIo fun io => { io.inc .HC_RETRAINS with link := 3 }).hcEvent 2) := if_pos hup

theorem hostGraceExpiry_parks {t : Nat} (hgrace : s.host.graceEnd = some t) (hover : t ≤ s.mer.now) : Goes .hostGraceExpiry s
    ((((s.drew 1).setHost fun h => { h with graceEnd := none, parked := true }).hcEvent 4).announceDepart
      (s.draw % 2 ^ 64) 2) := by
  simp [Goes, exec_hostGraceExpiry, execHostGraceExpiry, hgrace, hover]

theorem msixUnmask_delivers (hopen : s.barShut = false) (v : Fin 2048) :
    Goes (.msixUnmask v) s (s.mapIo fun io => io.msixPut (4 * v + 3) 0#32).flushMsix :=
  goes_open hopen (exec_msixUnmask v s) rfl

theorem configRequest_retries (hup : s.linkUp = true) (hboot : s.se.result = 0) (d : Fin 1024) (w : Option (BitVec 32)) :
    Goes (.configRequest d w) s (s.mapIo fun io => io.send (.config false 0)) := by
  simp [Goes, exec_configRequest, execConfigRequest, hup, hboot]

theorem configRequest_reads (hup : s.linkUp = true) (hboot : s.se.result ≠ 0) (hquiet : s.host.resetting = 0) (d : Fin 1024) :
    Goes (.configRequest d none) s (s.mapIo fun io => io.send (.config true (s.configRead d))) := by
  simp [Goes, exec_configRequest, execConfigRequest, hup, hboot, hquiet]

theorem doeRequest_waits (hup : s.linkUp = true) (hboot : s.se.result ≠ 0) (hquiet : s.host.resetting = 0) {bytes : List Byte}
    (hlen : bytes.length ≤ 16384) : Goes (.doeRequest 1 1 bytes) s (s.setHost fun h => { h with doe := bytes }) := by
  simp [Goes, exec_doeRequest, execDoeRequest, hup, hboot, hquiet, hlen]
end

/-! ### Power and the porch (R426 to R439, R456, R460) -/

theorem exec_inputApplied (s : State) : exec .inputApplied s = execInputApplied s := rfl
theorem exec_poTripClear (v : BitVec 32) (s : State) : exec (.poTripClear v) s = execPoTripClear v s := rfl
theorem exec_pwShutter (s : State) : exec .pwShutter s = execPwShutter s := rfl
theorem exec_pwWake (s : State) : exec .pwWake s = execPwWake s := rfl
theorem exec_wakeAt (s : State) : exec .wakeAt s = execWakeAt s := rfl
theorem exec_wakeComplete (s : State) : exec .wakeComplete s = execWakeComplete s := rfl
theorem exec_departureForwardingEnd (s : State) : exec .departureForwardingEnd s = execDepartureForwardingEnd s := rfl
theorem exec_powerProjection (watts : Nat) (s : State) : exec (.powerProjection watts) s = execPowerProjection watts s := rfl
theorem exec_powerWindow (watts : Fin 65536) (s : State) : exec (.powerWindow watts) s = execPowerWindow watts s := rfl
theorem exec_sensorSample (c : Fin 256) (v : BitVec 32) (s : State) : exec (.sensorSample c v) s = execSensorSample c v s := rfl
theorem exec_poRuleClear (v : BitVec 32) (s : State) : exec (.poRuleClear v) s = execPoRuleClear v s := rfl

section
variable {s : State}

theorem railOutOfRegulation_trips (hinput : s.pw.input = true) (hst : s.pw.st ≠ .tripped) (r : Fin 11) :
    Goes (.railOutOfRegulation r) s (s.trip 3 (196 + 2 * r)) := if_pos ⟨hinput, hst⟩

theorem inputApplied_boots (hoff : s.pw.input = false) (hperst : s.pw.perst = false) : Goes .inputApplied s { s with
    pw := { s.pw with input := true }, se := s.se.startBoot } := by
  simp [Goes, exec_inputApplied, execInputApplied, hoff, hperst, State.setPw]

/-- R456: boot waits for PERST_N. -/
theorem inputApplied_held (hoff : s.pw.input = false) (hperst : s.pw.perst = true) :
    Goes .inputApplied s (s.setPw fun w => { w with input := true }) := by
  simp [Goes, exec_inputApplied, execInputApplied, hoff, hperst]

theorem inputLost_loses (hinput : s.pw.input = true) : Goes .inputLost s { s.dark with
    pw := { Power.reset with input := false, perst := s.pw.perst }, po := Porch.reset } := if_pos hinput

theorem poTripClear_leaves {v : BitVec 32} (hopen : s.barGone = false) (hclear : v.getLsbD 0 = true) (hst : s.pw.st = .tripped)
    (hperst : s.pw.perst = true)
    (hcool : ∀ c t, c < 192 → tripAt c = some t → f32lt (degrees ((t : Int) - 10)) (s.po.sensor c).raw = false) :
    Goes (.poTripClear v) s (s.setPw fun w => { w with st := .noPlan, therm := false }) := by
  have hall : (List.range 192).all (fun c => match tripAt c with
      | some t => !f32lt (degrees ((t : Int) - 10)) (s.po.sensor c).raw
      | none => true) = true := by
    refine List.all_eq_true.mpr fun c hc => ?_
    cases htrip : tripAt c with
    | none => rfl
    | some t => simp [hcool c t (List.mem_range.mp hc) htrip]
  simp only [Goes, exec_poTripClear, execPoTripClear, hopen, hclear, hst]
  refine (if_neg (by simp)).trans ((if_pos ⟨trivial, trivial, hall⟩).trans (congrArg _ (if_pos hperst)))

theorem shutterEntry_sleeps (hst : s.pw.st = .departing) (hdue : s.mer.reached (s.pw.effective + 100000) = true)
    (hquiet : s.committing = false) : Goes .shutterEntry s s.shutter := if_pos ⟨hst, hdue, hquiet⟩

theorem wakeAt_wakes (hst : s.pw.st = .shuttered) (hset : s.io.wakeAt ≠ 0) (hdue : s.mer.reached s.io.wakeAt = true) :
    Goes .wakeAt s (s.setPw fun w => { w with st := .waking, wakeSince := s.mer.now, wakeAsked := false }) := by
  simp [Goes, exec_wakeAt, execWakeAt, State.requestWake, hst, hset, hdue]

theorem State.recap_pwSt (s : State) : s.recap.pw.st = s.pw.st := by
  have hcaps := foldl_same State.pw (fun (u : State) st => u.setStk st (fun k => { k with cap := u.govCap st })) (fun _ _ => rfl)
    s.serving s
  unfold State.recap
  dsimp only
  split
  · exact congrArg Power.st hcaps
  · exact congrArg Power.st hcaps

theorem State.lightPort_pw (s : State) (p : Nat) : (s.lightPort p).pw = s.pw := by
  unfold State.lightPort
  split <;> rfl

theorem State.staleShard_pw (s : State) (w : Nat) : (s.staleShard w).pw = s.pw := by
  unfold State.staleShard
  split <;> rfl

theorem State.staleLayer_pw (s : State) (id : Nat) : (s.staleLayer id).pw = s.pw := by
  unfold State.staleLayer
  split <;> rfl

theorem State.staleAll_pw (s : State) : s.staleAll.pw = s.pw :=
  (foldl_same State.pw State.staleLayer State.staleLayer_pw _ _).trans
    (foldl_same State.pw (fun (u : State) w => u.staleShard (wId w)) (fun u w => u.staleShard_pw (wId w)) _ s)

theorem wakeComplete_runs (hst : s.pw.st = .waking) : ∃ t, Goes .wakeComplete s t ∧ t.pw.st = .running := by
  refine ⟨_, if_pos hst, ?_⟩
  rw [State.pwEvent_pw, State.recap_pwSt, State.staleAll_pw, foldl_same State.pw State.lightPort State.lightPort_pw]

theorem departureForwardingEnd_darkens {d : Depart} (hfind : s.fab.departs.find? (fun d => d.ref == s.plan.ref) = some d)
    (hdue : s.mer.reached (d.effective + 100000) = true) :
    Goes .departureForwardingEnd s ((List.range 64).foldl (fun (u : State) p =>
      if (u.port p).st = .dark then u else (u.portLost p .dark).setPort p (fun x => { x with cause := 0, failed := 0 }))
      { s with fab := { s.fab with departs := s.fab.departs.filter (fun (e : Depart) => e.ref != s.plan.ref) } }) := by
  simp only [Goes, exec_departureForwardingEnd, execDepartureForwardingEnd, hfind, if_pos hdue]

/-- R429: a projection within the band changes no notch. -/
theorem powerProjection_within {watts : Nat} (hactive : s.plan.active = true) (hawake : s.asleep = false)
    (hdue : s.pw.lastProjection + 10000 ≤ s.mer.now) (hhigh : watts + 50 ≤ s.envelope) (hlow : s.envelope ≤ watts + 150) :
    Goes (.powerProjection watts) s (s.setPw fun w => { w with lastProjection := s.mer.now, lowSince := none }) := by
  refine (if_pos ⟨hactive, hawake, hdue⟩).trans ((if_neg (Nat.not_lt.mpr hhigh)).trans ?_)
  exact if_neg (Nat.not_lt.mpr hlow)

theorem powerWindow_notes {w : Fin 65536} (hlimit : w.val ≤ s.drawLimit) (hnone : s.enabledArrays = []) (hfloor : s.underFloor = false) :
    Goes (.powerWindow w) s (s.mapIo fun io =>
      io.putN .PW_POWER 0 (max (s.io.val .PW_POWER / 65536) w * 65536 + w)) := by
  simp [Goes, exec_powerWindow, execPowerWindow, Nat.not_lt.mpr hlimit, hnone, hfloor]

/-- R436: a tripped device goes on sampling, and no rule acts. -/
theorem sensorSample_tripped {c : Fin 256} (hinput : s.pw.input = true) (hchan : channelReserved c.val = false)
    (hst : s.pw.st = .tripped) (v : BitVec 32) : Goes (.sensorSample c v) s
      (s.setPo fun p => { p with sensors := SMap.set sensorDflt p.sensors c (filterSample s.po c v) }) := by
  simp [Goes, exec_sensorSample, execSensorSample, hinput, hchan, hst]

theorem poRuleClear_clears {v : BitVec 32} (hopen : s.barGone = false) (hclear : v.getLsbD 0 = true) : Goes (.poRuleClear v) s
    (s.setPo fun p => { p with
      rules := SMap.set ruleDflt p.rules (s.io.val .PO_RULE_SEL % 128)
        { p.rule (s.io.val .PO_RULE_SEL % 128) with active := false, latched := false, beyond := 0, back := 0 } }).recap.realert := by
  simp [Goes, exec_poRuleClear, execPoRuleClear, hopen, hclear]

theorem oldRuleCapsExpiry_ends (hcaps : s.po.oldCaps ≠ []) (hdue : s.po.oldUntil ≤ s.mer.now) :
    Goes .oldRuleCapsExpiry s (s.setPo fun p => { p with oldCaps := [] }).recap.realert := if_pos ⟨hcaps, hdue⟩

theorem heartbeatLost_drops {k : Fin 4} (hbeats : bit s.po.keepers k = true) : Goes (.heartbeatLost k) s
    ((s.setPo fun p => { p with keepers := p.keepers - 2 ^ k.val }).poEvent 1) := if_pos hbeats
end

end Sys2Proof.Machine

namespace Sys2Proof.Claims

/-- Settles O60: each of the rows looks at the window first. -/
theorem shutBar0ChangesNothing : Obligations.ShutBar0ChangesNothing := by
  intro s q st v hshut
  simp only [List.forall_mem_cons, List.not_mem_nil, false_imp_iff, implies_true, and_true]
  exact ⟨goes_shut hshut rfl, goes_shut hshut rfl, goes_shut hshut rfl, goes_shut hshut rfl, goes_shut hshut rfl, goes_shut hshut rfl,
    goes_shut hshut rfl, goes_shut hshut rfl, goes_shut hshut rfl, goes_shut hshut rfl, goes_shut hshut rfl, goes_shut hshut rfl,
    goes_shut hshut rfl, goes_shut hshut rfl, goes_shut hshut rfl, goes_shut hshut rfl, goes_shut hshut rfl, goes_shut hshut rfl,
    goes_shut hshut rfl, goes_shut hshut rfl, goes_shut hshut rfl, goes_shut hshut rfl, goes_shut hshut rfl, goes_shut hshut rfl⟩

/-- Settles O11: each event of a mark, the bank and a snapshot where it applies; the dump's end is that of a bank that no release
waits for. -/
theorem tracingCommandsRun : Obligations.TracingCommandsRun := by
  intro s
  refine ⟨fun _ _ => cmdMark_schedules,
    fun _ _ _ _ _ _ _ hlinked hnewer hu => ⟨rxMark_schedules hlinked hnewer hu, rxMark_late hlinked hnewer hu⟩,
    fun _ _ _ => markInstant_marks, fun id hopen => trMark_marks hopen id, rfl, trRelease_waits, trRelease_releases, trDump_starts,
    fun hdumping hfits hunasked => ?_, fun _ _ _ => telemetryWindow_opens, fun _ _ _ _ => snapshotDone_completes,
    fun _ _ _ _ => telemetryWindowEnd_abandons⟩
  have hgoes := dumpDone_ends hdumping
  have hover := State.dumpOver_of_unasked (s := s.sheetWrite .device s.tr.dumpAt s.tr.mark.dump) hunasked
  rwa [State.dumpWrite_of_fits hfits, hover] at hgoes

/-- Settles O8: each reset where it reaches the device; both resets of the function clear the host's side and keep the fuses. -/
theorem resetsRun : Obligations.ResetsRun := by
  intro s
  refine ⟨perstAssert_resets, perstAssert_tripped, perstDeassert_boots, fun hreach => ?_, fun hreach => ?_, resetComplete_ends⟩
  · have hgoes := functionLevelReset_clears hreach
    exact ⟨_, hgoes, rfl, rfl, Io.incHi_msixOn _ _ _, rfl, goes_fuses hgoes (by decide)⟩
  · have hgoes := hotReset_clears hreach
    exact ⟨_, hgoes, rfl, rfl, Io.incLo_msixOn _ _ _, rfl, goes_fuses hgoes (by decide)⟩

/-- Settles O9: each access of the region table and of BAR2 where the host's requests reach the device. -/
theorem letterboxCommandsRun : Obligations.LetterboxCommandsRun := by
  intro s
  exact ⟨fun i _ hi hopen hvalid => regionValidate_writes hopen hvalid i hi,
    fun i _ hi hopen hvalid => regionEnd_writes hopen hvalid i hi,
    fun off req hreach => bar2Read_rejects hreach off req,
    fun _ _ _ _ _ hreach hsome => letterboxWrite_lands hreach hsome, fun _ _ _ _ _ _ hreach hsome => letterboxWrite_rejects hreach hsome,
    fun v hopen => hcLbFence_waits hopen v, fun _ => lbFenceDone_ends⟩

/-- Settles O10: each event of the link and each request of its neighbours where it applies. -/
theorem hostLinkEventsRun : Obligations.HostLinkEventsRun := by
  intro s
  exact ⟨linkDown_loses,
    fun lanes rate flit hdown hperst hinput hst hdriver => linkUp_trains hdown hperst hinput hst hdriver lanes rate flit,
    linkRecovery_ends, linkRecovery_begins, fun _ => hostGraceExpiry_parks, fun _ => rfl, fun v hopen => msixUnmask_delivers hopen v,
    fun d w hup hboot => configRequest_retries hup hboot d w, fun d hup hboot hquiet => configRequest_reads hup hboot hquiet d, rfl,
    fun _ => rfl, fun _ hup hboot hquiet hlen => doeRequest_waits hup hboot hquiet hlen⟩

/-- Settles O7: each event of the power controller and the porch where it applies. -/
theorem powerEventsRun : Obligations.PowerEventsRun := by
  intro s
  exact ⟨fun r hinput hst => railOutOfRegulation_trips hinput hst r, inputApplied_held, inputApplied_boots,
    fun hinput => ⟨_, inputLost_loses hinput, rfl, rfl, rfl⟩, fun _ => poTripClear_leaves,
    fun hopen => ⟨if_neg (by simp [hopen]), if_neg (by simp [hopen])⟩, shutterEntry_sleeps, wakeAt_wakes, wakeComplete_runs,
    fun _ => departureForwardingEnd_darkens, fun _ => powerProjection_within, fun _ => powerWindow_notes,
    fun _ v hinput hchan hst => sensorSample_tripped hinput hchan hst v, fun _ => poRuleClear_clears, oldRuleCapsExpiry_ends,
    fun _ => heartbeatLost_drops⟩

end Sys2Proof.Claims
end

section
/-! PROOFS. The fabric's traffic (chapter 12): partner connections, messages and datagrams (O40), and multicast trees (O41). -/

open Sys2Proof Sys2Proof.Machine Sys2Proof.Claims

namespace Sys2Proof.Machine

/-! ### Rows of the dispatch -/

theorem exec_cmdConnect (id : Nat) (s : State) : exec (.cmdConnect id) s = execCmdConnect id s := rfl
theorem exec_rxOpen (p : Fin 64) (m : Msg) (s : State) : exec (.rxOpen p m) s = execRxOpen p m s := rfl
theorem exec_rxAccept (p : Fin 64) (m : Msg) (s : State) : exec (.rxAccept p m) s = execRxAccept p m s := rfl
theorem exec_rxAck (p : Fin 64) (m : Msg) (s : State) : exec (.rxAck p m) s = execRxAck p m s := rfl
theorem exec_rxClose (p : Fin 64) (m : Msg) (s : State) : exec (.rxClose p m) s = execRxClose p m s := rfl
theorem exec_connectTimeout (k : Fin 4096) (s : State) : exec (.connectTimeout k) s = execConnectTimeout k s := rfl
theorem exec_retransmit (k : Fin 4096) (s : State) : exec (.retransmit k) s = execRetransmit k s := rfl
theorem exec_connBreak (k : Fin 4096) (s : State) : exec (.connBreak k) s = execConnBreak k s := rfl
theorem exec_cmdClose (id : Nat) (s : State) : exec (.cmdClose id) s = execCmdClose id s := rfl
theorem exec_cmdSend (id : Nat) (s : State) : exec (.cmdSend id) s = execCmdSend id s := rfl
theorem exec_rxWrite (p : Fin 64) (m : Msg) (s : State) : exec (.rxWrite p m) s = execRxWrite p m s := rfl
theorem exec_cmdDatagram (id : Nat) (s : State) : exec (.cmdDatagram id) s = execCmdDatagram id s := rfl
theorem exec_rxDgram (p : Fin 64) (m : Msg) (s : State) : exec (.rxDgram p m) s = execRxDgram p m s := rfl
theorem exec_cmdTree (id : Nat) (s : State) : exec (.cmdTree id) s = execCmdTree id s := rfl
theorem exec_rxTreeSetup (p : Fin 64) (dest : Fin 16384) (m : Msg) (s : State) :
    exec (.rxTreeSetup p dest m) s = execRxTreeSetup p dest m s := rfl
theorem exec_treeSetupTimeout (tr : Fin 4096) (s : State) : exec (.treeSetupTimeout tr) s = execTreeSetupTimeout tr s := rfl
theorem exec_cmdMcast (id : Nat) (s : State) : exec (.cmdMcast id) s = execCmdMcast id s := rfl
theorem exec_rxMcast (p : Fin 64) (m : Msg) (s : State) : exec (.rxMcast p m) s = execRxMcast p m s := rfl
theorem exec_rxPrune (p : Fin 64) (m : Msg) (s : State) : exec (.rxPrune p m) s = execRxPrune p m s := rfl
theorem exec_rxGraft (p : Fin 64) (m : Msg) (s : State) : exec (.rxGraft p m) s = execRxGraft p m s := rfl
theorem exec_rxPull (p : Fin 64) (m : Msg) (s : State) : exec (.rxPull p m) s = execRxPull p m s := rfl
theorem exec_branchPrune (tr : Fin 4096) (p : Fin 64) (s : State) : exec (.branchPrune tr p) s = execBranchPrune tr p s := rfl
theorem exec_branchRebuild (tr : Fin 4096) (p : Fin 64) (s : State) : exec (.branchRebuild tr p) s = execBranchRebuild tr p s := rfl

/-! ### Opening a connection (R283) -/

/-- Entry `k` of the table of connections. -/
def State.putConn (s : State) (k : Nat) (x : Conn) : State := { s with fab := { s.fab with conns := s.fab.conns.put k x } }

/-- The entry is free again. -/
def State.delConn (s : State) (k : Nat) : State := { s with fab := { s.fab with conns := s.fab.conns.del k } }

/-- Command `id`'s CONNECT: entry `k` is listed under the next epoch, and OPEN goes out. -/
def State.connects (s : State) (id k ref cls path : Nat) : State :=
  (({ s.runCmd id 1 with fab := { s.fab with
      conns := s.fab.conns.put k (freshConn ref cls path s.fab.nextEpoch s.mer.now (some id))
      nextEpoch := (s.fab.nextEpoch + 1) % 65536 } } : State).sendTo none ref 3 path 0x10
    { Msg.blank with cls := 3, epoch := s.fab.nextEpoch, arg := k + 2 ^ 16 * cls + 2 ^ 18 * path }).2

/-- The mirror entry that an OPEN makes. -/
def mirrorOf (m : Msg) (now : Nat) : Conn :=
  { freshConn m.src (m.arg / 2 ^ 16 % 4) (m.arg / 2 ^ 18 % 4) m.epoch now none with
    st := .opened, partner := m.arg % 4096, mirror := true }

/-- An OPEN's answer. -/
def State.answerOpen (s : State) (m : Msg) (own st : Nat) : State :=
  s.accept m.src (m.arg / 2 ^ 18 % 4) (m.arg % 4096) m.epoch own st

section
variable {s : State}

theorem cmdConnect_opens {id k : Nat} {c : Cmd} (hready : s.readyCmd id 0x13 = some c)
    (hbroken : s.fab.conns.list.find? (fun e => e.2.st == .broken && e.2.remote == u16 c.entry 0x10 && e.2.cls == u8 c.entry 0x12 &&
      e.2.path == u8 c.entry 0x13) = none) (hfree : s.fab.freeConn = some k) (hcls : u8 c.entry 0x12 ≤ 2)
    (hpath : u8 c.entry 0x13 ≤ 3) (href : u16 c.entry 0x10 < 16384) (hgrid : s.plan.hasGrid = true) :
    Goes (.cmdConnect id) s (s.connects id k (u16 c.entry 0x10) (u8 c.entry 0x12) (u8 c.entry 0x13)) := by
  simp only [Goes, exec_cmdConnect, execCmdConnect, hready, hbroken, hfree]
  exact if_neg (by simp [hgrid]; omega)

section
variable {p : Fin 64} {m : Msg} (hlinked : (s.port p).linked = true) (hhere : s.host.parked = false)
include hlinked hhere

section
variable {k : Nat} {x : Conn}
  (hold : s.fab.conns.list.find? (fun e => e.2.mirror && e.2.remote == m.src && e.2.partner == m.arg % 4096) = some (k, x))
include hold

theorem rxOpen_again (hepoch : x.epoch = m.epoch) : Goes (.rxOpen p m) s (s.answerOpen m k 0) := by
  simp [Goes, exec_rxOpen, execRxOpen, hlinked, hhere, hold, hepoch, State.answerOpen]

/-- R283, R286: an OPEN of a new epoch renews its mirror; what was outstanding on it is unreachable. -/
theorem rxOpen_renews (hepoch : x.epoch ≠ m.epoch) : Goes (.rxOpen p m) s
    ((((s.setConn k fun y => { y with st := .broken }).failConn k x).putConn k (mirrorOf m s.mer.now)).answerOpen m k 0) := by
  simp only [Goes, exec_rxOpen, execRxOpen, hlinked, hhere, hold, if_neg hepoch]
  rfl
end

section
variable (hnew : s.fab.conns.list.find? (fun e => e.2.mirror && e.2.remote == m.src && e.2.partner == m.arg % 4096) = none)
include hnew

theorem rxOpen_refused (hfull : s.fab.freeConn = none) :
    Goes (.rxOpen p m) s ((s.mapIo fun io => io.inc .FB_CONN_REFUSED).answerOpen m 0 1) := by
  simp [Goes, exec_rxOpen, execRxOpen, hlinked, hhere, hnew, hfull, State.answerOpen]

theorem rxOpen_mirrors {k : Nat} (hfree : s.fab.freeConn = some k) :
    Goes (.rxOpen p m) s ((s.putConn k (mirrorOf m s.mer.now)).answerOpen m k 0) := by
  simp only [Goes, exec_rxOpen, execRxOpen, hlinked, hhere, hnew, hfree]
  rfl
end
end

/-! ### An entry of the table under messages and time (R283 to R287) -/

section
variable {p : Fin 64} {m : Msg} {x : Conn} (hlinked : (s.port p).linked = true) (hconn : s.fab.conns.at m.conn = some x)
  (hepoch : x.epoch = m.epoch) (hremote : x.remote = m.src)
include hlinked hconn hepoch hremote

theorem rxAccept_opens (hst : x.st = .opening) (hok : m.arg % 256 = 0) : Goes (.rxAccept p m) s
    ((s.setConn m.conn fun y => { y with st := .opened, partner := m.arg / 2 ^ 16 % 4096, cmd := none }).connCmd x.cmd stDone
      m.conn) := by
  simp [Goes, exec_rxAccept, execRxAccept, hlinked, hconn, hepoch, hremote, hst, hok]

theorem rxAccept_refused (hst : x.st = .opening) (hbad : m.arg % 256 ≠ 0) : Goes (.rxAccept p m) s
    (((s.delConn m.conn).mapIo fun io => io.inc .FB_CONN_REFUSED).connCmd x.cmd stUnreach 0) := by
  simp [Goes, exec_rxAccept, execRxAccept, hlinked, hconn, hepoch, hremote, hst, hbad, State.delConn, State.mapIo]

section
variable (hst : x.st = .opened)
include hst

theorem rxAck_unknown (hnone : x.outs.findIdx? (fun o => o.msg.mseq == m.mseq) = none) : Goes (.rxAck p m) s s := by
  simp [Goes, exec_rxAck, execRxAck, ignored, hlinked, hconn, hepoch, hremote, hst, hnone]

theorem rxAck_covers {o : Outgoing} (houts : x.outs = [o]) (hseq : o.msg.mseq = m.mseq) (hlast : bit m.arg 8 = false) :
    Goes (.rxAck p m) s (((s.setConn m.conn fun y => { y with outs := y.outs.drop 1 }).outDone o
      (endStatus (m.arg % 256))).settleClose m.conn) := by
  simp [Goes, exec_rxAck, execRxAck, hlinked, hconn, hepoch, hremote, hst, houts, hseq, hlast]

theorem rxClose_frees : Goes (.rxClose p m) s
    ((((s.setConn m.conn fun y => { y with st := .broken }).failConn m.conn x).delConn m.conn).connCmd none stDone 0) := by
  simp [Goes, exec_rxClose, execRxClose, hlinked, hconn, hepoch, hremote, hst, State.delConn]
end
end

section
variable {k : Fin 4096} {x : Conn} (hconn : s.fab.conns.at k = some x)
include hconn

theorem connectTimeout_fails (hst : x.st = .opening) (hdue : x.since + s.plan.connTimeout ≤ s.mer.now) :
    Goes (.connectTimeout k) s ((s.delConn k).connCmd x.cmd stUnreach 0) := by
  simp [Goes, exec_connectTimeout, execConnectTimeout, hconn, hst, hdue, State.delConn]

section
variable {o : Outgoing} {rest : List Outgoing} (houts : x.outs = o :: rest) (hst : x.st = .opened)
include houts hst

theorem retransmit_resends (hdue : o.lastAt + s.plan.rto ≤ s.mer.now) {u : State} (hu : u = s.setConn k fun y => { y with
      outs := y.outs.map (fun o => { o with lastAt := s.mer.now }), retx := min 0xFFFFFFFF (y.retx + y.outs.length) }) :
    Goes (.retransmit k) s (x.outs.foldl (fun (v : State) o =>
      (v.sendTo none x.remote o.msg.cls x.path o.kind (v.outAgain o)).2) u) := by
  subst hu
  simp only [Goes, exec_retransmit, execRetransmit, hconn, houts]
  exact if_pos ⟨.inl hst, hdue⟩

theorem connBreak_breaks (hdue : o.firstAt + s.plan.connTimeout ≤ s.mer.now) : Goes (.connBreak k) s
    (((((s.setConn k fun y => { y with st := if y.st = .closing then .closing else .broken }).mapIo fun io =>
      io.event .FB_TRAFFIC_EVENT 0 0)).failConn k x).settleClose k) := by
  simp only [Goes, exec_connBreak, execConnBreak, hconn, houts]
  exact if_pos ⟨.inl hst, hdue⟩
end
end

/-! ### Commands of a connection, and datagrams (R280, R281, R285, R288) -/

section
variable {id : Nat} {c : Cmd}

theorem cmdClose_closes {x : Conn} (hready : s.readyCmd id 0x14 = some c) (hconn : s.fab.conns.at (u16 c.entry 0x10) = some x)
    (hst : x.st = .opened ∨ x.st = .broken) : Goes (.cmdClose id) s (((s.runCmd id 1).setConn (u16 c.entry 0x10) fun y =>
      { y with st := .closing, cmd := some id }).settleClose (u16 c.entry 0x10)) := by
  rcases hst with hst | hst
  · simp [Goes, exec_cmdClose, execCmdClose, hready, hconn, hst]
  · simp [Goes, exec_cmdClose, execCmdClose, hready, hconn, hst]

theorem cmdClose_invalid {x : Conn} (hready : s.readyCmd id 0x14 = some c) (hconn : s.fab.conns.at (u16 c.entry 0x10) = some x)
    (hst : x.st = .opening ∨ x.st = .closing) : Goes (.cmdClose id) s (s.finish id stInvalid 0) := by
  simp [Goes, exec_cmdClose, execCmdClose, hready, hconn, hst]

section
variable {x : Conn} (hready : s.readyCmd id 0x18 = some c) (hconn : s.fab.conns.at (u16 c.entry 0x10) = some x)
include hready hconn

theorem cmdSend_unreachable (hst : x.st = .broken) : Goes (.cmdSend id) s (s.finish id stUnreach 0) := by
  simp [Goes, exec_cmdSend, execCmdSend, hready, hconn, hst]

theorem cmdSend_sends {b : List Byte} {cls : Nat} {u : State} (hst : x.st = .opened) (hload : s.sendPayload c = .inr (some b))
    (hcls : s.sendClass x.cls (c.cls = 0) = (cls, u)) : Goes (.cmdSend id) s
      ((u.runCmd id 1).connSendIn (u16 c.entry 0x10) cls 0x14 { Msg.blank with
        window := u8 c.entry 0x12, arg := u64 c.entry 0x20, payload := b } (some (u64 c.entry 0x18)) (some id) (some c.share)) := by
  simp [Goes, exec_cmdSend, execCmdSend, hready, hconn, hst, hload, hcls]
end

section
variable {p : Fin 64} {m : Msg} {k : Nat} (hlinked : (s.port p).linked = true)
include hlinked

theorem rxWrite_refused (htakes : s.connTakes m = some (k, true))
    (hok : s.windowOk m.window m.src m.arg m.payload.length = false) :
    Goes (.rxWrite p m) s (s.windowRefused.accepted k stInvalid) := by
  simp [Goes, exec_rxWrite, execRxWrite, hlinked, htakes, hok]

theorem rxWrite_lands (htakes : s.connTakes m = some (k, true))
    (hok : s.windowOk m.window m.src m.arg m.payload.length = true) (hfree : s.windowHeld m.window m.arg m.payload.length = false) :
    Goes (.rxWrite p m) s ((s.windowWrite m.window m.arg m.payload).accepted k
      (if s.windowGone m.window m.arg m.payload.length then stCheck else stDone)) := by
  simp [Goes, exec_rxWrite, execRxWrite, hlinked, htakes, hok, hfree]

theorem rxWrite_discards (htakes : s.connTakes m = some (k, false)) : Goes (.rxWrite p m) s (s.ackAgain k) := by
  simp [Goes, exec_rxWrite, execRxWrite, hlinked, htakes]

theorem rxDgram_refused (hok : s.windowOk m.window m.src m.arg m.payload.length = false) :
    Goes (.rxDgram p m) s s.windowRefused := by
  simp [Goes, exec_rxDgram, execRxDgram, hlinked, hok]

theorem rxDgram_lands (hok : s.windowOk m.window m.src m.arg m.payload.length = true)
    (hfree : s.windowHeld m.window m.arg m.payload.length = false) :
    Goes (.rxDgram p m) s (s.windowWrite m.window m.arg m.payload) := by
  simp [Goes, exec_rxDgram, execRxDgram, hlinked, hok, hfree]
end

section
variable {b : List Byte} (hready : s.readyCmd id 0x19 = some c) (hcls : c.cls ≠ 0) (hpath : u8 c.entry 0x13 ≤ 3)
  (href : u16 c.entry 0x10 < 16384) (hgrid : s.plan.hasGrid = true) (hload : s.sendPayload c = .inr (some b))
include hready hcls hpath href hgrid hload

theorem cmdDatagram_unreachable (hdist : s.distTo (u16 c.entry 0x10) = 255) :
    Goes (.cmdDatagram id) s (s.finish id stUnreach 0) := by
  simp [Goes, exec_cmdDatagram, execCmdDatagram, hready, hcls, hgrid, hload, hdist, Nat.not_lt.mpr hpath, Nat.not_le.mpr href]

theorem cmdDatagram_sends (hdist : s.distTo (u16 c.entry 0x10) ≠ 255) : Goes (.cmdDatagram id) s
    ((s.runCmd id 1).sendTo (some c.share) (u16 c.entry 0x10) c.cls (u8 c.entry 0x13) 0x19 { Msg.blank with
      cls := c.cls, window := u8 c.entry 0x12, arg := u64 c.entry 0x20, payload := b } (some id)).2 := by
  simp [Goes, exec_cmdDatagram, execCmdDatagram, hready, hcls, hgrid, hload, hdist, Nat.not_lt.mpr hpath, Nat.not_le.mpr href]
end
end

/-! ### Multicast trees (R289 to R293) -/

section
variable {id : Nat} {c : Cmd} {t : Tree}

/-- A change of an entry is what it makes of the record there. -/
theorem State.setTree_congr {k : Nat} (htree : s.fab.trees.at k = some t) {f g : Tree → Tree} (h : f t = g t) :
    s.setTree k f = s.setTree k g := by
  simp only [State.setTree, Tab.upd, htree, h]

section
variable (hready : s.readyCmd id 0x15 = some c) (hnum : u16 c.entry 0x10 < 4096) (hgrid : s.plan.hasGrid = true)
  (hcount : cCount c.entry = 0)
include hready hnum hgrid hcount

theorem cmdTree_absent (htree : s.fab.trees.at (u16 c.entry 0x10) = none) : Goes (.cmdTree id) s (s.finish id stInvalid 0) := by
  simp [Goes, exec_cmdTree, execCmdTree, hready, Nat.not_le.mpr hnum, hgrid, hcount, htree]

theorem cmdTree_removes (htree : s.fab.trees.at (u16 c.entry 0x10) = some t) (hroot : t.root = true) (hleaves : t.leaves = []) :
    Goes (.cmdTree id) s
      (({ s with fab := { s.fab with trees := s.fab.trees.del (u16 c.entry 0x10) } } : State).finish id stDone 0) := by
  simp [Goes, exec_cmdTree, execCmdTree, hready, Nat.not_le.mpr hnum, hgrid, hcount, htree, hroot, hleaves]
end

theorem treeSetupTimeout_gives_up {tr : Fin 4096} {k : Nat} (htree : s.fab.trees.at tr = some t) (hcmd : t.cmd = some k)
    (hdue : t.since + s.plan.connTimeout ≤ s.mer.now) (hleft : t.todo ≠ []) : Goes (.treeSetupTimeout tr) s
      ((s.setTree tr fun y => { y with cmd := none }).finish k stUnreach t.reached) := by
  simp [Goes, exec_treeSetupTimeout, execTreeSetupTimeout, htree, hcmd, hdue, hleft]

section
variable (hready : s.readyCmd id 0x1A = some c)
include hready

theorem cmdMcast_absent (htree : s.fab.trees.at (u16 c.entry 0x10) = none) : Goes (.cmdMcast id) s (s.finish id stInvalid 0) := by
  simp [Goes, exec_cmdMcast, execCmdMcast, hready, htree]

/-- R290: a root that is no member keeps the message for replays and sends its flits along the tree. -/
theorem cmdMcast_sends {b : List Byte} {cls : Nat} {u : State} (htree : s.fab.trees.at (u16 c.entry 0x10) = some t)
    (hroot : t.root = true) (hmember : t.member = false) (hload : s.sendPayload c = .inr (some b))
    (hfree : s.dpaHeld t.base t.size = false) (hcls : s.sendClass t.cls (c.cls = 0) = (cls, u)) : ∃ fs, Goes (.cmdMcast id) s
      ((((u.keepReplay (u16 c.entry 0x10) (u8 c.entry 0x12) (u64 c.entry 0x20) b).mapIo fun io =>
        io.addWide .SC_GRP_FLITS_LO c.share fs.length).runCmd id 1).treeSend (u16 c.entry 0x10) (ownTx fs c.share (some id))) := by
  simp only [Goes, exec_cmdMcast, execCmdMcast, hready, htree, hroot, hmember, hload, hfree, hcls]
  exact ⟨_, rfl⟩
end

section
variable {p : Fin 64} {m : Msg} (hlinked : (s.port p).linked = true) (htree : s.fab.trees.at (m.tag % 4096) = some t)
include hlinked htree

section
variable (hmember : t.member = true) (hfree : s.windowHeld t.window m.arg m.payload.length = false) (hlive : m.conn = 0xFFFF)
include hmember hfree hlive

theorem rxMcast_takes (hseq : m.mseq = t.next) : Goes (.rxMcast p m) s (s.takeTree (m.tag % 4096) t m.arg m.payload) := by
  simp [Goes, exec_rxMcast, execRxMcast, hlinked, htree, hmember, hfree, hlive, hseq]

/-- R292: a message ahead of the next one has the member ask for what it misses. -/
theorem rxMcast_pulls (hseq : m.mseq ≠ t.next) (hahead : (m.mseq + 2 ^ 32 - t.next) % 2 ^ 32 < 2 ^ 31) (hmissing : t.missing = none) :
    Goes (.rxMcast p m) s
      ((s.setTree (m.tag % 4096) fun y => { y with missing := some (t.next, s.plan.ref) }).pull (m.tag % 4096)) := by
  have hnext := State.setTree_congr htree (f := fun y => { y with missing := some (t.next, s.plan.ref) })
    (g := fun y => { y with missing := some (y.next, s.plan.ref) }) rfl
  have hasks : (m.mseq + 2 ^ 32 - t.next) % 2 ^ 32 < 2 ^ 31 ∧ t.missing.isNone = true := ⟨hahead, by simp [hmissing]⟩
  simp only [hnext, Goes, exec_rxMcast, execRxMcast, hlinked, htree, hmember, hlive, if_neg hseq]
  exact (if_neg (by simp)).trans ((if_neg (by simp [hfree])).trans ((if_pos trivial).trans (if_pos hasks)))
end

/-- R291: a device that is no member and leads nowhere only notes that the stream stopped. -/
theorem rxPrune_notes (hmember : t.member = false) (hkids : t.kids = 0) :
    Goes (.rxPrune p m) s (s.setTree (m.tag % 4096) fun y => { y with mid := false }) := by
  have hnone : ∀ q, bit 0 q = false := Nat.zero_testBit
  simp [Goes, exec_rxPrune, execRxPrune, hlinked, htree, hmember, hkids, hnone]

theorem rxGraft_restores {l : Leaf} (hleaf : t.leaves.find? (fun l => l.ref == m.src) = some l) : Goes (.rxGraft p m) s
    (pumpTree (s.setTree (m.tag % 4096) fun y => { y with
      grafts := if y.pruned.any (fun x => x.1 == l.port) then (y.grafts ++ [l.port]).eraseDups else y.grafts })
      (m.tag % 4096) (t.queue.length + 1)) := by
  simp [Goes, exec_rxGraft, execRxGraft, hlinked, htree, hleaf]
end

section
variable {p : Fin 64} {m : Msg} {k : Nat} (hlinked : (s.port p).linked = true) (htakes : s.connTakes m = some (k, true))
include hlinked htakes

theorem rxPull_absent (htree : s.fab.trees.at (m.tag % 4096) = none) : Goes (.rxPull p m) s (s.accepted k stInvalid) := by
  simp [Goes, exec_rxPull, execRxPull, hlinked, htakes, htree]

section
variable (htree : s.fab.trees.at (m.tag % 4096) = some t) (hroot : t.root = true)
include htree hroot

theorem rxPull_gone (hlog : t.log = []) (hseq : m.arg % 2 ^ 32 ≠ t.next) :
    Goes (.rxPull p m) s ((s.mapIo fun io => io.inc .FB_PULLS).accepted k stNoState) := by
  have hother : (m.arg % 2 ^ 32 != t.next) = true := bne_iff_ne.mpr hseq
  simp only [Goes, exec_rxPull, execRxPull, hlinked, htakes, htree, hroot, hlog, List.dropWhile_nil, List.isEmpty_nil, hother]
  rfl

theorem rxPull_nothing (hlog : t.log = []) (hseq : m.arg % 2 ^ 32 = t.next) : Goes (.rxPull p m) s
    (((s.mapIo fun io => io.inc .FB_PULLS).accepted k stDone).connSend k 0x1A { Msg.blank with
      tag := m.tag % 4096, window := 0xFFFF, arg := 2 ^ 32 * t.next } none none none) := by
  have hsame : (m.arg % 2 ^ 32 != t.next) = false := bne_eq_false_iff_eq.mpr hseq
  simp only [Goes, exec_rxPull, execRxPull, hlinked, htakes, htree, hroot, hlog, List.dropWhile_nil, List.isEmpty_nil, hsame]
  rfl

theorem rxPull_replays {r : Replay} (hlog : t.log = [r]) (hseq : r.mseq = m.arg % 2 ^ 32) {u : State}
    (hu : u = (s.mapIo fun io => io.inc .FB_PULLS).accepted k stDone) : Goes (.rxPull p m) s
      (u.connSend k 0x1A { Msg.blank with
        tag := m.tag % 4096, window := r.window + 2 ^ 15, arg := r.arg + 2 ^ 32 * r.mseq
        payload := u.ram.read (t.base + r.offset) r.len } (some (t.base + r.offset)) none none) := by
  subst hu
  have hfrom : t.log.dropWhile (fun r => r.mseq != m.arg % 2 ^ 32) = [r] := by simp [hlog, hseq]
  simp only [Goes, exec_rxPull, execRxPull, hlinked, htakes, htree, hroot, hfrom]
  rfl
end
end

section
variable {tr : Fin 4096} {p : Fin 64} (htree : s.fab.trees.at tr = some t)
include htree

theorem branchPrune_prunes {f : TxItem} {rest : List TxItem} {since : Nat} (hqueue : t.queue = f :: rest)
    (hwaits : t.waitSince = some since) (hopen : t.open.contains p.val = true) (hfull : (s.port p).takes f = false)
    (hothers : t.open.all (fun q => q == p.val || (s.port q).takes f) = true) (hdue : since + s.plan.pruneMt t.cls ≤ s.mer.now)
    {u : State} (hu : u = s.pruneTree tr p) : Goes (.branchPrune tr p) s
      (u.egress p (ownTx (flitsOf 3 0 (16384 + tr.val) u.plan.ref 0x1B u.plan.maxHops (u.pruneMsg tr t.unsent)))) := by
  subst hu
  simp only [Goes, exec_branchPrune, execBranchPrune, htree, hqueue, hwaits]
  exact if_pos ⟨hopen, hfull, hothers, hdue⟩

/-- R293: a lost branch without members leaves the entry. -/
theorem branchRebuild_drops {q first : Nat} (hpruned : t.pruned.find? (fun x => x.1 == p.val) = some (q, first))
    (hdown : (s.port p).linked = false) (hleaves : t.leaves.filter (fun l => l.port == p.val) = []) : Goes (.branchRebuild tr p) s
      (s.setTree tr fun y => { y with
        kids := y.kids &&& (2 ^ 64 - 1 - 2 ^ p.val), pruned := y.pruned.filter (fun x => x.1 != p.val)
        leaves := y.leaves.filter (fun l => l.port != p.val) }) := by
  simp only [Goes, exec_branchRebuild, execBranchRebuild, htree, hpruned, hdown, hleaves]
  rfl
end
end
end

end Sys2Proof.Machine

namespace Sys2Proof.Claims

/-- Settles O40: each command, message and instant of an entry of the table in the states of the entry that let it act. -/
theorem connectionCommandsRun : Obligations.ConnectionCommandsRun := by
  intro s p m id c
  refine ⟨fun k ep hready hbroken hfree hcls hpath href hgrid hep => ?_, fun k x hlinked hhere hold => ⟨?_, ?_⟩,
    fun hlinked hhere hnew => ⟨?_, fun k hfree => ⟨_, rxOpen_mirrors hlinked hhere hnew hfree, rfl⟩⟩,
    fun x hlinked hconn hepoch hremote => ⟨rxAccept_opens hlinked hconn hepoch hremote, rxAccept_refused hlinked hconn hepoch hremote,
      rxAck_unknown hlinked hconn hepoch hremote, fun o hst => rxAck_covers hlinked hconn hepoch hremote hst,
      rxClose_frees hlinked hconn hepoch hremote⟩,
    fun k x hconn => ⟨connectTimeout_fails hconn, fun o rest houts hst hdue u hu => retransmit_resends hconn houts hst hdue hu,
      fun o rest houts hst hdue => ⟨_, rfl, connBreak_breaks hconn houts hst hdue⟩⟩,
    fun x hready hconn => ⟨cmdClose_closes hready hconn, cmdClose_invalid hready hconn⟩,
    fun x hready hconn => ⟨cmdSend_unreachable hready hconn, fun b hst hload cls u => cmdSend_sends hready hconn hst hload⟩,
    fun k hlinked htakes => ⟨rxWrite_refused hlinked htakes, rxWrite_lands hlinked htakes⟩, fun k => rxWrite_discards,
    fun b hready hcls hpath href hgrid hload => ⟨cmdDatagram_unreachable hready hcls hpath href hgrid hload,
      cmdDatagram_sends hready hcls hpath href hgrid hload⟩,
    fun hlinked => ⟨rxDgram_refused hlinked, rxDgram_lands hlinked⟩⟩
  · subst hep
    exact cmdConnect_opens hready hbroken hfree hcls hpath href hgrid
  · exact rxOpen_again hlinked hhere hold
  · rintro hepoch u rfl
    exact rxOpen_renews hlinked hhere hold hepoch
  · exact rxOpen_refused hlinked hhere hnew

/-- Settles O41: each command, message and instant of a tree's entry in the states of the entry that let it act. -/
theorem treeCommandsRun : Obligations.TreeCommandsRun := by
  intro s p m id c t
  exact ⟨fun hready hnum hgrid hcount => ⟨cmdTree_absent hready hnum hgrid hcount, cmdTree_removes hready hnum hgrid hcount⟩,
    fun dest hlinked => if_neg (by simp [hlinked]), fun tr k => treeSetupTimeout_gives_up,
    fun hready => ⟨cmdMcast_absent hready, fun b cls u htree hroot hmember hload hfree hcls =>
      cmdMcast_sends hready htree hroot hmember hload hfree hcls⟩,
    fun hlinked htree => ⟨rxMcast_takes hlinked htree, rxMcast_pulls hlinked htree, rxPrune_notes hlinked htree,
      fun l hleaf => ⟨_, rxGraft_restores hlinked htree hleaf, rfl, rfl⟩⟩,
    fun k hlinked htakes => ⟨rxPull_absent hlinked htakes, rxPull_gone hlinked htakes, rxPull_nothing hlinked htakes,
      fun r htree hroot hlog hseq u hu => rxPull_replays hlinked htakes htree hroot hlog hseq hu⟩,
    fun tr f rest since u htree hqueue hwaits hopen hfull hothers hdue hu =>
      branchPrune_prunes htree hqueue hwaits hopen hfull hothers hdue hu,
    fun tr q first htree => branchRebuild_drops htree⟩

end Sys2Proof.Claims
end

section
/-! PROOFS. The command front end (chapter 15): queues and their doorbells (O27), the commands of a ring, a buffer or an itinerary (O28),
and launches with the batches they step (O29). -/

open Sys2Proof Sys2Proof.Machine Sys2Proof.Claims

namespace Sys2Proof.Machine

/-! ### Rows of the dispatch: queues -/

theorem exec_dbSqWrite (q : Fin 4096) (v : BitVec 32) (s : State) : exec (.dbSqWrite q v) s = execDbSqWrite q v s := rfl
theorem exec_dbCqWrite (q : Fin 4096) (v : BitVec 32) (s : State) : exec (.dbCqWrite q v) s = execDbCqWrite q v s := rfl
theorem exec_qEnable (q : Fin 4096) (s : State) : exec (.qEnable q) s = execQEnable q s := rfl
theorem exec_qDisable (q : Fin 4096) (s : State) : exec (.qDisable q) s = execQDisable q s := rfl
theorem exec_qReset (q : Fin 4096) (s : State) : exec (.qReset q) s = execQReset q s := rfl
theorem exec_cqAck (q : Fin 4096) (s : State) : exec (.cqAck q) s = execCqAck q s := rfl
theorem exec_qResume (q : Fin 4096) (s : State) : exec (.qResume q) s = execQResume q s := rfl
theorem exec_queueResetDone (q : Fin 4096) (s : State) : exec (.queueResetDone q) s = execQueueResetDone q s := rfl
theorem exec_entryFetchReturn (k : Nat) (bytes : List Byte) (ok : Bool) (s : State) :
    exec (.entryFetchReturn k bytes ok) s = execEntryFetchReturn k bytes ok s := rfl

/-! ### Doorbells and the states of a queue (R355, R356, R369, R370, R374, R375) -/

section
variable {s : State} {q : Fin 4096} {d : List Byte} {v : BitVec 32} (hqueue : s.plan.queue q = some d)
include hqueue

theorem dbSqWrite_refuses (hanswers : s.barGone = false) (habove : ringSize d ≤ v.toNat % 65536) :
    Goes (.dbSqWrite q v) s (s.cause q 6) := by
  simp [Goes, exec_dbSqWrite, execDbSqWrite, hanswers, hqueue, habove]

theorem dbSqWrite_takes (hanswers : s.barGone = false) (hbelow : v.toNat % 65536 < ringSize d) :
    Goes (.dbSqWrite q v) s ((s.setQueue q fun x => { x with prod := v.toNat % 65536, pending := true }).examine q) := by
  simp [Goes, exec_dbSqWrite, execDbSqWrite, hanswers, hqueue, Nat.not_le.mpr hbelow]

section
variable (hopen : s.barShut = false)
include hopen

theorem dbCqWrite_refuses {used : Nat} (hused : used = (v.toNat % 65536 + ringSize d - (s.cf.queue q).cqHead) % ringSize d)
    (hpast : ringSize d ≤ v.toNat % 65536 ∨ (s.cf.queue q).unread < used) : Goes (.dbCqWrite q v) s (s.cause q 6) := by
  subst hused
  exact goes_open hopen (exec_dbCqWrite q v s) (by simp only [hqueue, if_pos hpast])

theorem dbCqWrite_takes {used : Nat} (hused : used = (v.toNat % 65536 + ringSize d - (s.cf.queue q).cqHead) % ringSize d)
    (hbelow : v.toNat % 65536 < ringSize d) (hunread : used ≤ (s.cf.queue q).unread) : Goes (.dbCqWrite q v) s
      (((s.setQueue q fun x => { x with cqHead := v.toNat % 65536, unread := x.unread - used }).pumpCq q cqFuel).examine q) := by
  subst hused
  exact goes_open hopen (exec_dbCqWrite q v s)
    (by simp only [hqueue, if_neg (not_or.mpr ⟨Nat.not_le.mpr hbelow, Nat.not_lt.mpr hunread⟩)])

theorem qEnable_enables (hstate : (s.cf.queue q).st = .disabled) (hsub : baseOk (s.io.sqSlot q 0) (128 * ringSize d) = true)
    (hcpl : baseOk (s.io.cqSlot q 0) (32 * ringSize d) = true) : Goes (.qEnable q) s
      ((s.setQueue q fun x => { x with st := .enabled, disabling := false }).examine q) :=
  goes_open hopen (exec_qEnable q s) (by simp [hqueue, hstate, hsub, hcpl])

theorem qEnable_refuses (hbad : (s.cf.queue q).st ≠ .disabled ∨ baseOk (s.io.sqSlot q 0) (128 * ringSize d) = false) :
    Goes (.qEnable q) s (s.cause q 7) := by
  have hcond : ¬((s.cf.queue q).st = .disabled ∧ baseOk (s.io.sqSlot q 0) (128 * ringSize d) = true ∧
      baseOk (s.io.cqSlot q 0) (32 * ringSize d) = true) := by
    rintro ⟨hstate, hsub, -⟩
    rcases hbad with hother | hunaligned
    · exact hother hstate
    · simp [hsub] at hunaligned
  exact goes_open hopen (exec_qEnable q s) (by simp only [hqueue, if_neg hcond])

theorem qDisable_disables (hstate : (s.cf.queue q).st = .enabled) : Goes (.qDisable q) s
    ((({ s with xl := s.xl.dropUnits (fun o => o == Owner.sq q) } : State).setQueue q fun x => { x with
      disabling := true, fetching := 0, fetchNext := x.sqHead, partialBytes := [], sqFault := false }).settleQueue q) :=
  goes_open hopen (exec_qDisable q s) (by simp [hqueue, hstate])

theorem qReset_empties : Goes (.qReset q) s (s.emptyQueue q .resetting) :=
  goes_open hopen (exec_qReset q s) (by simp [hqueue])

theorem cqAck_writesOn (hstall : (s.cf.queue q).cqStall = true) : Goes (.cqAck q) s
    (((s.setQueue q fun x => { x with cqStall := false }).pumpCq q cqFuel).examine q) :=
  goes_open hopen (exec_cqAck q s) (by simp [hqueue, hstall])

theorem qResume_resumes (hstate : (s.cf.queue q).st = .halted) : Goes (.qResume q) s
    (((s.freeCaptures q).setQueue q fun x => { x with st := .enabled, pending := true }).examine q) :=
  goes_open hopen (exec_qResume q s) (by simp [hqueue, hstate])
end

section
variable {k : Nat} {u : XUnit} {bytes : List Byte} (hunit : s.xl.units.at k = some u) (hst : u.st = .accessing)
  (howner : u.owner = .sq q)
include hunit hst howner

theorem entryFetchReturn_fails : Goes (.entryFetchReturn k bytes false) s ((s.dropUnit k).sqFail q (u.len / 128)) := by
  simp [Goes, exec_entryFetchReturn, execEntryFetchReturn, hunit, hst, howner, hqueue]

theorem entryFetchReturn_takes {t : State} (ht : t = ((chunks (s.unitBytes u bytes) 128 (u.len / 128)).foldl
      (fun (t : State) e => t.takeSlot q d e) (s.dropUnit k)).setQueue q fun x => { x with fetching := 0 }) :
    Goes (.entryFetchReturn k bytes true) s (((t.dispatchQueue q).settleQueue q).examine q) := by
  subst ht
  simp [Goes, exec_entryFetchReturn, execEntryFetchReturn, hunit, hst, howner, hqueue]
end
end

theorem queueResetDone_resets {s : State} {q : Fin 4096} (hstate : (s.cf.queue q).st = .resetting) : Goes (.queueResetDone q) s
    ({ s.setQueue q (fun _ => Queue.reset) with host := { s.host with driverBack := true } } : State).unpark := by
  simp [Goes, exec_queueResetDone, execQueueResetDone, hstate]

end Sys2Proof.Machine

namespace Sys2Proof.Claims

/-- Settles O27: a lemma per doorbell, control bit and event of a queue; the registers of the window need it open. -/
theorem queueCommandsRun : Obligations.QueueCommandsRun := fun _ _ _ _ hqueue =>
  ⟨fun hanswers => ⟨dbSqWrite_refuses hqueue hanswers, dbSqWrite_takes hqueue hanswers⟩,
    fun hopen => ⟨fun _ hused => ⟨dbCqWrite_refuses hqueue hopen hused, dbCqWrite_takes hqueue hopen hused⟩,
      qEnable_enables hqueue hopen, qEnable_refuses hqueue hopen, qDisable_disables hqueue hopen, qReset_empties hqueue hopen,
      cqAck_writesOn hqueue hopen, qResume_resumes hqueue hopen⟩,
    queueResetDone_resets, fun _ _ _ => entryFetchReturn_fails hqueue,
    fun _ _ _ _ hunit hst howner => entryFetchReturn_takes hqueue hunit hst howner⟩

end Sys2Proof.Claims

namespace Sys2Proof.Machine

/-! ### Rows of the dispatch: commands of the front end -/

theorem exec_cmdNop (id : Nat) (s : State) : exec (.cmdNop id) s = execCmdNop id s := rfl
theorem exec_cmdInvalid (id : Nat) (s : State) : exec (.cmdInvalid id) s = execCmdInvalid id s := rfl
theorem exec_cmdDmaIn (id : Nat) (s : State) : exec (.cmdDmaIn id) s = execCmdDmaIn id s := rfl
theorem exec_cmdDmaOut (id : Nat) (s : State) : exec (.cmdDmaOut id) s = execCmdDmaOut id s := rfl
theorem exec_cmdWriteInline (id : Nat) (s : State) : exec (.cmdWriteInline id) s = execCmdWriteInline id s := rfl
theorem exec_cmdItinLoad (id : Nat) (s : State) : exec (.cmdItinLoad id) s = execCmdItinLoad id s := rfl
theorem exec_cmdBuffer (id : Nat) (s : State) : exec (.cmdBuffer id) s = execCmdBuffer id s := rfl
theorem exec_cmdAbort (id : Nat) (s : State) : exec (.cmdAbort id) s = execCmdAbort id s := rfl
theorem exec_cmdInvalidate (id : Nat) (s : State) : exec (.cmdInvalidate id) s = execCmdInvalidate id s := rfl
theorem exec_cmdMigrate (id : Nat) (s : State) : exec (.cmdMigrate id) s = execCmdMigrate id s := rfl
theorem exec_cmdReturn (id : Nat) (s : State) : exec (.cmdReturn id) s = execCmdReturn id s := rfl
theorem exec_watchdogExpiry (launch : Bool) (id : Nat) (s : State) :
    exec (.watchdogExpiry launch id) s = execWatchdogExpiry launch id s := rfl

section
variable {s : State} {id : Nat} {c : Cmd}

/-! ### NOP and what fails the header checks (R358, R363) -/

theorem cmdNop_ends (hready : s.readyCmd id 0x01 = some c) : Goes (.cmdNop id) s (s.finish id stDone 0) := by
  simp [Goes, exec_cmdNop, execCmdNop, hready]

theorem cmdInvalid_ends (hcmd : s.cf.cmds.at id = some c) (hphase : c.phase = .ready)
    (hbad : cmdBad (c.queue.bind s.plan.queue) c.origin c.entry = true) : Goes (.cmdInvalid id) s (s.finish id stInvalid 0) := by
  simp [Goes, exec_cmdInvalid, execCmdInvalid, hcmd, hphase, hbad]

/-! ### Transfers with the host (R322 to R325) -/

theorem startDma_refuses (hbad : cCount c.entry = 0 ∨ s.plan.dpaOk (u64 c.entry 0x18) (cCount c.entry) = false ∨ c.queue = none) :
    startDma s id c = .next (s.finish id stInvalid 0) := if_pos (by simpa using hbad)

theorem startDma_starts (hcount : cCount c.entry ≠ 0) (hplace : s.plan.dpaOk (u64 c.entry 0x18) (cCount c.entry) = true)
    (hqueue : c.queue ≠ none) (hfree : s.dpaHeld (u64 c.entry 0x18) (cCount c.entry) = false) :
    startDma s id c = .next (((s.runCmd id 0).touch id 0 (2 ^ dpaStack (u64 c.entry 0x18))).nextSegment id) := by
  simp [startDma, hcount, hplace, hqueue, hfree]

/-- Both directions are one rule (R323). -/
theorem dma_starts (e : Instr × Nat) (he : e ∈ ([(.cmdDmaIn id, 2), (.cmdDmaOut id, 3)] : List (Instr × Nat)))
    (hready : s.readyCmd id e.2 = some c) : exec e.1 s = startDma s id c := by
  simp only [List.mem_cons, List.not_mem_nil, or_false] at he
  rcases he with rfl | rfl
  · simp [exec_cmdDmaIn, execCmdDmaIn, hready]
  · simp [exec_cmdDmaOut, execCmdDmaOut, hready]

theorem cmdWriteInline_lands (hready : s.readyCmd id 0x04 = some c) (hplace : s.plan.dpaOk (u64 c.entry 0x10) (cLen c.entry) = true)
    (hfree : s.dpaHeld (u64 c.entry 0x10) (cLen c.entry) = false) : Goes (.cmdWriteInline id) s
      (((s.touch id 0 (2 ^ dpaStack (u64 c.entry 0x10))).sheetWrite .host (u64 c.entry 0x10) (cInline c.entry)).finish id
        (if s.ram.goneIn (u64 c.entry 0x10) (cLen c.entry) then stCheck else stDone) 0) := by
  simp [Goes, exec_cmdWriteInline, execCmdWriteInline, hready, hplace, hfree]

/-! ### ITIN_LOAD (R366) -/

section
variable (hready : s.readyCmd id 0x06 = some c) (hitin : u16 c.entry 0x10 < 1024)
include hready hitin

theorem cmdItinLoad_waits (hruns : 0 < s.cf.runningOf (u16 c.entry 0x10)) : Goes (.cmdItinLoad id) s
    (s.setItins fun t => t.upd (u16 c.entry 0x10) fun i => { i with loading := some id }) := by
  simp [Goes, exec_cmdItinLoad, execCmdItinLoad, hready, Nat.not_le.mpr hitin, hruns]

section
variable (hidle : s.cf.runningOf (u16 c.entry 0x10) = 0)
include hidle

theorem cmdItinLoad_unloads (haddr : u64 c.entry 0x18 = 0) : Goes (.cmdItinLoad id) s (({ s with cf := { s.cf with
    itins := (s.cf.itins.upd (u16 c.entry 0x10) (fun i => { i with loading := none })).del (u16 c.entry 0x10) } } : State).finish
      id stDone 0xFFFFFFFF) := by
  have hheld : s.imageHeld (u64 c.entry 0x18) = false := by simp [State.imageHeld, haddr]
  simp only [Goes, exec_cmdItinLoad, execCmdItinLoad, hready, if_neg (Nat.not_le.mpr hitin), hidle, hheld, if_pos haddr]
  rfl

theorem cmdItinLoad_loads {b : List Byte} {size : Nat} (haddr : u64 c.entry 0x18 ≠ 0) (hheld : s.imageHeld (u64 c.entry 0x18) = false)
    (hhead : s.plan.dpaOk (u64 c.entry 0x18) 64 = true) (hheadOk : s.ram.consumerOk (u64 c.entry 0x18) 64 = true)
    (hb : b = s.ram.read (u64 c.entry 0x18) 64) (hsize : size = 64 + imParam b + 144 * imNodes b)
    (hplace : s.plan.dpaOk (u64 c.entry 0x18) size = true) (hok : s.ram.consumerOk (u64 c.entry 0x18) size = true)
    (hgood : imageBad b (chunks (s.ram.read (u64 c.entry 0x18 + 64 + imParam b) (144 * imNodes b)) 144 (imNodes b)) = none) :
    Goes (.cmdItinLoad id) s (({ s with cf := { s.cf with
      itins := (s.cf.itins.upd (u16 c.entry 0x10) (fun i => { i with loading := none })).put (u16 c.entry 0x10)
        ⟨u64 c.entry 0x18, imNodes b, none⟩ } } : State).finish id stDone 0xFFFFFFFF) := by
  subst hb hsize
  simp [Goes, exec_cmdItinLoad, execCmdItinLoad, hready, Nat.not_le.mpr hitin, hidle, hheld, haddr, hhead, hheadOk, hplace, hok,
    hgood]
  rfl
end
end

/-! ### BUFFER and ABORT (R364, R372) -/

theorem cmdBuffer_refuses (hready : s.readyCmd id 0x07 = some c) (hcount : cCount c.entry = 0 ∨ 65536 < cCount c.entry) :
    Goes (.cmdBuffer id) s (s.finish id stInvalid 0) := by
  simp only [Goes, exec_cmdBuffer, execCmdBuffer, hready, if_pos hcount]

theorem cmdBuffer_runs {t : State} (hready : s.readyCmd id 0x07 = some c) (hsome : cCount c.entry ≠ 0)
    (hmost : cCount c.entry ≤ 65536) (hpump : (s.runCmd id 0).pumpBuffer id = (t, none)) : Goes (.cmdBuffer id) s t := by
  simp only [Goes, exec_cmdBuffer, execCmdBuffer, hready, if_neg (not_or.mpr ⟨hsome, Nat.not_lt.mpr hmost⟩), hpump]

theorem cmdAbort_aborts {d : List Byte} {v : Nat} {t : Cmd} (hready : s.readyCmd id 0x08 = some c)
    (hqueue : s.plan.queue (u16 c.entry 0x10) = some d) (hslot : u16 c.entry 0x12 < ringSize d)
    (hfetched : (s.cf.queue (u16 c.entry 0x10)).unfetched (ringSize d) (u16 c.entry 0x12) = false)
    (hv : v = SMap.get (fun _ => 0) (s.cf.queue (u16 c.entry 0x10)).slots (u16 c.entry 0x12)) (hnamed : 2 ≤ v)
    (hcmd : s.cf.cmds.at (v - 2) = some t) (hop : cOp t.entry ≠ 8) :
    Goes (.cmdAbort id) s ((s.stopCmd (v - 2) stAborted).finish id stDone 0) := by
  subst hv
  simp [Goes, exec_cmdAbort, execCmdAbort, hready, hqueue, Nat.not_le.mpr hslot, hfetched, Nat.not_lt.mpr hnamed, hcmd, hop]

/-! ### INVALIDATE, MIGRATE and RETURN (R348, R350) -/

/-- An invalidation leaves no cached entry that overlaps its range. -/
theorem Xl.invalidate_clears {x : Xl} {v : Inval} {e : TlbEntry} (he : e ∈ (x.invalidate v).tlb) :
    e.overlaps v.as v.va v.pages = false := by
  simpa using (List.mem_filter.mp he).2

theorem cmdInvalidate_asks (hready : s.readyCmd id 0x1B = some c) (hone : u8 c.entry 0x11 = 0)
    (haligned : u64 c.entry 0x18 % 4096 = 0) : ∃ t, Goes (.cmdInvalidate id) s t ∧
      t.xl.invs = s.xl.invs ++ [⟨some (u8 c.entry 0x10), u64 c.entry 0x18, cCount c.entry, some id, false, false⟩] ∧
      ∀ e ∈ t.xl.tlb, e.overlaps (some (u8 c.entry 0x10)) (u64 c.entry 0x18) (cCount c.entry) = false := by
  simp only [Goes, exec_cmdInvalidate, execCmdInvalidate, hready, hone, haligned]
  exact ⟨_, rfl, rfl, fun e he => Xl.invalidate_clears he⟩

theorem cmdMigrate_starts (hready : s.readyCmd id 0x1C = some c) (hok : pageCopyOk s c.entry = true)
    (hfree : s.dpaHeld (u64 c.entry 0x18) (cCount c.entry) = false) : Goes (.cmdMigrate id) s
      (((s.runCmd id 0).touch id 0 (2 ^ dpaStack (u64 c.entry 0x18))).nextSegment id) := by
  simp [Goes, exec_cmdMigrate, execCmdMigrate, hready, hok, hfree]

theorem pageCopy_refuses (i : Instr) (op : Nat) (hi : (i, op) ∈ ([(.cmdMigrate id, 0x1C), (.cmdReturn id, 0x1D)] : List (Instr × Nat)))
    (hready : s.readyCmd id op = some c) (hbad : pageCopyOk s c.entry = false) : Goes i s (s.finish id stInvalid 0) := by
  simp only [List.mem_cons, List.not_mem_nil, or_false, Prod.mk.injEq] at hi
  rcases hi with ⟨rfl, rfl⟩ | ⟨rfl, rfl⟩
  · simp [Goes, exec_cmdMigrate, execCmdMigrate, hready, hbad]
  · simp [Goes, exec_cmdReturn, execCmdReturn, hready, hbad]

theorem cmdReturn_sends {offs : List Nat} {u : State} (hoffs : offs = (List.range (cCount c.entry / 256)).map fun i => 256 * i)
    (hready : s.readyCmd id 0x1D = some c) (hok : pageCopyOk s c.entry = true)
    (hfree : s.dpaHeld (u64 c.entry 0x18) (cCount c.entry) = false) (hlink : s.linkUp = true)
    (hblocks : ∀ o ∈ offs, (s.ram.blk (u64 c.entry 0x18 + o)).moverOk = true)
    (hu : u = offs.foldl (fun (v : State) o => v.hostPost (u64 c.entry 0x10 + o) (v.ram.read (u64 c.entry 0x18 + o) 256))
      (s.touch id 0 (2 ^ dpaStack (u64 c.entry 0x18)))) : Goes (.cmdReturn id) s (u.finish id stDone 0) := by
  have hgood : offs.filter (fun o => !(s.ram.blk (u64 c.entry 0x18 + o)).moverOk) = [] :=
    List.filter_eq_nil_iff.mpr fun o ho => by simp [hblocks o ho]
  subst hoffs hu
  simp only [Goes, exec_cmdReturn, execCmdReturn, hready, hok, hfree, Bool.true_eq_false, Bool.false_eq_true, if_false,
    show (s.touch id 0 (2 ^ dpaStack (u64 c.entry 0x18))).ram = s.ram from rfl, hgood, List.contains_nil, hlink, if_true]

/-! ### The watchdog (R362) -/

theorem watchdogExpiry_stopsCommand {v : Nat} (hcmd : s.cf.cmds.at id = some c) (hexpiry : c.expiry = some v)
    (hreached : s.mer.reached v = true) (hphase : c.phase ≠ .fetched) :
    Goes (.watchdogExpiry false id) s (s.stopCmd id stWatchdog) := by
  simp [Goes, exec_watchdogExpiry, execWatchdogExpiry, hcmd, hexpiry, hreached, hphase]

theorem watchdogExpiry_stopsLaunch {x : Launch} {v : Nat} (hlaunch : s.cf.launches.at id = some x) (hexpiry : x.expiry = some v)
    (hreached : s.mer.reached v = true) : Goes (.watchdogExpiry true id) s (s.stopLaunch id stWatchdog) := by
  simp [Goes, exec_watchdogExpiry, execWatchdogExpiry, hlaunch, hexpiry, hreached]
end

end Sys2Proof.Machine

namespace Sys2Proof.Claims

/-- Settles O28: a lemma per command and outcome, both DMA directions by one rule. -/
theorem ringCommandsRun : Obligations.RingCommandsRun := fun _ _ _ =>
  ⟨cmdNop_ends, cmdInvalid_ends,
    fun e he hready => ⟨fun hbad => (dma_starts e he hready).trans (startDma_refuses hbad),
      fun hcount hplace hqueue hfree => (dma_starts e he hready).trans (startDma_starts hcount hplace hqueue hfree)⟩,
    cmdWriteInline_lands, cmdItinLoad_unloads, cmdItinLoad_waits,
    fun _ _ hready hitin hidle haddr hheld hhead hheadOk => cmdItinLoad_loads hready hitin hidle haddr hheld hhead hheadOk,
    cmdBuffer_refuses, fun hready hsome hmost _ => cmdBuffer_runs hready hsome hmost,
    fun _ _ _ => cmdAbort_aborts, cmdInvalidate_asks, cmdMigrate_starts, pageCopy_refuses,
    fun _ hoffs hready hok hfree hlink hblocks _ => cmdReturn_sends hoffs hready hok hfree hlink hblocks,
    fun _ => watchdogExpiry_stopsCommand, fun _ _ => watchdogExpiry_stopsLaunch⟩

end Sys2Proof.Claims

namespace Sys2Proof.Machine

/-! ### Rows of the dispatch: launches and batches -/

theorem exec_cmdLaunch (id : Nat) (s : State) : exec (.cmdLaunch id) s = execCmdLaunch id s := rfl
theorem exec_launchStart (l : Nat) (s : State) : exec (.launchStart l) s = execLaunchStart l s := rfl
theorem exec_itinNodeDispatch (l : Nat) (n : Fin 4096) (s : State) : exec (.itinNodeDispatch l n) s = execItinNodeDispatch l n s := rfl
theorem exec_batchBoundary (b : Fin 64) (s : State) : exec (.batchBoundary b) s = execBatchBoundary b s := rfl
theorem exec_cmdJoin (id : Nat) (s : State) : exec (.cmdJoin id) s = execCmdJoin id s := rfl
theorem exec_cmdLeave (id : Nat) (s : State) : exec (.cmdLeave id) s = execCmdLeave id s := rfl

section
variable {s : State} {id : Nat} {c : Cmd}

/-! ### LAUNCH (R367, R368) -/

/-- The record of a launch of level 1 that command `id` has made and that no slot holds yet. -/
def State.launchOf (s : State) (id : Nat) (c : Cmd) : Launch :=
  ⟨u16 c.entry 0x10, .cmd id, 1, c.cls, c.share, (u16 c.entry 0x12, cInline c.entry), none, true, [], 0, 0, stDone, 0, s.mer.count, none,
    [], 0⟩

/-- The launch of command `id` is listed. -/
def State.addLaunch (s : State) (id : Nat) (c : Cmd) : State :=
  { s.runCmd id 1 with cf := { (s.runCmd id 1).cf with
    launches := (s.runCmd id 1).cf.launches.put s.cf.nextLaunch (s.launchOf id c), nextLaunch := s.cf.nextLaunch + 1 } }

theorem State.addLaunch_at : (s.addLaunch id c).cf.launches.at s.cf.nextLaunch = some (s.launchOf id c) :=
  (Tab.at_put _ _ _ _).trans (if_pos rfl)

theorem cmdLaunch_refuses (hready : s.readyCmd id 0x05 = some c) (hnone : s.cf.itins.at (u16 c.entry 0x10) = none) :
    Goes (.cmdLaunch id) s (s.finish id stInvalid 0) := by
  simp only [Goes, exec_cmdLaunch, execCmdLaunch, hready, hnone]

section
variable {i : Itin} (hready : s.readyCmd id 0x05 = some c) (hitin : s.cf.itins.at (u16 c.entry 0x10) = some i)
  (haligned : u16 c.entry 0x12 % 8 = 0) (hparam : u16 c.entry 0x12 + cLen c.entry ≤ imParam (s.image i))
  (harea : s.plan.launchArea ≠ 0) (hnumber : u16 c.entry 0x10 < 1024) (hlevel : s.launchLevel c = 1) (hdepth : s.plan.enqDepth ≠ 0)
include haligned hparam harea hnumber hdepth

/-- None of the refusals of R367 and R368 applies. -/
theorem cmdLaunch_accepted : ¬(u16 c.entry 0x12 % 8 ≠ 0 ∨ imParam (s.image i) < u16 c.entry 0x12 + cLen c.entry ∨
    s.plan.launchArea = 0 ∨ 1024 ≤ u16 c.entry 0x10 ∨ s.plan.enqDepth < 1) := by omega

include hready hitin hlevel

theorem cmdLaunch_waits (hwaits : s.launchWaits (u16 c.entry 0x10) = true) : ∃ t, Goes (.cmdLaunch id) s t ∧
    t.cf.launches.at s.cf.nextLaunch = some (s.launchOf id c) ∧ t.cf.nextLaunch = s.cf.nextLaunch + 1 ∧ t.ram = s.ram := by
  have hgood := cmdLaunch_accepted (s := s) (i := i) haligned hparam harea hnumber hdepth
  simp only [Goes, exec_cmdLaunch, execCmdLaunch, hready, hitin, hlevel, if_neg hgood, hwaits, if_true]
  refine ⟨_, rfl, ?_⟩
  split
  · exact ⟨State.addLaunch_at, rfl, rfl⟩
  · exact ⟨State.addLaunch_at, rfl, rfl⟩

theorem cmdLaunch_starts {k : Nat} (hwaits : s.launchWaits (u16 c.entry 0x10) = false) (hslot : (s.addLaunch id c).cf.freeSlot = some k)
    (hfree : (s.addLaunch id c).launchHeld i k = false) :
    Goes (.cmdLaunch id) s ((s.addLaunch id c).startLaunch s.cf.nextLaunch k) := by
  have hgood := cmdLaunch_accepted (s := s) (i := i) haligned hparam harea hnumber hdepth
  simp only [State.addLaunch, State.launchOf] at hslot hfree ⊢
  simp only [Goes, exec_cmdLaunch, execCmdLaunch, hready, hitin, hlevel, if_neg hgood, hwaits, Bool.false_eq_true, if_false, if_true,
    hslot, State.launchIn, hfree]
end

theorem launchStart_starts {l k : Nat} {x : Launch} {i : Itin} (hlaunch : s.cf.launches.at l = some x) (hnone : x.slot = none)
    (hadmitted : x.admitted = true) (hitin : s.cf.itins.at x.itin = some i) (hloading : i.loading = none)
    (hsource : ∀ w, x.source ≠ .update w) (hbatch : s.batchHeld x.itin = false) (hlevel : x.level ≠ 1)
    (hslot : s.cf.freeSlot = some k) (hfree : s.launchHeld i k = false) : Goes (.launchStart l) s (s.startLaunch l k) := by
  simp [Goes, exec_launchStart, execLaunchStart, hlaunch, hnone, hadmitted, hitin, hloading, hbatch, hlevel, hslot, hfree]

/-! ### A node is dispatched (R367) -/

theorem itinNodeDispatch_dispatches {l k : Nat} {x : Launch} {i : Itin} {a : Nat} (n : Fin 4096)
    (hlaunch : s.cf.launches.at l = some x) (hslot : x.slot = some k) (hitin : s.cf.itins.at x.itin = some i)
    (hwait : x.waits[n.val]? = some 0) (hstatus : x.status = stDone) (ha : a = nodeAt i (s.image i) n)
    (himage : s.chanHeld (a / 2 ^ 30) = false) (harea : s.chanHeld (s.plan.launchArea / 2 ^ 30) = false)
    (hnode : s.ram.consumerOk a 144 = true)
    (hparam : s.ram.consumerOk (s.plan.launchArea + 4096 * k) (imParam (s.image i)) = true) : ∃ t, Goes (.itinNodeDispatch l n) s t ∧
      t.cf.nextCmd = s.cf.nextCmd + 1 ∧ (t.cf.cmds.at s.cf.nextCmd).isSome = true ∧
      t.cf.launches.at l = some { x with waits := x.waits.set n nodeGone, running := x.running + 1 } := by
  subst ha
  simp only [Goes, exec_itinNodeDispatch, execItinNodeDispatch, hlaunch, hslot, hitin,
    if_pos (And.intro hwait (And.intro hstatus (And.intro himage harea))), hnode, hparam, Bool.not_true, Bool.or_self, Bool.false_eq_true,
    if_false]
  exact ⟨_, rfl, rfl, by simp [Tab.at_put], by simp [Tab.at_put]⟩

/-! ### Batches (R167 to R169) -/

theorem batchBoundary_steps (b : Fin 64) {e : List Byte} {l : Nat} (hbatch : s.plan.batch b = some e)
    (hruns : (s.batch b).running = some l) (hover : s.cf.launches.at l = none) : Goes (.batchBoundary b) s (s.boundary b e) := by
  simp [Goes, exec_batchBoundary, execBatchBoundary, hbatch, hruns, hover]

/-- JOIN and LEAVE ask their batch alike (R169). -/
theorem batch_asks (e : Instr × Nat × Bool)
    (he : e ∈ ([(.cmdJoin id, 0x0E, true), (.cmdLeave id, 0x0F, false)] : List (Instr × Nat × Bool)))
    (hready : s.readyCmd id e.2.1 = some c) : Goes e.1 s (s.askBatch id c e.2.2) := by
  simp only [List.mem_cons, List.not_mem_nil, or_false] at he
  rcases he with rfl | rfl
  · simp [Goes, exec_cmdJoin, execCmdJoin, hready]
  · simp [Goes, exec_cmdLeave, execCmdLeave, hready]

theorem State.askBatch_refuses {join : Bool} (hnone : s.plan.batch (u8 c.entry 0x10) = none) :
    s.askBatch id c join = s.finish id stInvalid 0 := by
  simp only [State.askBatch, hnone]

theorem State.askBatch_queues {join : Bool} {b : List Byte} {l : Nat} (hbatch : s.plan.batch (u8 c.entry 0x10) = some b)
    (hruns : (s.batch (u8 c.entry 0x10)).running = some l) : s.askBatch id c join = (s.runCmd id 1).setBatch (u8 c.entry 0x10)
      fun x => { x with reqs := x.reqs ++ [⟨id, join, u32 c.entry 0x14⟩] } := by
  simp [State.askBatch, hbatch, hruns]
end

end Sys2Proof.Machine

namespace Sys2Proof.Claims

/-- Settles O29: the launch's record is the same whether it waits or starts, and JOIN and LEAVE ask their batch by one rule. -/
theorem launchCommandsRun : Obligations.LaunchCommandsRun := fun _ _ _ =>
  ⟨cmdLaunch_refuses, fun _ => cmdLaunch_waits,
    fun _ _ _ hready hitin haligned hparam harea hnumber hlevel hdepth hwaits hu hslot hfree => by
      subst hu
      exact cmdLaunch_starts hready hitin haligned hparam harea hnumber hlevel hdepth hwaits hslot hfree,
    fun _ _ _ _ => launchStart_starts,
    fun _ _ _ _ _ n hlaunch hslot hitin hwait hstatus ha => itinNodeDispatch_dispatches n hlaunch hslot hitin hwait hstatus ha,
    fun b _ _ => batchBoundary_steps b,
    fun e he hready => ⟨fun hnone => (batch_asks e he hready).trans (congrArg _ (State.askBatch_refuses hnone)),
      fun _ _ hbatch hruns => (batch_asks e he hready).trans (congrArg _ (State.askBatch_queues hbatch hruns))⟩⟩

end Sys2Proof.Claims
end

section
/-! PROOFS. Translation and migration (chapter 14, O30). -/

open Sys2Proof Sys2Proof.Machine Sys2Proof.Claims

namespace Sys2Proof.Machine

/-! ### Rows of the dispatch -/

theorem exec_asEnable (s : State) : exec .asEnable s = execAsEnable s := rfl
theorem exec_asDisable (s : State) : exec .asDisable s = execAsDisable s := rfl
theorem exec_asRootWrite (high : Bool) (v : BitVec 32) (s : State) : exec (.asRootWrite high v) s = execAsRootWrite high v s := rfl
theorem exec_prqRetry (req : Fin 1024) (s : State) : exec (.prqRetry req) s = execPrqRetry req s := rfl
theorem exec_prqFail (req : Fin 1024) (s : State) : exec (.prqFail req) s = execPrqFail req s := rfl
theorem exec_xlRingHeadWrite (v : BitVec 32) (s : State) : exec (.xlRingHeadWrite v) s = execXlRingHeadWrite v s := rfl
theorem exec_xlRingCtrlEnable (s : State) : exec .xlRingCtrlEnable s = execXlRingCtrlEnable s := rfl
theorem exec_xlInvGo (s : State) : exec .xlInvGo s = execXlInvGo s := rfl
theorem exec_xlCwCountWrite (v : BitVec 32) (s : State) : exec (.xlCwCountWrite v) s = execXlCwCountWrite v s := rfl
theorem exec_xlCntClear (s : State) : exec .xlCntClear s = execXlCntClear s := rfl
theorem exec_invalidationDone (i : Nat) (s : State) : exec (.invalidationDone i) s = execInvalidationDone i s := rfl
theorem exec_translateUnit (k : Nat) (s : State) : exec (.translateUnit k) s = execTranslateUnit k s := rfl
theorem exec_walkEntryReturn (k : Nat) (bytes : List Byte) (ok : Bool) (s : State) :
    exec (.walkEntryReturn k bytes ok) s = execWalkEntryReturn k bytes ok s := rfl
theorem exec_dmaReadCompletion (k off : Nat) (bytes : List Byte) (ok : Bool) (s : State) :
    exec (.dmaReadCompletion k off bytes ok) s = execDmaReadCompletion k off bytes ok s := rfl

/-- With no fault held back there is nothing to post. -/
theorem State.postHeld_of_none {t : State} (hnone : t.xl.held = []) : t.postHeld = t := by
  simp only [State.postHeld, hnone, List.foldl_nil, ite_self]

section
variable {s : State}

section
variable (hopen : s.barShut = false)
include hopen

/-! ### Address spaces (R334, R335) -/

theorem asEnable_enables {w : List Byte} (hwalker : s.plan.walker = some w) (hspace : s.io.asSel < u16 w 0x28) : Goes .asEnable s
    { s with xl := { s.xl with enabled := SMap.set (fun _ => false) s.xl.enabled s.io.asSel true } } :=
  goes_open hopen (exec_asEnable s) (by simp [hwalker, hspace])

theorem asDisable_invalidates (hon : s.xl.on s.io.asSel = true) : ∃ t, Goes .asDisable s t ∧
    t.xl.enabled = SMap.set (fun _ => false) s.xl.enabled s.io.asSel false ∧
    t.xl.invs = s.xl.invs ++ [⟨some s.io.asSel, 0, 0, none, true, false⟩] :=
  ⟨_, goes_open hopen (exec_asDisable s) (if_pos hon), rfl, rfl⟩

theorem asRootWrite_stores (high : Bool) (v : BitVec 32) (hoff : s.xl.on s.io.asSel = false) : Goes (.asRootWrite high v) s
    { s with xl := { s.xl with
      roots := SMap.set (fun _ => 0) s.xl.roots s.io.asSel (rootWith (s.xl.root s.io.asSel) high v.toNat) } } :=
  goes_open hopen (exec_asRootWrite high v s) (by simp [hoff])

theorem asRootWrite_ignored (high : Bool) (v : BitVec 32) (hon : s.xl.on s.io.asSel = true) : Goes (.asRootWrite high v) s s :=
  goes_open hopen (exec_asRootWrite high v s) (if_pos hon)

/-! ### Answers to page requests and the fault ring (R346, R347) -/

theorem prqRetry_closed (req : Fin 1024) (hnone : s.xl.reqs.at req = none) :
    Goes (.prqRetry req) s { s with io := s.io.inc .XL_BAD_RESP } :=
  goes_open hopen (exec_prqRetry req s) (by simp only [hnone])

theorem prqFail_closed (req : Fin 1024) (hnone : s.xl.reqs.at req = none) :
    Goes (.prqFail req) s { s with io := s.io.inc .XL_BAD_RESP } :=
  goes_open hopen (exec_prqFail req s) (by simp only [hnone])

theorem prqRetry_retries (req : Fin 1024) {r : PageReq} (hreq : s.xl.reqs.at req = some r) : Goes (.prqRetry req) s
    (({ s with xl := { s.xl with reqs := s.xl.reqs.del req } } : State).retryUnits (r.waiting ++ s.xl.parked)) :=
  goes_open hopen (exec_prqRetry req s) (by simp only [hreq])

theorem prqFail_fails (req : Fin 1024) {r : PageReq} (hreq : s.xl.reqs.at req = some r) : Goes (.prqFail req) s
    (r.waiting.foldl State.failUnit (({ s with xl := { s.xl with reqs := s.xl.reqs.del req } } : State).retryUnits s.xl.parked)) :=
  goes_open hopen (exec_prqFail req s) (by simp only [hreq])

theorem xlRingHeadWrite_moves (v : BitVec 32) (hnone : s.xl.held = []) :
    Goes (.xlRingHeadWrite v) s { s with io := s.io.putN .XL_RING_HEAD 0 (v.toNat % 4096) } :=
  goes_open hopen (exec_xlRingHeadWrite v s) (congrArg _ (State.postHeld_of_none hnone))

theorem xlRingCtrlEnable_enables (hnone : s.xl.held = []) :
    Goes .xlRingCtrlEnable s { s with io := s.io.putN .XL_RING_CTRL 0 1 } :=
  goes_open hopen (exec_xlRingCtrlEnable s) (congrArg _ (State.postHeld_of_none hnone))

/-! ### Invalidation by registers (R348) -/

theorem xlInvGo_invalidates (hidle : s.xl.invs.any (·.reg) = false) (hall : bit (s.io.val .XL_INV_AS) 8 = true) :
    ∃ t, Goes .xlInvGo s t ∧ t.xl.invs = s.xl.invs ++ [⟨none, s.io.val .XL_INV_VA_LO / 4096 * 4096 + s.io.val .XL_INV_VA_HI * 2 ^ 32,
      s.io.val .XL_INV_PAGES, none, false, true⟩] := by
  simp only [Goes, exec_xlInvGo, execXlInvGo, hopen, hidle, hall, Bool.false_eq_true, if_false, if_true]
  exact ⟨_, rfl, rfl⟩

theorem xlInvGo_busy (hbusy : s.xl.invs.any (·.reg) = true) : Goes .xlInvGo s s :=
  goes_open hopen (exec_xlInvGo s) (if_pos hbusy)

/-! ### Access counters (R351) -/

theorem xlCwCountWrite_counts (v : BitVec 32) (hnone : s.xl.windows.list = []) (hmost : v.toNat % 2 ^ 17 ≤ 65536) :
    ∃ t, Goes (.xlCwCountWrite v) s t ∧ t.xl.cwErr = s.xl.cwErr ∧
      (t.xl.windows.at (s.io.val .XL_CW_SEL % 16)).map (·.count) = some (v.toNat % 2 ^ 17) := by
  refine ⟨_, goes_open hopen (exec_xlCwCountWrite v s) (if_neg ?_), rfl, ?_⟩
  · simpa [hnone] using hmost
  · simp [Tab.at_put]

theorem xlCwCountWrite_refuses (v : BitVec 32) (hover : 65536 < v.toNat % 2 ^ 17) :
    Goes (.xlCwCountWrite v) s { s with xl := { s.xl with cwErr := true } } :=
  goes_open hopen (exec_xlCwCountWrite v s) (if_pos (Nat.lt_add_left _ hover))

theorem xlCntClear_clears : Goes .xlCntClear s { s with xl := { s.xl with
    counters := SMap.set (fun _ => 0) s.xl.counters (s.io.val .XL_CNT_SEL % 65536) 0 } } :=
  goes_open hopen (exec_xlCntClear s) rfl
end

theorem invalidationDone_ends {i : Nat} {v : Inval} (hinv : s.xl.invs[i]? = some v) (hdone : s.xl.invDone v = true)
    (hregister : v.cmd = none) : Goes (.invalidationDone i) s
      { s with xl := { s.xl with invs := s.xl.invs.eraseIdx i }, io := s.io.event .XL_EVENT 0 3 } := by
  simp only [Goes, exec_invalidationDone, execInvalidationDone, hinv, if_pos hdone, hregister]

/-! ### Units and walks (R337 to R344) -/

section
variable {k : Nat} {u : XUnit} (hunit : s.xl.units.at k = some u)
include hunit

theorem translateUnit_begins (hready : s.unitReady k u = true) (hclass : s.dmaClass u = none) :
    Goes (.translateUnit k) s (s.goUnit k) := by
  simp only [Goes, exec_translateUnit, execTranslateUnit, hunit, if_pos hready, hclass]

theorem translateUnit_beginsInTurn (hready : s.unitReady k u = true) {c : Nat × Nat} (hclass : s.dmaClass u = some c)
    (hfirst : s.dmaFirst k c = true) : Goes (.translateUnit k) s ((s.dmaBegin k u c).goUnit k) := by
  simp only [Goes, exec_translateUnit, execTranslateUnit, hunit, if_pos hready, hclass, if_pos hfirst]

section
variable {w : Walk} {bytes : List Byte} (hwalk : s.xl.walks.at k = some w) (hst : u.st = .walking)
include hwalk hst

theorem walkEntryReturn_hostLost (hlink : s.linkUp = false) :
    Goes (.walkEntryReturn k bytes false) s (s.unitOver k u stHostLost) := by
  simp [Goes, exec_walkEntryReturn, execWalkEntryReturn, hunit, hwalk, hst, hlink]

theorem walkEntryReturn_walksOn {p : List Byte} {ea : Nat} (hwalker : s.plan.walker = some p) (hspan : bytes.length = 128)
    (hea : ea = w.table + w.va / 2 ^ wpShift p w.level % 2 ^ wpWidth p w.level * wpEntry p) :
    Goes (.walkEntryReturn k bytes true) s (({ s with xl := s.xl.putSpan ea bytes } : State).goUnit k) := by
  have hwhole : (bytes ++ zeros 128).take 128 = bytes := List.take_left' hspan
  subst hea
  simp [Goes, exec_walkEntryReturn, execWalkEntryReturn, hunit, hwalk, hst, hwalker, hwhole]
end

/-- Bytes that a stream's read brings, with more of its unit outstanding (R322, R324). -/
theorem dmaReadCompletion_lands {off ctx iter unit : Nat} {bytes : List Byte} (howner : u.owner = .stream ctx iter unit)
    (hst : u.st = .accessing) (hread : u.write = false) (hfree : s.unitHeld u = false) (hsome : bytes ≠ [])
    (hlen : off + bytes.length ≤ u.len) (hfresh : runMeets off bytes.length u.landed = false)
    (hkept : s.ram.goneIn (u.dev + off) bytes.length = false) (hmore : runBytes (addRun off bytes.length u.landed) ≠ u.len) :
    Goes (.dmaReadCompletion k off bytes true) s (((s.devWrite (u.dev + off) bytes).dmaBytes
      ((s.devWrite (u.dev + off) bytes).sc.classOf ctx).2 bytes.length).setUnit k
        { u with landed := addRun off bytes.length u.landed }) := by
  simp [Goes, exec_dmaReadCompletion, execDmaReadCompletion, landBytes, hunit, howner, hst, hread, hfree, hsome, hlen, hfresh, hkept, hmore]
end
end

end Sys2Proof.Machine

namespace Sys2Proof.Claims

/-- Settles O30: a lemma per register, event and answer; the registers need the window open. -/
theorem translationRuns : Obligations.TranslationRuns := fun _ =>
  ⟨fun hopen => ⟨fun _ => asEnable_enables hopen, asDisable_invalidates hopen, asRootWrite_stores hopen, asRootWrite_ignored hopen,
      fun req hnone => ⟨prqRetry_closed hopen req hnone, prqFail_closed hopen req hnone⟩,
      fun req _ hreq => ⟨prqRetry_retries hopen req hreq, prqFail_fails hopen req hreq⟩,
      xlRingHeadWrite_moves hopen, xlRingCtrlEnable_enables hopen, xlInvGo_invalidates hopen, xlInvGo_busy hopen,
      xlCwCountWrite_counts hopen, xlCwCountWrite_refuses hopen, xlCntClear_clears hopen⟩,
    fun _ _ => invalidationDone_ends,
    fun _ _ hunit hready => ⟨translateUnit_begins hunit hready, fun _ => translateUnit_beginsInTurn hunit hready⟩,
    fun _ _ _ _ hunit hwalk hst => walkEntryReturn_hostLost hunit hwalk hst,
    fun _ _ _ _ _ _ hunit hwalk hst => walkEntryReturn_walksOn hunit hwalk hst,
    fun _ _ _ _ _ _ _ hunit howner hst hread hfree hsome => dmaReadCompletion_lands hunit howner hst hread hfree hsome⟩

end Sys2Proof.Claims
end

section
/-! PROOFS. Streams and pre-emption (chapter 16): streams and their units (O31), and saves of a pair (O32). -/

open Sys2Proof Sys2Proof.Machine Sys2Proof.Claims

namespace Sys2Proof.Machine

/-! ### Rows of the dispatch: streams -/

theorem exec_cmdStream (id : Nat) (s : State) : exec (.cmdStream id) s = execCmdStream id s := rfl
theorem exec_unitTile (ctx : Fin 262144) (s : State) : exec (.unitTile ctx) s = execUnitTile ctx s := rfl
theorem exec_unitEngine (ctx : Fin 262144) (s : State) : exec (.unitEngine ctx) s = execUnitEngine ctx s := rfl
theorem exec_unitFetch (ctx : Fin 262144) (s : State) : exec (.unitFetch ctx) s = execUnitFetch ctx s := rfl
theorem exec_unitHostIn (ctx : Fin 262144) (s : State) : exec (.unitHostIn ctx) s = execUnitHostIn ctx s := rfl
theorem exec_unitHostOut (ctx : Fin 262144) (s : State) : exec (.unitHostOut ctx) s = execUnitHostOut ctx s := rfl
theorem exec_unitCopy (ctx : Fin 262144) (s : State) : exec (.unitCopy ctx) s = execUnitCopy ctx s := rfl
theorem exec_unitLookup (ctx : Fin 262144) (s : State) : exec (.unitLookup ctx) s = execUnitLookup ctx s := rfl
theorem exec_unitGradient (ctx : Fin 262144) (s : State) : exec (.unitGradient ctx) s = execUnitGradient ctx s := rfl
theorem exec_unitNop (ctx : Fin 262144) (s : State) : exec (.unitNop ctx) s = execUnitNop ctx s := rfl
theorem exec_unitRetire (ctx : Fin 262144) (iter unit : Nat) (s : State) :
    exec (.unitRetire ctx iter unit) s = execUnitRetire ctx iter unit s := rfl

section
variable {s : State} {ctx : Fin 262144} {x : Stream} {e : List Byte}

/-! ### STREAM (R377, R378) -/

theorem cmdStream_takes {id : Nat} {c : Cmd} (hready : s.readyCmd id 0x1E = some c) :
    Goes (.cmdStream id) s (s.streamTake c id (u64 c.entry 0x10) (u32 c.entry 0x18)) := by
  simp only [Goes, exec_cmdStream, execCmdStream, hready]

theorem cmdStream_refuses {id : Nat} {c : Cmd} (hready : s.readyCmd id 0x1E = some c) (hcontext : 2 ^ 18 ≤ u32 c.entry 0x18) :
    Goes (.cmdStream id) s (s.finish id stInvalid 0) :=
  (cmdStream_takes hready).trans (congrArg _ (if_pos (Or.inl hcontext)))

/-! ### Dispatch, whatever the kind (R380, R386) -/

/-- The command of stream `x` has touched array `a` (R374). -/
def State.markArr (s : State) (x : Stream) (a : Nat) : State := s.setCmd x.cmd fun c => { c with arrMask := c.arrMask ||| 2 ^ a }

/-- Every unit command goes through the one dispatch with its kind. -/
theorem unitCommand_dispatches (i : Instr × Nat) (hi : i ∈ ([(.unitTile ctx, 1), (.unitEngine ctx, 2), (.unitFetch ctx, 3),
    (.unitHostIn ctx, 4), (.unitHostOut ctx, 5), (.unitCopy ctx, 6), (.unitLookup ctx, 7), (.unitGradient ctx, 8),
    (.unitNop ctx, 9)] : List (Instr × Nat))) : ∃ f, exec i.1 s = s.dispatchUnit ctx i.2 f := by
  simp only [List.mem_cons, List.not_mem_nil, or_false] at hi
  rcases hi with rfl | rfl | rfl | rfl | rfl | rfl | rfl | rfl | rfl
  · exact ⟨_, exec_unitTile ctx s⟩
  · exact ⟨_, exec_unitEngine ctx s⟩
  · exact ⟨_, exec_unitFetch ctx s⟩
  · exact ⟨_, exec_unitHostIn ctx s⟩
  · exact ⟨_, exec_unitHostOut ctx s⟩
  · exact ⟨_, exec_unitCopy ctx s⟩
  · exact ⟨_, exec_unitLookup ctx s⟩
  · exact ⟨_, exec_unitGradient ctx s⟩
  · exact ⟨_, exec_unitNop ctx s⟩

section
variable {kind : Nat} {f : State → Stream → List Byte → Nat → Option State}

theorem dispatchUnit_stops {st : Nat} (hnext : s.nextUnit ctx kind = .stop st) :
    s.dispatchUnit ctx kind f = .next (s.stopStream ctx st) := by
  simp only [State.dispatchUnit, hnext]

section
variable (hnext : s.nextUnit ctx kind = .go x e)
include hnext

theorem dispatchUnit_waits (hbarrier : x.barrierOk e (s.unitTarget x e) = false) : s.dispatchUnit ctx kind f = .next s := by
  simp only [State.dispatchUnit, hnext, if_pos (Or.inl hbarrier)]
  rfl

section
variable (hbarrier : x.barrierOk e (s.unitTarget x e) = true)
include hbarrier

theorem dispatchUnit_standsBy (harray : s.unitTarget x e < 64) (hdrain : s.arrDraining (s.unitTarget x e) = false)
    (hquarantined : (s.arr (s.unitTarget x e)).quarantined = true) :
    s.dispatchUnit ctx kind f = .next (s.standby ctx (s.unitTarget x e)) := by
  simp [State.dispatchUnit, hnext, hbarrier, harray, hdrain, hquarantined]

/-- A unit for an array is dispatched as its kind's rule says, and its command has touched the array (R374). -/
theorem dispatchUnit_toArray {t : State} (harray : s.unitTarget x e < 64) (hdrain : s.arrDraining (s.unitTarget x e) = false)
    (hkept : (s.arr (s.unitTarget x e)).quarantined = false)
    (hsent : f (s.passFull ctx x e) x e (s.unitTarget x e) = some t) :
    s.dispatchUnit ctx kind f = .next (t.setCmd x.cmd fun c => { c with arrMask := c.arrMask ||| 2 ^ s.unitTarget x e }) := by
  simp [State.dispatchUnit, hnext, hbarrier, harray, hdrain, hkept, hsent]

/-- A unit without an array is dispatched as its kind's rule says. -/
theorem dispatchUnit_noArray {t : State} (hnone : 64 ≤ s.unitTarget x e)
    (hsent : f (s.passFull ctx x e) x e (s.unitTarget x e) = some t) :
    ∃ u, s.dispatchUnit ctx kind f = .next u ∧ u.sc = t.sc := by
  simp only [State.dispatchUnit, hnext, hbarrier, Nat.not_lt.mpr hnone, Bool.true_eq_false, false_and, or_self, if_false, hsent]
  exact ⟨_, rfl, rfl⟩
end
end
end

/-! ### What each kind does once its barrier is met (R380 to R387) -/

section
variable {a src dst n : Nat}

/-- TILE and ENGINE: the descriptor that the pair's context reads is delivered (R383, R385). -/
theorem sendEngine_delivers {kind m : Nat} {d : List Byte}
    {deliver : State → Stream → List Byte → Nat → List Byte → Nat → State} (hsrc : src = unSrc x.desc e x.iter)
    (hpair : s.mayUse ctx x a = true) (hplace : s.plan.dpaOk src 64 = true) (hfree : s.dpaHeld src 64 = false)
    (hok : s.ram.consumerOk src 64 = true) (hd : d = s.ram.read src 64) (hplain : unFlag e 4 = false) (hm : patchedM s e d = .inl m) :
    sendEngine ctx kind deliver s x e a = some ((deliver s x e a d m).sent ctx kind a none) := by
  subst hsrc hd
  simp [sendEngine, hpair, hplace, hfree, hok, hplain, hm]

/-- A host unit whose device side exists becomes a translation unit (R341). -/
theorem hostUnit_asks {q : Nat} {d : List Byte} {out : Bool} {va dev : Nat} {store : Bool} (hqueue : x.queue = some q)
    (hq : s.plan.queue q = some d) (hstore : store = if out then unSrcStore e else unDstStore e)
    (hdev : dev = if out then unSrc x.desc e x.iter else unDst x.desc e x.iter)
    (hva : va = if out then unDst x.desc e x.iter else unSrc x.desc e x.iter) (hside : s.sideOk store a dev (unLen e) = true)
    (hsegment : oneSegment va (unLen e) = true) (hfree : s.sideHeld store dev (unLen e) = false) :
    s.hostUnit ctx x e a out = some ((s.sent ctx (if out then 5 else 4) a none).newUnit
      ⟨.stream ctx x.iter x.unit, q, u8 d 3, va, unLen e, out, sideAddr store a dev, 0, .waiting, [], [], false⟩) := by
  subst hstore hdev hva
  simp only [State.hostUnit, hqueue, hside, hsegment, hfree, hq, Bool.true_eq_false, Bool.false_eq_true, or_self, if_false]
end

/-! ### The unit commands of an array (R380) -/

section
variable {s1 : State} {a : Nat} (ha : a = s.unitTarget x e) (hs1 : s1 = s.passFull ctx x e) (hbarrier : x.barrierOk e a = true)
include ha hs1 hbarrier

section
variable (harray : a < 64) (hdrain : s.arrDraining a = false) (hkept : (s.arr a).quarantined = false)
include harray hdrain hkept

/-- A unit command whose kind's rule dispatches the unit. -/
theorem goes_toArray {i : Instr} {kind : Nat} {t : State} {f : State → Stream → List Byte → Nat → Option State}
    (hrow : exec i s = s.dispatchUnit ctx kind f) (hnext : s.nextUnit ctx kind = .go x e) (hsent : f s1 x e a = some t) :
    Goes i s (t.markArr x a) := by
  subst ha hs1
  exact hrow.trans (dispatchUnit_toArray hnext hbarrier harray hdrain hkept hsent)

theorem unitNop_passes (hnext : s.nextUnit ctx 9 = .go x e) : Goes (.unitNop ctx) s ((s1.passUnit ctx).markArr x a) :=
  goes_toArray ha hs1 hbarrier harray hdrain hkept (exec_unitNop ctx s) hnext rfl

section
variable {src m : Nat} {d : List Byte} (hsrc : src = unSrc x.desc e x.iter) (hpair : s1.mayUse ctx x a = true)
  (hplace : s1.plan.dpaOk src 64 = true) (hfree : s1.dpaHeld src 64 = false) (hok : s1.ram.consumerOk src 64 = true)
  (hd : d = s1.ram.read src 64) (hplain : unFlag e 4 = false) (hm : patchedM s1 e d = .inl m)
include hsrc hpair hplace hfree hok hd hplain hm

theorem unitTile_delivers (hnext : s.nextUnit ctx 1 = .go x e) : Goes (.unitTile ctx) s
    (((s1.setArr a fun r => { r with inbox := r.inbox ++ [⟨tileSent x e d m, ctx, x.iter, x.unit, 0⟩] }).sent ctx 1 a none
      ).markArr x a) :=
  goes_toArray ha hs1 hbarrier harray hdrain hkept (exec_unitTile ctx s) hnext
    (sendEngine_delivers hsrc hpair hplace hfree hok hd hplain hm)

theorem unitEngine_delivers (hnext : s.nextUnit ctx 2 = .go x e) (hkind : u8 d 0 ≠ 1) : Goes (.unitEngine ctx) s
    (((s1.setArr a fun r => { r with edescs := r.edescs ++ [⟨d, ctx, x.iter, x.unit, r.seq + r.inbox.length⟩] }).sent ctx 2 a none
      ).markArr x a) :=
  goes_toArray ha hs1 hbarrier harray hdrain hkept (exec_unitEngine ctx s) hnext
    ((sendEngine_delivers hsrc hpair hplace hfree hok hd hplain hm).trans (by simp only [if_neg hkind]))
end

section
variable {src dst n : Nat} (hsrc : src = unSrc x.desc e x.iter) (hdst : dst = unDst x.desc e x.iter) (hn : n = unLen e)
include hsrc

theorem unitFetch_refuses (hnext : s.nextUnit ctx 3 = .go x e) (hunaligned : s1.denseSrc x src % 256 ≠ 0) :
    Goes (.unitFetch ctx) s ((s1.sent ctx 3 a (some stInvalid)).markArr x a) := by
  subst hsrc
  exact goes_toArray ha hs1 hbarrier harray hdrain hkept (exec_unitFetch ctx s) hnext (by simp [hunaligned])

include hdst hn

theorem unitFetch_begins {f : Nat} (hf : f = s1.denseSrc x src) (hnext : s.nextUnit ctx 3 = .go x e)
    (hside : s1.sideOk true a dst n = true) (hplace : s1.plan.dpaOk f n = true) (hsrcAligned : f % 256 = 0)
    (hdstAligned : dst % 256 = 0) (hfree : s1.dpaHeld f n = false) : Goes (.unitFetch ctx) s
      ((((s1.sent ctx 3 a none).setStream ctx fun y => { y with fetched := (f, n) :: y.fetched }).beginFetch
        ⟨ctx, x.iter, x.unit, a, f, dst, n, fetchLines f n, false⟩ (!x.fetched.contains (f, n))).markArr x a) := by
  subst hsrc hdst hn hf
  exact goes_toArray ha hs1 hbarrier harray hdrain hkept (exec_unitFetch ctx s) hnext
    (by simp [hside, hplace, hsrcAligned, hdstAligned, hfree])

theorem unitCopy_copies {t : State} {ok : Bool} (hnext : s.nextUnit ctx 6 = .go x e)
    (hfrom : s1.sideOk (unSrcStore e) a src n = true) (hto : s1.sideOk (unDstStore e) a dst n = true) (hsrcAligned : src % 256 = 0)
    (hdstAligned : dst % 256 = 0) (hfromFree : s1.sideHeld (unSrcStore e) src n = false)
    (htoFree : s1.sideHeld (unDstStore e) dst n = false)
    (hcopy : s1.carryBlocks (sideAddr (unSrcStore e) a src) (unDstStore e) a dst n = (t, ok)) :
    Goes (.unitCopy ctx) s ((t.sent ctx 6 a (some (if ok then stDone else stCheck))).markArr x a) := by
  subst hsrc hdst hn
  exact goes_toArray ha hs1 hbarrier harray hdrain hkept (exec_unitCopy ctx s) hnext
    (by simp [hfrom, hto, hsrcAligned, hdstAligned, hfromFree, htoFree, hcopy])

section
variable {q : Nat} {d : List Byte} (hqueue : x.queue = some q) (hq : s1.plan.queue q = some d)
include hqueue hq

theorem unitHostIn_asks (hnext : s.nextUnit ctx 4 = .go x e) (hside : s1.sideOk (unDstStore e) a dst n = true)
    (hsegment : oneSegment src n = true) (hfree : s1.sideHeld (unDstStore e) dst n = false) : Goes (.unitHostIn ctx) s
      (((s1.sent ctx 4 a none).newUnit ⟨.stream ctx x.iter x.unit, q, u8 d 3, src, n, false, sideAddr (unDstStore e) a dst, 0,
        .waiting, [], [], false⟩).markArr x a) := by
  subst hn
  exact goes_toArray ha hs1 hbarrier harray hdrain hkept (exec_unitHostIn ctx s) hnext
    (hostUnit_asks (out := false) hqueue hq rfl hdst hsrc hside hsegment hfree)

theorem unitHostOut_asks (hnext : s.nextUnit ctx 5 = .go x e) (hside : s1.sideOk (unSrcStore e) a src n = true)
    (hsegment : oneSegment dst n = true) (hfree : s1.sideHeld (unSrcStore e) src n = false) : Goes (.unitHostOut ctx) s
      (((s1.sent ctx 5 a none).newUnit ⟨.stream ctx x.iter x.unit, q, u8 d 3, dst, n, true, sideAddr (unSrcStore e) a src, 0,
        .waiting, [], [], false⟩).markArr x a) := by
  subst hn
  exact goes_toArray ha hs1 hbarrier harray hdrain hkept (exec_unitHostOut ctx s) hnext
    (hostUnit_asks (out := true) hqueue hq rfl hsrc hdst hside hsegment hfree)
end
end
end

/-! ### The unit commands without an array (R153, R243, R380) -/

section
variable (hnone : 64 ≤ a)
include hnone

/-- A unit command whose kind's rule dispatches the unit leaves the scheduler as that rule does. -/
theorem goes_noArray {i : Instr} {kind : Nat} {t : State} {f : State → Stream → List Byte → Nat → Option State}
    (hrow : exec i s = s.dispatchUnit ctx kind f) (hnext : s.nextUnit ctx kind = .go x e) (hsent : f s1 x e a = some t) :
    ∃ u, Goes i s u ∧ u.sc = t.sc := by
  subst ha hs1
  obtain ⟨u, hu, hsc⟩ := dispatchUnit_noArray hnext hbarrier hnone hsent
  exact ⟨u, hrow.trans hu, hsc⟩

theorem unitLookup_over {st : Nat} (hnext : s.nextUnit ctx 7 = .go x e)
    (hlist : s1.readList (.unit ctx x.iter x.unit) (unSrc x.desc e x.iter) x.cls = .over st) (hst : st ≠ stCheck) :
    ∃ t, Goes (.unitLookup ctx) s t ∧ t.sc = (s1.sent ctx 7 a (some st)).sc :=
  goes_noArray ha hs1 hbarrier hnone (exec_unitLookup ctx s) hnext (by simp [hlist, hst])

theorem unitLookup_begins {l : Lookup} {oor : Nat} (hnext : s.nextUnit ctx 7 = .go x e)
    (hlist : s1.readList (.unit ctx x.iter x.unit) (unSrc x.desc e x.iter) x.cls = .go l oor)
    (hfew : (s1.remoteUnits ctx).length < 16) :
    ∃ t, Goes (.unitLookup ctx) s t ∧ t.sc = ((s1.sent ctx 7 a none).beginList l oor).sc :=
  goes_noArray ha hs1 hbarrier hnone (exec_unitLookup ctx s) hnext (by simp [hlist, Nat.not_le.mpr hfew])

theorem unitGradient_begins {g : GradList} (hnext : s.nextUnit ctx 8 = .go x e)
    (hlist : s1.readGrad (.unit ctx x.iter x.unit) (unSrc x.desc e x.iter) = .go g) (hfew : (s1.remoteUnits ctx).length < 16) :
    ∃ t, Goes (.unitGradient ctx) s t ∧ t.sc = ((s1.sent ctx 8 a none).beginGrad g).sc :=
  goes_noArray ha hs1 hbarrier hnone (exec_unitGradient ctx s) hnext (by simp [hlist, Nat.not_le.mpr hfew])
end
end

/-! ### Retirement (R380, R381) -/

theorem unitRetire_retires {iter unit st : Nat} {r : UnitRun} (hstream : s.sc.streams.at ctx = some x)
    (hrun : x.runs.find? (fun r => r.iter == iter && r.unit == unit) = some r) (hstatus : r.status = some st)
    (hsample : s.sampled ctx iter unit = false) (hst : x.st ≠ .halted) : Goes (.unitRetire ctx iter unit) s
      ((s.setStream ctx fun x => x.retired r st).settleStream ctx) := by
  simp only [Goes, exec_unitRetire, execUnitRetire, hstream, hrun, hstatus, hsample, if_neg hst, Bool.false_eq_true, if_false]
end

end Sys2Proof.Machine

namespace Sys2Proof.Claims

/-- Settles O31: one dispatch for the nine kinds, and a lemma per kind for what it does to the array, the host unit or the scheduler. -/
theorem streamCommandsRun : Obligations.StreamCommandsRun := fun _ ctx x e a =>
  ⟨fun _ _ => cmdStream_takes, fun _ _ => cmdStream_refuses,
    fun i hi => by
      obtain ⟨f, hrow⟩ := unitCommand_dispatches i hi
      exact ⟨fun _ hnext => hrow.trans (dispatchUnit_stops hnext),
        fun hnext hbarrier => hrow.trans (dispatchUnit_waits hnext hbarrier),
        fun hnext hbarrier harray hdrain hquarantined =>
          hrow.trans (dispatchUnit_standsBy hnext hbarrier harray hdrain hquarantined)⟩,
    fun ha hbarrier harray hdrain hkept s1 mark hs1 hmark => by
      subst hmark
      refine ⟨unitNop_passes ha hs1 hbarrier harray hdrain hkept, ?_, ?_⟩
      · intro src d m hsrc hpair hplace hfree hok hd hplain hm
        exact ⟨unitTile_delivers ha hs1 hbarrier harray hdrain hkept hsrc hpair hplace hfree hok hd hplain hm,
          unitEngine_delivers ha hs1 hbarrier harray hdrain hkept hsrc hpair hplace hfree hok hd hplain hm⟩
      · intro src dst n hsrc hdst hn
        exact ⟨fun _ hf => unitFetch_begins ha hs1 hbarrier harray hdrain hkept hsrc hdst hn hf,
          unitFetch_refuses ha hs1 hbarrier harray hdrain hkept hsrc,
          fun _ _ => unitCopy_copies ha hs1 hbarrier harray hdrain hkept hsrc hdst hn,
          fun _ _ hqueue hq => ⟨unitHostIn_asks ha hs1 hbarrier harray hdrain hkept hsrc hdst hn hqueue hq,
            unitHostOut_asks ha hs1 hbarrier harray hdrain hkept hsrc hdst hn hqueue hq⟩⟩,
    fun ha hbarrier hnone _ hs1 => ⟨fun _ => unitLookup_over ha hs1 hbarrier hnone,
      fun _ _ => unitLookup_begins ha hs1 hbarrier hnone, fun _ => unitGradient_begins ha hs1 hbarrier hnone⟩,
    fun _ _ _ _ => unitRetire_retires⟩

end Sys2Proof.Claims

namespace Sys2Proof.Machine

/-! ### Rows of the dispatch: pre-emption -/

theorem exec_preemptRequest (a : Fin 64) (s : State) : exec (.preemptRequest a) s = execPreemptRequest a s := rfl
theorem exec_quantumExpiry (a : Fin 64) (s : State) : exec (.quantumExpiry a) s = execQuantumExpiry a s := rfl
theorem exec_preemptSaveDone (a : Fin 64) (s : State) : exec (.preemptSaveDone a) s = execPreemptSaveDone a s := rfl
theorem exec_preemptResume (a : Fin 64) (s : State) : exec (.preemptResume a) s = execPreemptResume a s := rfl

section
variable {s : State} {a : Fin 64} {p : Pair} (hpair : s.sc.pairs.at a = some p)
include hpair

/-! ### A save is asked for (R391, R392) -/

/-- The pair notes who wants it, into which slot, and since when. -/
theorem State.askSave_pair (w slot : Nat) :
    (s.askSave a w slot).sc.pairs.at a = some { p with wanted := some (w, slot), asked := s.mer.count } := by
  simp only [State.askSave, hpair]
  exact (Tab.at_put _ _ _ _).trans (if_pos rfl)

section
variable {w : Nat} (hheld : p.cls ≠ 0) (hfresh : p.wanted = none) (hsection : s.plan.has 0x23 = true)
include hheld hfresh hsection

theorem preemptRequest_asks (hwaiter : (s.sc.waiters a).find? (fun c => (s.sc.classOf c).1 == 0) = some w)
    (hslot : s.sc.reserved.at a = none) (htest : s.arrTesting a = false) : ∃ t, Goes (.preemptRequest a) s t ∧
      t.io = s.io.inc .SC_PREEMPT_C0 ∧ t.sc.pairs.at a = some { p with wanted := some (w, a.val), asked := s.mer.count } := by
  have hcond : p.cls ≠ 0 ∧ p.wanted = none ∧ s.plan.has 0x23 = true ∧ (s.sc.reserved.at a).isNone = true ∧
      s.arrTesting a = false :=
    ⟨hheld, hfresh, hsection, by simp [hslot], htest⟩
  simp only [Goes, exec_preemptRequest, execPreemptRequest, hpair, hwaiter, if_pos hcond]
  exact ⟨_, rfl, rfl, State.askSave_pair hpair w a⟩

section
variable (hwaiter : (s.sc.waiters a).find? (fun c => (s.sc.classOf c).1 != 0 &&
    !((s.sc.classOf c).1 == p.cls && (s.sc.classOf c).2 == p.group)) = some w) (hquantum : s.plan.quantum ≤ s.mer.count - p.since)
include hwaiter hquantum

theorem quantumExpiry_poolEmpty (hpool : s.freePool = none) :
    Goes (.quantumExpiry a) s { s with io := s.io.event .SC_EVENT 0 3 } := by
  simp only [Goes, exec_quantumExpiry, execQuantumExpiry, hpair, hwaiter,
    if_pos (And.intro hheld (And.intro hfresh (And.intro hsection hquantum))), hpool]

theorem quantumExpiry_asks {k : Nat} (hpool : s.freePool = some k) : ∃ t, Goes (.quantumExpiry a) s t ∧
    t.io = s.io.inc .SC_PREEMPT_QUANTUM ∧ t.sc.pairs.at a = some { p with wanted := some (w, k), asked := s.mer.count } := by
  simp only [Goes, exec_quantumExpiry, execQuantumExpiry, hpair, hwaiter,
    if_pos (And.intro hheld (And.intro hfresh (And.intro hsection hquantum))), hpool]
  exact ⟨_, rfl, rfl, State.askSave_pair hpair w k⟩
end
end

/-! ### A save ends and is read back (R392 to R394) -/

section
variable {w slot : Nat} {x : Stream} (hwanted : p.wanted = some (w, slot)) (hstream : s.sc.streams.at p.ctx = some x)
  (hsaves : s.tileMode a x = false)
include hwanted hstream hsaves

theorem preemptSaveDone_handsOver (hkept : slot < 64 ∨ x.st = .halted) :
    Goes (.preemptSaveDone a) s (s.saveDone a p x ((s.sc.streams.at w).getD x) slot) := by
  simp only [Goes, exec_preemptSaveDone, execPreemptSaveDone, hpair, hwanted, hstream, hsaves, Bool.false_and, Bool.false_eq_true,
    if_false, if_pos hkept]

theorem preemptSaveDone_waitsAgain (hpool : 64 ≤ slot) (hruns : x.st ≠ .halted) : Goes (.preemptSaveDone a) s
    (((s.saveDone a p x ((s.sc.streams.at w).getD x) slot).waitAgain a p.ctx).grantPair a) := by
  simp only [Goes, exec_preemptSaveDone, execPreemptSaveDone, hpair, hwanted, hstream, hsaves, Bool.false_and, Bool.false_eq_true,
    if_false, if_neg (not_or.mpr ⟨Nat.not_lt.mpr hpool, hruns⟩)]
end

theorem preemptResume_resumes {x : Stream} {slot : Nat} {v : Saved} {s1 s2 : State} (hstream : s.sc.streams.at p.ctx = some x)
    (hslot : x.saves.find? (fun v => v.1 == a.val) = some (a.val, slot)) (hsave : s.mx.saves.at slot = some v)
    (hidle : (s.arr a).busy = false) (hfree : s.dpaHeld (s.plan.saveSlot slot) saveBytes = false)
    (hok : s.ram.consumerOk (s.plan.saveSlot slot) saveBytes = true)
    (hs1 : s1 = (s.charge v.cmd v.group (s.mer.count - p.since)).freeSave p.ctx a slot)
    (hs2 : s2 = s1.setArr a fun r => { v.state with quarantined := r.quarantined, loads := r.loads }) :
    Goes (.preemptResume a) s ((({ s2 with
      sc := { s2.sc with pairs := s2.sc.pairs.put a { p with since := s.mer.count } } } : State).setStream p.ctx fun x =>
        { x with st := if x.st = .preempted ∧ x.saves = [] then .running else x.st }).readLanding p.ctx) := by
  subst hs2 hs1
  simp only [Goes, exec_preemptResume, execPreemptResume, hpair, hstream, hslot, hsave, hidle, hfree, hok, Bool.false_eq_true, or_self,
    if_false, if_true]
end

end Sys2Proof.Machine

namespace Sys2Proof.Claims

/-- Settles O32: the rules of R391 to R394, with what asking for a save leaves in the pair's record. -/
theorem preemptionRuns : Obligations.PreemptionRuns := fun _ _ _ hpair =>
  ⟨fun _ hwaiter hheld hfresh hsection => preemptRequest_asks hpair hheld hfresh hsection hwaiter,
    fun _ hwaiter hheld hfresh hsection hquantum => ⟨quantumExpiry_poolEmpty hpair hheld hfresh hsection hwaiter hquantum,
      fun _ => quantumExpiry_asks hpair hheld hfresh hsection hwaiter hquantum⟩,
    fun _ _ _ hwanted hstream hsaves => ⟨preemptSaveDone_handsOver hpair hwanted hstream hsaves,
      preemptSaveDone_waitsAgain hpair hwanted hstream hsaves⟩,
    fun _ _ _ hstream hslot hsave hidle hfree hok _ _ => preemptResume_resumes hpair hstream hslot hsave hidle hfree hok⟩

end Sys2Proof.Claims
end

section
/-! PROOFS. Duplicated computation, replica digests, rejoin, restart and the cut (chapter 17, O17). -/

open Sys2Proof Sys2Proof.Machine Sys2Proof.Claims

namespace Sys2Proof.Machine

/-! ### Rows of the dispatch -/

theorem exec_shadowCompare (k : Nat) (sig : BitVec 64) (s : State) : exec (.shadowCompare k sig) s = execShadowCompare k sig s := rfl
theorem exec_arbiterDone (k : Nat) (sig : BitVec 64) (unit : Nat) (s : State) :
    exec (.arbiterDone k sig unit) s = execArbiterDone k sig unit s := rfl
theorem exec_twinCompare (k : Nat) (agree first second : Bool) (s : State) :
    exec (.twinCompare k agree first second) s = execTwinCompare k agree first second s := rfl
theorem exec_digestComparison (g : Fin 4096) (s : State) : exec (.digestComparison g) s = execDigestComparison g s := rfl
theorem exec_digestDecide (g : Fin 4096) (s : State) : exec (.digestDecide g) s = execDigestDecide g s := rfl
theorem exec_rejoinCopyDone (g : Fin 4096) (s : State) : exec (.rejoinCopyDone g) s = execRejoinCopyDone g s := rfl
theorem exec_rlRestartWrite (v : BitVec 32) (s : State) : exec (.rlRestartWrite v) s = execRlRestartWrite v s := rfl
theorem exec_rlCkptGo (s : State) : exec .rlCkptGo s = execRlCkptGo s := rfl
theorem exec_rlLogClear (v : BitVec 32) (s : State) : exec (.rlLogClear v) s = execRlLogClear v s := rfl

section
variable {s : State}

/-! ### Samples (R408, R409, R414) -/

section
variable {k : Nat} {x : Sample} (hsample : s.rl.samples.at k = some x)
include hsample

section
variable {sig : BitVec 64} (htwin : x.twin = false) (hfirst : x.arbiter = none) (hready : s.comparable x = true)
include htwin hfirst hready

theorem shadowCompare_agrees (hagree : sig = x.signature) : Goes (.shadowCompare k sig) s (s.sampleStands k x) := by
  simp [Goes, exec_shadowCompare, execShadowCompare, hsample, htwin, hfirst, hready, hagree]

theorem shadowCompare_arbitrates {b : Nat} (hcall : x.tile = false) (hdiffer : sig ≠ x.signature)
    (hroom : (s.mismatch x).roomUp x.shadow [x.origin, x.shadow] = some b) :
    Goes (.shadowCompare k sig) s { s.mismatch x with rl := { (s.mismatch x).rl with
      samples := (s.mismatch x).rl.samples.put k { x with arbiter := some b, other := sig } } } := by
  simp [Goes, exec_shadowCompare, execShadowCompare, hsample, htwin, hfirst, hready, hdiffer, hcall, hroom]
end

section
variable {b : Nat} {sig : BitVec 64} (harbiter : x.arbiter = some b)
include harbiter

theorem arbiterDone_withOrigin (hagree : sig = x.signature) :
    Goes (.arbiterDone k sig b) s ((s.sampleStands k x).chargeIn x.tile x.shadow) := by
  simp [Goes, exec_arbiterDone, execArbiterDone, hsample, harbiter, hagree]

theorem arbiterDone_withShadow (hdiffer : sig ≠ x.signature) (hother : sig = x.other) (htile : x.tile = true) :
    Goes (.arbiterDone k sig b) s ((s.sampleFails k x).chargeIn x.tile x.origin) := by
  subst hother
  simp [Goes, exec_arbiterDone, execArbiterDone, hsample, harbiter, hdiffer, htile]

theorem arbiterDone_withNeither (hdiffer : sig ≠ x.signature) (hother : sig ≠ x.other) : Goes (.arbiterDone k sig b) s
    ((((s.sampleFails k x).chargeIn x.tile x.origin).chargeIn x.tile x.shadow).chargeIn x.tile b) := by
  simp [Goes, exec_arbiterDone, execArbiterDone, hsample, harbiter, hdiffer, hother]
end

theorem twinCompare_agrees (htwin : x.twin = true) (hcall : x.tile = false) (hended : x.ended.isSome = true) (first second : Bool) :
    Goes (.twinCompare k true first second) s ((((s.dropSample k).release x x.origin).release x x.shadow).callOver x) := by
  have hover : x.ended ≠ none := Option.isSome_iff_ne_none.mp hended
  simp [Goes, exec_twinCompare, execTwinCompare, hsample, htwin, hcall, hover]
end

/-! ### Digests (R418, R419) -/

section
variable (g : Fin 4096) {d : Digest}

section
variable (hdue : s.rl.comparing.find? (fun (d : Digest) => d.group == g.val && !d.issued) = some d)
include hdue

theorem digestComparison_late (hover : s.plan.digestArea + 2 ^ 20 < s.digestAt g + s.digestSpan g) : Goes (.digestComparison g) s { s with
    rl := { s.rl with comparing := s.rl.comparing.filter (fun (e : Digest) => e != d) }, io := s.io.inc .RL_DIGEST_LATE } := by
  simp only [Goes, exec_digestComparison, execDigestComparison, hdue, if_pos hover]

theorem digestComparison_issues (hfits : s.digestAt g + s.digestSpan g ≤ s.plan.digestArea + 2 ^ 20) :
    ∃ u : State, Goes (.digestComparison g) s (u.collIssue ⟨g, s.digestCall d.step, 3, 0, 8 * (s.groupLayers g).length,
      s.digestAt g + (s.groupOf g).idxOf s.plan.ref * (32 * (s.groupLayers g).length), s.digestAt g, 0, false, 0, 0, 0, 2, none, true,
      false, [], false, none⟩) ∧
      u.rl.comparing = s.rl.comparing.map (fun (e : Digest) => if e = d then { e with issued := true } else e) := by
  simp only [Goes, exec_digestComparison, execDigestComparison, hdue, if_neg (Nat.not_lt.mpr hfits)]
  exact ⟨_, rfl, rfl⟩
end

section
variable {t : State} (hissued : s.rl.comparing.find? (fun (d : Digest) => d.group == g.val && d.issued) = some d)
include hissued

theorem digestDecide_late {st : Nat} (hcall : s.takeColl g (s.digestCall d.step) = some (t, st)) (hfailed : st ≠ stDone) :
    Goes (.digestDecide g) s { t with
      rl := { t.rl with comparing := t.rl.comparing.filter (fun (e : Digest) => e != d) }, io := t.io.inc .RL_DIGEST_LATE } := by
  simp only [Goes, exec_digestDecide, execDigestDecide, hissued, hcall, if_pos hfailed]

theorem digestDecide_decides (hcall : s.takeColl g (s.digestCall d.step) = some (t, stDone)) : Goes (.digestDecide g) s
    ((((s.groupLayers g).map (·.1)).foldl (fun (u : State) id => u.decideLayer d (s.digestAt g) (s.groupLayers g).length id) { t with
      rl := { t.rl with comparing := t.rl.comparing.filter (fun (e : Digest) => e != d) }, io := t.io.inc .RL_DIGESTS }).pumpRejoin g) := by
  simp only [Goes, exec_digestDecide, execDigestDecide, hissued, hcall, ne_eq, not_true_eq_false, if_false, List.length_map]
end

/-! ### Rejoin, restart, the cut and the log (R404, R420, R422, R423) -/

theorem rejoinCopyDone_ends {r : Rejoin} {t : State} (hcopy : s.rl.rejoin.find? (fun (r : Rejoin) => r.group == g.val) = some r)
    (hissued : r.issued = true) (htimely : r.late = false) (hother : r.own = false)
    (hcall : s.takeColl g (s.rejoinCall r.step) = some (t, stDone)) : Goes (.rejoinCopyDone g) s
      (({ t with rl := { t.rl with rejoin := t.rl.rejoin.erase r } } : State).pumpRejoin g) := by
  simp [Goes, exec_rejoinCopyDone, execRejoinCopyDone, hcopy, hissued, htimely, hother, hcall]
end

section
variable (hopen : s.barShut = false)
include hopen

theorem rlRestartWrite_restarts (v : BitVec 32) (hentry : (s.entryNow (layerKey (v.toNat % 4096))).isSome = true) :
    Goes (.rlRestartWrite v) s (s.restartLayer (v.toNat % 4096)) :=
  goes_open hopen (exec_rlRestartWrite v s) (if_pos hentry)

theorem rlCkptGo_asks (hnone : s.rl.ckpt = none) : Goes .rlCkptGo s { s with
    rl := { s.rl with ckpt := some ⟨s.io.val .RL_CKPT_LIST_LO / 16 * 16 + s.io.val .RL_CKPT_LIST_HI * 2 ^ 32,
      s.io.val .RL_CKPT_COUNT % 2048, s.io.val .RL_CKPT_DEST_LO / 16 * 16 + s.io.val .RL_CKPT_DEST_HI * 2 ^ 32⟩ }
    io := s.io.putN .RL_CKPT_STATUS 0 (2 ^ 31) } :=
  goes_open hopen (exec_rlCkptGo s) (if_neg (by simp [hnone]))

theorem rlLogClear_clears (v : BitVec 32) (hbit : v.getLsbD 0 = true) :
    Goes (.rlLogClear v) s { s with rl := { s.rl with log := [] } } :=
  goes_open hopen (exec_rlLogClear v s) (if_pos hbit)
end
end

end Sys2Proof.Machine

namespace Sys2Proof.Claims

/-- Settles O17: a lemma per outcome of a comparison, a digest and a rejoin copy, and per register of the block. -/
theorem reliabilityCommandsRun : Obligations.ReliabilityCommandsRun := fun _ =>
  ⟨fun _ _ _ hsample htwin hfirst hready => ⟨shadowCompare_agrees hsample htwin hfirst hready,
      fun _ => shadowCompare_arbitrates hsample htwin hfirst hready⟩,
    fun _ _ _ _ hsample harbiter => ⟨arbiterDone_withOrigin hsample harbiter, arbiterDone_withShadow hsample harbiter,
      arbiterDone_withNeither hsample harbiter⟩,
    fun _ _ => twinCompare_agrees,
    fun g _ => digestComparison_late g, fun g _ => digestComparison_issues g,
    fun g _ _ _ hissued => digestDecide_late g hissued,
    fun g _ _ => digestDecide_decides g, fun g _ _ => rejoinCopyDone_ends g,
    fun v hopen => rlRestartWrite_restarts hopen v, rlCkptGo_asks, fun v hopen => rlLogClear_clears hopen v⟩

end Sys2Proof.Claims
end
